-- ==== Sys2Proof/Word.lean ====
section
/-! DEFINITION. The word types of the VDX: registers are 32 or 64 bits wide (R15, R16), memories are byte-addressed. -/

namespace Sys2Proof

/-- One byte of a memory of the module. -/
abbrev Byte := BitVec 8

/-- A 32-bit register or one half of a 64-bit register (R15, R16). -/
abbrev Word32 := BitVec 32

/-- A 64-bit register, token or time stamp. -/
abbrev Word64 := BitVec 64

end Sys2Proof
end

