-- ==== Sys2Proof/Syntax.lean ====
section
/-! DEFINITION. The commands that the module takes, and the data they carry. -/

namespace Sys2Proof

/-- Who issues a register or memory access (R123, R319, R323): a host port, or a service core in secure or non-secure state. -/
inductive Init where
  | host (n : Fin 4)
  | core (c : Fin 8) (secure : Bool)
deriving DecidableEq, Repr

/-- Where a network access goes (R155, R308, R322): a design address of a partition, a byte of service SRAM or of the vault. -/
inductive Target where
  | design (p : Fin 16) (addr : BitVec 40)
  | sram (off : BitVec 24)
  | vault (off : BitVec 18)
deriving DecidableEq, Repr

/-- The framing of one message of a request, as the firmware takes it (R356): FLAGS, FRAG, LEN and STATUS, and whether some unused payload byte is not 0. -/
structure UtHead where
  flags : Byte
  frag : Byte
  len : BitVec 16
  status : BitVec 16
  spare : Bool
deriving DecidableEq, Repr

/-- What the messages of one request share, its ID, and the framing of each (R356). -/
structure UtFraming where
  id : BitVec 16
  heads : List UtHead
deriving DecidableEq, Repr

/-- Who has made a firmware image (R398): its owner's firmware, Klogrim's provisioning firmware, or Klogrim's RMA firmware. -/
inductive FwMaker where
  | owner | provisioning | rma
deriving DecidableEq, Repr

/-- A firmware image in a slot of the flash (R362): its version, its maker, and whether its signature verifies. -/
structure FwImage where
  version : Word32
  maker : FwMaker
  verifies : Bool
deriving DecidableEq, Repr

/-- What the boot flash holds (R362): the images of slots A and B, the manifest's entries (secure and service version) and whether it verifies, and the pairs that the configuration
record names, as the slot of the secure and of the service image (`true`: B). -/
structure FwFlash where
  secA : Option FwImage
  secB : Option FwImage
  svcA : Option FwImage
  svcB : Option FwImage
  manifest : List (Word32 × Word32)
  manifestOk : Bool
  preferred : Option (Bool × Bool)
  lastGood : Option (Bool × Bool)
deriving DecidableEq, Repr

/-- A partition that the configuration record names (R389, step 12): its number, and what the firmware writes to PTN_CFG, to DM_MAP from entry 0 on, to LDR_PARAM and to LDR_SRC. -/
structure BootPart where
  p : Fin 16
  cfg : Word32
  map : List Word32
  param : Word32
  src : Word64
deriving DecidableEq, Repr

/-- What start-up meets on a module (R389). -/
structure StartUp where
  /-- Steps 1 and 2: the fuses are read and the I/O-die PLLs lock. -/
  fusesOk : Bool
  pllsOk : Bool
  /-- Step 3: the failing service SRAM banks, by bit, and the failing words (bank, word). -/
  sramBad : BitVec 8
  sramFails : List (Nat × Nat)
  /-- Step 4: whether the configuration record is valid, its PCIE_MODE (two ×16 ports), and the size of the flash. -/
  recordOk : Bool
  x16 : Bool
  flashSize : Word64
  /-- Step 5: the vault slots that the key blob fills; none where it does not unwrap. -/
  vault : Word64
  /-- Step 6: the firmware in flash. -/
  fw : FwFlash
  /-- Step 8: the stacks that fail. -/
  stackBad : BitVec 8
  /-- Step 9: the failing words of the bands' stores: target of R162, unit and word. -/
  bandFails : List (Nat × Nat × Nat)
  /-- Step 11: the sectors that are the module's, and the flash address of their stream, if the record names one. -/
  sectors : BitVec 12
  stream : Option Word32
  /-- Step 12: the partitions that the record names. -/
  parts : List BootPart
deriving DecidableEq, Repr

/-- A debug certificate (R396): its signer, its fields and its signature. -/
structure Cert where
  klogrim : Bool
  serial : Nat
  lifeCycle : BitVec 4
  nonce : Word32
  perm : BitVec 4
  sig : List Byte
deriving DecidableEq, Repr

/-- The result registers (R95). -/
inductive ResultReg where
  | pmp (p : Fin 16) | ptn (p : Fin 16) | ldr (p : Fin 16) | prb (p : Fin 16) | mt | rimLd | pwr
deriving DecidableEq, Repr

/-- The data registers of the agents' GPIO block (R271). -/
inductive GpioReg where
  | outLo | outHi | oeLo | oeHi
deriving DecidableEq, Repr

/-- What gives a tick (R99, R100, R226): the divider of a partition, the pin TICK_IN, or a clock source that rim clock trees may select, named by its code. -/
inductive TickSource where
  | divider (p : Fin 16)
  | pin
  | clock (code : BitVec 8)
deriving DecidableEq, Repr

/-- The commands: one for every row of the opcode table, in its order. `who` is the initiator of a register or memory access, `k` and `sec` the core that
makes one and whether it is in secure state; `p` is a partition, `n` a host port, `q` and `l` a lane quad and a lane, `b` an I/O bank. -/
inductive Instr where
  /-- REGISTER_WRITE (R12). A write to a register field that has no row of its own takes effect according to the field's access type,
  lock, reserved-bit and configuration-rejection rules. -/
  | registerWrite (who : Init) (addr : BitVec 48) (size : Fin 4) (value : Word64)
  /-- RC_READ (R12). A read of a read-to-clear field returns its value and then clears it, unless a hardware set arrives in the same
  clock. -/
  | rcRead (who : Init) (addr : BitVec 48) (size : Fin 4)
  /-- LOW_HALF_READ (R16). A 32-bit read of the low half of a 64-bit register returns that half and latches the high half for the same
  initiator. -/
  | lowHalfRead (who : Init) (addr : BitVec 48)
  /-- HIGH_HALF_READ (R16). A 32-bit read of the high half of a 64-bit register returns the initiator's latched value and consumes it,
  or returns the current high half when nothing is latched. -/
  | highHalfRead (who : Init) (addr : BitVec 48)
  /-- LOW_HALF_WRITE (R16). A 32-bit write of the low half of a 64-bit register is held for the initiator until the high half is
  written. -/
  | lowHalfWrite (who : Init) (addr : BitVec 48) (value : Word32)
  /-- HIGH_HALF_WRITE (R16). A 32-bit write of the high half of a 64-bit register applies both halves in one clock, or only the high
  half when no low half is held. -/
  | highHalfWrite (who : Init) (addr : BitVec 48) (value : Word32)
  /-- NOP (R49). A BP executes NOP: its slot is unchanged, it drives 0 on its lane, and it sends and probes nothing. -/
  | nop (bp : Fin 131072)
  /-- EVAL (R50). A BP evaluates its truth table, writes the result into slot s, drives it on its lane, and sends it when SND = 1. -/
  | eval (bp : Fin 131072)
  /-- EVALC (R51). A BP evaluates a three-input function and writes slot s only when D = 1, and always publishes the slot's value after
  the step. -/
  | evalc (bp : Fin 131072)
  /-- MPUT (R52). A BP hands its result to a gather input of one of its tile's memory port agents. -/
  | mput (bp : Fin 131072)
  /-- STOP (R53). A BP whose result is 1 requests a stop at the end of the cycle and records its stop code in the stop mask. -/
  | stop (bp : Fin 131072)
  /-- TRIG (R54). A BP whose result is 1 sets one of the partition's 64 trigger condition bits for the cycle. -/
  | trig (bp : Fin 131072)
  /-- OUT (R55). A BP writes its result into one rim output bit of its tile. -/
  | out (bp : Fin 131072)
  /-- XEV (R56). A BP places its result on an exchange out-port without writing a slot. -/
  | xev (bp : Fin 131072)
  /-- UNDEFINED_OPCODE (R57). An executed opcode from 0x8 to 0xF behaves as NOP and increments the encoding-fault counter. -/
  | undefinedOpcode (bp : Fin 131072)
  /-- CREAD (R142). An agent entry issues a cistern read of a word of its own tile's cistern, performed in the agent's slot. -/
  | cread (tile : Fin 512) (agent : Fin 4)
  /-- CWRITE (R142). An agent entry issues a cistern write of WDATA to a word of its own tile's cistern. -/
  | cwrite (tile : Fin 512) (agent : Fin 4)
  /-- DREAD (R142). An agent entry issues a deep-memory read, which returns after LD executed steps. -/
  | dread (tile : Fin 512) (agent : Fin 4)
  /-- DWRITE (R142). An agent entry issues a deep-memory write of WDATA, which is acknowledged by its return step. -/
  | dwrite (tile : Fin 512) (agent : Fin 4)
  /-- TICK (R99). A tick from the divider, TICK_IN or a rim clock tree is accepted, counted as an overrun, merged or discarded,
  according to the pump's state and policy.
  `rising` says which edge of a pin or a clock it is; the divider gives rising edges. -/
  | tick (src : TickSource) (rising : Bool)
  /-- ELASTIC_LATE_RELEASE (R236). An output entry not released in time is released three periods after its cycle ends, and OUT_LATE is
  set. -/
  | elasticLateRelease (p : Fin 16)
  /-- HOLD_RELEASE (R109). The held step executes in the sixth period after the last recorded cause clears. -/
  | holdRelease (p : Fin 16)
  /-- HOLD_LONG (R112). A hold that outlasts PMP_HOLD_LIMIT sets PMP_EVENT.HOLD_LONG. -/
  | holdLong (p : Fin 16)
  /-- START (R92). PMP_CMD START moves a halted pump into RAMP, or is refused. -/
  | start (who : Init) (p : Fin 16)
  /-- HALT (R92). PMP_CMD HALT stops the partition at the end of the current cycle or at once between cycles, or aborts a pending START
  or STEP. -/
  | halt (who : Init) (p : Fin 16)
  /-- STEP (R92). PMP_CMD STEP executes COUNT cycles back to back and returns to WAIT. -/
  | step (who : Init) (p : Fin 16) (count : BitVec 16)
  /-- PRIME (R92). PMP_CMD PRIME reloads priming, clears exchange registers and sets the cycle number to 0. -/
  | prime (who : Init) (p : Fin 16)
  /-- SETRATE (R113). PMP_CMD SETRATE from the service complex requests a change of the module step rate. -/
  | setrate (who : Init) (p : Fin 16) (econ : Bool)
  /-- RAMP_COMPLETE (R96). After 32 µs the start ramp ends, and the pump enters RUN or WAIT and the START result is produced. -/
  | rampComplete (p : Fin 16)
  /-- RATE_CHANGE_COMPLETE (R113). After 200 µs the new step rate runs, PMP_RATE changes and the SETRATE result is produced. -/
  | rateChangeComplete
  /-- AVS_TIMEOUT (R378). An unacknowledged voltage request restores the previous target, sets PWR_AVS.FAIL and raises source 248. -/
  | avsTimeout
  /-- RESULT_READ (R95). A read of a result register returns the result, sets CONSUMED on the first read while READY, and latches
  PMP_RESULT_CYC. -/
  | resultRead (who : Init) (r : ResultReg)
  /-- CREATE (R126). PTN_CMD CREATE claims a run of bands, sets owner tags and makes the partition active. -/
  | create (who : Init) (p : Fin 16)
  /-- RELEASE (R126). PTN_CMD RELEASE starts clearing the partition's stores and returns its bands. -/
  | release (who : Init) (p : Fin 16)
  /-- RELEASE_CLEAR_COMPLETE (R127). When clearing ends, the partition's registers return to reset values, ACTIVE becomes 0 and the
  RELEASE result is produced. -/
  | releaseClearComplete (p : Fin 16)
  /-- RESET (R128). PTN_CMD RESET stops the pump at once, drops holds and pending commands, and re-primes the partition from the golden
  copy. -/
  | reset (who : Init) (p : Fin 16)
  /-- PRIMING_COMPLETE (R154). Once every awaited deep access has ended, priming completes and the pump enters HALT with cycle number 0. -/
  | primingComplete (p : Fin 16)
  /-- REBIND (R133). A partition with LOSS = REBIND moves to ALT at the arbitration point, or takes its FALLBACK policy when ALT is
  unavailable. -/
  | rebind (p : Fin 16)
  /-- DEEP_RETURN_ARRIVAL (R147). Deep read data or a write acknowledgement arrives in the agent's return queue and clears any MEM_LATE
  it caused. -/
  | deepReturnArrival (tile : Fin 512) (agent : Fin 4) (place : Fin 16)
  /-- NETWORK_READ (R155). A host, core or DMA read of design memory is performed in a network slot or completes with an error status. -/
  | networkRead (who : Init) (target : Target) (len : Fin 257)
  /-- NETWORK_WRITE (R155). A host, core or DMA write of design memory is performed, merged when partial, or completes with an error
  status. -/
  | networkWrite (who : Init) (target : Target) (data : List Byte)
  /-- ATOMIC_ADD (R155). An atomic add on a cistern or service SRAM word is performed within one slot and returns the old value. -/
  | atomicAdd (who : Init) (target : Target) (wide : Bool) (value : Word64)
  /-- ATOMIC_SWAP (R155). An atomic swap on a cistern or service SRAM word is performed within one slot and returns the old value. -/
  | atomicSwap (who : Init) (target : Target) (wide : Bool) (value : Word64)
  /-- CHANNEL_COMMAND_TIMEOUT (R400). A deep-memory channel command that exceeds 4 µs fails the channel. -/
  | channelCommandTimeout (stack : Fin 8) (ch : Fin 16)
  /-- DESTRUCTIVE_TEST (R162). MT_CMD starts a destructive March C− test of a band's stores or a service SRAM bank. -/
  | destructiveTest (k : Fin 8) (sec : Bool) (target : Fin 4) (unit : Fin 64)
  /-- PRESERVING_TEST (R162). MT_CMD starts a March C− test that saves and restores each word. -/
  | preservingTest (k : Fin 8) (sec : Bool) (target : Fin 4) (unit : Fin 64)
  /-- MARCH_TEST_COMPLETE (R163). A march test ends and produces MT_RESULT, with failures counted and the first one located. -/
  | marchTestComplete (fails : List (BitVec 17 × BitVec 20))
  /-- LDR_LOAD (R189). LDR_CMD LOAD starts an image load, which is checked and written step by step from its source. -/
  | ldrLoad (who : Init) (p : Fin 16)
  /-- LDR_ABORT (R194). LDR_CMD ABORT aborts a pending LOAD, with the clearing of R192, or is refused. -/
  | ldrAbort (who : Init) (p : Fin 16)
  /-- IMAGE_SOURCE_READ (R190). Image bytes arrive from host memory or the xSPI flash, or a source read fails with IMG_SOURCE. -/
  | imageSourceRead (p : Fin 16) (bytes : Option (List Byte))
  /-- RIM_SECTION_HANDOFF (R242). The image loader hands its RIM section to the rim loader once the rim loader is free. -/
  | rimSectionHandoff (p : Fin 16)
  /-- ARM (R216). PRB_CMD ARM validates the buffer and enters PRE, placing the sequencer in state 0. -/
  | arm (who : Init) (p : Fin 16)
  /-- DISARM (R216). PRB_CMD DISARM stops evaluation and waits for formed records to complete. -/
  | disarm (who : Init) (p : Fin 16)
  /-- DISARM_COMPLETE (R216). When every formed record has completed, capture enters IDLE and the DISARM result is produced. -/
  | disarmComplete (p : Fin 16)
  /-- FORCE (R216). PRB_CMD FORCE sets the FORCE sequencer input so that the trigger follows. -/
  | force (who : Init) (p : Fin 16)
  /-- RECORD_DRAIN (R206). A staged record drains into deep memory at the probe bandwidth, frees staging room and may clear PROBE_FULL. -/
  | recordDrain (p : Fin 16) (n : BitVec 16)
  /-- RATE_FALL (R206). After RELAX cycles with low occupancy, the rate exponent falls by 1. -/
  | rateFall (p : Fin 16)
  /-- XTRIG_IN_EDGE (R211). A synchronised XTRIG_IN rising edge sets latch n in every partition. -/
  | xtrigInEdge (n : Fin 4) (short : Bool)
  /-- TRIGGER_LINE_ARRIVAL (R212). A trigger-line pulse sets the latch in a partition bound to the same master TL periods after the
  evaluation. -/
  | triggerLineArrival (q : Fin 16) (p : Fin 16)
  /-- XTRIG_OUT_PULSE_END (R213). XTRIG_OUT[n] falls 20 ns after its last rise. -/
  | xtrigOutPulseEnd (n : Fin 4)
  /-- BUS_CONTENTION (R225). Overlapping drivers on a bank bus line for more than 200 ps are disabled, and the event is recorded. -/
  | busContention (bank : Fin 12) (line : Fin 64) (drivers : List (Fin 64)) (ps : BitVec 16)
  /-- BUS_EVT_CLEAR (R225). A 1 written to a RIM_BUS_EVT bank bit clears it and re-enables that bank's disabled drivers. -/
  | busEvtClear (who : Init) (mask : BitVec 12)
  /-- CLOCK_SOURCE_LOSS (R227). A clock-tree source with no rising edge for 10.24 µs is marked lost, and the tree switches to ALT or is
  held low. -/
  | clockSourceLoss (tree : Fin 12)
  /-- SCRUB_FRAME (R238). Every 20 ns the scrubber reads the next frame, rewrites correctable words and records uncorrectable ones.
  `data` and `check` are the bits that have flipped since the frame was last read, by word of the frame and bit. -/
  | scrubFrame (data : List (Fin 16 × Fin 64)) (check : List (Fin 16 × Fin 8))
  /-- RIM_LD_LOAD (R242). RIM_LD_CMD LOAD starts a stream from the xSPI flash or the shared load bus. -/
  | rimLdLoad (who : Init)
  /-- RIM_LD_ABORT (R250). RIM_LD_CMD ABORT aborts a pending rim load and clears the sectors in LOADING. -/
  | rimLdAbort (who : Init)
  /-- CLEAR (R255). RIM_LD_CMD CLEAR removes a sector's configuration and returns it to EMPTY. -/
  | clear (who : Init) (sector : Fin 16)
  /-- CLEAR_COMPLETE (R255). The cleared sector reaches EMPTY within 200 µs. -/
  | clearComplete
  /-- SYNC_WORD (R245). The first stream word must be the sync word, which sets the select mask to 0xFF. -/
  | syncWord (w : Word32)
  /-- STREAM_NOP (R245). A NOP command word in a stream does nothing. -/
  | streamNop (op : BitVec 8) (arg : BitVec 24)
  /-- DEVID (R245). The stream's expected ID is compared with RIM_ID. -/
  | devid (arg : BitVec 24) (id : Word32)
  /-- SELECT (R246). SELECT sets which load-bus devices act on the following words. -/
  | select (arg : BitVec 24)
  /-- SECTOR (R245). SECTOR checks ownership, clears a sector, moves it to LOADING and sets the frame pointer. -/
  | sector (arg : BitVec 24)
  /-- FADDR (R245). FADDR sets the frame pointer within the current sector. -/
  | faddr (arg : BitVec 24)
  /-- WRITE (R245). WRITE writes n frames, each checked under R248 before it is written. -/
  | write (arg : BitVec 24) (data : List Word32)
  /-- REPEAT (R245). REPEAT writes the last written frame into the next n frames. -/
  | repeatFrames (arg : BitVec 24)
  /-- END (R245). END checks the stream CRC and moves every sector in LOADING to STARTING. -/
  | endStream (arg : BitVec 24) (crc : Word32)
  /-- LOAD_BUS_TIMEOUT (R242). No LB_CLK rising edge for 100 µs ends a load-bus stream. -/
  | loadBusTimeout
  /-- SECTOR_STARTUP_COMPLETE (R253). After 20 ns in STARTING, a sector releases its start-up reset and enters RUNNING. -/
  | sectorStartupComplete (sector : Fin 12)
  /-- PIN_FUNCTION_CHANGE (R270). A change of FUNC or STD is taken at the next pin-clock edge, and the pad goes idle. -/
  | pinFunctionChange (b : Fin 12) (n : Fin 32)
  /-- PIN_SWITCH_COMPLETE (R270). Two pin-clock periods after the change, the new source drives the pad. -/
  | pinSwitchComplete (b : Fin 12) (n : Fin 32)
  /-- IOB_LOCK (R272). The key sequence 0xA5 then 0x5A written to IOB_LOCK locks the bank's configuration. -/
  | iobLock (who : Init) (b : Fin 12) (key : BitVec 8)
  /-- AGP_WRITE (R271). A masked write to AGP_OUT or AGP_OE changes only the bits of pins owned by the writing core, and denied bits are
  counted. -/
  | agpWrite (k : Fin 8) (sec : Bool) (b : Fin 12) (reg : GpioReg) (value : Word32)
  /-- PGOOD_RISE (R267). A bank supply reaching 1.0 V samples BSTRAP, and its pins stay in the power-off state for 100 µs. -/
  | pgoodRise (b : Fin 12) (strap : Fin 4)
  /-- PGOOD_SETTLE (R267). 100 µs after PGOOD rises, the bank's pins take the state of R265. -/
  | pgoodSettle (b : Fin 12)
  /-- PGOOD_FALL (R267). A bank supply falling below 1.0 V puts its pins at once into the power-off state, and its inputs read 0. -/
  | pgoodFall (b : Fin 12)
  /-- BLOCK_LOCK (R281). 64 valid headers at the candidate position lock a 64b/66b lane.
  `lane` is quad * 4 + l; `bits` are the line bits that arrive, in the order of the line. -/
  | blockLock (lane : Fin 64) (bits : List Bool)
  /-- LOCK_LOSS (R281). 16 invalid headers in a window, or 4 invalid groups in 8b/10b, lose lock or alignment.
  `lane` is quad * 4 + l; `bits` are the line bits that arrive, in the order of the line. -/
  | lockLoss (lane : Fin 64) (bits : List Bool)
  /-- COMMA_ALIGN (R282). An 8b/10b receiver aligns on a comma pattern.
  `lane` is quad * 4 + l; `bits` are the line bits that arrive, in the order of the line. -/
  | commaAlign (lane : Fin 64) (bits : List Bool)
  /-- ADAPTATION_COMPLETE (R283). Initial equaliser adaptation completes and sets ADAPTED, after which hunting begins. -/
  | adaptationComplete (q : Fin 16) (l : Fin 4)
  /-- PRBS_CHECKER_LOCK (R285). The PRBS checker locks after 64 matching bits and unlocks after 64 errors in 1,024 bits.
  Of the line bits `line` the `n` from the one numbered `first` on arrive. -/
  | prbsCheckerLock (q : Fin 16) (l : Fin 4) (line : List Bool) (first : Nat) (n : Nat)
  /-- PRBS_ERR_READ (R285). A read of LQ_PRBS_ERR latches LQ_PRBS_BITS and restarts both counts. -/
  | prbsErrRead (who : Init) (q : Fin 16) (l : Fin 4)
  /-- INJ (R286). A 1 written to INJ inverts one bit of the next generated word. -/
  | inj (who : Init) (q : Fin 16) (l : Fin 4)
  /-- LANE_FAILURE (R288). A protected lane whose signal detect falls, or whose lock stays lost for FAIL_TIME, fails over to the spare. -/
  | laneFailure (q : Fin 16) (l : Fin 4)
  /-- REVERT (R289). A 1 written to REVERT returns the port to its own lane and clears SPARE_USED and FAILED. -/
  | revert (who : Init) (q : Fin 16)
  /-- FRAME_RECEIVE (R348). A received Ethernet frame is written into an owned receive descriptor with its stamp, or is dropped. -/
  | frameReceive (p : Fin 2) (frame : List Byte) (fcsOk : Bool)
  /-- FRAME_TRANSMIT (R348). An owned transmit descriptor is sent, with one-step or two-step PTP stamping. -/
  | frameTransmit (p : Fin 2)
  /-- EPOCH_ARM (R292). A write of ETH_PTP_NEXT_NS arms the next wrap's epoch. -/
  | epochArm (k : Fin 8) (sec : Bool) (p : Fin 2) (ns : BitVec 30)
  /-- TX_TS_READ (R291). A read of the low half of ETH_TX_TS removes a stamp from the two-step FIFO. -/
  | txTsRead (k : Fin 8) (sec : Bool) (p : Fin 2)
  /-- PERST_N_ASSERT (R295). PERST_N[n] resets port n's link, configuration, MSI-X and DMA state, and is a host loss. -/
  | perstAssert (n : Fin 4)
  /-- PERST_N_DEASSERT (R295). Port n retrains once PERST_N[n] deasserts. -/
  | perstDeassert (n : Fin 4)
  /-- LINK_DOWN (R295). A port's link leaves the active state and resets the port and its DMA items. -/
  | linkDown (n : Fin 4)
  /-- LINK_RETURN_TIMEOUT (R130). A link that has not returned within 1 ms makes the port a lost host. -/
  | linkReturnTimeout (n : Fin 4)
  /-- SURPRISE_REMOVAL (R130). A surprise removal reported by hot plug makes the port a lost host. -/
  | surpriseRemoval (n : Fin 4)
  /-- FUNCTION_LEVEL_RESET (R295). A function-level reset of port n resets its MSI-X state and DMA channels and keeps the link. -/
  | functionLevelReset (n : Fin 4)
  /-- DMA_CH_PI (R297). Advancing DMA_CH_PI hands new descriptors to the channel. -/
  | dmaChPi (who : Init) (n : Fin 4) (ch : Fin 8) (pi : BitVec 16)
  /-- DESCRIPTOR (R300). A channel executes a descriptor, split into 256-byte transactions. -/
  | descriptor (n : Fin 4) (ch : Fin 8) (desc : List Byte) (count : BitVec 16) (data : List Byte)
  /-- DESCRIPTOR_COMPLETE (R299). When all a descriptor's writes have completed, its completion record is written, and a failure stops
  the channel. -/
  | descriptorComplete (n : Fin 4) (ch : Fin 8) (rest : List (List Byte))
  /-- DMA_ABORT (R301). A 1 written to DMA_CH_CTL.ABORT stops the channel, and the remaining descriptors receive ABORTED. -/
  | dmaAbort (who : Init) (n : Fin 4) (ch : Fin 8) (rest : List (List Byte))
  /-- BAR2_ACCESS (R307). A host BAR2 access is split into network transactions, and its PCIe response follows their statuses. -/
  | bar2Access (n : Fin 4) (off : BitVec 36) (len : Fin 4097) (data : Option (List Byte))
  /-- BAR2_SEL_WRITE (R306). A write to GLB_BAR2_SEL is performed only when PART is bound to the writing port. -/
  | bar2SelWrite (n : Fin 4) (part : BitVec 4) (win : BitVec 2)
  /-- TRANSACTION_COMPLETION (R311). A response ends a network transaction with one status and frees its tag, or is discarded for a
  generation mismatch. -/
  | transactionCompletion (tag : BitVec 16) (gen : BitVec 4) (retries : BitVec 3)
  /-- NET_TIMEOUT (R314). A transaction without a response after the timeout is given a synthesised NET_TIMEOUT completion. -/
  | netTimeout (tag : BitVec 16)
  /-- LINK_FAIL (R401). Eight consecutive retries fail a die link, and every partition on that die is reset. -/
  | linkFail (die : Fin 4)
  /-- SCH_POST (R329). A post places a token in the matching store or the sump, or waits, and may make a thread READY. -/
  | schPost (k : Fin 8) (sec : Bool) (thread : BitVec 10) (index : BitVec 3)
  /-- SUMP_REFILL (R332). Sumped tokens move back into the matching store in post order as space frees. -/
  | sumpRefill
  /-- POST_DROP (R332). A post still waiting after BPWAIT is dropped and counted. -/
  | postDrop
  /-- SCH_TAKE (R330). A read of SCH_TAKE moves the slotted thread to RUNNING and delivers its tokens. -/
  | schTake (k : Fin 8) (sec : Bool)
  /-- SCH_DONE (R331). A write of SCH_DONE returns the running thread to WAIT, or sets SEQ_ERR. -/
  | schDone (k : Fin 8) (sec : Bool) (thread : BitVec 10)
  /-- SOURCE_EVENT (R334). An interrupt source event sets pending, and the source is presented to one target or posted as a token. -/
  | sourceEvent (source : BitVec 10)
  /-- IC_PEND_SET (R334). Writing 1 to IC_PEND_SET sets a source's pending bit. -/
  | icPendSet (k : Fin 8) (sec : Bool) (w : Fin 32) (mask : Word32)
  /-- IC_CLAIM (R336). A read of IC_CLAIM returns the highest presented source, sets it active and clears its pending bit. -/
  | icClaim (k : Fin 8) (sec : Bool) (t : Fin 16)
  /-- IC_COMPLETE (R337). A write of IC_COMPLETE clears an active source, or increments IC_ERR. -/
  | icComplete (k : Fin 8) (sec : Bool) (t : Fin 16) (source : BitVec 10)
  /-- ICINV (R321). A 1 written to SVC_CTL.ICINV invalidates a core's instruction cache. -/
  | icinv (k : Fin 8) (sec : Bool) (target : Fin 8)
  /-- CORE_RESET (R349). A 1 written to SVC_CTL.RST resets a core, which restarts at SVC_ENTRY. -/
  | coreReset (k : Fin 8) (sec : Bool) (target : Fin 8)
  /-- TRC_SW (R342). A write to TRC_SW forms a SOFTWARE trace packet. -/
  | trcSw (k : Fin 8) (sec : Bool) (value : Word64)
  /-- TRACE_FLUSH (R347). A core's trace packets are flushed before LP_ENTER is written when it enters a low-power state. -/
  | traceFlush (k : Fin 8) (st : Fin 4)
  /-- FLUSH_INCOMPLETE (R347). A flush not done within 100 µs discards the core's remaining packets. -/
  | flushIncomplete (k : Fin 8) (st : Fin 4)
  /-- DOORBELL (R352). MBX_DOORBELL with RING = 1 commits the staged message into the channel. -/
  | doorbell (who : Init) (n : Fin 64)
  /-- SNAPSHOT (R353). The receiver's read of MBX_MSG word 0 latches the whole message and SEQ. -/
  | snapshot (who : Init) (n : Fin 64)
  /-- TAKE (R353). The receiver's read of word 15 during a snapshot takes the message unless it has been replaced. -/
  | take (who : Init) (n : Fin 64)
  /-- HELLO (R358). HELLO negotiates the Uteus version and the keepalive period.
  `pair` is the pair of channels that a request comes on, `m` its framing. -/
  | hello (n : Fin 4) (pair : Fin 8) (m : UtFraming) (lo : BitVec 16) (hi : BitVec 16) (ka : BitVec 16)
  /-- KEEPALIVE (R357). A KEEPALIVE message keeps the port's negotiation alive and receives no response. -/
  | keepalive (n : Fin 4)
  /-- KEEPALIVE_LAPSE (R358). No complete message for 2 × KA_MS ends negotiation, and the port counts as lost. -/
  | keepaliveLapse (n : Fin 4)
  /-- PART_CREATE (R359). A Uteus request asks the firmware to create a partition bound to the requesting port. -/
  | partCreate (n : Fin 4) (pair : Fin 8) (m : UtFraming) (p : Fin 16) (cfg : Word32)
  /-- PART_RELEASE (R359). A Uteus request asks the firmware to release a partition. -/
  | partRelease (n : Fin 4) (pair : Fin 8) (m : UtFraming) (p : Fin 16)
  /-- PART_BIND (R359). A Uteus request asks the firmware to change a partition's binding and loss policy. -/
  | partBind (n : Fin 4) (pair : Fin 8) (m : UtFraming) (p : Fin 16) (bind : BitVec 3) (loss : BitVec 2) (alt : BitVec 3) (fallback : Bool)
  /-- DM_MAP (R359). A Uteus request asks the firmware to write DM_MAP entries. -/
  | dmMap (n : Fin 4) (pair : Fin 8) (m : UtFraming) (p : Fin 16) (first : BitVec 8) (vals : List Word32)
  /-- IMAGE_LOAD (R359). A Uteus request asks the firmware to load an image and is answered with the load result. -/
  | imageLoad (n : Fin 4) (pair : Fin 8) (m : UtFraming) (p : Fin 16) (param : Word32) (src : Word64)
  /-- IMAGE_ABORT (R359). A Uteus request asks the firmware to abort a load. -/
  | imageAbort (n : Fin 4) (pair : Fin 8) (m : UtFraming) (p : Fin 16)
  /-- MARCH_TEST (R359). A Uteus request asks the firmware to run a march test. -/
  | marchTest (n : Fin 4) (pair : Fin 8) (m : UtFraming) (v : Word32)
  /-- SYMBOL_QUERY (R359). A Uteus request returns a symbol entry. -/
  | symbolQuery (n : Fin 4) (pair : Fin 8) (m : UtFraming) (p : Fin 16) (name : List Byte)
  /-- FW_STATUS (R359). A Uteus request returns the boot report. -/
  | fwStatus (n : Fin 4) (pair : Fin 8) (m : UtFraming)
  /-- STEP_RATE (R359). A Uteus request asks the firmware to perform SETRATE. -/
  | stepRate (n : Fin 4) (pair : Fin 8) (m : UtFraming) (p : Fin 16) (econ : Bool)
  /-- EVENT (R361). The firmware posts an EVENT message, such as REQ_COLLISION, FW_RESTART or FAULT, to a host. -/
  | event (n : Fin 4) (code : BitVec 16) (data : List Byte)
  /-- WRAP (R363). A carry out of a domain's NS counter increments WRAPS and updates the Ethernet epoch. -/
  | wrap (d : Fin 2)
  /-- TK_STEP (R366). A write of TK_STEP requests a step, which is refused above the jump threshold or applied at the next tick. -/
  | tkStep (k : Fin 8) (sec : Bool) (d : Fin 2) (delta : Word32) (override : Bool)
  /-- PPS_IN_EDGE (R369). An accepted PPS_IN edge captures both domains and performs armed alignments and domain switches. -/
  | ppsInEdge (long : Bool)
  /-- REQ (R371). A 1 written to TK_SEL.REQ requests a switch of the time-stamp domain at the next PPS edge. -/
  | req (k : Fin 8) (sec : Bool)
  /-- SW_NOPPS (R371). A switch request with no accepted edge within 2 s lapses. -/
  | swNopps
  /-- PPS_OUT_RISE (R370). PPS_OUT rises when the followed domain crosses NEXT, and NEXT advances. -/
  | ppsOutRise
  /-- PPS_OUT_FALL (R370). PPS_OUT falls after WIDTH milliseconds. -/
  | ppsOutFall
  /-- COMPARE_FIRE (R373). A compare fires when its domain passes VALUE, feeds the sequencer and raises its source. -/
  | compareFire (i : Fin 2)
  /-- RIM_EVENT_TAP (R372). A rising edge on rim event tap i is stamped into TK_EVT[i], or is discarded with OVF. -/
  | rimEventTap (i : Fin 16)
  /-- IDLE (R382). PWR_CMD IDLE gates the array clocks. -/
  | idle (k : Fin 8) (sec : Bool)
  /-- WATCH (R382). PWR_CMD WATCH puts the dies in retention and starts sampling the watch vector. -/
  | watch (k : Fin 8) (sec : Bool)
  /-- SLEEP (R385). PWR_CMD SLEEP turns off the compute and HBM rails and keeps only the always-on domain. -/
  | sleep (k : Fin 8) (sec : Bool) (ack : Bool)
  /-- ON (R382). PWR_CMD ON returns the module from IDLE to ON. -/
  | on (k : Fin 8) (sec : Bool)
  /-- QUIESCE (R390). PWR_CMD QUIESCE halts pumps, aborts DMA and winds down every item in flight. -/
  | quiesce (k : Fin 8) (sec : Bool)
  /-- QUIESCE_COMPLETE (R390). When no tags are in use, QUIESCE produces COMPLETED. -/
  | quiesceComplete
  /-- QUIESCE_PUMP_LIMIT (R390). A pump not halted within QLIMIT receives a partition reset. -/
  | quiescePumpLimit
  /-- DEMAND_EXIT (R383). A command or a compute-side access in IDLE or WATCH returns the module to ON or IDLE. -/
  | demandExit (command : Bool)
  /-- WATCH_SAMPLE (R384). Every INTERVAL the WATCH engine samples the vector, and COUNT mismatches return the module to IDLE. -/
  | watchSample (raw : BitVec 96)
  /-- WAKE_PIN (R386). An enabled WAKE level wakes the module from SLEEP. -/
  | wakePin (n : Fin 4) (level : Bool)
  /-- MGMT_ADDRESS_MATCH (R386). A matching MGMT address wakes the module from SLEEP. -/
  | mgmtAddressMatch (addr : BitVec 7)
  /-- WAKE_COMPLETE (R386). Wake restores the rails, retrains and enters IDLE, and the command result is produced. -/
  | wakeComplete
  /-- THRESHOLD_CROSSING (R377). A die temperature crossing WARN or CRIT raises source 249. -/
  | thresholdCrossing (die : Fin 5) (temp : BitVec 8)
  /-- THERMAL_TRIP (R377). A junction at 125 °C causes a module reset. -/
  | thermalTrip
  /-- POWER_ON (R388). Power-on resets the whole module. -/
  | powerOn
  /-- RESET_N (R388). RESET_N asserts and resets the whole module. -/
  | resetN
  /-- BROWN_OUT (R387). A rail below 90 % of nominal while RESET_N is high causes a module reset. -/
  | brownOut
  /-- START_UP (R389). After RESET_N deasserts, start-up runs fuses, PLLs, tests, boot, training and loads in order. -/
  | startUp (u : StartUp)
  /-- PMB_ALERT_N (R380). A low level on PMB_ALERT_N raises source 247. -/
  | pmbAlert
  /-- PRESENT_N_DEASSERT (R391). PRESENT_N high for 1 µs releases the bank pins, holds the ports in reset and starts QUIESCE. -/
  | presentDeassert
  /-- PRESENT_N_ASSERT (R391). PRESENT_N low for 10 ms is taken as asserted. -/
  | presentAssert
  /-- LC_CMD (R393). A key word written twice to LC_CMD accepts a life-cycle change, which wipes the vault and programs the fuses. -/
  | lcCmd (k : Fin 8) (sec : Bool) (key : Word32)
  /-- LIFE_CYCLE_RESET (R393). 1 ms after an accepted life-cycle change, the module resets. -/
  | lifeCycleReset
  /-- TAMPER (R394). TAMPER_N or a sensor wipes the vault, sets the latch, raises source 250 and wakes the module. -/
  | tamper
  /-- WIPE_COMPLETE (R394). A vault wipe completes within 10 µs and raises source 251. -/
  | wipeComplete
  /-- DBG_CERT (R396). A debug certificate is checked and sets the authorisation level, or is rejected. -/
  | dbgCert (cert : Cert)
  /-- BYPASS (R397). The JTAG instruction BYPASS. -/
  | bypass
  /-- IDCODE (R397). The JTAG instruction IDCODE returns the stepping, part and JEP106 code. -/
  | idcode
  /-- SAMPLE_PRELOAD (R397). The JTAG instruction SAMPLE/PRELOAD. -/
  | samplePreload (data : Word64)
  /-- EXTEST (R397). The JTAG instruction EXTEST. -/
  | extest (data : Word64)
  /-- HIGHZ (R397). The JTAG instruction HIGHZ. -/
  | highz (data : Word64)
  /-- CLAMP (R397). The JTAG instruction CLAMP. -/
  | clamp (data : Word64)
  /-- EXTEST_PULSE (R397). The IEEE 1149.6 instruction EXTEST_PULSE on the lanes. -/
  | extestPulse (data : Word64)
  /-- EXTEST_TRAIN (R397). The IEEE 1149.6 instruction EXTEST_TRAIN on the lanes. -/
  | extestTrain (data : Word64)
  /-- GOLDEN_ENTRY_WRITE (R403). The golden entry arrives, is written and checked again, and REPAIR clears when the check passes. -/
  | goldenEntryWrite (p : Fin 16)
  /-- REPAIR_FAIL (R404). A failed golden read or second check, or 20 µs without an outcome, fails the repair and resets or stops the
  partition. -/
  | repairFail (p : Fin 16) (reason : Fin 4)
  /-- FLT_LOG_READ (R407). A read of the low half of FLT_LOG removes the oldest entry and latches its detail. -/
  | fltLogRead (k : Fin 8) (sec : Bool)
  /-- FETCH_WHILE_NOT_RUNNING (R111). In RAMP, WAIT and HOLD, instruction fetch and checking continue each period, and an uncorrectable
  word found there starts a repair. -/
  | fetchWhileNotRunning (p : Fin 16) (w : BitVec 12)
  /-- RAMP_HOLD_DECISION (R108). In each of the last six periods of RAMP, the pump samples hold requests and decides whether step 0 to 5
  of the first cycle is held. -/
  | rampHoldDecision (p : Fin 16) (j : Fin 6)
  /-- XTRIG_OUT_RISE (R213). XTRIG_OUT[n] rises 8 step-clock periods after an evaluation whose actions pulse it. -/
  | xtrigOutRise (n : Fin 4)
  /-- VCCIO_MEASUREMENT (R265). Every 100 µs VMEAS is updated, and a change of VMISMATCH changes the bank's pin state and raises source
  227 + b. -/
  | vccioMeasurement (b : Fin 12) (v : BitVec 8)
  /-- RESET_TREE_CHANGE (R229). A rim reset tree's selected source, pin IOB<BANK>_2 or a reset-driver cell, asserts at once or deasserts
  at the second rising edge of tree SYNC. -/
  | resetTreeChange (tree : Fin 4) (asserted : Bool)
  /-- SIGNAL_DETECT (R283). A lane's signal detect rises or falls, which starts or stops adaptation and makes a raw-mode lane locked or
  unlocked. -/
  | signalDetect (q : Fin 16) (l : Fin 4) (up : Bool)
  /-- PLL_LOCK (R278). A quad's PLL A or B locks after it is configured and sets PLLA_LOCK or PLLB_LOCK. -/
  | pllLock (q : Fin 16) (b : Bool)
  /-- LINK_RETURN (R295). A PCIe port's link trains to the active state, after PERST_N deasserts or after a link-down that ends within 1
  ms, and raises source 164 + n. -/
  | linkReturn (n : Fin 4) (speed : Fin 7) (width : Fin 17)
  /-- POWER_STATE_EXIT_COMPLETE (R383). A demand exit from IDLE or WATCH completes when the step clock runs or IDLE is reached, and the
  waiting command or access then takes effect. -/
  | powerStateExitComplete
  /-- POWER_REMOVAL (R387). The rails are removed, and the module enters OFF, losing its configuration and clearing the tamper latch. -/
  | powerRemoval
deriving DecidableEq, Repr

end Sys2Proof
end

