-- ==== Sys2Proof/Config.lean ====
section
/-! DEFINITION. What one module fixes and the spec does not: free values, cryptographic and compression functions whose
standards the spec names but does not restate, the meaning of a rim frame's bits, the boot ROM and the fuses.
Every constant here is opaque: no proof can see its value. -/

namespace Sys2Proof

/-- The free values: value number `n` of the run. Nothing constrains it. Log 9 (DESIGN CHOICE). -/
opaque Config.freeValue : Nat → BitVec 64

/-! The rim fabric. What the spec gives is what a configured fabric does; how the bits of its frames configure it, it does not give. -/

/-- The modes of a logic cell (R221). -/
inductive CellMode where
  | lut | shift | carry
deriving DecidableEq, Repr, Inhabited

/-- A signal of a lane's receive data port (R279): of a unit its valid bit, a data bit (a payload bit of a block, a line bit of a raw unit), a header bit, K and ERR. -/
inductive LaneSig where
  | valid | data (n : Nat) | header (n : Nat) | k | err
deriving DecidableEq, Repr, Inhabited

/-- What a routing multiplexer of the rim selects (R224). Cells are numbered 0 to 32,767 in their sector, column by column and from the bottom up. -/
inductive RimSrc where
  | const (b : Bool)
  | out (sector cell : Nat)
  | carry (sector cell : Nat)
  | ffA (sector cell : Nat)
  | ffB (sector cell : Nat)
  | tap (tile n : Nat)
  | bus (sector line : Nat)
  | pin (n : Nat)
  | lane (lane unit : Nat) (sig : LaneSig)
deriving DecidableEq, Repr, Inhabited

/-- The configuration of a cell (R221 to R223): in CARRY mode the low half of `lut` is P and the high half G. `byX` and `byY` let FA load X and FB load Y;
`tree2` selects the second clock tree of its block; `cascade` passes bit 31 of a shift register to the next cell up; `carryIn` is the constant of block 0. -/
structure CellCfg where
  num : Nat
  mode : CellMode
  lut : BitVec 64
  ins : List RimSrc
  x : RimSrc
  y : RimSrc
  byX : Bool
  byY : Bool
  tree2 : Bool
  enable : RimSrc
  rst : Option (Fin 4)
  resetA : Bool
  resetB : Bool
  cascade : Bool
  carryIn : Bool
deriving DecidableEq, Repr, Inhabited

/-- A driver point of a bank bus line (R224). -/
structure BusDriver where
  line : Nat
  point : Nat
  data : RimSrc
  enable : RimSrc
deriving DecidableEq, Repr, Inhabited

/-- The configuration of a sector: its cells, the two clock trees of each block, the driver points of its bank's bus lines, the input taps it drives (by tile and
bit), the data and output enables of its bank's pins, its clock-driver and reset-driver cells, and the transmit data of its lanes. -/
structure SectorCfg where
  cells : List CellCfg
  trees : List (Nat × Fin 12 × Fin 12)
  drivers : List BusDriver
  taps : List (Nat × Nat × RimSrc)
  pins : List (Nat × RimSrc × RimSrc)
  clockCell : RimSrc
  resetCell : RimSrc
  lanes : List (Nat × Nat × LaneSig × RimSrc)
deriving DecidableEq, Repr, Inhabited

/-- What the frames of a sector configure: `frames` are its bytes that are not 0, by their address in configuration memory (R218, R221 to R224). Log 57 (DEDUCED). -/
opaque Config.sector : (k : Nat) → (frames : List (Nat × Byte)) → SectorCfg

/-- The bits of a frame, as word * 64 + bit, that are LUT bits of cells in SHIFT mode (R239). Log 57 (DEDUCED). -/
opaque Config.shiftLutBits : (frame : Nat) → (frames : List (Nat × Byte)) → List Nat

/-- The level that the board gives a pad at a module time, where the module does not drive it. Log 67 (DEDUCED). -/
opaque Config.padLevel : (time pin : Nat) → Bool

/-- SHA-384 (R171, R172). Log 10 (DEDUCED). -/
opaque Config.sha384 : List Byte → BitVec 384

/-- ECDSA P-384 verification of a digest against r and s under the key of a vault slot (R172). -/
opaque Config.ecdsaVerify : (key : Nat) → (digest : BitVec 384) → (r s : List Byte) → Bool

/-- AES-256-GCM opening under the key of a vault slot; `none` where the tag fails (R174). -/
opaque Config.gcmOpen : (key : Nat) → (iv aad cipher tag : List Byte) → Option (List Byte)

/-- Raw DEFLATE (RFC 1951); `none` where the stream is malformed (R174). -/
opaque Config.inflate : List Byte → Option (List Byte)

/-- The port bridge taps that a rim frame selects, each as tile * 512 + tap (R248, check 2). Log 57 (DEDUCED). -/
opaque Config.frameTaps : (frame : Nat) → (data : List Byte) → List Nat

/-- The driver points of its bank, as line * 64 + driver, whose enables a rim frame configures as constant 1 (R248, check 3). Log 57 (DEDUCED). -/
opaque Config.frameDrivers : (frame : Nat) → (data : List Byte) → List Nat

/-- What a host-visible name stands for (R179). -/
inductive Symbol where
  | address (a : BitVec 40)
  | probe (position : BitVec 16)
  | stop (code : BitVec 8)
deriving DecidableEq, Repr, Inhabited

/-- Whether the contents of a SYMBOLS section have the form that check step 20 asks for (R191). Log 47 (DEDUCED). -/
opaque Config.symbolsOk : (table : List Byte) → Bool

/-- What a name of a SYMBOLS section stands for, as compiled; `none` where the name is not listed (R179). Log 47 (DEDUCED). -/
opaque Config.symbolEntry : (table name : List Byte) → Option Symbol

/-- The bytes of a symbol's entry, as SYMBOL_QUERY is answered (R359). Log 47 (DEDUCED). -/
opaque Config.symbolBytes : Symbol → List Byte

/-- A byte of the vault as the boot ROM fills it (R395): where in it the slots lie is not given. `n` numbers the fill. Log 99 (DEDUCED). -/
opaque Config.vaultByte : (n x : Nat) → Byte

/-- The boot ROM's entry address (reset value of SVC_ENTRY of core 0, R349). -/
opaque Config.bootEntry : BitVec 48

/-- The random nonce of DBG_STATUS at start-up number `n` (R396). Log 130 (DEDUCED). -/
opaque Config.nonce : Nat → BitVec 32

/-- The serial number of the module (R396). -/
opaque Config.serial : Nat

/-- Klogrim's PCIe vendor ID (R294). -/
opaque Config.vendorId : BitVec 16

/-- Klogrim's JEP106 code (R397). -/
opaque Config.jep106 : BitVec 11

/-- Whether the signature of a debug certificate verifies under the key of vault slot 2 or, for key 64, the Klogrim key in ROM (R396). -/
opaque Config.certVerify : (key serial lc nonce perm : Nat) → (sig : List Byte) → Bool

end Sys2Proof
end

