-- ==== Sys2Proof/Machine/Bits.lean ====
section
/-! DEFINITION. Bit fields of natural numbers, bytes and words: the spec's `[hi:lo]` notation (R11). -/

namespace Sys2Proof.Machine

/-- Bits `[hi:lo]` of `v` (R11). -/
def bits (v hi lo : Nat) : Nat := (v / 2 ^ lo) % 2 ^ (hi + 1 - lo)

/-- Bit `n` of `v`, 0 or 1. -/
def bit (v n : Nat) : Nat := (v / 2 ^ n) % 2

/-- Bit `n` of `v` as a truth value. -/
def bitB (v n : Nat) : Bool := bit v n = 1

/-- `v` with bits `[hi:lo]` replaced by `x`. -/
def setBits (v hi lo x : Nat) : Nat :=
  v / 2 ^ (hi + 1) * 2 ^ (hi + 1) + (x % 2 ^ (hi + 1 - lo)) * 2 ^ lo + v % 2 ^ lo

/-- `v` with bit `n` set. -/
def orBit (v n : Nat) : Nat := Nat.lor v (2 ^ n)

/-- 1 or 0. -/
def b2n (b : Bool) : Nat := if b then 1 else 0

/-- Exclusive OR of bits 0 to `n - 1` of `v`: its parity. -/
def parityN : Nat → Nat → Nat
  | 0, _ => 0
  | n + 1, v => (v % 2 + parityN n (v / 2)) % 2

/-- `v` rounded up to a multiple of `n` units. -/
def ceilDiv (a n : Nat) : Nat := (a + n - 1) / n

/-- Saturating increment of a counter whose top is `top` (the "Saturates at" of the register tables). -/
def satAdd (top v n : Nat) : Nat := if v + n < top then v + n else top

/-- Little-endian bytes of `v` (R201, R247: multi-byte fields are little-endian). -/
def toBytes : Nat → Nat → List Byte
  | 0, _ => []
  | n + 1, v => BitVec.ofNat 8 v :: toBytes n (v / 256)

/-- The number that little-endian bytes spell. -/
def ofBytes : List Byte → Nat
  | [] => 0
  | b :: bs => b.toNat + 256 * ofBytes bs

/-- Read `v` as a two's-complement number of `w` bits. -/
def signed (w v : Nat) : Int := if v % 2 ^ w < 2 ^ (w - 1) then (v % 2 ^ w : Nat) else (v % 2 ^ w : Nat) - (2 ^ w : Nat)

/-- `v` modulo 2^w, for a possibly negative `v`. -/
def wrapInt (w : Nat) (v : Int) : Nat := (v % (2 ^ w : Nat)).toNat

end Sys2Proof.Machine
end

