-- ==== Sys2Proof/Machine/NatMap.lean ====
section
/-! DEFINITION. Sparse tables of natural numbers in one canonical form: keys strictly rising, no default value listed.
Every register field, store and switch register of the model is held in one of these. -/

namespace Sys2Proof.Machine

/-- A sparse table: the value of key `k`, or the table's default where `k` is not listed. -/
abbrev NatMap := List (Nat × Nat)

/-- The value listed for `k`, or `d`. -/
def NatMap.find (d : Nat) : NatMap → Nat → Nat
  | [], _ => d
  | (a, v) :: m, k => if a = k then v else NatMap.find d m k

/-- Remove key `k`. -/
def NatMap.erase : NatMap → Nat → NatMap
  | [], _ => []
  | (a, v) :: m, k => if a = k then NatMap.erase m k else (a, v) :: NatMap.erase m k

/-- Put `v` at `k`, keeping the keys in order. -/
def NatMap.insert : NatMap → Nat → Nat → NatMap
  | [], k, v => [(k, v)]
  | (a, w) :: m, k, v =>
    if k < a then (k, v) :: (a, w) :: m
    else if a = k then (k, v) :: m
    else (a, w) :: NatMap.insert m k v

/-- Set key `k` to `v` in a table whose default for `k` is `d`: the default value is never listed. -/
def NatMap.put (d : Nat) (m : NatMap) (k v : Nat) : NatMap :=
  if v = d then m.erase k else m.insert k v

/-- The canonical form: keys strictly rising. -/
def NatMap.sorted : NatMap → Bool
  | [] => true
  | [_] => true
  | (a, _) :: (b, w) :: m => decide (a < b) && NatMap.sorted ((b, w) :: m)

/-- Keep the entries whose key satisfies `p`. -/
def NatMap.keep (p : Nat → Bool) (m : NatMap) : NatMap := m.filter (fun e => p e.1)

end Sys2Proof.Machine
end

