-- ==== Sys2Proof/Machine/Fields.lean ====
section
/-! DEFINITION. The names of every register field the spec gives the module, and of the scalar state its rules imply
(names beginning H_ or CQ_): one constructor each, with its width and its reset value.
The constructors are the spec's names, REGISTER_FIELD. -/

namespace Sys2Proof.Machine

/-- A register field, or a scalar piece of implied state. A field exists once per instance of its block and of its register. -/
inductive Fld where
  | XCH_STATUS_LOADED | XCH_STATUS_BRIDGES | XCH_STATUS_DIES | XCH_LAT_DIE2DIE | XCH_LAT_DIE | XCH_LAT_BAND
  | XCH_LAT_TILE | XCH_REPAIR_CNT_COUNT | XCH_ERR_LOC_VALID | XCH_ERR_LOC_LEVEL | XCH_ERR_LOC_SWITCH | XCH_ERR_LOC_AGENT
  | XCH_ERR_LOC_SECTION | XCH_ERR_LOC_ENTRY | XCH_EDGE_CNT_COUNT | PMP_CTL_EDGE | PMP_CTL_TOUT | PMP_CTL_ELDEPTH
  | PMP_CTL_PSRC | PMP_CTL_OVR | PMP_CTL_MODE | PMP_CMD_CODE | PMP_CMD_COUNT | PMP_STATUS_LAG
  | PMP_STATUS_RPHASE | PMP_STATUS_CMD_PEND | PMP_STATUS_CMD_LOST | PMP_STATUS_CFG_REJ | PMP_STATUS_FAULT_OUT | PMP_STATUS_TICK_PEND
  | PMP_STATUS_STATE | PMP_SLEN_STEP_NOW | PMP_SLEN_S | PMP_TDIV_INT | PMP_TDIV_FRAC | PMP_HOLD_REQ_AGENT
  | PMP_HOLD_REQ_HOST | PMP_HOLD_CAUSE_SEEN | PMP_HOLD_CAUSE_ACTIVE | PMP_HOLD_LIMIT_LIMIT | PMP_CYCLE_CYCLE | PMP_HOLD_PERIODS_PERIODS
  | PMP_OVR_CNT_COUNT | PMP_TICK_MERGE_COUNT | PMP_LAG_MAX_MAX | PMP_RATE_CHANGING | PMP_RATE_ECON | PMP_STOP_CAUSE_HOST_LOSS
  | PMP_STOP_CAUSE_REPAIR_FAIL | PMP_STOP_CAUSE_DATA_PARITY | PMP_STOP_CAUSE_HALT_CMD | PMP_STOP_CAUSE_STEP_DONE | PMP_STOP_CAUSE_LAG | PMP_STOP_CAUSE_OVERRUN
  | PMP_STOP_CAUSE_MASK | PMP_STOP_CAUSE_STOP | PMP_STOP_CYCLE_CYCLE | PMP_STOP_CODES_CODES | PMP_EVENT_RATE | PMP_EVENT_HOLD_LONG
  | PMP_EVENT_OVR | PMP_EVENT_STOPPED | PMP_EVENT_RESULT | PMP_EVENT_EN_EN | PMP_RESULT_READY | PMP_RESULT_CONSUMED
  | PMP_RESULT_OUTCOME | PMP_RESULT_CMD | PMP_RESULT_CODE | PMP_RESULT_SEQ | PMP_RESULT_CYC_CYCLE | PTN_CFG_ACTIVE
  | PTN_CFG_FALLBACK | PTN_CFG_LOSS | PTN_CFG_ALT | PTN_CFG_BIND | PTN_CFG_COUNT | PTN_CFG_FIRST
  | PTN_CMD_CODE | PTN_RESULT_READY | PTN_RESULT_CONSUMED | PTN_RESULT_OUTCOME | PTN_RESULT_CMD | PTN_RESULT_CODE
  | PTN_RESULT_SEQ | PTN_ENC_FAULT_COUNT | PTN_LOSS_PORT | PTN_LOSS_CFG_REJ | PTN_LOSS_FALLBACK | PTN_LOSS_REBOUND
  | PTN_LOSS_CMD_LOST | PTN_LOSS_LOST | PTN_LOSS_CYC_CYCLE | DM_STATUS_LD | DM_STATUS_LC_DEV | DM_STATUS_LC
  | DM_LATE_CNT_COUNT | DM_LATE_MAX_PERIODS | DM_UNMAPPED_CNT_COUNT | DM_ERR_CFG_REJ | DM_ERR_MIRROR_USED | DM_ERR_UNMAPPED
  | DM_ERR_DEEP_UE | DM_ERR_DEEP_CE | DM_ERR_CIS_UE | DM_ERR_CIS_CE | DM_ERR_LOC_VALID | DM_ERR_LOC_NET
  | DM_ERR_LOC_ADDR | DM_MAP_VALID | DM_MAP_STACK | DM_MAP_GRANULE | DMC_STACK_CFG_MIRROR | DMC_STACK_STATUS_STATE
  | DMC_STACK_STATUS_USED | DMC_STACK_STATUS_CH_FAIL | MT_CMD_CODE | MT_CMD_TARGET | MT_CMD_UNIT | MT_RESULT_READY
  | MT_RESULT_CONSUMED | MT_RESULT_OUTCOME | MT_RESULT_CMD | MT_RESULT_CODE | MT_RESULT_SEQ | MT_FAIL_CNT_COUNT
  | MT_STATUS_CMD_LOST | MT_STATUS_PEND | MT_FAIL_LOC_VALID | MT_FAIL_LOC_TARGET | MT_FAIL_LOC_UNIT | MT_FAIL_LOC_WORD
  | LDR_CMD_CODE | LDR_PARAM_REQ_CERT | LDR_PARAM_SRC | LDR_PARAM_DEEP_BASE | LDR_SRC_ADDR | LDR_STATUS_CMD_LOST
  | LDR_STATUS_CFG_REJ | LDR_STATUS_PEND | LDR_STATUS_STEP | LDR_RESULT_READY | LDR_RESULT_CONSUMED | LDR_RESULT_OUTCOME
  | LDR_RESULT_CMD | LDR_RESULT_CODE | LDR_RESULT_SEQ | LDR_REFUSE_SECTION | LDR_REFUSE_SUB | LDR_REFUSE_OFF_OFFSET
  | LDR_IMAGE_ID_ID | LDR_LAT_PAD_TRIG_LINK | LDR_LAT_PAD_CIS_RD | LDR_CERT_CERT | PRB_CTL_XOUT_EN | PRB_CTL_DONE_STOP
  | PRB_CTL_RR_EN | PRB_CMD_CODE | PRB_RESULT_READY | PRB_RESULT_CONSUMED | PRB_RESULT_OUTCOME | PRB_RESULT_CMD
  | PRB_RESULT_CODE | PRB_RESULT_SEQ | PRB_STATUS_OCC | PRB_STATUS_RATE | PRB_STATUS_CMD_LOST | PRB_STATUS_CFG_REJ
  | PRB_STATUS_PEND | PRB_STATUS_FULL | PRB_STATUS_SEQ | PRB_STATUS_CAP | PRB_BUF_BASE_BASE | PRB_BUF_LEN_LEN
  | PRB_DEPTH_POST | PRB_DEPTH_PRE | PRB_RATE_RELAX | PRB_RATE_MIN | PRB_MASK_CTL_EN | PRB_EVENT_FULL
  | PRB_EVENT_RATE_CHG | PRB_EVENT_WR_ERR | PRB_EVENT_IRQ | PRB_EVENT_SEQ_STOP | PRB_EVENT_VIOL | PRB_EVENT_DONE
  | PRB_EVENT_TRIGGERED | PRB_EVENT_EN_EN | PRB_VIOL_CNT_COUNT | PRB_VIOL_POS_VALID | PRB_VIOL_POS_POS | PRB_VIOL_CYC_CYCLE
  | PRB_TRIG_CYC_CYCLE | PRB_TRIG_REC_REC_NO | PRB_TRIG_SRC_FORCE | PRB_TRIG_SRC_SEQ | PRB_REC_CNT_COUNT | PRB_SEQ_CTL_ACT_XOUT
  | PRB_SEQ_CTL_ACT_IRQ | PRB_SEQ_CTL_ACT_LINE | PRB_SEQ_CTL_ACT_STOP | PRB_SEQ_CTL_ACT_TRIGGER | PRB_SEQ_CTL_NEXT_B | PRB_SEQ_CTL_NEXT_A
  | RIM_SECT_OWN_EDGE | RIM_SECT_OWN_CFG_REJ | RIM_SECT_OWN_OWNER | RIM_CLK_SEL_AUTO | RIM_CLK_SEL_ALT | RIM_CLK_SEL_SRC
  | RIM_CLK_STATUS_CFG_REJ | RIM_CLK_STATUS_ON_ALT | RIM_CLK_STATUS_LOST | RIM_RST_CTL_SW_ASSERT | RIM_RST_CTL_SYNC | RIM_RST_CTL_BANK
  | RIM_RST_CTL_SRC | RIM_BUS_EVT_BANK | RIM_BUS_LOC_VALID | RIM_BUS_LOC_BANK | RIM_BUS_LOC_LINE | RIM_SCRUB_CTL_LOCK
  | RIM_SCRUB_CTL_UE_FAULT | RIM_SCRUB_CTL_EN | RIM_SCRUB_STATUS_PASSES | RIM_SCRUB_STATUS_FRAME | RIM_SCRUB_CE_CNT_COUNT | RIM_SCRUB_UE_LOC_VALID
  | RIM_SCRUB_UE_LOC_FRAME | ELB_CTL_ODEPTH | ELB_CTL_ODLY | ELB_STATUS_CFG_REJ | ELB_STATUS_OUT_USED | ELB_STATUS_IN_USED
  | ELB_STATUS_FULL | ELB_EVENT_FULL | ELB_EVENT_OUT_LATE | ELB_LATE_CNT_COUNT | RIM_ID_ID | RIM_LD_CMD_CODE
  | RIM_LD_CMD_SECTOR | RIM_LD_PARAM_SRC | RIM_LD_PARAM_MAXLEN | RIM_LD_RESULT_READY | RIM_LD_RESULT_CONSUMED | RIM_LD_RESULT_OUTCOME
  | RIM_LD_RESULT_CMD | RIM_LD_RESULT_CODE | RIM_LD_RESULT_SEQ | RIM_LD_SRC_ADDR | RIM_LD_STATUS_ERR | RIM_LD_STATUS_BUSY
  | RIM_LD_STATUS_ORIGIN | RIM_LD_STATUS_CMD_LOST | RIM_LD_STATUS_PART | RIM_LD_STATUS_CODE | RIM_LD_ERR_LOC_WORD | RIM_SECT_STATE_STATE
  | IOB_BANK_CFG_LOCKED | IOB_BANK_CFG_VREF | IOB_BANK_CFG_VCCIO | IOB_BANK_STATUS_CFG_REJ | IOB_BANK_STATUS_VMEAS | IOB_BANK_STATUS_STRAP
  | IOB_BANK_STATUS_SWITCHING | IOB_BANK_STATUS_VMISMATCH | IOB_BANK_STATUS_PGOOD | IOB_LOCK_KEY | IOB_PIN_CFG_AGENT | IOB_PIN_CFG_IDLE
  | IOB_PIN_CFG_TERM | IOB_PIN_CFG_PULL | IOB_PIN_CFG_SLEW | IOB_PIN_CFG_DRIVE | IOB_PIN_CFG_STD | IOB_PIN_CFG_FUNC
  | AGP_OUT_LO_MASK | AGP_OUT_LO_VAL | AGP_OUT_HI_MASK | AGP_OUT_HI_VAL | AGP_OE_LO_MASK | AGP_OE_LO_VAL
  | AGP_OE_HI_MASK | AGP_OE_HI_VAL | AGP_IN_PINS | AGP_DENY_CNT_COUNT | AGP_DENY_LOC_VALID | AGP_DENY_LOC_CORE
  | AGP_DENY_LOC_BANK | AGP_DENY_LOC_PIN | LQ_QUAD_CTL_REVERT | LQ_QUAD_CTL_CFG_REJ | LQ_QUAD_CTL_FAIL_TIME | LQ_QUAD_CTL_PROTECT
  | LQ_QUAD_CTL_QSPARE | LQ_QUAD_CTL_PLLB | LQ_QUAD_CTL_PLLA | LQ_QUAD_STATUS_SPARE_USED | LQ_QUAD_STATUS_FAILED | LQ_QUAD_STATUS_PLLB_LOCK
  | LQ_QUAD_STATUS_PLLA_LOCK | LQ_LANE_CTL_RCDIV | LQ_LANE_CTL_ALIGN | LQ_LANE_CTL_SCR | LQ_LANE_CTL_RXINV | LQ_LANE_CTL_TXINV
  | LQ_LANE_CTL_ENC | LQ_LANE_CTL_PLL | LQ_LANE_CTL_EN | LQ_LANE_TXEQ_POST | LQ_LANE_TXEQ_MAIN | LQ_LANE_TXEQ_PRE
  | LQ_LANE_STATUS_LOCK_LOST | LQ_LANE_STATUS_LOCK | LQ_LANE_STATUS_ADAPTED | LQ_LANE_STATUS_SIGDET | LQ_LANE_ERR_COUNT | LQ_PRBS_CTL_INJ
  | LQ_PRBS_CTL_INJ_RATE | LQ_PRBS_CTL_INV | LQ_PRBS_CTL_PAT | LQ_PRBS_CTL_CHK_EN | LQ_PRBS_CTL_GEN_EN | LQ_PRBS_STATUS_CHK_LOST
  | LQ_PRBS_STATUS_CHK_LOCK | LQ_PRBS_ERR_COUNT | LQ_PRBS_BITS_COUNT | LQ_DFE_FREEZE | LQ_DFE_TAPSEL | LQ_DFE_VALUE
  | ETH_CTL_FEC | ETH_CTL_MODE | ETH_CTL_EN | ETH_STATUS_EPOCH_MISS | ETH_STATUS_EPOCH_VALID | ETH_STATUS_TS_OVF
  | ETH_STATUS_LINK | ETH_PTP_NEXT_SEC_SEC | ETH_PTP_NEXT_NS_NS | ETH_TX_TS_VALID | ETH_TX_TS_MSGTYPE | ETH_TX_TS_SEQID
  | ETH_TX_TS_NS | DMA_PORT_STATUS_X16 | DMA_PORT_STATUS_SPEED | DMA_PORT_STATUS_WIDTH | DMA_CH_CTL_ABORT | DMA_CH_CTL_EN
  | DMA_CH_DESC_BASE_ADDR | DMA_CH_CPL_BASE_ADDR | DMA_CH_RING_LOG2 | DMA_CH_PI_PI | DMA_CH_STATUS_CFG_REJ | DMA_CH_STATUS_LOSS
  | DMA_CH_STATUS_ERR | DMA_CH_STATUS_BUSY | DMA_CH_STATUS_CI | GLB_ID_PART | GLB_ID_STEP | GLB_ID_DIES
  | GLB_ID_TEMP | GLB_PORT_X16 | GLB_PORT_MASTER | GLB_ACC_ERR_COUNT | GLB_ACC_LOC_VALID | GLB_ACC_LOC_BAR2
  | GLB_ACC_LOC_WRITE | GLB_ACC_LOC_OFFSET | GLB_BAR2_SEL_CFG_REJ | GLB_BAR2_SEL_WIN | GLB_BAR2_SEL_PART | GLB_LAT_SEL_UNIT
  | GLB_LAT_VAL_PRESENT | GLB_LAT_VAL_EXACT | GLB_LAT_VAL_LARGEST | GLB_LAT_VAL_DEFAULT | GLB_LAT_VAL_DEVICE | GLB_LAT_CNT_COUNT
  | NOC_RSV_PACED | NOC_RSV_PROBE | NOC_RSV_DEEP | NOC_TIMEOUT_US | NOC_TIMEOUT_CNT_COUNT | NOC_LATE_CNT_COUNT
  | NOC_STATUS_CFG_REJ | NOC_STATUS_TAGS_HI | NOC_STATUS_TAGS_LO | NOC_STATUS_RSV_FREE | NOC_ERR_LOC_VALID | NOC_ERR_LOC_TAG
  | NOC_ERR_LOC_TARGET | NOC_ERR_LOC_SOURCE | SVC_CTL_ICINV | SVC_CTL_RST | SVC_CTL_RUN | SVC_ACC_ERR_COUNT
  | SVC_ENTRY_ADDR | SCH_CTL_SUMP_EN | SCH_CTL_BPWAIT | SCH_STATUS_BP | SCH_STATUS_SEQ_ERR | SCH_STATUS_CFG_REJ
  | SCH_STATUS_MS_USED | SCH_STATUS_SUMP_USED | SCH_SUMP_LEN | SCH_SUMP_BASE | SCH_DROP_CNT_COUNT | SCH_POST_VAL_VALUE
  | SCH_POST_INDEX | SCH_POST_THREAD | SCH_POST_RES_COUNT | SCH_POST_RES_OUTCOME | SCH_TAKE_EMPTY | SCH_TAKE_BUSY
  | SCH_TAKE_PRIO | SCH_TAKE_THREAD | SCH_DONE_THREAD | SCH_TOKEN_VALUE | SCH_TOKSRC_SRC | SCH_THR_CFG_EN
  | SCH_THR_CFG_STATE | SCH_THR_CFG_AFFINITY | SCH_THR_CFG_WAIT | SCH_THR_CFG_PRIO | IC_SRC_CFG_SECURE | IC_SRC_CFG_MODE
  | IC_SRC_CFG_PRIO | IC_SRC_CFG_TARGETS | IC_ERR_COUNT | TRC_CTL_EN | TRC_CTL_STALL | TRC_CTL_LPWAIT
  | TRC_CTL_SINK | TRC_CTL_PORT | TRC_CTL_SRC_EN | TRC_BASE_ADDR | TRC_LEN_LOG2 | TRC_WP_WP
  | TRC_STATUS_CFG_REJ | TRC_STATUS_SINK_LOST | TRC_STATUS_WRAPPED | TRC_STATUS_SEC_ALLOWED | TRC_STATUS_OCC | TRC_LOST_COUNT
  | TRC_SW_VALUE | MBX_MSG_DATA | MBX_DOORBELL_RING | MBX_STATUS_SEQ | MBX_STATUS_SRESET | MBX_STATUS_RRESET
  | MBX_STATUS_COLLISION | MBX_STATUS_SNAP | MBX_STATUS_FULL | TK_INC_INT | TK_INC_FRAC | TK_NOW_WRAPS
  | TK_NOW_NS | TK_STEP_OVERRIDE | TK_STEP_DELTA | TK_JUMP_THR_THR | TK_ALIGN_OVERRIDE | TK_ALIGN_ARM
  | TK_ALIGN_VALUE | TK_PPS_CAP_VALID | TK_PPS_CAP_NS | TK_DSTATUS_CFG_REJ | TK_DSTATUS_ALIGN_REF | TK_DSTATUS_ALIGN_DONE
  | TK_DSTATUS_STEP_REF | TK_DSTATUS_STEP_DONE | TK_SEL_SW_DONE | TK_SEL_SW_REF | TK_SEL_SW_NOPPS | TK_SEL_PEND
  | TK_SEL_REQ | TK_SEL_DOM | TK_SEL_TOL_TOL | TK_PPS_GLITCH_COUNT | TK_CMP_ARM | TK_CMP_FIRED
  | TK_CMP_DOM | TK_CMP_VALUE | TK_PPS_OUT_EN | TK_PPS_OUT_DOM | TK_PPS_OUT_WIDTH | TK_PPS_OUT_NEXT
  | TK_EVT_VALID | TK_EVT_OVF | TK_EVT_DOM | TK_EVT_NS | PWR_STATE_CFG_REJ | PWR_STATE_CMD_LOST
  | PWR_STATE_WAKE | PWR_STATE_STATE | PWR_CMD_CODE | PWR_RESULT_READY | PWR_RESULT_CONSUMED | PWR_RESULT_OUTCOME
  | PWR_RESULT_CMD | PWR_RESULT_CODE | PWR_RESULT_SEQ | PWR_CTL_QLIMIT | PWR_CTL_CRIT | PWR_CTL_WARN
  | PWR_WAKE_CTL_MGMT_ADDR | PWR_WAKE_CTL_MGMT_EN | PWR_WAKE_CTL_POL | PWR_WAKE_CTL_EN | PWR_WATCH_CTL_COUNT | PWR_WATCH_CTL_INTERVAL
  | PWR_WATCH_PIN_VALID | PWR_WATCH_PIN_BANK | PWR_WATCH_PIN_PIN | PWR_AVS_FAIL | PWR_AVS_TMO | PWR_AVS_VDD_C
  | PWR_RST_CAUSE_TAMPER | PWR_RST_CAUSE_LC | PWR_RST_CAUSE_THERM | PWR_RST_CAUSE_BROWNOUT | PWR_RST_CAUSE_PIN | PWR_RST_CAUSE_POR
  | LC_STATE_REFUSED | LC_STATE_PEND | LC_STATE_STATE | LC_CMD_KEY | DBG_STATUS_NONCE | DBG_STATUS_DENIED
  | DBG_STATUS_REJ | DBG_STATUS_PERM | DBG_STATUS_LEVEL | PTN_DPAR_LOC_VALID | PTN_DPAR_LOC_BP | PTN_DPAR_LOC_SLOT
  | FLT_SRC_BOOT | FLT_SRC_SW | FLT_SRC_THERM | FLT_SRC_REPAIR | FLT_SRC_MEM | FLT_SRC_LINK
  | FLT_SRC_SVC | FLT_SRC_RIM | FLT_SRC_PUMP | FLT_FN_EN_EN | FLT_CTL_LOCK | FLT_CTL_CFG_REJ
  | FLT_CTL_SW_ASSERT | FLT_LOG_LOST_COUNT | FLT_LOG_VALID | FLT_LOG_CODE | FLT_LOG_PART | FLT_LOG_DOM
  | FLT_LOG_TIME | FLT_LOG_INFO_INFO | FLT_CNT_COUNT | FLT_IREP_CNT_COUNT | PRB_SEL_BITS | PRB_VAL_BITS
  | PRB_CND_CTL_EN | PRB_CND_CTL_MODE | PRB_CND_CTL_COUNT | PRB_TEMPLATE_BITS | PRB_MASK_BITS | IC_PEND_BIT
  | IC_EN_BIT | IC_ACTIVE_BIT | IC_CLAIM_SOURCE | IC_COMPLETE_SOURCE | IC_THRESH_THRESH | IC_RUNPRIO_PRIO
  | ETH_RX_RING_LOG2 | ETH_RX_RING_OFFSET | ETH_TX_RING_LOG2 | ETH_TX_RING_OFFSET | ETH_RX_IDX_DROP | ETH_RX_IDX_HW
  | ETH_RX_IDX_SW | ETH_TX_IDX_HW | ETH_TX_IDX_SW | PWR_WATCH_VAL_BITS | PWR_WATCH_MASK_BITS | PWR_WATCH_LAST_BITS
  | MSIX_ADDR_LO_ADDR | MSIX_ADDR_HI_ADDR | MSIX_DATA_DATA | MSIX_CTRL_MASK | MSIX_PBA_BIT | CQ_PEND
  | CQ_CMD | CQ_SEQ | CQ_PSEQ | CQ_COUNT | H_FETCH | H_HOLD_MARK | H_LAST_ASSERT
  | H_STEP_DONE | H_CYC_HELD | H_CYC_TIME | H_CYC_DOM | H_HOLD_START | H_HOLD_LONG_SET
  | H_STOP_PEND | H_STOP_CODES | H_DIV_ON | H_DIV_START | H_DIV_J | H_RAMP_END
  | H_TICK_OUT | H_RATE_DUE | H_RATE_PART | H_RATE_NEW | H_RES_CYC | H_TRC_SEQ
  | H_TRC_LOSTN | SCH_SLOT | SCH_RUNNING | SCH_ORDER | SCH_NEXT_ORDER | IC_CLAIMED_BY
  | H_SUMP_LO | H_SUMP_HI | H_FAULT_N | H_LINK_FAIL | H_TEMP | H_DS_MIRROR
  | H_DPAR_FIRST | H_TRIG | H_TICK_NO
  | H_CYC_TICK | H_ELB_FULL | H_GOLD_LO | H_GOLD_CNT | H_TAG_GEN | H_MASK_EN
  | H_RAMP_START | H_PROBE_W | H_LC_LOADED | H_LINKUP | H_LOST | H_LATE_FROM
  | H_SEQ_CNT_A | H_SEQ_CNT_B | H_LATCH_X | H_LATCH_L | H_LATCH_CMP | H_LATCH_FORCE
  | H_POST_LEFT | H_TRIGGED | H_FALL_CNT | H_PREV_OCC | H_XOUT | H_XOUT_FALL
  | H_PRIMING | H_MT_TARGET | H_MT_UNIT | H_MT_DUE | H_LATE_N | H_REBIND
  | H_VAULT_SLOT | H_FLASH_SIZE | H_RS_STATE | H_RS_WORD | H_RS_CRC | H_RS_MASK
  | H_RS_SECT | H_RS_PTR | H_RS_LAST | H_SECT_DUE | H_CLR_SECT | H_BUS_OFF
  | H_TREE_LOW | H_RST_TREE | H_ABSENT | H_PIN_PEND | H_PIN_IDLE | H_PIN_SRC
  | H_LOCK_SEQ | H_PG_SETTLE | H_LANE_FAIL | H_PRBS_BITS
  | H_DFE_TAP | H_EPOCH_SEC | H_EPOCH_NS | H_EPOCH_ARM | H_PERST | H_LINK_DUE
  | H_DMA_NEXT | H_DMA_PASS | H_MBX_STAGE | H_MBX_SNAP | H_MBX_SNAPSEQ | H_UT_VER
  | H_UT_KA | H_UT_LAST | H_FW_SEC | H_FW_SVC | H_FW_SLOTS | H_FW_FLAGS
  | H_FW_DOWN | H_TK_FRAC | H_TK_AT | H_STEP_PEND | H_STEP_DELTA | H_PPS_LAST
  | H_SW_DUE | H_PPS_OUT | H_PPS_FALL | H_QUIESCE | H_Q_DUE | H_EXIT
  | H_EXIT_DUE | H_EXIT_CAUSE | H_WATCH_CNT | H_WATCH_DUE | H_WAKE_CAUSE | H_LC_KEY
  | H_LC_DUE | H_WIPE | H_NONCE | H_THERM | H_JTAG_IR | H_JTAG_BSR
  | H_LP | H_LP_LOST | H_WARM | H_SRAM_BAD | H_IMG_POS | H_PIN_CFG | H_PIN_MOVE | H_AGP_OUT | H_AGP_OE
  | H_RST_CNT | H_START_EDGES | H_TREE_SRC | H_TREE_LVL | H_TREE_PH | H_TREE_DEAD | H_HUNT | H_WIN | H_WIN_BAD
  | H_DESC | H_SCRAM | H_RX_RD | H_TX_RD | H_GEN | H_GEN_BITS | H_CHK | H_CHK_RUN | H_CHK_WIN | H_CHK_BAD
  | H_TX_WORD | H_RX_UNIT | H_AN | H_AN_WORD | H_AN_POS | H_RST_N | H_SEC | H_BAR2_OUT | H_FW_GOOD | H_BOOT_START
  | H_WAKE_DUE
deriving DecidableEq, Repr

/-- The width of a field in bits; 0 stands for a natural number without a bound (implied state that is no register). -/
def Fld.width : Fld → Nat
  | .DM_ERR_LOC_ADDR => 40
  | .MT_FAIL_LOC_WORD => 20
  | .PRB_BUF_BASE_BASE => 34
  | .TRC_BASE_ADDR => 60
  | .FLT_FN_EN_EN => 23
  | .RIM_LD_PARAM_MAXLEN | .TRC_WP_WP => 24
  | .DMA_CH_DESC_BASE_ADDR | .DMA_CH_CPL_BASE_ADDR | .H_DESC | .H_SCRAM => 58
  | .ETH_RX_RING_OFFSET | .ETH_TX_RING_OFFSET => 18
  | .XCH_ERR_LOC_SWITCH | .TRC_STATUS_OCC | .H_STOP_PEND => 9
  | .PTN_CFG_COUNT | .NOC_STATUS_TAGS_HI | .PWR_WAKE_CTL_MGMT_ADDR | .H_HUNT | .H_WIN | .H_CHK_RUN | .H_CHK_BAD => 7
  | .ETH_PTP_NEXT_NS_NS | .MSIX_ADDR_LO_ADDR | .H_EPOCH_NS => 30
  | .PMP_SLEN_STEP_NOW | .PMP_SLEN_S | .PRB_STATUS_OCC | .SCH_STATUS_MS_USED => 13
  | .ETH_PTP_NEXT_SEC_SEC | .GLB_ACC_LOC_OFFSET | .SVC_ENTRY_ADDR | .H_EPOCH_SEC => 48
  | .MT_FAIL_LOC_UNIT | .RIM_SCRUB_STATUS_FRAME | .RIM_SCRUB_UE_LOC_FRAME | .PTN_DPAR_LOC_BP | .H_PROBE_W | .H_RS_PTR | .H_RS_LAST => 17
  | .DM_STATUS_LD | .NOC_STATUS_TAGS_LO | .NOC_ERR_LOC_TARGET | .NOC_ERR_LOC_SOURCE | .SCH_POST_THREAD | .SCH_TAKE_THREAD | .SCH_DONE_THREAD | .TRC_CTL_SRC_EN
  | .IC_CLAIM_SOURCE | .IC_COMPLETE_SOURCE => 10
  | .XCH_ERR_LOC_ENTRY | .RIM_CLK_STATUS_ON_ALT | .RIM_CLK_STATUS_LOST | .RIM_BUS_EVT_BANK | .GLB_ID_PART | .SCH_SUMP_LEN | .SCH_SUMP_BASE | .PWR_AVS_TMO
  | .PTN_DPAR_LOC_SLOT | .ETH_RX_IDX_HW | .ETH_RX_IDX_SW | .ETH_TX_IDX_HW | .ETH_TX_IDX_SW | .H_FETCH => 12
  | .PMP_HOLD_CAUSE_SEEN | .PMP_HOLD_CAUSE_ACTIVE | .PTN_CFG_FIRST | .MT_CMD_UNIT | .RIM_BUS_LOC_LINE | .LQ_LANE_TXEQ_POST | .LQ_LANE_TXEQ_MAIN | .LQ_LANE_TXEQ_PRE
  | .NOC_RSV_PACED | .NOC_RSV_PROBE | .NOC_RSV_DEEP | .NOC_STATUS_RSV_FREE | .SCH_CTL_BPWAIT | .H_HOLD_MARK | .H_MT_UNIT => 6
  | .PMP_CYCLE_CYCLE | .PMP_HOLD_PERIODS_PERIODS | .PMP_STOP_CYCLE_CYCLE | .PMP_STOP_CODES_CODES | .PMP_RESULT_CYC_CYCLE | .PTN_LOSS_CYC_CYCLE | .LDR_SRC_ADDR | .LDR_REFUSE_OFF_OFFSET
  | .LDR_IMAGE_ID_ID | .PRB_VIOL_CYC_CYCLE | .PRB_TRIG_CYC_CYCLE | .PRB_REC_CNT_COUNT | .LQ_PRBS_BITS_COUNT | .SCH_POST_VAL_VALUE | .SCH_TOKEN_VALUE | .TRC_SW_VALUE
  | .FLT_LOG_INFO_INFO | .H_STOP_CODES | .H_RES_CYC | .H_TRIG | .H_PRBS_BITS | .H_IMG_POS => 64
  | .PMP_STATUS_STATE | .PTN_CFG_ALT | .PTN_CFG_BIND | .PTN_LOSS_PORT | .DM_MAP_STACK | .LDR_PARAM_SRC | .PRB_STATUS_SEQ | .PRB_SEQ_CTL_NEXT_B
  | .PRB_SEQ_CTL_NEXT_A | .RIM_LD_PARAM_SRC | .IOB_BANK_CFG_VCCIO | .IOB_PIN_CFG_PULL | .IOB_PIN_CFG_FUNC | .LQ_QUAD_CTL_FAIL_TIME | .LQ_LANE_CTL_RCDIV | .LQ_PRBS_CTL_PAT
  | .GLB_PORT_MASTER | .SCH_POST_INDEX | .SCH_THR_CFG_STATE | .PWR_STATE_STATE | .H_REBIND | .H_RS_STATE | .H_PIN_SRC | .H_LP | .H_AN | .H_AN_POS | .H_FW_GOOD => 3
  | .XCH_ERR_LOC_SECTION | .PMP_CTL_ELDEPTH | .PMP_CTL_PSRC | .PMP_STATUS_LAG | .PMP_STATUS_RPHASE | .PMP_LAG_MAX_MAX | .PMP_EVENT_EN_EN | .DM_MAP_GRANULE
  | .DMC_STACK_STATUS_USED | .LDR_STATUS_STEP | .LDR_CERT_CERT | .RIM_SECT_OWN_OWNER | .ELB_CTL_ODEPTH | .ELB_CTL_ODLY | .ELB_STATUS_OUT_USED | .ELB_STATUS_IN_USED
  | .IOB_PIN_CFG_STD | .AGP_DENY_LOC_PIN | .DMA_PORT_STATUS_WIDTH | .DMA_CH_RING_LOG2 | .SCH_TAKE_PRIO | .SCH_THR_CFG_PRIO | .IC_SRC_CFG_PRIO | .TRC_LEN_LOG2
  | .PWR_WATCH_PIN_PIN | .IC_THRESH_THRESH | .IC_RUNPRIO_PRIO | .H_WIN_BAD => 5
  | .XCH_ERR_LOC_LEVEL | .PMP_CTL_OVR | .PMP_CTL_MODE | .PMP_RESULT_OUTCOME | .PTN_CFG_LOSS | .PTN_RESULT_OUTCOME | .DMC_STACK_STATUS_STATE | .MT_CMD_TARGET
  | .MT_RESULT_OUTCOME | .MT_FAIL_LOC_TARGET | .LDR_RESULT_OUTCOME | .PRB_RESULT_OUTCOME | .PRB_STATUS_CAP | .RIM_RST_CTL_SRC | .RIM_LD_RESULT_OUTCOME | .RIM_LD_STATUS_ORIGIN
  | .RIM_SECT_STATE_STATE | .IOB_BANK_CFG_VREF | .IOB_BANK_STATUS_STRAP | .IOB_PIN_CFG_AGENT | .IOB_PIN_CFG_IDLE | .IOB_PIN_CFG_TERM | .IOB_PIN_CFG_SLEW | .IOB_PIN_CFG_DRIVE
  | .AGP_DENY_LOC_CORE | .LQ_QUAD_CTL_QSPARE | .LQ_LANE_CTL_ENC | .ETH_CTL_MODE | .GLB_BAR2_SEL_WIN | .SCH_POST_RES_OUTCOME | .TRC_CTL_PORT | .PWR_RESULT_OUTCOME
  | .DBG_STATUS_LEVEL | .H_LATCH_CMP | .H_PRIMING | .H_MT_TARGET | .H_QUIESCE | .H_EXIT | .H_THERM | .H_RST_CNT | .H_START_EDGES | .H_TREE_PH => 2
  | .PMP_RESULT_CODE | .PTN_RESULT_CODE | .MT_RESULT_CODE | .LDR_PARAM_DEEP_BASE | .LDR_RESULT_CODE | .LDR_REFUSE_SUB | .LDR_LAT_PAD_TRIG_LINK | .LDR_LAT_PAD_CIS_RD
  | .PRB_RESULT_CODE | .PRB_EVENT_EN_EN | .RIM_CLK_SEL_ALT | .RIM_CLK_SEL_SRC | .RIM_SCRUB_STATUS_PASSES | .RIM_LD_RESULT_CODE | .RIM_LD_STATUS_CODE | .IOB_BANK_STATUS_VMEAS
  | .IOB_LOCK_KEY | .LQ_QUAD_CTL_PLLB | .LQ_QUAD_CTL_PLLA | .LQ_DFE_VALUE | .GLB_LAT_SEL_UNIT | .GLB_LAT_VAL_LARGEST | .GLB_LAT_VAL_DEFAULT | .GLB_LAT_VAL_DEVICE
  | .GLB_LAT_CNT_COUNT | .SCH_THR_CFG_AFFINITY | .SCH_THR_CFG_WAIT | .TK_INC_INT | .TK_PPS_OUT_WIDTH | .PWR_RESULT_CODE | .PWR_CTL_CRIT | .PWR_CTL_WARN
  | .PWR_WATCH_CTL_COUNT | .FLT_LOG_CODE | .ETH_RX_IDX_DROP | .H_TEMP | .H_GOLD_LO | .H_GOLD_CNT | .H_RS_MASK | .H_DFE_TAP
  | .H_FW_SLOTS | .H_FW_FLAGS | .H_WATCH_CNT | .H_TREE_SRC => 8
  | .H_LAST_ASSERT | .H_CYC_HELD | .H_HOLD_START | .H_DIV_START | .H_DIV_J | .H_RAMP_END | .H_RATE_DUE | .SCH_SLOT
  | .SCH_RUNNING | .SCH_ORDER | .SCH_NEXT_ORDER | .IC_CLAIMED_BY | .H_SUMP_LO | .H_SUMP_HI
  | .H_TICK_NO | .H_CYC_TICK | .H_RAMP_START | .H_LATE_FROM | .H_FALL_CNT | .H_PREV_OCC | .H_XOUT_FALL
  | .H_MT_DUE | .H_LATE_N | .H_FLASH_SIZE | .H_SECT_DUE | .H_PIN_PEND | .H_PIN_IDLE | .H_PG_SETTLE
  | .H_LANE_FAIL | .H_LINK_DUE | .H_UT_LAST | .H_TK_AT | .H_PPS_LAST | .H_SW_DUE | .H_PPS_FALL | .H_Q_DUE
  | .H_EXIT_DUE | .H_WATCH_DUE | .H_LC_KEY | .H_LC_DUE | .H_JTAG_BSR | .H_GEN_BITS | .H_TX_WORD | .H_RX_UNIT | .H_WAKE_DUE => 0
  | .PMP_CMD_COUNT | .PMP_TDIV_INT | .PMP_TDIV_FRAC | .PMP_HOLD_LIMIT_LIMIT | .PMP_RESULT_SEQ | .PTN_RESULT_SEQ | .DMC_STACK_STATUS_CH_FAIL | .MT_RESULT_SEQ
  | .LDR_RESULT_SEQ | .LDR_REFUSE_SECTION | .PRB_RESULT_SEQ | .PRB_DEPTH_POST | .PRB_DEPTH_PRE | .PRB_RATE_RELAX | .PRB_VIOL_POS_POS | .RIM_LD_RESULT_SEQ
  | .AGP_OUT_LO_MASK | .AGP_OUT_LO_VAL | .AGP_OUT_HI_MASK | .AGP_OUT_HI_VAL | .AGP_OE_LO_MASK | .AGP_OE_LO_VAL | .AGP_OE_HI_MASK | .AGP_OE_HI_VAL
  | .ETH_TX_TS_SEQID | .DMA_CH_PI_PI | .DMA_CH_STATUS_CI | .NOC_TIMEOUT_US | .NOC_ERR_LOC_TAG | .SCH_STATUS_SUMP_USED | .SCH_POST_RES_COUNT | .IC_SRC_CFG_TARGETS
  | .MBX_STATUS_SEQ | .PWR_RESULT_SEQ | .PWR_CTL_QLIMIT | .PWR_WATCH_CTL_INTERVAL | .PWR_AVS_VDD_C | .FLT_SRC_PUMP | .PRB_CND_CTL_COUNT | .CQ_SEQ | .CQ_PSEQ
  | .CQ_COUNT | .H_TRC_SEQ | .H_SEQ_CNT_A | .H_SEQ_CNT_B | .H_LATCH_L | .H_POST_LEFT | .H_DMA_NEXT | .H_MBX_SNAPSEQ
  | .H_UT_VER | .H_UT_KA | .H_AN_WORD => 16
  | .XCH_STATUS_BRIDGES | .XCH_STATUS_DIES | .XCH_LAT_DIE2DIE | .XCH_LAT_DIE | .XCH_LAT_BAND | .XCH_LAT_TILE | .PMP_CMD_CODE | .PMP_RESULT_CMD
  | .PTN_CMD_CODE | .PTN_RESULT_CMD | .DM_STATUS_LC_DEV | .DM_STATUS_LC | .MT_CMD_CODE | .MT_RESULT_CMD | .LDR_CMD_CODE | .LDR_RESULT_CMD
  | .PRB_CTL_XOUT_EN | .PRB_CMD_CODE | .PRB_RESULT_CMD | .PRB_STATUS_RATE | .PRB_RATE_MIN | .PRB_SEQ_CTL_ACT_XOUT | .RIM_RST_CTL_SYNC | .RIM_RST_CTL_BANK
  | .RIM_BUS_LOC_BANK | .RIM_LD_CMD_CODE | .RIM_LD_CMD_SECTOR | .RIM_LD_RESULT_CMD | .RIM_LD_STATUS_PART | .AGP_DENY_LOC_BANK | .LQ_QUAD_CTL_PROTECT | .LQ_QUAD_STATUS_FAILED
  | .LQ_PRBS_CTL_INJ_RATE | .LQ_DFE_TAPSEL | .ETH_TX_TS_MSGTYPE | .DMA_PORT_STATUS_SPEED | .GLB_ID_STEP | .GLB_ID_DIES | .GLB_ID_TEMP | .GLB_BAR2_SEL_PART
  | .SCH_TOKSRC_SRC | .PWR_STATE_WAKE | .PWR_CMD_CODE | .PWR_RESULT_CMD | .PWR_WAKE_CTL_POL | .PWR_WAKE_CTL_EN | .PWR_WATCH_PIN_BANK | .LC_STATE_PEND
  | .LC_STATE_STATE | .DBG_STATUS_PERM | .FLT_LOG_PART | .ETH_RX_RING_LOG2 | .ETH_TX_RING_LOG2 | .CQ_CMD | .H_RATE_PART | .H_TAG_GEN
  | .H_LATCH_X | .H_RS_SECT | .H_CLR_SECT | .H_FW_DOWN | .H_EXIT_CAUSE | .H_WAKE_CAUSE | .H_JTAG_IR => 4
  | .XCH_REPAIR_CNT_COUNT | .XCH_EDGE_CNT_COUNT | .PMP_OVR_CNT_COUNT | .PMP_TICK_MERGE_COUNT | .PTN_ENC_FAULT_COUNT | .DM_LATE_CNT_COUNT | .DM_LATE_MAX_PERIODS | .DM_UNMAPPED_CNT_COUNT
  | .MT_FAIL_CNT_COUNT | .PRB_BUF_LEN_LEN | .PRB_VIOL_CNT_COUNT | .PRB_TRIG_REC_REC_NO | .RIM_SCRUB_CE_CNT_COUNT | .ELB_LATE_CNT_COUNT | .RIM_ID_ID | .RIM_LD_SRC_ADDR
  | .RIM_LD_ERR_LOC_WORD | .AGP_IN_PINS | .AGP_DENY_CNT_COUNT | .LQ_LANE_ERR_COUNT | .LQ_PRBS_ERR_COUNT | .ETH_TX_TS_NS | .GLB_ACC_ERR_COUNT | .NOC_TIMEOUT_CNT_COUNT
  | .NOC_LATE_CNT_COUNT | .SVC_ACC_ERR_COUNT | .SCH_DROP_CNT_COUNT | .IC_ERR_COUNT | .TRC_LOST_COUNT | .MBX_MSG_DATA | .TK_INC_FRAC | .TK_NOW_WRAPS
  | .TK_NOW_NS | .TK_STEP_DELTA | .TK_JUMP_THR_THR | .TK_ALIGN_VALUE | .TK_PPS_CAP_NS | .TK_SEL_TOL_TOL | .TK_PPS_GLITCH_COUNT | .TK_CMP_VALUE
  | .TK_PPS_OUT_NEXT | .TK_EVT_NS | .LC_CMD_KEY | .DBG_STATUS_NONCE | .FLT_LOG_LOST_COUNT | .FLT_LOG_TIME | .FLT_CNT_COUNT | .FLT_IREP_CNT_COUNT
  | .PRB_SEL_BITS | .PRB_VAL_BITS | .PRB_TEMPLATE_BITS | .PRB_MASK_BITS | .PWR_WATCH_VAL_BITS | .PWR_WATCH_MASK_BITS | .PWR_WATCH_LAST_BITS | .MSIX_ADDR_HI_ADDR
  | .MSIX_DATA_DATA | .H_CYC_TIME | .H_TRC_LOSTN | .H_DPAR_FIRST | .H_RS_WORD | .H_RS_CRC | .H_MBX_STAGE | .H_MBX_SNAP
  | .H_FW_SEC | .H_FW_SVC | .H_TK_FRAC | .H_STEP_DELTA | .H_NONCE | .H_PIN_CFG | .H_AGP_OUT | .H_AGP_OE => 32
  | .H_GEN | .H_CHK => 31
  | .H_CHK_WIN => 11
  | _ => 1

/-- The reset value of a field (R17); fields whose reset value depends on the instance or the part are views. Log 127 (DESIGN CHOICE). -/
def Fld.reset : Fld → Nat
  | .PRB_CTL_RR_EN | .RIM_SCRUB_CTL_EN | .ELB_CTL_ODLY | .LQ_LANE_CTL_SCR | .GLB_LAT_SEL_UNIT | .GLB_LAT_VAL_PRESENT | .SCH_CTL_SUMP_EN | .TK_INC_INT
  | .PWR_WATCH_CTL_COUNT | .PWR_RST_CAUSE_POR | .FLT_SRC_BOOT | .PRB_CND_CTL_COUNT | .MSIX_CTRL_MASK | .SCH_NEXT_ORDER | .H_FAULT_N
  | .H_JTAG_IR => 1
  | .XCH_LAT_TILE | .LC_STATE_STATE => 2
  | .LQ_QUAD_CTL_QSPARE => 3
  | .XCH_LAT_BAND | .LQ_QUAD_CTL_FAIL_TIME | .DMA_CH_RING_LOG2 => 4
  | .XCH_LAT_DIE | .DM_STATUS_LC_DEV | .GLB_LAT_VAL_DEFAULT | .GLB_LAT_VAL_DEVICE => 6
  | .PTN_CFG_ALT | .PTN_CFG_BIND | .IOB_BANK_CFG_VCCIO | .GLB_LAT_CNT_COUNT => 7
  | .XCH_LAT_DIE2DIE => 8
  | .TRC_LEN_LOG2 => 12
  | .GLB_LAT_VAL_LARGEST | .SCH_TOKSRC_SRC => 15
  | .PMP_CTL_ELDEPTH => 16
  | .ELB_CTL_ODEPTH => 18
  | .SCH_CTL_BPWAIT => 20
  | .RIM_SECT_OWN_OWNER => 31
  | .NOC_STATUS_RSV_FREE => 56
  | .LQ_LANE_TXEQ_MAIN => 63
  | .PMP_TDIV_INT | .SCH_SUMP_LEN => 64
  | .PWR_WAKE_CTL_MGMT_ADDR => 80
  | .PWR_CTL_WARN => 95
  | .NOC_TIMEOUT_US | .TK_SEL_TOL_TOL | .TK_PPS_OUT_WIDTH | .PWR_WATCH_CTL_INTERVAL | .PWR_AVS_TMO => 100
  | .PWR_CTL_CRIT => 105
  | .TK_JUMP_THR_THR | .PWR_CTL_QLIMIT => 1000
  | .PRB_RATE_RELAX => 1024
  | .SCH_SUMP_BASE => 4032
  | .FLT_FN_EN_EN => 8388607
  | .TK_INC_FRAC => 1073741824
  | .RIM_ID_ID => 1447297025
  | _ => 0

/-- Every field has its own number, below 1,024. -/
theorem Fld.ctorIdx_lt (f : Fld) : f.ctorIdx < 1024 := by cases f <;> decide

/-- Two fields with the same number are the same field. -/
theorem Fld.ctorIdx_inj {f g : Fld} (h : f.ctorIdx = g.ctorIdx) : f = g := by
  have := congrArg Fld.ofNat h
  rwa [Fld.ofNat_ctorIdx, Fld.ofNat_ctorIdx] at this

end Sys2Proof.Machine
end

