-- ==== Sys2Proof/Machine/State.lean ====
section
/-! DEFINITION. The state of the module: everything the spec gives it, as plain data, and the queue of waiting commands.
Four layers, so that what a command cannot touch shows in the type of its meaning: `Chip` (registers, control and queues),
`Arr` (the array: stores, schedules, exchange registers, agents), `Mem` (the byte-addressed memories) and the queue. -/

namespace Sys2Proof.Machine

/-- A fault of the model. The spec gives every command an effect or a status, so no command of this model raises one: the
type is empty. Safe. -/
inductive Fault where
deriving DecidableEq, Repr

/-- A refusal of the model. -/
inductive Refusal where
  /-- Raised by `exec` for a command that has no meaning yet, by its mnemonic. Safe. -/
  | notModelled (mnemonic : String)
deriving DecidableEq, Repr

/-- The grades (R4). -/
inductive Grade where
  | vdx410 | vdx420 | vdx440
deriving DecidableEq, Repr

/-- The steppings (R6). -/
inductive Stepping where
  | a1 | b0
deriving DecidableEq, Repr

/-- Completion statuses of the network (R311). -/
inductive Status where
  | ok | netTimeout | netNoTarget | netDenied | netAborted
  | dmUnmapped | dmAlign | dmNoAtomic | dmUe | dmChannel
deriving DecidableEq, Repr

/-- What the last access answered its initiator: its status, the register value read or the word an atomic returned, the
bytes a memory read returned. -/
structure Completion where
  status : Status := .ok
  value : Nat := 0
  data : List Byte := []
deriving DecidableEq, Repr

/-- A token of the hardware scheduler (R329): thread, index, value, poster (0 to 7 a core, 9 the interrupt controller), and, while
the post waits (R332), the module time since which it has waited. -/
structure Token where
  thread : Nat
  index : Nat
  value : Nat
  src : Nat
  since : Nat := 0
deriving DecidableEq, Repr

/-- A trace packet (R343). -/
structure TrcPacket where
  payload : Nat
  time : Nat
  src : Nat
  typ : Nat
  seq : Nat
deriving DecidableEq, Repr

/-- A probe record that has been formed and has not completed (R201, R203, R206): its partition, its number, the design address it is
written to, its bytes, and how many of them have left the staging buffer. -/
structure ProbeRec where
  part : Nat
  no : Nat
  addr : Nat
  data : List Byte
  left : Nat := 0
deriving DecidableEq, Repr

/-- A trigger-line pulse under way (R212): from partition `q` to partition `p`, setting its latch at the end of period `due`. -/
structure LinePulse where
  q : Nat
  p : Nat
  due : Nat
deriving DecidableEq, Repr

/-- An access of a memory port agent awaiting its return (R143, R147, R148). `agent` is tile * 4 + agent number, `place` its place in the
return queue (deep accesses), `left` the executed steps to its return step, `since` the module time of its issue, `target` the router of its target (R309)
and `deepCh` the channel of the stack that serves it, as 1 + stack * 16 + channel (R158). -/
structure Access where
  agent : Nat
  place : Nat := 0
  kind : Nat
  left : Nat
  data : Nat := 0
  arrived : Bool := false
  late : Bool := false
  live : Bool := true
  since : Nat := 0
  target : Nat := 0
  deepCh : Nat := 0
deriving DecidableEq, Repr

/-- A message to a host: a write into host memory by DMA, an MSI-X message, a trace packet or a completion record (R299, R303, R345). Log 144 (DESIGN CHOICE). -/
structure HostWrite where
  port : Nat
  addr : Nat
  data : List Byte
deriving DecidableEq, Repr

/-- A command that has left the module for the regulators (R375, R378, R380): a voltage in mV for a rail of AVSBus (0 VDD_C, 1 VDD_IOD), or PMBus OPERATION for VDD_C, VDD_HBM or
VDD_SER (0, 1, 2). -/
inductive RailCmd where
  | voltage (rail mv : Nat)
  | operation (rail : Nat) (on : Bool)
deriving DecidableEq, Repr

/-- An entry of the hardware fault log (R407). -/
structure FltEntry where
  code : Nat
  part : Nat
  dom : Nat
  time : Nat
  info : Nat
deriving DecidableEq, Repr

/-- A repair of partition `part` under way or waiting (R403): of the instruction word (`sched` false) or schedule entry (`sched` true) at store key
`key`, since module time `since`; `inWait` tells whether it was found in WAIT (R404). -/
structure Repair where
  part : Nat
  sched : Bool
  key : Nat
  since : Nat
  inWait : Bool := false
deriving DecidableEq, Repr

/-- An entry of the output FIFOs of a partition (R236): the number of its tick, its output bits, and, where it is late, 1 + the period of its release. -/
structure ElEntry where
  part : Nat
  tick : Nat
  outs : NatMap
  due : Nat := 0
deriving DecidableEq, Repr

/-- A command or an access that waits: for the exit from IDLE or WATCH which it has caused (R383), for the end of a wipe, or for a tag. -/
inductive Deferred where
  | pmp (p code count : Nat) (svc : Bool)
  | ptn (p code : Nat) (svc : Bool)
  | ldr (p code : Nat) (svc : Bool)
  | mt (code target unit : Nat)
  | read (who : Init) (at' : Target) (len : Nat) (paced : Bool)
  | write (who : Init) (at' : Target) (data : List Byte) (paced : Bool)
  | atomic (who : Init) (at' : Target) (len : Nat) (add : Bool) (value : Nat) (paced : Bool)
  | bar2Read (port : Fin 4) (off len : Nat)
  | bar2Write (port : Fin 4) (off : Nat) (data : List Byte)
deriving DecidableEq, Repr

/-- What a transaction in flight is, other than those of DMA channels and of agents: an access of a host or a core, a piece of a BAR2 access, the drain of a
probe record, or a post that waits. -/
inductive CallKind where
  | access (who : Init) (read : Bool) (len : Nat) (paced : Bool)
  | bar2 (port : Fin 4) (read : Bool) (off len : Nat)
  | drain (p : Nat)
  | post (core : Nat)
deriving DecidableEq, Repr

/-- Such a transaction (R311, R312, R314): its tag, the module time of its issue, the router of its target, and whether its initiator still waits for it. -/
structure Call where
  tag : Nat
  kind : CallKind
  since : Nat
  target : Nat
  live : Bool := true
deriving DecidableEq, Repr

/-- A network transaction of a DMA channel that has left its initiator and awaits its response (R311, R312): its tag and generation, the channel
(port * 8 + channel), its bytes, the status (a code of R300) and the data its target has given it with the host address they go to, whether the channel
still waits for it, the module time of its issue, the router of its target and the channel of the stack that serves it, as 1 + stack * 16 + channel. -/
structure Txn where
  tag : Nat
  gen : Nat
  chan : Nat
  bytes : Nat
  status : Nat
  hostAddr : Nat
  data : List Byte
  live : Bool := true
  since : Nat
  target : Nat
  deepCh : Nat := 0
deriving DecidableEq, Repr

/-- A descriptor that a DMA channel executes or has executed and not yet recorded (R297 to R301): its channel, its index, its fields, the bytes issued, the
bytes of transactions that completed before the first failure, the status so far (a code of R300), whether nothing more is issued, and whether
an abort has stopped it (R301). -/
structure DmaItem where
  chan : Nat
  index : Nat
  hostAddr : Nat
  design : Nat
  len : Nat
  ctrl : Nat
  user : Nat
  issued : Nat := 0
  done : Nat := 0
  status : Nat := 0
  stopped : Bool := false
  aborted : Bool := false
deriving DecidableEq, Repr

/-- A Uteus request that the firmware has yet to answer: port, pair, ID, message type, partition, whether it came while one was outstanding and is answered BUSY (R360), and
its status and payload where they are known; where neither, it is answered when the result of its command is produced (R359). -/
structure UtWait where
  port : Nat
  pair : Nat
  id : Nat
  typ : Nat
  part : Nat
  busy : Bool := false
  ready : Option (Nat × List Byte) := none
deriving DecidableEq, Repr

/-- A request some of whose fragments have been taken (R356): port, pair, message type, ID, and the next fragment's index. -/
structure UtAsm where
  port : Nat
  pair : Nat
  typ : Nat
  id : Nat
  next : Nat
deriving DecidableEq, Repr

/-- Line bits of a rim lane on their way (R279): received ones that do not fill a period yet, and that do not fill a unit yet, and encoded ones to be sent. -/
structure LaneBuf where
  lane : Nat
  line : List Bool := []
  group : List Bool := []
  tx : List Bool := []
deriving DecidableEq, Repr

/-- The state of the rim fabric (R218 to R231). -/
structure Fabric where
  /-- Flip-flops that do not hold their reset values, at (sector * 32768 + cell) * 2, + 1 for FB, as value + 1 (R221). -/
  ffs : NatMap := []
  /-- Shift registers that do not hold what their frames hold, at sector * 32768 + cell, as contents + 1 (R222, R254). -/
  shifts : NatMap := []
  /-- The bus keepers, at bank * 64 + line (R224). -/
  keeper : NatMap := []
  /-- The input taps as they stood in the last three periods, latest first, at tile * 256 + bit (R231). -/
  taps1 : NatMap := []
  taps2 : NatMap := []
  taps3 : NatMap := []
  /-- What the module drove on its pads at the last pin-clock edges (R271), latest first: the edge's number, and 1 + the level at each pin it drove. -/
  pads : List (Nat × NatMap) := []
deriving DecidableEq, Repr

/-- Registers, control state and queues of the module. Log 8 (DESIGN CHOICE). -/
structure Chip where
  /-- The part: grade, stepping, temperature suffix (R4 to R7), host port mode (R293). -/
  grade : Grade := .vdx440
  stepping : Stepping := .a1
  suffixN : Bool := false
  x16 : Bool := false
  /-- LB_SEL strap of the shared load bus (R244). -/
  lbSel : Nat := 0
  /-- Module time in units of 1/4.8 GHz (R26): a step-clock period is 3 units at 1.6 GHz and 4 at 1.2 GHz, a timing-clock period 6. -/
  now : Nat := 0
  /-- Step-clock periods since the last module reset. -/
  period : Nat := 0
  /-- The number of the next free value: the model's own field. -/
  free : Nat := 0
  /-- Every register field and implied scalar, keyed by instance and field. -/
  fld : NatMap := []
  /-- Read latches and held low halves of R16: key initiator and register, value + 1. -/
  latch : NatMap := []
  held : NatMap := []
  /-- What the last access answered. -/
  resp : Completion := {}
  /-- The matching store, the sump and the waiting posts (R329, R332), each in post order. -/
  tokens : List Token := []
  sump : List Token := []
  posts : List Token := []
  /-- The trace funnel's FIFO (R344). -/
  trc : List TrcPacket := []
  /-- Formed probe records (R206), trigger lines (R212) and XTRIG_OUT rises (R213: pin * 2^64 + due period) under way. -/
  recs : List ProbeRec := []
  lines : List LinePulse := []
  xrise : List Nat := []
  /-- Repairs under way and waiting, oldest first (R403). -/
  reps : List Repair := []
  /-- Edges of TICK_IN and of the rim clock trees that have been sampled (R100): the partition, its source (PMP_CTL.PSRC) and the period of its tick. -/
  edges : List (Nat × Nat × Nat) := []
  /-- The rim fabric, and the bits on its lanes. -/
  fab : Fabric := {}
  lanes : List LaneBuf := []
  /-- Image bytes delivered to the loads in progress, and the symbol tables kept in service SRAM, by partition; a table follows the
DEEP_BASE of its load (R179, R190). -/
  imgs : List (Nat × List Byte) := []
  syms : List (Nat × List Byte) := []
  /-- The frame that the stream has written last (R245). -/
  rimFrame : List Byte := []
  /-- The fault log (R407). -/
  flt : List FltEntry := []
  /-- Writes that have left the module for host memory, newest first. -/
  host : List HostWrite := []
  /-- Commands that have left the module for the regulators, newest first. -/
  rails : List RailCmd := []
  /-- Commands and accesses that wait for a power-state exit (R383), the end of a wipe (R326) or a tag (R312, R327), in order. -/
  waiting : List Deferred := []
  /-- DMA transactions in flight, the other transactions in flight, and descriptors without a record, in issue order (R297 to R301, R312). -/
  txns : List Txn := []
  calls : List Call := []
  dma : List DmaItem := []
  /-- The two-step stamp FIFOs of the service Ethernet ports: port and ETH_TX_TS value without VALID (R291); frames sent, newest first. -/
  txTs : List (Nat × Nat) := []
  frames : List (Nat × List Byte) := []
  /-- Messages the firmware has yet to post, channel and 16 words, the requests that it has yet to answer, and those that are not complete (R356, R357, R359). -/
  fwOut : List (Nat × List Nat) := []
  utWait : List UtWait := []
  utAsm : List UtAsm := []
deriving DecidableEq, Repr

/-- The array: stores, schedules, exchange registers and agents. -/
structure Arr where
  /-- Instruction stores: the 88 stored bits of R35 at key BP * 4096 + step. -/
  istore : NatMap := []
  /-- The words and schedule entries that have been read for the steps to come (R40, R79, R140), at the same keys: these are what the steps apply. -/
  fword : NatMap := []
  fsched : NatMap := []
  /-- The golden copies (R188) of instruction words, schedule entries and primed slots. -/
  gword : NatMap := []
  gsched : NatMap := []
  gslot : NatMap := []
  /-- Schedule memories: entry bits with their parity bits above them, at key unit * 4096 + entry. -/
  sched : NatMap := []
  /-- Data stores (R65, R66): two arrays of slots at key BP * 4096 + slot and of parity bits at key BP * 512 + word. -/
  slotA : NatMap := []
  slotB : NatMap := []
  parA : NatMap := []
  parB : NatMap := []
  /-- Cluster lane histories (R43), by BP: the value driven one and two executed steps ago. -/
  lane1 : NatMap := []
  lane2 : NatMap := []
  /-- Exchange registers (R67 to R70), by register code. -/
  xreg : NatMap := []
  /-- Error marks of the die-bridge words that cross next (R400), by die * 2 + port: 1 a correctable and 2 an uncorrectable error. -/
  bridgeErr : NatMap := []
  /-- Agent registers (R140), by tile * 4 + agent. -/
  addr : NatMap := []
  wdata : NatMap := []
  rdata : NatMap := []
  /-- Accesses awaiting return, oldest first (R143). -/
  accs : List Access := []
  /-- Rim output bits (R55), the values the taps present (R233), and changes on their way to the taps: period, bit, value. Keys tile * 64 + bit. -/
  rimOut : NatMap := []
  rimTaps : NatMap := []
  outPipe : List (Nat × Nat × Nat) := []
  /-- The captures of the rim input bits of the current and the previous cycle (R231, R232), at tile * 256 + bit. -/
  capCur : NatMap := []
  capPrev : NatMap := []
  /-- The elastic buffers (R234): captures waiting for their cycles, by partition, and output entries, oldest first. -/
  elIn : List (Nat × NatMap) := []
  elOut : List ElEntry := []
  /-- What the executing step has staged for its end: lane drives, sends and gather inputs, newest first. -/
  drives : List (Nat × Nat) := []
  sends : List (Nat × Nat) := []
  gathers : List (Nat × Nat) := []
  outs : List (Nat × Nat) := []
  /-- Probe vectors (R199): the map from PRB-tagged words to positions (+ 1), and the bits of the cycle in progress. -/
  pmap : NatMap := []
  pvec : NatMap := []
deriving DecidableEq, Repr

/-- The byte-addressed memories, each in its canonical form (`Memory.wf`), and their ECC error marks. -/
structure Mem where
  /-- Cisterns, at tile * 0x8_0000 + byte. -/
  cistern : List Host.Cell := []
  /-- Deep memory, at (stack * 24 + granule) * 2^30 + byte. -/
  deep : List Host.Cell := []
  /-- Service SRAM and vault. -/
  sram : List Host.Cell := []
  vault : List Host.Cell := []
  /-- Rim configuration memory, at frame * 128 + byte (R218). -/
  rim : List Host.Cell := []
  /-- The reference CRCs of its frames (R247), as CRC + 1 by frame, and the bits in error of its words (R238), as a mask of the 64 data and 8 check bits by
frame * 16 + word. -/
  rimRef : NatMap := []
  rimErr : NatMap := []
  /-- ECC error marks by protected unit (R159, R324): 1 a correctable and 2 an uncorrectable error; for deep memory the second copy of a mirrored stack counts 3 times that. -/
  cisErr : NatMap := []
  deepErr : NatMap := []
  sramErr : NatMap := []
deriving DecidableEq, Repr

structure State where
  /-- The commands that are waiting, first in, first out. -/
  pending : List Instr
  chip : Chip
  arr : Arr
  mem : Mem
deriving DecidableEq, Repr

/-- The module right after a module reset (R17), with no command waiting. -/
def State.reset : State where
  pending := []
  chip := {}
  arr := {}
  mem := {}

end Sys2Proof.Machine
end

