-- ==== Sys2Proof/Machine/Ops.lean ====
section
/-! DEFINITION. The named operations over register fields, counters, free values and byte-addressed memory. -/

namespace Sys2Proof.Machine

/-! Register fields -/

/-- The key of field `f` of instance `i`. -/
def Fld.key (f : Fld) (i : Nat) : Nat := i * 1024 + f.ctorIdx

/-- A value cut to the width of its field. -/
def Fld.clip (f : Fld) (v : Nat) : Nat := if f.width = 0 then v else v % 2 ^ f.width

/-- The largest value of a field. -/
def Fld.top (f : Fld) : Nat := 2 ^ f.width - 1

/-- Field `f` of instance `i`. -/
def Chip.get (c : Chip) (f : Fld) (i : Nat) : Nat := NatMap.find f.reset c.fld (f.key i)

/-- Field `f` of instance `i` as a truth value. -/
def Chip.on (c : Chip) (f : Fld) (i : Nat) : Bool := c.get f i ≠ 0

/-- Set field `f` of instance `i`. -/
def Chip.set (c : Chip) (f : Fld) (i v : Nat) : Chip :=
  { c with fld := NatMap.put f.reset c.fld (f.key i) (f.clip v) }

/-- Return field `f` of instance `i` to its reset value. -/
def Chip.unset (c : Chip) (f : Fld) (i : Nat) : Chip := c.set f i f.reset

/-- Return several fields of instance `i` to their reset values. -/
def Chip.unsetAll (c : Chip) (fs : List Fld) (i : Nat) : Chip := fs.foldl (fun c f => c.unset f i) c

/-- Add `n` to a counter that saturates at its top (the register tables' "Saturates at"). -/
def Chip.count (c : Chip) (f : Fld) (i n : Nat) : Chip := c.set f i (satAdd f.top (c.get f i) n)

/-- Add 1 to a counter that wraps. -/
def Chip.bump (c : Chip) (f : Fld) (i : Nat) : Chip := c.set f i (c.get f i + 1)

/-- Set field `f` to the larger of itself and `v`. -/
def Chip.raiseTo (c : Chip) (f : Fld) (i v : Nat) : Chip := if c.get f i < v then c.set f i v else c

/-- The instances of field `f` that differ from its reset value. -/
def Chip.instances (c : Chip) (f : Fld) : List Nat :=
  (c.fld.filter (fun e => e.1 % 1024 = f.ctorIdx)).map (fun e => e.1 / 1024)

/-- Return field `f` of every instance that satisfies `p` to its reset value. -/
def Chip.clearWhere (c : Chip) (f : Fld) (p : Nat → Bool) : Chip :=
  { c with fld := c.fld.filter (fun e => !(e.1 % 1024 = f.ctorIdx && p (e.1 / 1024))) }

/-! Free values -/

/-- The next free value, cut to `w` bits, and the state that has used it up. -/
def Chip.fresh (c : Chip) (w : Nat) : Nat × Chip :=
  ((Config.freeValue c.free).toNat % 2 ^ w, { c with free := c.free + 1 })

/-- `n` free bytes. -/
def Chip.freshBytes : Nat → Chip → List Byte × Chip
  | 0, c => ([], c)
  | n + 1, c =>
    let (v, c) := c.fresh 8
    let (vs, c) := Chip.freshBytes n c
    (BitVec.ofNat 8 v :: vs, c)

/-! Regulators -/

/-- A command leaves the module for the regulators (R378, R380). Log 186 (DESIGN CHOICE). -/
def Chip.toRail (c : Chip) (x : RailCmd) : Chip := { c with rails := x :: c.rails }

/-! Answers to initiators -/

/-- Answer an access. -/
def Chip.answer (c : Chip) (st : Status) (v : Nat := 0) (d : List Byte := []) : Chip := { c with resp := ⟨st, v, d⟩ }

/-! Byte-addressed memory: a strictly rising list of cells, no cell equal to the value of an unlisted address (0). -/

/-- What an address of a memory reads as where nothing is listed. Log 3 (DESIGN CHOICE). -/
def Memory.blank : Byte := 0

/-- The byte at `a`. -/
def Memory.read : List Host.Cell → Nat → Byte
  | [], _ => Memory.blank
  | (x, b) :: m, a => if x = a then b else Memory.read m a

/-- Take the byte at `a` off the list. -/
def Memory.erase : List Host.Cell → Nat → List Host.Cell
  | [], _ => []
  | (x, b) :: m, a => if x = a then Memory.erase m a else (x, b) :: Memory.erase m a

/-- Put byte `v` at `a`, keeping addresses in order. -/
def Memory.insert : List Host.Cell → Nat → Byte → List Host.Cell
  | [], a, v => [(a, v)]
  | (x, b) :: m, a, v =>
    if a < x then (a, v) :: (x, b) :: m
    else if x = a then (a, v) :: m
    else (x, b) :: Memory.insert m a v

/-- Write one byte. -/
def Memory.write (m : List Host.Cell) (a : Nat) (v : Byte) : List Host.Cell :=
  if v = Memory.blank then Memory.erase m a else Memory.insert m a v

/-- Read `n` bytes from `a`. -/
def Memory.readN (m : List Host.Cell) (a : Nat) : Nat → List Byte
  | 0 => []
  | n + 1 => Memory.read m a :: Memory.readN m (a + 1) n

/-- Write bytes from `a`. -/
def Memory.writeN (m : List Host.Cell) (a : Nat) : List Byte → List Host.Cell
  | [] => m
  | b :: bs => Memory.writeN (Memory.write m a b) (a + 1) bs

/-- Set every byte of `[lo, hi)` to the blank value. -/
def Memory.clearRange (m : List Host.Cell) (lo hi : Nat) : List Host.Cell := m.filter (fun c => c.1 < lo || hi ≤ c.1)

/-- Addresses strictly rise from `lo` on, and no cell is blank. -/
def Memory.wfFrom : Nat → List Host.Cell → Bool
  | _, [] => true
  | lo, (x, b) :: m => decide (lo ≤ x) && decide (b ≠ Memory.blank) && Memory.wfFrom (x + 1) m

/-- The canonical form of a memory. -/
def Memory.wf (m : List Host.Cell) : Bool := Memory.wfFrom 0 m

/-- Every memory of the module is in its canonical form. -/
def Mem.wf (m : Mem) : Bool := Memory.wf m.cistern && Memory.wf m.deep && Memory.wf m.sram && Memory.wf m.vault && Memory.wf m.rim

/-! Time -/

/-- Units of module time per microsecond. -/
def Chip.us : Nat := 4800

/-- Units of module time per step-clock period (R26). -/
def Chip.unitsPerPeriod (c : Chip) : Nat := if c.get .PMP_RATE_ECON 0 = 1 then 4 else 3

/-- A deadline kept as 1 + its module time (0: none) has come. Log 6 (DESIGN CHOICE), 7 (DESIGN CHOICE). -/
def Chip.due (c : Chip) (f : Fld) (i : Nat) : Bool := c.get f i ≠ 0 && c.get f i ≤ c.now + 1

/-- Set a deadline `d` units from now. -/
def Chip.setDue (c : Chip) (f : Fld) (i d : Nat) : Chip := c.set f i (c.now + d + 1)

/-! The part (R4, R20, R21) -/

def Chip.dies (c : Chip) : Nat := match c.grade with | .vdx410 => 1 | .vdx420 => 2 | .vdx440 => 4
def Chip.bands (c : Chip) : Nat := 16 * c.dies
def Chip.isB0 (c : Chip) : Bool := c.stepping = .b0
/-- Host ports that exist (R122, R293). -/
def Chip.portExists (c : Chip) (n : Nat) : Bool := n < (if c.x16 then 2 else 4)
/-- Time-stamp domain (R365). -/
def Chip.dom (c : Chip) : Nat := c.get .TK_SEL_DOM 0
/-- The nanosecond counter of the time-stamp domain. -/
def Chip.stamp (c : Chip) : Nat := c.get .TK_NOW_NS c.dom

end Sys2Proof.Machine
end

