-- ==== Sys2Proof/Machine/Trace.lean ====
section
/-! DEFINITION. Instruction trace: forming packets in the funnel (R342 to R346) and the pending bit of an interrupt source. -/

namespace Sys2Proof.Machine

/-- An event of interrupt source `s` sets its pending bit (R334); source 0 does not exist. -/
def Chip.setPend (c : Chip) (s : Nat) : Chip := if s = 0 ∨ 1023 < s then c else c.set .IC_PEND_BIT s 1

/-- Whether secure packets may be traced (R346, R398, TRC_STATUS.SEC_ALLOWED): always in BLANK, under an OWNER certificate with S_TRACE in PROVISIONED
and SECURED, under a KLOGRIM certificate in RMA. -/
def Chip.secAllowed (c : Chip) : Bool :=
  match c.get .LC_STATE_STATE 0 with
  | 1 => true
  | 2 | 3 => c.get .DBG_STATUS_LEVEL 0 = 1 && bitB (c.get .DBG_STATUS_PERM 0) 2
  | 4 => c.get .DBG_STATUS_LEVEL 0 = 2
  | _ => false

/-- Whether trace source `src` is recorded (R342): sources 0 to 9 by their bit of SRC_EN, a software source by its core's bit. -/
def Chip.trcEnabled (c : Chip) (src : Nat) : Bool :=
  c.on .TRC_CTL_EN 0 && bitB (c.get .TRC_CTL_SRC_EN 0) (if 16 ≤ src then src - 16 else src)

/-- Whether source `src` is a core, or a core's software channel, whose secure state may not be traced (R346). -/
def Chip.secHidden (c : Chip) (src : Nat) : Bool :=
  (src < 8 || 16 ≤ src) && c.on .H_SEC (if 16 ≤ src then src - 16 else src) && !c.secAllowed

/-- The packet of source `src` that would form now (R343). Log 92 (DEDUCED). -/
def Chip.trcPacket (c : Chip) (src typ payload : Nat) : TrcPacket :=
  ⟨payload, c.stamp, src, typ, c.get .H_TRC_SEQ src⟩

/-- A packet of source `src` enters the FIFO of 256 packets, or is lost (R344). A source that has lost packets sends an OVERFLOW with
the count before its next packet that fits. -/
def Chip.trcForm (c : Chip) (src typ payload : Nat) : Chip :=
  if !c.trcEnabled src || c.secHidden src then c
  else
    let lost := c.get .H_TRC_LOSTN src
    let need := if lost = 0 then 1 else 2
    if 256 < c.trc.length + need then
      ((c.count .TRC_LOST_COUNT 0 1).set .H_TRC_LOSTN src (lost + 1)).setPend 254
    else if lost = 0 then
      { c with trc := c.trc ++ [c.trcPacket src typ payload] }.bump .H_TRC_SEQ src
    else
      let c := { c with trc := c.trc ++ [c.trcPacket src 3 lost] }.bump .H_TRC_SEQ src
      ({ c with trc := c.trc ++ [c.trcPacket src typ payload] }.bump .H_TRC_SEQ src).set .H_TRC_LOSTN src 0

/-- The 16 bytes of a packet (R343). -/
def TrcPacket.bytes (k : TrcPacket) : List Byte :=
  toBytes 8 k.payload ++ toBytes 4 k.time ++ toBytes 1 (k.src % 64) ++ toBytes 1 k.typ ++ toBytes 2 k.seq

end Sys2Proof.Machine
end

