-- ==== Sys2Proof/Machine/Sched.lean ====
section
/-! DEFINITION. The hardware thread scheduler (R328 to R333). -/

namespace Sys2Proof.Machine

/-- Thread states (SCH_THR_CFG.STATE). -/
def thrOff : Nat := 0
def thrWait : Nat := 1
def thrReady : Nat := 2
def thrSlotted : Nat := 3
def thrRunning : Nat := 4

/-- The group of a thread (R328): 0 secure, 1 service, 2 agent. -/
def thrGroup (t : Nat) : Nat := if t < 128 then 0 else if t < 384 then 1 else 2

/-- AFFINITY bits of the cores of thread `t`'s group (R328). -/
def thrCores (t : Nat) : Nat := match thrGroup t with | 0 => 0x03 | 1 => 0x0C | _ => 0xF0

/-- Whether a token of every awaited index of thread `t` is in the matching store (R329). -/
def Chip.thrFed (c : Chip) (t : Nat) : Bool :=
  (List.range 8).all fun i => !bitB (c.get .SCH_THR_CFG_WAIT t) i || c.tokens.any fun k => k.thread = t && k.index = i

/-- A waiting thread with all its tokens becomes READY and takes the next place in the ready order (R329). -/
def Chip.thrWake (c : Chip) (t : Nat) : Chip :=
  if c.get .SCH_THR_CFG_STATE t = thrWait ∧ c.thrFed t then
    ((c.set .SCH_THR_CFG_STATE t thrReady).set .SCH_ORDER t (c.get .SCH_NEXT_ORDER 0)).bump .SCH_NEXT_ORDER 0
  else c

/-- Whether READY thread `a` is chosen before thread `b` (R330): the higher PRIO, then the one that became READY first. -/
def Chip.thrBefore (c : Chip) (a b : Nat) : Bool :=
  c.get .SCH_THR_CFG_PRIO b < c.get .SCH_THR_CFG_PRIO a ||
    (c.get .SCH_THR_CFG_PRIO a = c.get .SCH_THR_CFG_PRIO b && c.get .SCH_ORDER a < c.get .SCH_ORDER b)

/-- The READY thread that core `k` would take next. -/
def Chip.thrBest (c : Chip) (k : Nat) : Option Nat :=
  ((c.instances .SCH_THR_CFG_EN).filter fun t =>
      c.get .SCH_THR_CFG_STATE t = thrReady && bitB (c.get .SCH_THR_CFG_AFFINITY t) k).foldl
    (fun best t => match best with
      | none => some t
      | some b => if c.thrBefore t b then some t else some b) none

/-- Fill core `k`'s dispatch slot, or displace the slotted thread by a READY thread of higher PRIO (R330). -/
def Chip.thrSlot (c : Chip) (k : Nat) : Chip :=
  match c.thrBest k, c.get .SCH_SLOT k with
  | none, _ => c
  | some t, 0 => (c.set .SCH_THR_CFG_STATE t thrSlotted).set .SCH_SLOT k (t + 1)
  | some t, o + 1 =>
    if c.get .SCH_THR_CFG_PRIO o < c.get .SCH_THR_CFG_PRIO t then
      ((c.set .SCH_THR_CFG_STATE o thrReady).set .SCH_THR_CFG_STATE t thrSlotted).set .SCH_SLOT k (t + 1)
    else c

/-- Wake threads and fill slots after any change (R329, R330). A displaced thread may displace another in its turn, once per core. -/
def Chip.schSettle (c : Chip) : Chip :=
  let c := (c.instances .SCH_THR_CFG_EN).foldl Chip.thrWake c
  (List.range 8).foldl (fun c _ => (List.range 8).foldl Chip.thrSlot c) c

/-- Tokens that the sump holds when full (R332): 256 per 4 KiB unit of SCH_SUMP.LEN. -/
def Chip.sumpRoom (c : Chip) : Nat := c.get .SCH_SUMP_LEN 0 * 256

/-- Where a post goes (R332): 1 the store, 2 the sump, 0 it waits. -/
def Chip.postPlace (c : Chip) : Nat :=
  if c.sump = [] ∧ c.tokens.length < 4096 then 1
  else if c.on .SCH_CTL_SUMP_EN 0 ∧ c.sump.length < c.sumpRoom then 2
  else 0

/-- The write transaction of a core's post that has waited ends, unless it has timed out before (R314, R332): the core goes on. -/
def Chip.postEnd (c : Chip) (k : Token) : Chip :=
  match c.calls.find? fun x => x.kind = .post k.src && x.since = k.since with
  | some x => if x.live then { c with calls := c.calls.erase x }.answer .ok else { c with calls := c.calls.erase x }
  | none => c

/-- What the end of a post tells its poster: a core its OUTCOME (R333); where it is accepted, the interrupt controller marks the source active
and takes its pending bit (R339). -/
def Chip.postAccepted (c : Chip) (k : Token) (outcome : Nat) : Chip :=
  if k.src < 8 then (c.set .SCH_POST_RES_OUTCOME k.src outcome).postEnd k
  else (c.set .IC_ACTIVE_BIT k.value 1).set .IC_PEND_BIT k.value 0

/-- A token is stored in the sump's ring in service SRAM: the units of the ring hold tokens, in a layout the spec does not give (R332). -/
def Chip.sumpTouch (c : Chip) : Chip :=
  let base := c.get .SCH_SUMP_BASE 0
  let c := if c.get .H_SUMP_HI 0 = 0 ∨ base < c.get .H_SUMP_LO 0 then c.set .H_SUMP_LO 0 base else c
  c.raiseTo .H_SUMP_HI 0 (base + c.get .SCH_SUMP_LEN 0)

/-- Put a post into the store or the sump; the caller has checked the place. -/
def Chip.postPut (c : Chip) (k : Token) (place : Nat) : Chip :=
  if place = 1 then { c with tokens := c.tokens ++ [k] }.postAccepted k 1
  else
    let first := c.sump.isEmpty
    let c := { c with sump := c.sump ++ [k] }.sumpTouch.postAccepted k 2
    if first then c.setPend 252 else c

/-- A post of a token (R329, R332): into the store, into the sump, or it waits behind the posts already waiting. -/
def Chip.post (c : Chip) (k : Token) : Chip :=
  match (if c.posts = [] then c.postPlace else 0) with
  | 0 =>
    let first := c.posts.isEmpty
    let c := { c with posts := c.posts ++ [{ k with since := c.now }] }
    if first then c.setPend 253 else c
  | place => c.postPut k place

/-- Move sumped tokens back into the store in post order while there is space (R332). -/
def Chip.sumpRefill (c : Chip) : Chip :=
  let n := 4096 - c.tokens.length
  { c with tokens := c.tokens ++ c.sump.take n, sump := c.sump.drop n }

/-- Accept waiting posts in order while there is a place for them. `fuel` is the number of posts. -/
def Chip.postsAccept : Nat → Chip → Chip
  | 0, c => c
  | n + 1, c =>
    match c.posts with
    | [] => c
    | k :: ks =>
      match c.postPlace with
      | 0 => c
      | place => Chip.postsAccept n ({ c with posts := ks }.postPut k place)

/-- Space has come free: refill from the sump, then accept waiting posts (R332). -/
def Chip.schRefill (c : Chip) : Chip :=
  let c := c.sumpRefill
  (Chip.postsAccept c.posts.length c).schSettle

/-- Drop the oldest waiting post, once it has waited BPWAIT microseconds (R332). -/
def Chip.postDrop (c : Chip) : Chip :=
  match c.posts with
  | [] => c
  | k :: ks =>
    if c.now < k.since + c.get .SCH_CTL_BPWAIT 0 * Chip.us then c
    else
      let c := { c with posts := ks }.count .SCH_DROP_CNT_COUNT 0 1
      if k.src < 8 then c.postAccepted k 3 else c

/-- The oldest token of thread `t` and index `i`. -/
def Chip.tokenOf (c : Chip) (t i : Nat) : Option Token := c.tokens.find? fun k => k.thread = t && k.index = i

/-- Remove the oldest token of thread `t` and index `i` from a list in post order. -/
def dropToken (t i : Nat) : List Token → List Token
  | [] => []
  | k :: ks => if k.thread = t ∧ k.index = i then ks else k :: dropToken t i ks

/-- Move the oldest token of index `i` of thread `t` into core `k`'s token registers, or clear them where `i` is not awaited (R330). -/
def Chip.takeToken (t k : Nat) (c : Chip) (i : Nat) : Chip :=
  match (if bitB (c.get .SCH_THR_CFG_WAIT t) i then c.tokenOf t i else none) with
  | some tok =>
    { (c.set .SCH_TOKEN_VALUE (k * 8 + i) tok.value).set .SCH_TOKSRC_SRC (k * 8 + i) tok.src with tokens := dropToken t i c.tokens }
  | none => (c.set .SCH_TOKEN_VALUE (k * 8 + i) 0).set .SCH_TOKSRC_SRC (k * 8 + i) 15

/-- Whether packets that name thread `t` may be traced (R346). -/
def Chip.thrTraced (c : Chip) (t : Nat) : Bool := thrGroup t ≠ 0 || c.secAllowed

/-- A read of SCH_TAKE by core `k` (R330): the value returned and the state it leaves. -/
def Chip.take (c : Chip) (k : Nat) : Nat × Chip :=
  if c.get .SCH_RUNNING k ≠ 0 then (2 ^ 30, c)
  else
    match c.get .SCH_SLOT k with
    | 0 => (2 ^ 31, c)
    | t + 1 =>
      let v := c.get .SCH_THR_CFG_PRIO t * 2 ^ 10 + t
      let c := (List.range 8).foldl (Chip.takeToken t k) c
      let c := ((c.set .SCH_THR_CFG_STATE t thrRunning).set .SCH_SLOT k 0).set .SCH_RUNNING k (t + 1)
      let c := if c.thrTraced t then c.trcForm 8 8 (t + k * 2 ^ 16) else c
      (v, c.schSettle)

/-- A write of thread `t` to SCH_DONE by core `k` (R331). -/
def Chip.done (c : Chip) (k t : Nat) : Chip :=
  if c.get .SCH_RUNNING k = t + 1 then
    ((c.set .SCH_RUNNING k 0).set .SCH_THR_CFG_STATE t (if c.on .SCH_THR_CFG_EN t then thrWait else thrOff)).schSettle
  else c.set .SCH_STATUS_SEQ_ERR 0 1

/-- A change of EN or of other fields of SCH_THR_CFG of thread `t` takes effect (R331). -/
def Chip.thrConfigured (c : Chip) (t : Nat) : Chip :=
  let st := c.get .SCH_THR_CFG_STATE t
  if c.on .SCH_THR_CFG_EN t then
    (if st = thrOff then c.set .SCH_THR_CFG_STATE t thrWait else c).schSettle
  else if st = thrRunning ∨ st = thrOff then c
  else
    let c := (List.range 8).foldl (fun c k => if c.get .SCH_SLOT k = t + 1 then c.set .SCH_SLOT k 0 else c) c
    (c.set .SCH_THR_CFG_STATE t thrOff).schSettle

end Sys2Proof.Machine
end

