-- ==== Sys2Proof/Machine/Intc.lean ====
section
/-! DEFINITION. The interrupt controller (R334 to R341): presentation, claim, completion and token delivery. -/

namespace Sys2Proof.Machine

/-- The sources that are fixed secure (R338, R340). -/
def icFixedSecure (s : Nat) : Bool := (128 ≤ s && s < 160) || s = 250 || s = 251

/-- Whether source `s` is secure. -/
def Chip.icSecure (c : Chip) (s : Nat) : Bool := icFixedSecure s || c.on .IC_SRC_CFG_SECURE s

/-- Whether source `s` is eligible (R334). -/
def Chip.icEligible (c : Chip) (s : Nat) : Bool :=
  c.on .IC_PEND_BIT s && c.on .IC_EN_BIT s && !c.on .IC_ACTIVE_BIT s && c.on .IC_SRC_CFG_PRIO s

/-- The running priority of target `t` (R335). -/
def Chip.icRunPrio (c : Chip) (t : Nat) : Nat :=
  (c.instances .IC_CLAIMED_BY).foldl
    (fun m s => if c.get .IC_CLAIMED_BY s = t + 1 then max m (c.get .IC_SRC_CFG_PRIO s) else m) (c.get .IC_THRESH_THRESH t)

/-- Whether target `t` is a candidate for source `s` (R335, R338). -/
def Chip.icCandidate (c : Chip) (s t : Nat) : Bool :=
  bitB (c.get .IC_SRC_CFG_TARGETS s) t && (!c.icSecure s || t % 2 = 0) && c.icRunPrio t < c.get .IC_SRC_CFG_PRIO s

/-- The target to which eligible source `s` is presented: the candidate of lowest running priority, ties to the lower number (R335).
A source in token mode is presented to none (R339). -/
def Chip.icTarget (c : Chip) (s : Nat) : Option Nat :=
  if !c.icEligible s || c.on .IC_SRC_CFG_MODE s then none
  else
    ((List.range 16).filter (c.icCandidate s)).foldl
      (fun best t => match best with
        | none => some t
        | some b => if c.icRunPrio t < c.icRunPrio b then some t else some b) none

/-- The source of highest PRIO presented to target `t`, ties to the lower number; 0 where none is (R336). -/
def Chip.icTop (c : Chip) (t : Nat) : Nat :=
  ((c.instances .IC_PEND_BIT).filter fun s => c.icTarget s = some t).foldl
    (fun b s => if b = 0 ∨ c.get .IC_SRC_CFG_PRIO b < c.get .IC_SRC_CFG_PRIO s then s else b) 0

/-- Post the token of source `s` where it is eligible, in token mode and not already waiting (R339). -/
def Chip.icPost (c : Chip) (s : Nat) : Chip :=
  if c.icEligible s && c.on .IC_SRC_CFG_MODE s && !c.posts.any (fun k => k.src = 9 && k.value = s) then
    c.post ⟨c.get .IC_SRC_CFG_TARGETS s % 1024, 7, s, 9, 0⟩
  else c

/-- Post every eligible source in token mode. A post may itself raise sources 252 and 253, whose tokens the next rounds post. -/
def Chip.icSettle (c : Chip) : Chip :=
  ((List.range 4).foldl (fun c _ => (c.instances .IC_PEND_BIT).foldl Chip.icPost c) c).schSettle

/-- An event of interrupt source `s` (R334). -/
def Chip.raise (c : Chip) (s : Nat) : Chip := (c.setPend s).icSettle

/-- Events of several sources in one clock. -/
def Chip.raiseAll (c : Chip) (ss : List Nat) : Chip := (ss.foldl Chip.setPend c).icSettle

/-- A read of IC_CLAIM of target `t` (R336). -/
def Chip.icClaim (c : Chip) (t : Nat) : Nat × Chip :=
  match c.icTop t with
  | 0 => (0, c)
  | s + 1 =>
    let s := s + 1
    let c := ((c.set .IC_ACTIVE_BIT s 1).set .IC_PEND_BIT s 0).set .IC_CLAIMED_BY s (t + 1)
    let c := if c.icSecure s && !c.secAllowed then c else c.trcForm 9 9 (s + t * 2 ^ 16)
    (s, c.icSettle)

/-- A write of source `s` to IC_COMPLETE of target `t` (R337). -/
def Chip.icComplete (c : Chip) (t s : Nat) : Chip :=
  if c.on .IC_ACTIVE_BIT s && (c.get .IC_CLAIMED_BY s = t + 1 || c.on .IC_SRC_CFG_MODE s) then
    ((c.set .IC_ACTIVE_BIT s 0).set .IC_CLAIMED_BY s 0).icSettle
  else c.count .IC_ERR_COUNT 0 1

end Sys2Proof.Machine
end

