-- ==== Sys2Proof/Machine/FaultLog.lean ====
section
/-! DEFINITION. The fault log (R407) and FAULT_N (R406). -/

namespace Sys2Proof.Machine

/-- Codes of the fault log (R407). -/
def fltIstRepaired : Nat := 0x01
def fltRepairFail : Nat := 0x02
def fltSchedRepaired : Nat := 0x03
def fltDsParity : Nat := 0x04
def fltCisUe : Nat := 0x05
def fltDeepUe : Nat := 0x06
def fltChannelFail : Nat := 0x07
def fltLaneFailover : Nat := 0x08
def fltRimUe : Nat := 0x09
def fltSvcUe : Nat := 0x0A
def fltBridgeUe : Nat := 0x0B
def fltLinkFail : Nat := 0x0C
def fltThermCrit : Nat := 0x0D

/-- Add an entry to the fault log of 64 entries, or count it as lost (R407). Log 134 (DEDUCED). -/
def Chip.logFault (c : Chip) (code part info : Nat) : Chip :=
  if c.flt.length < 64 then { c with flt := c.flt ++ [⟨code, part, c.dom, c.stamp, info⟩] }
  else c.count .FLT_LOG_LOST_COUNT 0 1

/-- Whether some die is at or above PWR_CTL.CRIT (R406, THERM). -/
def Chip.thermCrit (c : Chip) : Bool := (List.range 5).any fun d => c.get .PWR_CTL_CRIT 0 ≤ c.get .H_TEMP d && c.get .H_TEMP d ≠ 0

/-- The contributions of partitions (FLT_SRC.PUMP). -/
def Chip.fltPump (c : Chip) : Nat := (List.range 16).foldl (fun m p => m + c.get .PMP_STATUS_FAULT_OUT p * 2 ^ p) 0

/-- FLT_SRC as it stands (R406). -/
def Chip.fltSrc (c : Chip) : Nat :=
  c.fltPump + b2n (c.on .RIM_SCRUB_CTL_UE_FAULT 0 && c.on .RIM_SCRUB_UE_LOC_VALID 0) * 2 ^ 16
    + c.get .FLT_SRC_REPAIR 0 * 2 ^ 17 + c.get .FLT_SRC_MEM 0 * 2 ^ 18 + c.get .FLT_SRC_LINK 0 * 2 ^ 19
    + c.get .FLT_SRC_SVC 0 * 2 ^ 20 + b2n c.thermCrit * 2 ^ 21 + c.get .FLT_CTL_SW_ASSERT 0 * 2 ^ 22
    + c.get .FLT_SRC_BOOT 0 * 2 ^ 23

/-- Whether a channel of a stack without mirroring has failed while some partition maps that stack (R406). -/
def Chip.channelMapped (c : Chip) : Bool :=
  (c.instances .DM_MAP_VALID).any fun i => let k := c.get .DM_MAP_STACK i; c.on .DM_MAP_VALID i && c.get .DMC_STACK_STATUS_CH_FAIL k ≠ 0 && !c.on .DMC_STACK_CFG_MIRROR k

/-- A present cause of a W1C contribution sets it again (R406): a failed link sets LINK; a standing DEEP_UE or CIS_UE, or a failed channel that is mapped, sets MEM. -/
def Chip.fltCauses (c : Chip) : Chip :=
  let c := if (List.range 4).any (fun d => c.on .H_LINK_FAIL d) then c.set .FLT_SRC_LINK 0 1 else c
  if (List.range 16).any (fun p => c.on .DM_ERR_DEEP_UE p || c.on .DM_ERR_CIS_UE p) || c.channelMapped then c.set .FLT_SRC_MEM 0 1 else c

/-- FAULT_N follows its contributions; each assertion raises source 255 once (R406). BOOT cannot be masked. Log 133 (DEDUCED). -/
def Chip.faultN (c : Chip) : Chip :=
  let c := c.fltCauses
  if Nat.land c.fltSrc (c.get .FLT_FN_EN_EN 0 + 2 ^ 23) ≠ 0 then
    if c.on .H_FAULT_N 0 then c else (c.set .H_FAULT_N 0 1).raise 255
  else c.set .H_FAULT_N 0 0

end Sys2Proof.Machine
end

