-- ==== Sys2Proof/Machine/Flags.lean ====
section
/-! DEFINITION. Event flags and the interrupts they raise: MSI-X messages to hosts (R294, R296), the pump, probe, design-memory
and partition events, and the result registers of the commands (R93, R95). -/

namespace Sys2Proof.Machine

/-! MSI-X -/

/-- Send the message of vector `v` of port `n`. -/
def Chip.msiSend (c : Chip) (n v : Nat) : Chip :=
  let i := n * 48 + v
  { c with host := ⟨n, c.get .MSIX_ADDR_HI_ADDR i * 2 ^ 32 + c.get .MSIX_ADDR_LO_ADDR i * 4, toBytes 4 (c.get .MSIX_DATA_DATA i)⟩ :: c.host }

/-- Vector `v` of port `n` signals: a message, or its pending bit while it is masked. Log 140 (DEDUCED). -/
def Chip.msi (c : Chip) (n v : Nat) : Chip :=
  if c.on .MSIX_CTRL_MASK (n * 48 + v) then c.set .MSIX_PBA_BIT (n * 64 + v) 1 else c.msiSend n v

/-- Vector `v` of port `n` has been unmasked: a pending message leaves. -/
def Chip.msiUnmask (c : Chip) (n v : Nat) : Chip :=
  if c.on .MSIX_PBA_BIT (n * 64 + v) && !c.on .MSIX_CTRL_MASK (n * 48 + v) then (c.msiSend n v).set .MSIX_PBA_BIT (n * 64 + v) 0 else c

/-- An interrupt of partition `p`: to its bound host as vector `v`, or to interrupt source `s` while it is bound to the service
complex or unbound (R125, R296, R341). Log 139 (DESIGN CHOICE). -/
def Chip.partIrq (c : Chip) (p v s : Nat) : Chip :=
  match c.get .PTN_CFG_BIND p with
  | 0 => c.msi 0 v
  | 1 => c.msi 1 v
  | 2 => c.msi 2 v
  | 3 => c.msi 3 v
  | 4 => c.raise s
  | 7 => c.raise s
  | _ => c

/-- PMP_EVENT bit `n`, the field `f`, of partition `p` is set and raises the pump interrupt where enabled. -/
def Chip.pumpEvent (c : Chip) (f : Fld) (n p : Nat) : Chip :=
  let c := c.set f p 1
  if bitB (c.get .PMP_EVENT_EN_EN p) n then c.partIrq p p (16 + p) else c

/-- PRB_EVENT bit `n`, the field `f`, of partition `p` is set and raises the probe interrupt where enabled. -/
def Chip.probeEvent (c : Chip) (f : Fld) (n p : Nat) : Chip :=
  let c := c.set f p 1
  if bitB (c.get .PRB_EVENT_EN_EN p) n then c.partIrq p (16 + p) (32 + p) else c

/-- A DM_ERR bit of partition `p` is set: source 80 + p (R340). -/
def Chip.dmErr (c : Chip) (f : Fld) (p : Nat) : Chip := (c.set f p 1).raise (80 + p)

/-- Record an uncorrectable design-memory error at design address `a` (R159, DM_ERR_LOC). -/
def Chip.dmErrLoc (c : Chip) (p a net : Nat) : Chip :=
  if c.on .DM_ERR_LOC_VALID p then c
  else ((c.set .DM_ERR_LOC_VALID p 1).set .DM_ERR_LOC_NET p net).set .DM_ERR_LOC_ADDR p a

/-- An encoding fault of partition `p`, `n` times (R47, R57, R59, R87). -/
def Chip.encFault (c : Chip) (p n : Nat) : Chip := if n = 0 then c else c.count .PTN_ENC_FAULT_COUNT p n

/-! Commands and results (R93, R95) -/

/-- The command registers that follow R93. -/
inductive CmdReg where
  | pmp | ptn | ldr | prb | mt | rimLd | pwr
deriving DecidableEq, Repr

/-- The number under which the pending command of instance `i` is kept. -/
def CmdReg.idx (r : CmdReg) (i : Nat) : Nat := r.ctorIdx * 16 + i

/-- The result register of a command register: READY, CONSUMED, OUTCOME, CMD, CODE, SEQ. -/
def CmdReg.result : CmdReg → Fld × Fld × Fld × Fld × Fld × Fld
  | .pmp => (.PMP_RESULT_READY, .PMP_RESULT_CONSUMED, .PMP_RESULT_OUTCOME, .PMP_RESULT_CMD, .PMP_RESULT_CODE, .PMP_RESULT_SEQ)
  | .ptn => (.PTN_RESULT_READY, .PTN_RESULT_CONSUMED, .PTN_RESULT_OUTCOME, .PTN_RESULT_CMD, .PTN_RESULT_CODE, .PTN_RESULT_SEQ)
  | .ldr => (.LDR_RESULT_READY, .LDR_RESULT_CONSUMED, .LDR_RESULT_OUTCOME, .LDR_RESULT_CMD, .LDR_RESULT_CODE, .LDR_RESULT_SEQ)
  | .prb => (.PRB_RESULT_READY, .PRB_RESULT_CONSUMED, .PRB_RESULT_OUTCOME, .PRB_RESULT_CMD, .PRB_RESULT_CODE, .PRB_RESULT_SEQ)
  | .mt => (.MT_RESULT_READY, .MT_RESULT_CONSUMED, .MT_RESULT_OUTCOME, .MT_RESULT_CMD, .MT_RESULT_CODE, .MT_RESULT_SEQ)
  | .rimLd => (.RIM_LD_RESULT_READY, .RIM_LD_RESULT_CONSUMED, .RIM_LD_RESULT_OUTCOME, .RIM_LD_RESULT_CMD, .RIM_LD_RESULT_CODE, .RIM_LD_RESULT_SEQ)
  | .pwr => (.PWR_RESULT_READY, .PWR_RESULT_CONSUMED, .PWR_RESULT_OUTCOME, .PWR_RESULT_CMD, .PWR_RESULT_CODE, .PWR_RESULT_SEQ)

/-- The block's own CMD_LOST bit (R93). -/
def CmdReg.lost : CmdReg → Fld
  | .pmp => .PMP_STATUS_CMD_LOST
  | .ptn => .PTN_LOSS_CMD_LOST
  | .ldr => .LDR_STATUS_CMD_LOST
  | .prb => .PRB_STATUS_CMD_LOST
  | .mt => .MT_STATUS_CMD_LOST
  | .rimLd => .RIM_LD_STATUS_CMD_LOST
  | .pwr => .PWR_STATE_CMD_LOST

/-- Outcomes of a result. -/
def completed : Nat := 0
def aborted : Nat := 1
def refused : Nat := 2

/-- Whether a command of register `r` is pending. -/
def Chip.cmdPending (c : Chip) (r : CmdReg) (i : Nat) : Bool := c.on .CQ_PEND (r.idx i)

/-- The last cycle executed (R413). -/
def Chip.lastCycle (c : Chip) (p : Nat) : Nat := (c.get .PMP_CYCLE_CYCLE p + (2 ^ 64 - 1)) % 2 ^ 64

/-- What follows the production of a result of register `r` of instance `i`: its event and its interrupt (R95, R340). -/
def Chip.resultEvent (c : Chip) (r : CmdReg) (i : Nat) : Chip :=
  match r with
  | .pmp => (c.set .H_RES_CYC i (c.lastCycle i)).pumpEvent .PMP_EVENT_RESULT 0 i
  | .ptn => c.raise (64 + i)
  | .ldr => c.raise (48 + i)
  | .prb => c
  | .mt => c.raise 245
  | .rimLd => c.raise 222
  | .pwr => c

/-- Every field of a result register is replaced, READY = 1 and CONSUMED = 0 (R95). -/
def Chip.putResult (c : Chip) (r : CmdReg) (i cmd seq outcome code : Nat) : Chip :=
  let (rdy, con, out, cm, cd, sq) := r.result
  (((((((c.set rdy i 1).set con i 0).set out i outcome).set cm i cmd).set cd i code).set sq i seq)).resultEvent r i

/-- The next sequence number of a command register (R93). -/
def Chip.nextSeq (c : Chip) (r : CmdReg) (i : Nat) : Chip :=
  (c.bump .CQ_SEQ (r.idx i)).set r.result.1 i 0

/-- A command is refused: its result is produced in the same clock (R95). Log 135 (DEDUCED). -/
def Chip.refuse (c : Chip) (r : CmdReg) (i cmd code : Nat) : Chip :=
  let c := c.nextSeq r i
  c.putResult r i cmd (c.get .CQ_SEQ (r.idx i)) refused code

/-- A command is accepted and is pending from now on, under its sequence number (R93). -/
def Chip.accept (c : Chip) (r : CmdReg) (i cmd : Nat) : Chip :=
  let c := c.nextSeq r i
  ((c.set .CQ_PSEQ (r.idx i) (c.get .CQ_SEQ (r.idx i))).set .CQ_PEND (r.idx i) 1).set .CQ_CMD (r.idx i) cmd

/-- The pending command produces its result (R95). -/
def Chip.finish (c : Chip) (r : CmdReg) (i outcome code : Nat) : Chip :=
  if c.cmdPending r i then
    (c.set .CQ_PEND (r.idx i) 0).putResult r i (c.get .CQ_CMD (r.idx i)) (c.get .CQ_PSEQ (r.idx i)) outcome code
  else c

/-- A command that is accepted and produces its result in the same clock. -/
def Chip.acceptDone (c : Chip) (r : CmdReg) (i cmd : Nat) : Chip := (c.accept r i cmd).finish r i completed 0

/-- The pending command is discarded and produces no result (R128). -/
def Chip.discard (c : Chip) (r : CmdReg) (i : Nat) : Chip :=
  ((c.set .CQ_PEND (r.idx i) 0).set .CQ_CMD (r.idx i) 0).set .CQ_COUNT (r.idx i) 0

/-- A write is discarded because a command is pending (R93). Log 136 (DEDUCED). -/
def Chip.cmdLost (c : Chip) (r : CmdReg) (i : Nat) : Chip := c.set r.lost i 1

/-- The result register returns to its reset value and the count of sequence numbers restarts (R93). -/
def Chip.resultReset (c : Chip) (r : CmdReg) (i : Nat) : Chip :=
  let (rdy, con, out, cm, cd, sq) := r.result
  ((c.unsetAll [rdy, con, out, cm, cd, sq] i).set .CQ_SEQ (r.idx i) 0).discard r i

/-- A read of a result register (R95): the value returned, and CONSUMED set by the first read while READY = 1. -/
def Chip.readResult (c : Chip) (r : CmdReg) (i : Nat) : Nat × Chip :=
  let (rdy, con, out, cm, cd, sq) := r.result
  let v := c.get rdy i * 2 ^ 31 + c.get con i * 2 ^ 30 + c.get out i * 2 ^ 28 + c.get cm i * 2 ^ 24 + c.get cd i * 2 ^ 16 + c.get sq i
  let c := if c.on rdy i then c.set con i 1 else c
  (v, if r = .pmp then c.set .PMP_RESULT_CYC_CYCLE i (c.get .H_RES_CYC i) else c)

end Sys2Proof.Machine
end

