-- ==== Sys2Proof/Machine/Memory.lean ====
section
/-! DEFINITION. Design memory and service memory: design addresses (R137 to R139), ECC outcomes (R157 to R159, R324), and the
reads, writes and atomics that agents, hosts, cores and DMA make (R145, R151, R155, R325). -/

namespace Sys2Proof.Machine

/-! Ownership (R24, R85, R119) -/

/-- Whether partition `p` owns band `b`. -/
def Chip.ownsBand (c : Chip) (p b : Nat) : Bool :=
  c.on .PTN_CFG_ACTIVE p && c.get .PTN_CFG_FIRST p ≤ b && b < c.get .PTN_CFG_FIRST p + c.get .PTN_CFG_COUNT p

/-- The partition that owns band `b`. -/
def Chip.bandOwner (c : Chip) (b : Nat) : Option Nat := (List.range 16).find? fun p => c.ownsBand p b

/-- The partition that owns tile `t`. -/
def Chip.tileOwner (c : Chip) (t : Nat) : Option Nat := c.bandOwner (t / 8)

/-- The partition that owns BP `b`. -/
def Chip.bpOwner (c : Chip) (b : Nat) : Option Nat := c.bandOwner (b / 2048)

/-! Design addresses -/

/-- First address of the cisterns in a design address space (R137). -/
def cisternBase : Nat := 0x3000000000

/-- Where a design address leads. -/
inductive Place where
  | cistern (addr : Nat)
  | deep (stack granule off : Nat)
  | unmapped
  | outside
deriving DecidableEq, Repr

/-- Whether partition granule `n` holds the golden copy of the loaded image (R187). -/
def Chip.isGolden (c : Chip) (p n : Nat) : Bool :=
  c.get .H_GOLD_LO p ≤ n && n < c.get .H_GOLD_LO p + c.get .H_GOLD_CNT p

/-- Where design address `a` of partition `p` leads (R137, R138); golden granules are unmapped but for the service complex (R187). -/
def Chip.place (c : Chip) (p a : Nat) (svc : Bool) : Place :=
  if 0x4000000000 ≤ a then .outside
  else if a < cisternBase then
    let n := a / 2 ^ 30
    if c.on .DM_MAP_VALID (p * 192 + n) && (svc || !c.isGolden p n) then
      .deep (c.get .DM_MAP_STACK (p * 192 + n)) (c.get .DM_MAP_GRANULE (p * 192 + n)) (a % 2 ^ 30)
    else .unmapped
  else if a < cisternBase + c.get .PTN_CFG_COUNT p * 8 * 0x80000 then
    .cistern (c.get .PTN_CFG_FIRST p * 8 * 0x80000 + (a - cisternBase))
  else .unmapped

/-! Channels (R157, R158, R410) -/

/-- Stack height and density (R160): 24 granules of 1 GiB per stack, of which a mirrored stack offers half (R157). -/
def stackGranules : Nat := 24

/-- Channels of a stack (R160). -/
def stackChannels : Nat := 16

/-- Whether stack `k` is mirrored. -/
def Chip.mirrored (c : Chip) (k : Nat) : Bool := c.on .DMC_STACK_CFG_MIRROR k

/-- Whether channel `ch` of stack `k` has failed. -/
def Chip.chFailed (c : Chip) (k ch : Nat) : Bool := bitB (c.get .DMC_STACK_STATUS_CH_FAIL k) ch

/-- The channel of byte `off` of a granule of stack `k`: in a mirrored stack the first of its pair (R410). -/
def Chip.channelOf (c : Chip) (k off : Nat) : Nat :=
  if c.mirrored k then 2 * ((off / 256) % (stackChannels / 2)) else (off / 256) % stackChannels

/-- Whether every channel that holds byte `off` has failed: status DM_CHANNEL (R158). -/
def Chip.deepDead (c : Chip) (k off : Nat) : Bool :=
  let ch := c.channelOf k off
  if c.mirrored k then c.chFailed k ch && c.chFailed k (ch + 1) else c.chFailed k ch

/-- The channel that serves byte `off` of stack `k`, as accesses in flight hold it (of a mirrored pair, the even channel). -/
def Chip.deepChannel (c : Chip) (k off : Nat) : Nat := 1 + k * stackChannels + c.channelOf k off

/-- The channel that serves a place, 0 where none does. -/
def Chip.placeChannel (c : Chip) : Place → Nat
  | .deep st _ off => c.deepChannel st off
  | _ => 0

/-- Whether channel `x`, held as above, has failed, and, in a mirrored stack, the other channel of its pair with it (R158). -/
def Chip.channelDead (c : Chip) (x : Nat) : Bool :=
  let k := (x - 1) / stackChannels
  let ch := (x - 1) % stackChannels
  x ≠ 0 && (if c.mirrored k then c.chFailed k ch && c.chFailed k (ch + 1) else c.chFailed k ch)

/-! Routers (R309) -/

/-- The router of the channel that holds byte `off` of a granule of stack `k`: (channel div 2, 0) or (channel div 2, 15) of the stack's die. -/
def Chip.routerDeep (c : Chip) (k off : Nat) : Nat := k / 2 * 128 + k % 2 * 15 * 8 + c.channelOf k off / 2

/-- The hub router. -/
def routerHub : Nat := 512

/-- The router at which a place of design memory lies; a cistern's is its tile's. -/
def Chip.routerOf (c : Chip) : Place → Nat
  | .cistern x => x / 0x80000
  | .deep k _ off => c.routerDeep k off
  | _ => routerHub

/-- The die of a router; 4 is the I/O die. -/
def routerDie (r : Nat) : Nat := r / 128

/-- Whether a failed die link lies between two routers: a transaction that would cross it times out (R401). Log 40 (DEDUCED). -/
def Chip.cutOff (c : Chip) (x y : Nat) : Bool :=
  routerDie x ≠ routerDie y && (c.on .H_LINK_FAIL (routerDie x) || c.on .H_LINK_FAIL (routerDie y))

/-! Transactions in flight (R312, R314) -/

/-- The first of the `n` tags from `base` on that no transaction in flight holds; each range belongs to one initiator. Log 180 (DEDUCED). -/
def Chip.tagIn (c : Chip) (base n : Nat) : Option Nat :=
  ((List.range n).map fun j => base + j).find? fun g => !c.calls.any fun k => k.tag = g

/-- A transaction leaves its initiator with tag `tag` for router `target`. -/
def Chip.launch (c : Chip) (tag : Nat) (kind : CallKind) (target : Nat) : Chip :=
  { c with calls := c.calls ++ [⟨tag, kind, c.now, target, true⟩] }

/-! ECC -/

/-- Outcomes of a protected unit's read: no error, corrected, uncorrectable, served by the other copy, served by the other copy as corrected there.
Log 31 (DESIGN CHOICE). -/
inductive Ecc where
  | good | corrected | bad | mirror | mirrorCorrected
deriving DecidableEq, Repr

/-- The error mark of copy 0 or 1 of a unit: 0 none, 1 correctable, 2 uncorrectable. -/
def copyMark (mark copy : Nat) : Nat := if copy = 0 then mark % 3 else mark / 3 % 3

/-- Read cistern word `w`: a correctable error is corrected and written back (R159). -/
def Mem.cisRead (m : Mem) (w : Nat) : Ecc × Mem :=
  match NatMap.find 0 m.cisErr w with
  | 0 => (.good, m)
  | 1 => (.corrected, { m with cisErr := NatMap.put 0 m.cisErr w 0 })
  | _ => (.bad, m)

/-- Read a 32-byte unit of deep memory (R157 to R159). In a mirrored stack with both channels alive either copy may serve: which one is a
free value. `off` is the byte's offset in its granule, `u` the unit's number. -/
def deepRead (c : Chip) (m : Mem) (k off u : Nat) : Ecc × Chip × Mem :=
  match NatMap.find 0 m.deepErr u with
  | 0 => (.good, c, m)
  | mark =>
    if !c.mirrored k then
      match mark % 3 with
      | 0 => (.good, c, m)
      | 1 => (.corrected, c, { m with deepErr := NatMap.put 0 m.deepErr u 0 })
      | _ => (.bad, c, m)
    else
      let ch := c.channelOf k off
      let (copy, c) :=
        if c.chFailed k ch then (1, c) else if c.chFailed k (ch + 1) then (0, c) else c.fresh 1
      let other := 1 - copy
      let otherAlive := !c.chFailed k (ch + other)
      let keep := if copy = 0 then mark / 3 * 3 else mark % 3
      match copyMark mark copy with
      | 0 => (.good, c, m)
      | 1 => (.corrected, c, { m with deepErr := NatMap.put 0 m.deepErr u keep })
      | _ =>
        if otherAlive && copyMark mark other ≠ 2 then
          (if copyMark mark other = 0 then .mirror else .mirrorCorrected, c, { m with deepErr := NatMap.put 0 m.deepErr u 0 })
        else (.bad, c, m)

/-- Record what a cistern read met (R159, R400, R407): `a` is the design address, `net` 1 for a network access. What is located is the failing word, 8 bytes of a
cistern and 32 of deep memory. Log 155 (DEDUCED). -/
def Chip.cisReport (c : Chip) (p a net : Nat) : Ecc → Chip
  | .corrected => (c.count .FLT_CNT_COUNT 2 1).dmErr .DM_ERR_CIS_CE p
  | .bad => (((c.dmErrLoc p (a - a % 8) net).logFault fltCisUe p (a - a % 8)).dmErr .DM_ERR_CIS_UE p).faultN
  | _ => c

/-- Record what a deep-memory read met (R157, R159, R400, R407). -/
def Chip.deepReport (c : Chip) (p a net : Nat) : Ecc → Chip
  | .corrected => (c.count .FLT_CNT_COUNT 3 1).dmErr .DM_ERR_DEEP_CE p
  | .bad => (((c.dmErrLoc p (a - a % 32) net).logFault fltDeepUe p (a - a % 32)).dmErr .DM_ERR_DEEP_UE p).faultN
  | .mirror => c.dmErr .DM_ERR_MIRROR_USED p
  | .mirrorCorrected => ((c.count .FLT_CNT_COUNT 3 1).dmErr .DM_ERR_DEEP_CE p).dmErr .DM_ERR_MIRROR_USED p
  | .good => c

/-! Reads and writes within one protected unit -/

/-- Byte key of deep memory. -/
def deepKey (k g off : Nat) : Nat := (k * stackGranules + g) * 2 ^ 30 + off

/-- The answer of one unit's access: its status, its bytes and the state it leaves. -/
structure Hit where
  status : Status
  data : List Byte
  chip : Chip
  mem : Mem

/-- Read `n` bytes that lie in one 8-byte cistern word at cistern byte address `x`. -/
def readCis (c : Chip) (m : Mem) (p a x n net : Nat) : Hit :=
  let (e, m) := m.cisRead (x / 8)
  ⟨if e = .bad then .dmUe else .ok, Memory.readN m.cistern x n, c.cisReport p a net e, m⟩

/-- Write bytes within one 8-byte cistern word; a part of a word is merged (R159). -/
def writeCis (c : Chip) (m : Mem) (p a x net : Nat) (d : List Byte) : Hit :=
  if d.length = 8 then
    ⟨.ok, [], c, { m with cistern := Memory.writeN m.cistern x d, cisErr := NatMap.put 0 m.cisErr (x / 8) 0 }⟩
  else
    let (e, m) := m.cisRead (x / 8)
    let c := c.cisReport p a net e
    if e = .bad then ⟨.dmUe, [], c, m⟩ else ⟨.ok, [], c, { m with cistern := Memory.writeN m.cistern x d }⟩

/-- Read bytes within one 32-byte unit of deep memory. With every channel failed the bytes are not delivered (R158). -/
def readDeep (c : Chip) (m : Mem) (p a k g off n net : Nat) : Hit :=
  if c.deepDead k off then ⟨.dmChannel, List.replicate n 0, if net = 0 then (c.dmErr .DM_ERR_DEEP_UE p).faultN else c, m⟩
  else
    let x := deepKey k g off
    let (e, c, m) := deepRead c m k off (x / 32)
    ⟨if e = .bad then .dmUe else .ok, Memory.readN m.deep x n, c.deepReport p a net e, m⟩

/-- Write bytes within one 32-byte unit of deep memory; less than the unit is merged (R159). The unit is written with new check bits, in a mirrored stack in both
copies (R157): no error of it is left. -/
def writeDeep (c : Chip) (m : Mem) (p a k g off net : Nat) (d : List Byte) : Hit :=
  if c.deepDead k off then ⟨.dmChannel, [], if net = 0 then (c.dmErr .DM_ERR_DEEP_UE p).faultN else c, m⟩
  else
    let x := deepKey k g off
    if d.length = 32 then
      ⟨.ok, [], c, { m with deep := Memory.writeN m.deep x d, deepErr := NatMap.put 0 m.deepErr (x / 32) 0 }⟩
    else
      let (e, c, m) := deepRead c m k off (x / 32)
      let c := c.deepReport p a net e
      if e = .bad then ⟨.dmUe, [], c, m⟩
      else ⟨.ok, [], c, { m with deep := Memory.writeN m.deep x d, deepErr := NatMap.put 0 m.deepErr (x / 32) 0 }⟩

/-! Accesses that may cover several units -/

/-- The worse of two statuses, the first that is not OK. -/
def Status.join (a b : Status) : Status := if a = .ok then b else a

/-- Bytes from design address `a` to the end of its protected unit, at most `n`. -/
def unitSpan (a n : Nat) : Nat :=
  let u := if a < cisternBase then 32 else 8
  min n (u - a % u)

/-- Read `n` bytes of partition `p`'s design memory from address `a`; the caller has checked the access (R155). Golden bytes have no
specified layout (R188): they are free values. `fuel` bounds the units. -/
def designRead (p net : Nat) (svc : Bool) : Nat → Nat → Nat → Chip → Mem → Hit
  | 0, _, _, c, m => ⟨.ok, [], c, m⟩
  | _, _, 0, c, m => ⟨.ok, [], c, m⟩
  | fuel + 1, a, n, c, m =>
    let k := unitSpan a n
    let h : Hit :=
      match c.place p a svc with
      | .cistern x => readCis c m p a x k net
      | .deep st g off =>
        if c.deepDead st off then readDeep c m p a st g off k net
        else if c.isGolden p (a / 2 ^ 30) then
          let (v, c) := Chip.freshBytes k c
          ⟨.ok, v, c, m⟩
        else readDeep c m p a st g off k net
      | _ => ⟨.dmUnmapped, [], c, m⟩
    let r := designRead p net svc fuel (a + k) (n - k) h.chip h.mem
    ⟨h.status.join r.status, h.data ++ r.data, r.chip, r.mem⟩

/-- Write bytes to partition `p`'s design memory from address `a`; the caller has checked the access (R155). -/
def designWrite (p net : Nat) (svc : Bool) : Nat → Nat → List Byte → Chip → Mem → Hit
  | 0, _, _, c, m => ⟨.ok, [], c, m⟩
  | _, _, [], c, m => ⟨.ok, [], c, m⟩
  | fuel + 1, a, d, c, m =>
    let k := unitSpan a d.length
    let h : Hit :=
      match c.place p a svc with
      | .cistern x => writeCis c m p a x net (d.take k)
      | .deep st g off => writeDeep c m p a st g off net (d.take k)
      | _ => ⟨.dmUnmapped, [], c, m⟩
    let r := designWrite p net svc fuel (a + k) (d.drop k) h.chip h.mem
    ⟨h.status.join r.status, [], r.chip, r.mem⟩

/-- What a network access to unmapped design memory leaves (R139). -/
def Chip.netUnmapped (c : Chip) (p : Nat) : Chip := c.dmErr .DM_ERR_UNMAPPED p

/-- Whether an access of `n` bytes at `a` crosses a 256-byte boundary, or is longer than 256 bytes or empty (R155). -/
def crosses256 (a n : Nat) : Bool := 256 < a % 256 + n

/-- A network read of design memory (R139, R155, R159). -/
def netRead (c : Chip) (m : Mem) (p a n : Nat) (svc : Bool) : Hit :=
  if crosses256 a n then ⟨.dmAlign, [], c, m⟩
  else
    match c.place p a svc with
    | .outside => ⟨.netNoTarget, [], c, m⟩
    | .unmapped => ⟨.dmUnmapped, [], c.netUnmapped p, m⟩
    | _ => designRead p 1 svc n a n c m

/-- A network write of design memory (R139, R155, R159). -/
def netWrite (c : Chip) (m : Mem) (p a : Nat) (d : List Byte) (svc : Bool) : Hit :=
  if crosses256 a d.length then ⟨.dmAlign, [], c, m⟩
  else
    match c.place p a svc with
    | .outside => ⟨.netNoTarget, [], c, m⟩
    | .unmapped => ⟨.dmUnmapped, [], c.netUnmapped p, m⟩
    | _ => designWrite p 1 svc d.length a d c m

/-- A network atomic of `n` (4 or 8) bytes on design memory (R155): the old value is returned, `f` gives the new one. On a word with an uncorrectable error it
writes nothing. Log 154 (DEDUCED). -/
def netAtomic (c : Chip) (m : Mem) (p a n : Nat) (svc : Bool) (f : Nat → Nat) : Hit :=
  if crosses256 a n then ⟨.dmAlign, [], c, m⟩
  else if a < cisternBase then ⟨.dmNoAtomic, [], c, m⟩
  else if a % n ≠ 0 then ⟨.dmAlign, [], c, m⟩
  else
    match c.place p a svc with
    | .cistern x =>
      let r := readCis c m p a x n 1
      if r.status = .ok then
        let w := writeCis r.chip r.mem p a x 1 (toBytes n (f (ofBytes r.data)))
        ⟨w.status, r.data, w.chip, w.mem⟩
      else r
    | .outside => ⟨.netNoTarget, [], c, m⟩
    | _ => ⟨.dmUnmapped, [], c.netUnmapped p, m⟩

/-! Service SRAM and vault (R322, R324 to R326) -/

/-- Read SRAM word `w`: a correctable error is corrected and written back, an uncorrectable one is logged (R324, R400, R407). -/
def sramEcc (c : Chip) (m : Mem) (w : Nat) : Ecc × Chip × Mem :=
  match NatMap.find 0 m.sramErr w with
  | 0 => (.good, c, m)
  | 1 => (.corrected, c.count .FLT_CNT_COUNT 4 1, { m with sramErr := NatMap.put 0 m.sramErr w 0 })
  | _ =>
    (.bad, ((c.set .FLT_SRC_SVC 0 1).logFault fltSvcUe 0 (w / 2 ^ 18 + w % 2 ^ 18 * 8)).faultN, m)

/-- Whether the SRAM byte at offset `a` has held sumped tokens, whose layout the spec does not give (R332): it reads as a free value. Log 90 (DEDUCED). -/
def Chip.inSump (c : Chip) (a : Nat) : Bool := c.get .H_SUMP_LO 0 ≤ a / 4096 && a / 4096 < c.get .H_SUMP_HI 0

/-- `n` bytes of service SRAM at `a`, within one word. -/
def sramBytes (c : Chip) (m : Mem) (a n : Nat) : List Byte × Chip :=
  if c.inSump a then Chip.freshBytes n c else (Memory.readN m.sram a n, c)

/-- Read `n` bytes of service SRAM from offset `a`. -/
def sramRead : Nat → Nat → Nat → Chip → Mem → Hit
  | 0, _, _, c, m => ⟨.ok, [], c, m⟩
  | _, _, 0, c, m => ⟨.ok, [], c, m⟩
  | fuel + 1, a, n, c, m =>
    let k := min n (8 - a % 8)
    let (e, c, m) := sramEcc c m (a / 8)
    let (d, c) := sramBytes c m a k
    let r := sramRead fuel (a + k) (n - k) c m
    ⟨Status.join (if e = .bad then .dmUe else .ok) r.status, d ++ r.data, r.chip, r.mem⟩

/-- Write bytes to service SRAM from offset `a`. A part of a word is merged, and is not performed where the word is uncorrectable (the rule of
R159 for cisterns, taken for the same SECDED words). -/
def sramWrite : Nat → Nat → List Byte → Chip → Mem → Hit
  | 0, _, _, c, m => ⟨.ok, [], c, m⟩
  | _, _, [], c, m => ⟨.ok, [], c, m⟩
  | fuel + 1, a, d, c, m =>
    let k := min d.length (8 - a % 8)
    let (e, c, m) := if k = 8 then (Ecc.good, c, { m with sramErr := NatMap.put 0 m.sramErr (a / 8) 0 }) else sramEcc c m (a / 8)
    let m := if e = .bad then m else { m with sram := Memory.writeN m.sram a (d.take k) }
    let r := sramWrite fuel (a + k) (d.drop k) c m
    ⟨Status.join (if e = .bad then .dmUe else .ok) r.status, [], r.chip, r.mem⟩

end Sys2Proof.Machine
end

