-- ==== Sys2Proof/Machine/Operands.lean ====
section
/-! DEFINITION. The instruction word (R35), its check bits (R38, R39), the data stores (R65, R66) and the operand sources (R41 to R47). -/

namespace Sys2Proof.Machine

/-! The instruction word -/

def Word.tt (w : Nat) : Nat := bits w 79 64
def Word.opa (w : Nat) : Nat := bits w 63 51
def Word.opb (w : Nat) : Nat := bits w 50 38
def Word.opc (w : Nat) : Nat := bits w 37 25
def Word.opd (w : Nat) : Nat := bits w 24 12
def Word.op (w : Nat) : Nat := bits w 11 8
def Word.prb (w : Nat) : Nat := bit w 7
def Word.snd (w : Nat) : Nat := bit w 6
def Word.port (w : Nat) : Nat := bits w 5 0

/-- The word of the given fields, without check bits (R35). -/
def Word.make (tt opa opb opc opd op prb snd port : Nat) : Nat :=
  tt * 2 ^ 64 + opa * 2 ^ 51 + opb * 2 ^ 38 + opc * 2 ^ 25 + opd * 2 ^ 12 + op * 2 ^ 8 + prb * 2 ^ 7 + snd * 2 ^ 6 + port

/-! Check bits -/

/-- The code positions of data bits 0 to 79: 3 to 87 without the powers of two (R38). -/
def dataPositions : List Nat := (List.range 88).filter fun n => 2 < n && n ∉ [4, 8, 16, 32, 64]

/-- C6 to C0 of 80 data bits: the exclusive OR of the positions of the bits set (R38). -/
def hamming (d : Nat) : Nat :=
  (dataPositions.foldl (fun (a : Nat × Nat) pos => (a.1 / 2, if a.1 % 2 = 1 then Nat.xor a.2 pos else a.2)) (d, 0)).2

/-- The 88 stored bits of 80 data bits (R38). -/
def encodeWord (d : Nat) : Nat :=
  let d := d % 2 ^ 80
  let e := d + hamming d * 2 ^ 80
  e + parityN 87 e * 2 ^ 87

/-- The outcome of the check of a stored word (R39). -/
inductive WordCheck where
  | good
  | corrected (w : Nat)
  | bad
deriving DecidableEq, Repr

/-- Check a stored word of 88 bits (R39). -/
def checkWord (w : Nat) : WordCheck :=
  let d := w % 2 ^ 80
  let syn := Nat.xor (hamming d) (bits w 86 80)
  let p := parityN 88 w
  if p = 0 then if syn = 0 then .good else .bad
  else if 88 ≤ syn then .bad
  else if syn ∈ dataPositions then .corrected (encodeWord (Nat.xor d (2 ^ (dataPositions.idxOf syn))))
  else .corrected (encodeWord d)

/-! Data stores -/

/-- The 8 stored bits of word `w` (BP * 512 + slot / 8) of one array. -/
def storeByte (slots : NatMap) (w : Nat) : Nat :=
  (List.range 8).foldl (fun v i => v + NatMap.find 0 slots (w * 8 + i) * 2 ^ i) 0

/-- Whether word `w` passes parity in one array (R65). -/
def parityOk (slots par : NatMap) (w : Nat) : Bool :=
  (parityN 8 (storeByte slots w) + NatMap.find 0 par w) % 2 = 0

/-- Copy word `w` of one array, slots and parity, into another. -/
def copyWord (w : Nat) (fs fp ts tp : NatMap) : NatMap × NatMap :=
  ((List.range 8).foldl (fun m i => NatMap.put 0 m (w * 8 + i) (NatMap.find 0 fs (w * 8 + i))) ts,
   NatMap.put 0 tp w (NatMap.find 0 fp w))

/-- Write slot `k` of BP `b` in one array: the parity changes by the written bit only (R65). -/
def writeSlot1 (slots par : NatMap) (b k v : Nat) : NatMap × NatMap :=
  let key := b * 4096 + k
  let old := NatMap.find 0 slots key
  let w := key / 8
  (NatMap.put 0 slots key v, NatMap.put 0 par w ((NatMap.find 0 par w + old + v) % 2))

/-- Write slot `k` of BP `b`; in mirrored mode in both arrays (R66). -/
def Arr.writeSlot (a : Arr) (mirror : Bool) (b k v : Nat) : Arr :=
  let (sa, pa) := writeSlot1 a.slotA a.parA b k v
  if mirror then
    let (sb, pb) := writeSlot1 a.slotB a.parB b k v
    { a with slotA := sa, parA := pa, slotB := sb, parB := pb }
  else { a with slotA := sa, parA := pa }

/-- A slot read whose word fails parity in every copy: the partition stops at the end of the cycle with DATA_PARITY, and the first
failing reads are recorded (R65, R407). -/
def Chip.slotFail (c : Chip) (p b k : Nat) : Chip :=
  let c := c.set .H_STOP_PEND p (orBit (c.get .H_STOP_PEND p) 6)
  let c := if c.get .H_DPAR_FIRST p = 0 then c.set .H_DPAR_FIRST p (2 ^ 31 + b * 2 ^ 12 + k) else c
  if c.on .PTN_DPAR_LOC_VALID p then c
  else ((c.set .PTN_DPAR_LOC_VALID p 1).set .PTN_DPAR_LOC_BP p b).set .PTN_DPAR_LOC_SLOT p k

/-- What an operand read gives: its bit and the state it leaves. -/
abbrev Read := Nat × Chip × Arr

/-- Read slot `k` of BP `b` of partition `p` (R65, R66). Where both copies of a mirrored word fail and the two stored bits differ, which of them
is read is a free value. Log 24 (DEDUCED). -/
def readSlot (c : Chip) (a : Arr) (p b k : Nat) : Read :=
  let key := b * 4096 + k
  let w := key / 8
  let okA := parityOk a.slotA a.parA w
  let va := NatMap.find 0 a.slotA key
  if !c.on .H_DS_MIRROR p then
    if okA then (va, c, a) else (va, c.slotFail p b k, a)
  else
    let okB := parityOk a.slotB a.parB w
    let vb := NatMap.find 0 a.slotB key
    match okA, okB with
    | true, true => (va, c, a)
    | true, false =>
      let (s, q) := copyWord w a.slotA a.parA a.slotB a.parB
      (va, c.count .FLT_CNT_COUNT 1 1, { a with slotB := s, parB := q })
    | false, true =>
      let (s, q) := copyWord w a.slotB a.parB a.slotA a.parA
      (vb, c.count .FLT_CNT_COUNT 1 1, { a with slotA := s, parA := q })
    | false, false =>
      if va = vb then (va, c.slotFail p b k, a)
      else
        let (v, c) := c.fresh 1
        (v, c.slotFail p b k, a)

/-! Exchange registers (R67, R69): one code each -/

/-- The registers of the exchange. -/
inductive XReg where
  | outPort (cluster port : Nat)
  | inPort (cluster port : Nat)
  | tileUp (tile link : Nat)
  | tileDown (tile link : Nat)
  | bandUp (band link : Nat)
  | bandDown (band link : Nat)
  | outLane (die port lane : Nat)
  | inLane (die port lane : Nat)
deriving DecidableEq, Repr

/-- The key of a register. -/
def XReg.key : XReg → Nat
  | .outPort c p => c * 64 + p
  | .inPort c p => 262144 + c * 64 + p
  | .tileUp t l => 524288 + t * 16 + l
  | .tileDown t l => 532480 + t * 16 + l
  | .bandUp b l => 540672 + b * 32 + l
  | .bandDown b l => 542720 + b * 32 + l
  | .outLane d q l => 544768 + (d * 2 + q) * 32 + l
  | .inLane d q l => 545024 + (d * 2 + q) * 32 + l

/-- The value of an exchange register. -/
def Arr.x (a : Arr) (r : XReg) : Nat := NatMap.find 0 a.xreg r.key

/-! Operand sources -/

/-- Whether an operand code is reserved (R47). -/
def reservedCode (k : Nat) : Bool :=
  (0x1040 ≤ k && k ≤ 0x10FF) || (0x1140 ≤ k && k ≤ 0x11FF) || (0x1400 ≤ k && k ≤ 0x1FEF) || 0x1FF4 ≤ k

/-- The number of reserved operand codes in a word (R47). -/
def reservedCount (w : Nat) : Nat :=
  b2n (reservedCode (Word.opa w)) + b2n (reservedCode (Word.opb w)) + b2n (reservedCode (Word.opc w)) + b2n (reservedCode (Word.opd w))

/-- Rim input bit `n` of a tile at step `s` (R45, R232): from step 3 on the capture of the cycle, before it that of the cycle before. Log 25 (DEDUCED), 26 (DEDUCED). -/
def rimInput (a : Arr) (tile s n : Nat) : Nat := NatMap.find 0 (if 3 ≤ s then a.capCur else a.capPrev) (tile * 256 + n)

/-- The bit that operand code `k` selects for BP `b` of partition `p` at step `s` (R41). -/
def source (c : Chip) (a : Arr) (p b s k : Nat) : Read :=
  if k < 0x1000 then readSlot c a p b k
  else if k < 0x1020 then (NatMap.find 0 a.lane1 (b / 32 * 32 + (k - 0x1000)), c, a)
  else if k < 0x1040 then (NatMap.find 0 a.lane2 (b / 32 * 32 + (k - 0x1020)), c, a)
  else if 0x1100 ≤ k ∧ k < 0x1140 then (a.x (.inPort (b / 32) (k - 0x1100)), c, a)
  else if 0x1200 ≤ k ∧ k < 0x1300 then (bit (NatMap.find 0 a.rdata (b / 256 * 4 + (k - 0x1200) / 64)) ((k - 0x1200) % 64), c, a)
  else if 0x1300 ≤ k ∧ k < 0x1400 then (rimInput a (b / 256) s (k - 0x1300), c, a)
  else if k = 0x1FF1 then (1, c, a)
  else if k = 0x1FF2 then (b2n (c.get .PMP_CYCLE_CYCLE p = 0), c, a)
  else if k = 0x1FF3 then (c.get .PMP_CYCLE_CYCLE p % 2, c, a)
  else (0, c, a)

end Sys2Proof.Machine
end

