-- ==== Sys2Proof/Machine/Array.lean ====
section
/-! DEFINITION. One step of one Boolean processor (R32, R33, R48 to R58). Effects that the spec places at the end of the step
(lanes, sends, gather inputs, rim outputs) are staged in the array's step buffer. -/

namespace Sys2Proof.Machine

/-- The step that partition `p` is executing or will execute next (PMP_SLEN.STEP_NOW). -/
def Chip.stepNow (c : Chip) (p : Nat) : Nat := c.get .PMP_SLEN_STEP_NOW p

/-- Pump states (R90). -/
def psEmpty : Nat := 0
def psHalt : Nat := 1
def psRamp : Nat := 2
def psWait : Nat := 3
def psRun : Nat := 4
def psHold : Nat := 5
def psLoading : Nat := 6

/-- The pump state of partition `p`. -/
def Chip.pumpState (c : Chip) (p : Nat) : Nat := c.get .PMP_STATUS_STATE p

/-- What one BP's step computes: the value `out`, the enable D of EVALC, and the state its operand reads leave. -/
structure Eval where
  out : Nat
  d : Nat
  chip : Chip
  arr : Arr

/-- Read the four operands and compute `out` (R33, R36, R51). -/
def evalWord (c : Chip) (a : Arr) (p b s w : Nat) : Eval :=
  let (va, c, a) := source c a p b s (Word.opa w)
  let (vb, c, a) := source c a p b s (Word.opb w)
  let (vc, c, a) := source c a p b s (Word.opc w)
  let (vd, c, a) := source c a p b s (Word.opd w)
  if Word.op w = 2 then
    let res := bit (Word.tt w) (4 * vc + 2 * vb + va)
    if vd = 1 then ⟨res, 1, c, a⟩
    else
      let (old, c, a) := readSlot c a p b s
      ⟨old, 0, c, a⟩
  else ⟨bit (Word.tt w) (8 * vd + 4 * vc + 2 * vb + va), vd, c, a⟩

/-- The parts of a step common to every opcode that computes (R33): the lane, the send and the probe tap carry `out`. -/
def publish (a : Arr) (p b s w out : Nat) (send : Bool) : Arr :=
  let a := { a with drives := (b, out) :: a.drives }
  let a := if send then { a with sends := (b / 32 * 64 + Word.port w, out) :: a.sends } else a
  match (if Word.prb w = 1 then NatMap.find 0 a.pmap (b * 4096 + s) else 0) with
  | 0 => a
  | pos + 1 => { a with pvec := NatMap.put 0 a.pvec (p * 65536 + pos) out }

/-- The opcodes of R48, those that are undefined as one. -/
inductive BpOp where
  | nop | eval | evalc | mput | stop | trig | out | xev | undefinedOp
deriving DecidableEq, Repr

/-- The opcode of a word (R48). -/
def Word.kind (w : Nat) : BpOp :=
  match Word.op w with
  | 0 => .nop | 1 => .eval | 2 => .evalc | 3 => .mput | 4 => .stop | 5 => .trig | 6 => .out | 7 => .xev | _ => .undefinedOp

/-- NOP (R49): nothing but the count of reserved operand codes. -/
def bpNop (c : Chip) (a : Arr) : Chip × Arr := (c, a)

/-- EVAL (R50). -/
def bpEval (c : Chip) (a : Arr) (p b s w : Nat) : Chip × Arr :=
  let e := evalWord c a p b s w
  let a := e.arr.writeSlot (e.chip.on .H_DS_MIRROR p) b s e.out
  (e.chip, publish a p b s w e.out (Word.snd w = 1))

/-- EVALC (R51). -/
def bpEvalc (c : Chip) (a : Arr) (p b s w : Nat) : Chip × Arr :=
  let e := evalWord c a p b s w
  let a := if e.d = 1 then e.arr.writeSlot (e.chip.on .H_DS_MIRROR p) b s e.out else e.arr
  (e.chip, publish a p b s w e.out (Word.snd w = 1))

/-- MPUT (R52): agent PORT[5:4], gather input PORT[3:0]. -/
def bpMput (c : Chip) (a : Arr) (p b s w : Nat) : Chip × Arr :=
  let e := evalWord c a p b s w
  let a := { e.arr with gathers := ((b / 256 * 4 + Word.port w / 16) * 16 + Word.port w % 16, e.out) :: e.arr.gathers }
  (e.chip, publish a p b s w e.out (Word.snd w = 1))

/-- STOP (R53). -/
def bpStop (c : Chip) (a : Arr) (p b s w : Nat) : Chip × Arr :=
  let e := evalWord c a p b s w
  let c := e.chip
  let c :=
    if e.out = 1 then
      (c.set .H_STOP_PEND p (orBit (c.get .H_STOP_PEND p) 0)).set .H_STOP_CODES p (orBit (c.get .H_STOP_CODES p) (Word.port w))
    else c
  (c, publish e.arr p b s w e.out (Word.snd w = 1))

/-- TRIG (R54). -/
def bpTrig (c : Chip) (a : Arr) (p b s w : Nat) : Chip × Arr :=
  let e := evalWord c a p b s w
  let c := if e.out = 1 then e.chip.set .H_TRIG p (orBit (e.chip.get .H_TRIG p) (Word.port w)) else e.chip
  (c, publish e.arr p b s w e.out (Word.snd w = 1))

/-- OUT (R55): rim output bit PORT of the BP's tile, written at the end of the step. -/
def bpOut (c : Chip) (a : Arr) (p b s w : Nat) : Chip × Arr :=
  let e := evalWord c a p b s w
  let a := { e.arr with outs := (b / 256 * 64 + Word.port w, e.out) :: e.arr.outs }
  (e.chip, publish a p b s w e.out (Word.snd w = 1))

/-- XEV (R56). A word with SND = 0, which the loader refuses (R48), sends all the same if it is ever executed: R56 names no condition. Log 148 (DEDUCED). -/
def bpXev (c : Chip) (a : Arr) (p b s w : Nat) : Chip × Arr :=
  let e := evalWord c a p b s w
  (e.chip, publish e.arr p b s w e.out true)

/-- An undefined opcode (R57): a NOP that is counted. -/
def bpUndefined (c : Chip) (a : Arr) (p : Nat) : Chip × Arr := (c.encFault p 1, a)

/-- The effect of a word by its opcode. Log 23 (DEDUCED). -/
def bpEffect (c : Chip) (a : Arr) (p b s w : Nat) : Chip × Arr :=
  match Word.kind w with
  | .nop => bpNop c a
  | .eval => bpEval c a p b s w
  | .evalc => bpEvalc c a p b s w
  | .mput => bpMput c a p b s w
  | .stop => bpStop c a p b s w
  | .trig => bpTrig c a p b s w
  | .out => bpOut c a p b s w
  | .xev => bpXev c a p b s w
  | .undefinedOp => bpUndefined c a p

/-- BP `b` executes the word fetched for step `s` of partition `p`, once per step: reserved operand codes are counted, then the opcode acts (R47, R79). -/
def bpExec (c : Chip) (a : Arr) (p b s : Nat) : Chip × Arr :=
  if c.on .H_STEP_DONE b then (c, a)
  else
    let w := NatMap.find 0 a.fword (b * 4096 + s)
    let c := (c.set .H_STEP_DONE b 1).encFault p (reservedCount w)
    bpEffect c a p b s w

/-- The command of one opcode: BP `b` executes the word of its partition's current step where the pump is in RUN, the word has that
opcode and the BP has not executed it yet; otherwise the event cannot occur and nothing changes. Log 21 (DEDUCED). -/
def bpCommand (op : BpOp) (b : Nat) (c : Chip) (a : Arr) : Chip × Arr :=
  match c.bpOwner b with
  | none => (c, a)
  | some p =>
    let s := c.stepNow p
    if c.pumpState p = psRun ∧ Word.kind (NatMap.find 0 a.fword (b * 4096 + s)) = op then bpExec c a p b s else (c, a)

/-- The BPs or units that a store lists with something other than all zeros at step `s` (an all-zero word is a NOP that counts nothing, R34, R49). -/
def listedAt (store : NatMap) (s : Nat) : List Nat :=
  (store.filter fun e => e.1 % 4096 = s).map fun e => e.1 / 4096

/-- Every BP of partition `p` executes step `s`, in ascending order: of several failing slot reads in one step the first in this order is located. Log 149 (DESIGN CHOICE). -/
def bpsExec (p s : Nat) (c : Chip) (a : Arr) : Chip × Arr :=
  ((listedAt a.fword s).filter fun b => c.ownsBand p (b / 2048)).foldl (fun (x : Chip × Arr) b => bpExec x.1 x.2 p b s) (c, a)

end Sys2Proof.Machine
end

