-- ==== Sys2Proof/Machine/Exchange.lean ====
section
/-! DEFINITION. The exchange (R67 to R86): every switch applies entry t of its schedule at step t; every output register is loaded
at the end of the step, with 0 where nothing feeds it. -/

namespace Sys2Proof.Machine

/-! Units with a schedule memory -/

/-- A unit with a schedule memory (R74, R77, R140). -/
inductive Unit' where
  | tile (t : Nat)
  | band (b : Nat)
  | dieSect (d k : Nat)
  | bridge (d q : Nat)
  | agent (t a : Nat)
deriving DecidableEq, Repr

/-- The number of a unit. -/
def Unit'.num : Unit' → Nat
  | .tile t => t
  | .band b => 512 + b
  | .dieSect d k => 576 + d * 18 + k
  | .bridge d q => 648 + d * 2 + q
  | .agent t a => 1024 + t * 4 + a

/-- The unit of a number. -/
def Unit'.ofNum (n : Nat) : Unit' :=
  if n < 512 then .tile n
  else if n < 576 then .band (n - 512)
  else if n < 648 then .dieSect ((n - 576) / 18) ((n - 576) % 18)
  else if n < 1024 then .bridge ((n - 648) / 2) ((n - 648) % 2)
  else .agent ((n - 1024) / 4) ((n - 1024) % 4)

/-- Bits of an entry without its parity bits (R75 to R78, R140), connection slots, and bits of one slot. -/
def Unit'.shape : Unit' → Nat × Nat × Nat
  | .tile _ => (168, 8, 21)
  | .band _ => (272, 16, 17)
  | .dieSect _ _ => (128, 8, 16)
  | .bridge _ _ => (32, 1, 32)
  | .agent _ _ => (136, 1, 136)

/-- An entry with the parity bits the store keeps beside it (R79, R140). -/
def Unit'.withParity (u : Unit') (e : Nat) : Nat :=
  let (w, n, k) := u.shape
  e % 2 ^ w + (List.range n).foldl (fun v i => v + parityN k (e / 2 ^ (k * i) % 2 ^ k) * 2 ^ (w + i)) 0

/-- Whether slot `i` of a stored entry passes parity (R79). -/
def Unit'.slotOk (u : Unit') (e i : Nat) : Bool :=
  let (w, _, k) := u.shape
  parityN k (e / 2 ^ (k * i) % 2 ^ k) = bit e (w + i)

/-- Whether every slot of a stored entry passes parity. -/
def Unit'.entryOk (u : Unit') (e : Nat) : Bool := (List.range u.shape.2.1).all (u.slotOk e)

/-- Entry `t` of a unit in a schedule store or among the fetched entries. -/
def entryIn (m : NatMap) (u : Unit') (t : Nat) : Nat := NatMap.find 0 m (u.num * 4096 + t)

/-- Entry `t` of a unit as it was fetched for step `t` (R79). -/
def Arr.entry (a : Arr) (u : Unit') (t : Nat) : Nat := entryIn a.fsched u t

/-- The units with a fetched entry other than the idle entry for step `t`. -/
def Arr.unitsAt (a : Arr) (t : Nat) : List Unit' := (listedAt a.fsched t).map Unit'.ofNum

/-! Ownership of bridges (R23, R24, R68) -/

/-- The partition that owns bridge `d`-`(d + 1)` (R24). -/
def Chip.bridgeOwner (c : Chip) (d : Nat) : Option Nat :=
  if d = 3 then
    if c.dies = 4 then (List.range 16).find? fun p => c.on .PTN_CFG_ACTIVE p && c.get .PTN_CFG_COUNT p = 64 else none
  else if d + 1 < c.dies then
    (List.range 16).find? fun p => c.ownsBand p (16 * d + 15) && c.ownsBand p (16 * (d + 1))
  else none

/-- The bridge that port `q` of die `d` belongs to (R68): on the VDX-420 both ports form bridge 0. -/
def Chip.portBridge (c : Chip) (d q : Nat) : Nat :=
  if c.dies = 2 then 0 else if q = 0 then d else (d + 3) % 4

/-- Whether port `q` of die `d` is connected on this grade (R23). -/
def Chip.portConnected (c : Chip) (d _q : Nat) : Bool := 1 < c.dies && d < c.dies

/-- The die at the far end of port `q` of die `d`; the far port is the other one (R68). -/
def Chip.farDie (c : Chip) (d q : Nat) : Nat :=
  if c.dies = 2 then 1 - d else if q = 0 then (d + 1) % 4 else (d + 3) % 4

/-- The owner of port `q` of die `d` (R85). -/
def Chip.portOwner (c : Chip) (d q : Nat) : Option Nat :=
  if c.portConnected d q then c.bridgeOwner (c.portBridge d q) else none

/-- The owner tag of a unit (R85). -/
def Chip.unitOwner (c : Chip) : Unit' → Option Nat
  | .tile t => c.tileOwner t
  | .band b => c.bandOwner b
  | .dieSect d k => if k < 16 then c.bandOwner (16 * d + k) else c.portOwner d (k - 16)
  | .bridge d q => c.portOwner d q
  | .agent t _ => c.tileOwner t

/-- The owner of a register, which is loaded at its owner's steps. -/
def Chip.xOwner (c : Chip) (key : Nat) : Option Nat :=
  if key < 262144 then c.tileOwner (key / 512)
  else if key < 524288 then c.tileOwner ((key - 262144) / 512)
  else if key < 532480 then c.tileOwner ((key - 524288) / 16)
  else if key < 540672 then c.tileOwner ((key - 532480) / 16)
  else if key < 542720 then c.bandOwner ((key - 540672) / 32)
  else if key < 544768 then c.bandOwner ((key - 542720) / 32)
  else if key < 545024 then c.portOwner ((key - 544768) / 64) ((key - 544768) / 32 % 2)
  else c.portOwner ((key - 545024) / 64) ((key - 545024) / 32 % 2)

/-! Connections -/

/-- What one step of the exchange collects: loads of output registers, and guarded connections that delivered 0 (R86). -/
structure Loads where
  loads : List (Nat × Nat)
  edges : Nat
deriving DecidableEq, Repr

/-- The source register of a connection of a unit, with the owner of the resource it belongs to; none for a reserved code. -/
def Chip.connSource (c : Chip) (u : Unit') (src : Nat) : Option (XReg × Option Nat) :=
  match u with
  | .tile t =>
    if src < 0x200 then some (.outPort (t * 8 + src / 64) (src % 64), c.tileOwner t)
    else if src < 0x210 then some (.tileDown t (src - 0x200), c.tileOwner t)
    else none
  | .band b =>
    if src < 0x80 then some (.tileUp (b * 8 + src / 16) (src % 16), c.bandOwner b)
    else if src < 0xA0 then some (.bandDown b (src - 0x80), c.bandOwner b)
    else none
  | .dieSect d _ =>
    if src < 0x200 then some (.bandUp (d * 16 + src / 32) (src % 32), c.bandOwner (d * 16 + src / 32))
    else if src < 0x220 then some (.inLane d 0 (src - 0x200), c.portOwner d 0)
    else if src < 0x240 then some (.inLane d 1 (src - 0x220), c.portOwner d 1)
    else none
  | _ => none

/-- The destination register of a connection of a unit; none for a reserved code. -/
def connDest (u : Unit') (dst : Nat) : Option XReg :=
  match u with
  | .tile t =>
    if dst < 0x200 then some (.inPort (t * 8 + dst / 64) (dst % 64))
    else if dst < 0x210 then some (.tileUp t (dst - 0x200))
    else none
  | .band b =>
    if dst < 0x80 then some (.tileDown (b * 8 + dst / 16) (dst % 16))
    else if dst < 0xA0 then some (.bandUp b (dst - 0x80))
    else none
  | .dieSect d k =>
    if k < 16 then some (.bandDown (d * 16 + k) dst) else some (.outLane d (k - 16) dst)
  | _ => none

/-- V, SRC and DST of slot `i` of a stored entry (R75 to R77); a slot that fails parity is not applied (R79). -/
def Unit'.slot (u : Unit') (e i : Nat) : Nat × Nat × Nat :=
  let (_, _, k) := u.shape
  let x := e / 2 ^ (k * i) % 2 ^ k
  if !u.slotOk e i then (0, 0, 0)
  else
    match u with
    | .tile _ => (bit x 20, bits x 19 10, bits x 9 0)
    | .band _ => (bit x 16, bits x 15 8, bits x 7 0)
    | _ => (bit x 15, bits x 14 5, bits x 4 0)

/-- The load that slot `i` of entry `e` of a switch makes (R67, R70), with the edge guard of R86. -/
def connLoad (c : Chip) (a : Arr) (u : Unit') (e i : Nat) : Loads :=
  match u.slot e i with
  | (0, _, _) => ⟨[], 0⟩
  | (_, src, dst) =>
    match c.connSource u src, connDest u dst with
    | some (r, owner), some d =>
      if owner = c.unitOwner u then ⟨[(d.key, a.x r)], 0⟩ else ⟨[(d.key, 0)], 1⟩
    | _, _ => ⟨[], 0⟩

/-- The loads of one switch at step `t`. -/
def switchLoads (c : Chip) (a : Arr) (t : Nat) (u : Unit') : Loads :=
  match u with
  | .bridge _ _ => ⟨[], 0⟩
  | .agent _ _ => ⟨[], 0⟩
  | u =>
    let e := a.entry u t
    (List.range u.shape.2.1).foldl (fun l i => let r := connLoad c a u e i; ⟨l.loads ++ r.loads, l.edges + r.edges⟩) ⟨[], 0⟩

/-! Bridges (R70, R78, R80, R81, R86) -/

/-- Whether THRU[l] is set for port `q` of die `d` at step `t`: only the VDX-440 has through passage (R80). -/
def Chip.thru (c : Chip) (a : Arr) (t d q l : Nat) : Bool :=
  c.dies = 4 && bitB (a.entry (.bridge d q) t) l && (Unit'.bridge d q).slotOk (a.entry (.bridge d q) t) 0

/-- Whether a connection of the die-switch section of port `q` fed out-lane `l` at the entry before `t`. -/
def laneConnected (a : Arr) (s t d q l : Nat) : Bool :=
  let u := Unit'.dieSect d (16 + q)
  let e := a.entry u ((t + s - 1) % s)
  (List.range 8).any fun i => let x := u.slot e i; x.1 = 1 && x.2.2 = l

/-- Bit `l` of the word that crosses from port `q` of die `d`, as it arrives: the bit sent, or, where the word meets an uncorrectable error, the bit received (R400).
`bad` lists the ports whose words do, as die * 2 + port, each with 1 + the word received. -/
def laneArrives (bad : NatMap) (d q l sent : Nat) : Nat :=
  match NatMap.find 0 bad (d * 2 + q) with
  | 0 => sent
  | v + 1 => bit v l

/-- What drives out-lane `l` of port `q` of die `d` during step `t` (R78, R80, R86, R87): its value, guarded passages, encoding faults. A passage whose bridges are
not both the port owner's drives 0 and counts one edge and no encoding fault, also where a connection fed the out-lane. Log 150 (DESIGN CHOICE). -/
def laneDriven (c : Chip) (a : Arr) (bad : NatMap) (s t d q l : Nat) : Nat × Nat × Nat :=
  let own := a.x (.outLane d q l)
  if !c.thru a t d q l then (own, 0, 0)
  else
    let other := 1 - q
    if c.portOwner d q ≠ c.portOwner d other then (0, 1, 0)
    else
      let far := c.farDie d other
      let clash := b2n (laneConnected a s t d q l)
      let direct := if clash = 1 then own else 0
      if c.thru a t far q l then (direct, 0, 1 + clash)
      else (Nat.lor (laneArrives bad far q l (a.x (.outLane far q l))) direct, 0, clash)

/-- The loads of the in-lanes that port `q` of die `d` drives. -/
def bridgeLoads (c : Chip) (a : Arr) (bad : NatMap) (s t d q : Nat) : List (Nat × Nat) × Nat × Nat :=
  (List.range 32).foldl
    (fun r l =>
      let (v, e, f) := laneDriven c a bad s t d q l
      let v := laneArrives bad d q l v
      ((XReg.inLane (c.farDie d q) (1 - q) l).key, v) :: r.1 |> fun ls => (ls, r.2.1 + e, r.2.2 + f))
    ([], 0, 0)

/-- The bridge ports that partition `p` owns. -/
def Chip.portsOf (c : Chip) (p : Nat) : List (Nat × Nat) :=
  ((List.range 4).flatMap fun d => [(d, 0), (d, 1)]).filter fun x => c.portOwner x.1 x.2 = some p

/-! One step -/

/-- OR a list of loads into a table. -/
def orLoads (m : NatMap) (ls : List (Nat × Nat)) : NatMap :=
  ls.foldl (fun m x => if x.2 = 0 then m else NatMap.put 0 m x.1 1) m

/-- The number of different keys that occur more than once (R59, R87: one encoding fault for each target with several drivers). Log 143 (DEDUCED). -/
def clashes : List Nat → Nat
  | [] => 0
  | k :: ks => (if k ∈ ks ∧ ks.count k = 1 then 1 else 0) + clashes ks

/-- The error that the word crossing from port `x` meets at step `t` of partition `p`, if it meets one (R400): a correctable one is counted; an uncorrectable one is
delivered as received, which is a free value kept in `r`, logged, and contributes to FLT_SRC.LINK. -/
def bridgeError (p t : Nat) (a : Arr) (r : NatMap × Chip) (x : Nat × Nat) : NatMap × Chip :=
  match NatMap.find 0 a.bridgeErr (x.1 * 2 + x.2) with
  | 0 => r
  | 1 => (r.1, r.2.count .FLT_CNT_COUNT 5 1)
  | _ =>
    let (v, c) := r.2.fresh 32
    let (low, c) := c.fresh 3
    (NatMap.put 0 r.1 (x.1 * 2 + x.2) (v + 1), ((c.set .FLT_SRC_LINK 0 1).logFault fltBridgeUe p (t / 8 * 8 + low)).faultN)

/-- What the bridge ports of partition `p` load at step `t`: loads, guarded passages, encoding faults, and the state their errors leave. Log 32 (DEDUCED). -/
def bridgesStep (p s t : Nat) (c : Chip) (a : Arr) : List (Nat × Nat) × Nat × Nat × Chip :=
  let (bad, c) := (c.portsOf p).foldl (bridgeError p t a) ([], c)
  let r := (c.portsOf p).foldl
    (fun (r : List (Nat × Nat) × Nat × Nat) x =>
      let y := bridgeLoads c a bad s t x.1 x.2
      (r.1 ++ y.1, r.2.1 + y.2.1, r.2.2 + y.2.2)) ([], 0, 0)
  (r.1, r.2.1, r.2.2, c)

/-- The exchange of partition `p` at step `t` of a schedule of `s` steps (R69, R70): every output register of the partition is loaded. -/
def exchangeStep (p s t : Nat) (c : Chip) (a : Arr) : Chip × Arr :=
  let units := (a.unitsAt t).filter fun u => c.unitOwner u = some p
  let sw := units.foldl (fun (l : Loads) u => let r := switchLoads c a t u; ⟨l.loads ++ r.loads, l.edges + r.edges⟩) ⟨[], 0⟩
  let ports := c.portsOf p
  let br := bridgesStep p s t c a
  let sends := a.sends.filter fun x => c.tileOwner (x.1 / 512) = some p
  let base := a.xreg.filter fun e => c.xOwner e.1 ≠ some p
  let faults := clashes (sw.loads.map Prod.fst) + clashes (sends.map Prod.fst) + br.2.2.1
  let edges := sw.edges + br.2.1
  let c := br.2.2.2.encFault p faults
  (if edges = 0 then c else c.count .XCH_EDGE_CNT_COUNT p edges,
   { a with
     xreg := orLoads base (sw.loads ++ br.1 ++ sends)
     bridgeErr := a.bridgeErr.filter fun e => !ports.contains (e.1 / 2, e.1 % 2)
     sends := a.sends.filter fun x => c.tileOwner (x.1 / 512) ≠ some p })

/-- The cluster lanes of partition `p` move by one executed step (R43): a BP that drove nothing drove 0. -/
def laneStep (p : Nat) (c : Chip) (a : Arr) : Arr :=
  let mine := fun b => c.ownsBand p (b / 2048)
  let keep1 := a.lane1.filter fun e => !mine e.1
  let keep2 := a.lane2.filter fun e => !mine e.1
  { a with
    lane2 := orLoads keep2 (a.lane1.filter fun e => mine e.1)
    lane1 := orLoads keep1 (a.drives.filter fun x => mine x.1)
    drives := a.drives.filter fun x => !mine x.1 }

end Sys2Proof.Machine
end

