-- ==== Sys2Proof/Machine/Agents.lean ====
section
/-! DEFINITION. Memory port agents (R140 to R154): issue, gather, return queues, and late data. -/

namespace Sys2Proof.Machine

/-- ISSUE codes (R140). -/
def issCread : Nat := 1
def issCwrite : Nat := 2
def issDread : Nat := 3
def issDwrite : Nat := 4

/-- ISSUE of a stored agent entry. -/
def entryIssue (e : Nat) : Nat := bits e 130 128

/-- GATHER k of a stored agent entry: V and TARGET. -/
def entryGather (e k : Nat) : Nat × Nat := (bit e (8 * k + 7), bits e (8 * k + 6) (8 * k))

/-- The lowest free place of agent `g`'s return queue (R148, R312); accesses to be discarded on arrival still hold their places (R154). -/
def Arr.freePlace (a : Arr) (g : Nat) : Nat :=
  ((List.range 16).find? fun k => !a.accs.any fun x => x.agent = g && 3 ≤ x.kind && x.place = k).getD 0

/-- The byte address of word `w` of the cistern of tile `t`, among all cisterns. -/
def cisAddr (t w : Nat) : Nat := t * 0x80000 + w * 8

/-- The design address of a byte of the cisterns, for the error registers. -/
def Chip.cisDesign (c : Chip) (p x : Nat) : Nat := cisternBase + x - c.get .PTN_CFG_FIRST p * 8 * 0x80000

/-- Add an access to those awaiting return. -/
def Arr.await (a : Arr) (x : Access) : Arr := { a with accs := a.accs ++ [x] }

/-- Agent `g` issues a CREAD (R142, R145): performed in its slot, returned after LC steps. -/
def issueCread (p g : Nat) (c : Chip) (a : Arr) (m : Mem) : Chip × Arr × Mem :=
  let x := cisAddr (g / 4) (NatMap.find 0 a.addr g % 65536)
  let h := readCis c m p (c.cisDesign p x) x 8 0
  (h.chip, a.await { agent := g, kind := issCread, left := c.get .DM_STATUS_LC p, data := ofBytes h.data, arrived := true, since := c.now }, h.mem)

/-- Agent `g` issues a CWRITE (R142, R145). -/
def issueCwrite (p g : Nat) (c : Chip) (a : Arr) (m : Mem) : Chip × Arr × Mem :=
  let x := cisAddr (g / 4) (NatMap.find 0 a.addr g % 65536)
  let h := writeCis c m p (c.cisDesign p x) x 0 (toBytes 8 (NatMap.find 0 a.wdata g))
  (h.chip, a.await { agent := g, kind := issCwrite, left := c.get .DM_STATUS_LC p, arrived := true, since := c.now }, h.mem)

/-- An agent access to an unmapped address (R139): it returns 0 with no hold, and is counted. -/
def agentUnmapped (p g kind : Nat) (c : Chip) (a : Arr) (m : Mem) : Chip × Arr × Mem :=
  ((c.count .DM_UNMAPPED_CNT_COUNT p 1).dmErr .DM_ERR_UNMAPPED p,
   a.await { agent := g, kind := kind, place := a.freePlace g, left := c.get .DM_STATUS_LD p, arrived := true, since := c.now }, m)

/-- Agent `g` issues a DREAD (R142, R147, R151): the controller performs it in issue order; the data arrive later, from a failed channel at once (R158). -/
def issueDread (p g : Nat) (c : Chip) (a : Arr) (m : Mem) : Chip × Arr × Mem :=
  let x := NatMap.find 0 a.addr g * 8
  match (if x < cisternBase then c.place p x false else .unmapped) with
  | .deep st gr off =>
    let h : Hit := if c.cutOff (g / 4) (c.routerDeep st off) then ⟨.netTimeout, [], c, m⟩ else readDeep c m p x st gr off 8 0
    (h.chip, a.await { agent := g, kind := issDread, place := a.freePlace g, left := c.get .DM_STATUS_LD p, data := ofBytes h.data, arrived := h.status = .dmChannel,
                        since := c.now, target := c.routerDeep st off, deepCh := c.deepChannel st off }, h.mem)
  | _ => agentUnmapped p g issDread c a m

/-- Agent `g` issues a DWRITE (R142, R147, R159): a merge; its acknowledgement arrives later, refused or not. -/
def issueDwrite (p g : Nat) (c : Chip) (a : Arr) (m : Mem) : Chip × Arr × Mem :=
  let x := NatMap.find 0 a.addr g * 8
  match (if x < cisternBase then c.place p x false else .unmapped) with
  | .deep st gr off =>
    let h : Hit :=
      if c.cutOff (g / 4) (c.routerDeep st off) then ⟨.netTimeout, [], c, m⟩
      else writeDeep c m p x st gr off 0 (toBytes 8 (NatMap.find 0 a.wdata g))
    (h.chip, a.await { agent := g, kind := issDwrite, place := a.freePlace g, left := c.get .DM_STATUS_LD p, arrived := h.status = .dmChannel,
                        since := c.now, target := c.routerDeep st off, deepCh := c.deepChannel st off }, h.mem)
  | _ => agentUnmapped p g issDwrite c a m

/-- The number under which an agent's part of a step is marked done. -/
def agentDone (g : Nat) : Nat := 131072 + g

/-- Agent `g` of partition `p` issues what its entry of step `s` says, once per step (R143). -/
def agentIssue (p s g : Nat) (c : Chip) (a : Arr) (m : Mem) : Chip × Arr × Mem :=
  if c.on .H_STEP_DONE (agentDone g) then (c, a, m)
  else
    let c := c.set .H_STEP_DONE (agentDone g) 1
    match entryIssue (a.entry (.agent (g / 4) (g % 4)) s) with
    | 1 => issueCread p g c a m
    | 2 => issueCwrite p g c a m
    | 3 => issueDread p g c a m
    | 4 => issueDwrite p g c a m
    | _ => (c, a, m)

/-- The agents of partition `p` that have an entry at step `s`, in slot order (R145, R151). -/
def agentsAt (p s : Nat) (c : Chip) (a : Arr) : List Nat :=
  (a.unitsAt s).filterMap fun u =>
    match u with
    | .agent t k => if c.tileOwner t = some p then some (t * 4 + k) else none
    | _ => none

/-- Every agent of partition `p` issues at step `s`. Log 29 (DEDUCED). -/
def agentsExec (p s : Nat) (c : Chip) (a : Arr) (m : Mem) : Chip × Arr × Mem :=
  (agentsAt p s c a).foldl (fun (x : Chip × Arr × Mem) g => agentIssue p s g x.1 x.2.1 x.2.2) (c, a, m)

/-- The command of one kind of access: agent `g` issues its entry of the current step where its partition's pump is in RUN and the entry has that
ISSUE code; otherwise the event cannot occur and nothing changes. The partition's other agents issue in the same step, each in its slot and each once: those before
`g` act before it, and a network access that follows finds the slots of all of them past (R145, R146, R151). Log 22 (DEDUCED). -/
def agentCommand (kind g : Nat) (c : Chip) (a : Arr) (m : Mem) : Chip × Arr × Mem :=
  match c.tileOwner (g / 4) with
  | none => (c, a, m)
  | some p =>
    let s := c.stepNow p
    if c.pumpState p = psRun ∧ entryIssue (a.entry (.agent (g / 4) (g % 4)) s) = kind then agentsExec p s c a m else (c, a, m)

/-! Gathering (R141, R161) -/

/-- Put bit `v` at target bit `t` of agent `g`: 0 to 63 of WDATA, 64 to 98 of ADDR. -/
def loadTarget (a : Arr) (g t v : Nat) : Arr :=
  if t < 64 then { a with wdata := NatMap.put 0 a.wdata g (setBits (NatMap.find 0 a.wdata g) t t v) }
  else if t < 99 then { a with addr := NatMap.put 0 a.addr g (setBits (NatMap.find 0 a.addr g) (t - 64) (t - 64) v) }
  else a

/-- The value that MPUT delivered to gather input `k` of agent `g` at this step, 0 where none did (R141); several are ORed (R59). -/
def Arr.gathered (a : Arr) (g k : Nat) : Nat := b2n (a.gathers.any fun x => x.1 = g * 16 + k && x.2 = 1)

/-- The inputs with V = 1 of an entry, each with its target. -/
def gatherTargets (e : Nat) : List (Nat × Nat) :=
  (List.range 16).filterMap fun k => let x := entryGather e k; if x.1 = 1 then some (k, x.2) else none

/-- Agent `g` loads the bits its entry gathers at the end of step `s` (R141); inputs that name one target are ORed (R161). -/
def agentGather (s : Nat) (a : Arr) (g : Nat) : Arr :=
  let ts := gatherTargets (a.entry (.agent (g / 4) (g % 4)) s)
  ts.foldl (fun a' x => loadTarget a' g x.2 (b2n (ts.any fun y => y.2 = x.2 && a.gathered g y.1 = 1))) a

/-- The encoding faults of the gathers of step `s`: gather inputs with several drivers (R59) and target bits loaded twice (R161). -/
def gatherFaults (p s : Nat) (c : Chip) (a : Arr) : Nat :=
  clashes ((a.gathers.filter fun x => c.tileOwner (x.1 / 64) = some p).map Prod.fst) +
    ((agentsAt p s c a).map fun g => clashes ((gatherTargets (a.entry (.agent (g / 4) (g % 4)) s)).map Prod.snd)).sum

/-- All gathers of partition `p` at the end of step `s`. -/
def gatherStep (p s : Nat) (c : Chip) (a : Arr) : Chip × Arr :=
  let n := gatherFaults p s c a
  let a := (agentsAt p s c a).foldl (agentGather s) a
  (c.encFault p n, { a with gathers := a.gathers.filter fun x => c.tileOwner (x.1 / 64) ≠ some p })

/-! Returns (R143, R144, R147, R149) -/

/-- Whether access `x` belongs to partition `p`. -/
def Chip.accOf (c : Chip) (p : Nat) (x : Access) : Bool := c.tileOwner (x.agent / 4) = some p

/-- Load what has reached its return step into RDATA and drop it (R143). -/
def loadReturns (p : Nat) (c : Chip) (a : Arr) : Arr :=
  let due := fun (x : Access) => c.accOf p x && x.live && x.left = 0 && x.arrived
  { a with
    rdata := (a.accs.filter fun x => due x && (x.kind = issCread || x.kind = issDread)).foldl (fun m x => NatMap.put 0 m x.agent x.data) a.rdata
    accs := a.accs.filter fun x => !due x }

/-- One more executed step of partition `p` for the accesses awaiting return (R144): the late ones that reach their return step are counted for
the hold they cause (R149), the loads of the boundary happen, and agents assert MEM_LATE for what is still out 6 steps ahead. -/
def countReturns (p : Nat) (c : Chip) (a : Arr) : Chip × Arr :=
  let mine := fun (x : Access) => c.accOf p x && x.live
  let accs := a.accs.map fun x => if mine x then { x with left := x.left - 1 } else x
  let n := (accs.filter fun x => mine x && x.late && x.left = 0).length
  let accs := accs.map fun x => if mine x && 3 ≤ x.kind && !x.arrived && x.left ≤ 5 then { x with late := true } else x
  (c.set .H_LATE_N p n, loadReturns p c { a with accs := accs })

/-- Whether some agent of partition `p` asserts MEM_LATE after an executed step (R149): a deep access whose return step is 6 steps ahead or nearer has
not arrived. -/
def Chip.memLate (c : Chip) (a : Arr) (p : Nat) : Bool :=
  a.accs.any fun x => c.accOf p x && x.live && x.late && !x.arrived

/-- A hold caused by late returns has landed, its first held period `at`: each return of the held step that caused it is counted once (R149). Log 30 (DEDUCED). -/
def Chip.lateLanded (p at' : Nat) (c : Chip) : Chip :=
  (c.count .DM_LATE_CNT_COUNT p (c.get .H_LATE_N p)).set .H_LATE_FROM p at'

/-- The hold has ended: the longest late hold is kept in DM_LATE_MAX (R149), and the late data are loaded before the step. -/
def lateResumed (p : Nat) (c : Chip) (a : Arr) : Chip × Arr :=
  let from' := c.get .H_LATE_FROM p
  let c := if from' = 0 then c else (c.raiseTo .DM_LATE_MAX_PERIODS p (min (c.period - from') (2 ^ 32 - 1))).set .H_LATE_FROM p 0
  (c, loadReturns p c a)

/-- Deep data or an acknowledgement arrives in place `k` of agent `g`'s return queue (R147); after priming it is discarded (R153). -/
def deepArrival (g k : Nat) (a : Arr) : Arr :=
  { a with
    accs := (a.accs.map fun x => if x.agent = g ∧ 3 ≤ x.kind ∧ x.place = k then { x with arrived := true } else x).filter
      fun x => x.live || !x.arrived }

/-- The response of the deep access in place `k` of agent `g` arrives, unless a failed die link lies in its way (R147, R401). -/
def deepReturn (g k : Nat) (c : Chip) (a : Arr) : Arr :=
  match a.accs.find? fun x => x.agent = g && 3 ≤ x.kind && x.place = k && !x.arrived with
  | none => a
  | some x => if c.cutOff (g / 4) x.target then a else deepArrival g k a

/-- Priming sets ADDR, WDATA and RDATA to 0; what awaits return is discarded on arrival (R153, R154). -/
def agentsPrime (p : Nat) (c : Chip) (a : Arr) : Arr :=
  let mine := fun (e : Nat × Nat) => c.tileOwner (e.1 / 4) = some p
  { a with
    addr := a.addr.filter fun e => !mine e
    wdata := a.wdata.filter fun e => !mine e
    rdata := a.rdata.filter fun e => !mine e
    accs := (a.accs.map fun x => if c.accOf p x then { x with live := false } else x).filter fun x => x.live || !x.arrived }

/-- Whether a deep access of partition `p` is still awaited (R154). -/
def Chip.deepAwaited (c : Chip) (a : Arr) (p : Nat) : Bool := a.accs.any fun x => c.accOf p x && 3 ≤ x.kind && !x.arrived

end Sys2Proof.Machine
end

