-- ==== Sys2Proof/Machine/Probe.lean ====
section
/-! DEFINITION. The probe and trigger engine (R199 to R217): the mask test, the sequencer, capture, rate reduction and draining. -/

namespace Sys2Proof.Machine

/-! Capture states (R202) -/

def capIdle : Nat := 0
def capPre : Nat := 1
def capPost : Nat := 2
def capDone : Nat := 3

/-- Bytes of a record of a partition whose probe vector is `w` bits wide (R201). -/
def recordLen (w : Nat) : Nat := 64 + 64 * ceilDiv w 512

/-- L of partition `p`. -/
def Chip.recLen (c : Chip) (p : Nat) : Nat := recordLen (c.get .H_PROBE_W p)

/-- N = PRE + POST + 1 slots of the buffer (R203). -/
def Chip.bufSlots (c : Chip) (p : Nat) : Nat := c.get .PRB_DEPTH_PRE p + c.get .PRB_DEPTH_POST p + 1

/-- Bytes in the staging buffer of partition `p` (R206). Log 53 (DEDUCED). -/
def Chip.occupancy (c : Chip) (p : Nat) : Nat :=
  ((c.recs.filter fun r => r.part = p).map fun r => r.data.length - r.left).sum

/-- Free bytes of the staging buffer. -/
def Chip.stagingFree (c : Chip) (p : Nat) : Nat := 262144 - c.occupancy p

/-- Whether partition `p` asserts PROBE_FULL (R207). -/
def Chip.probeFull (c : Chip) (p : Nat) : Bool :=
  c.stagingFree p < 2 * c.recLen p && (!c.on .PRB_CTL_RR_EN p || c.get .PRB_STATUS_RATE p = 8)

/-- PRB_STATUS.FULL follows the staging buffer; its assertion sets PRB_EVENT.FULL (R207). -/
def Chip.prbFull (c : Chip) (p : Nat) : Chip :=
  if c.probeFull p then
    if c.on .PRB_STATUS_FULL p then c else (c.set .PRB_STATUS_FULL p 1).probeEvent .PRB_EVENT_FULL 7 p
  else c.set .PRB_STATUS_FULL p 0

/-! The mask test (R214) -/

/-- Word `i` of the probe vector of the cycle just executed. -/
def vecWord (a : Arr) (p i : Nat) : Nat :=
  (List.range 32).foldl (fun v k => v + NatMap.find 0 a.pvec (p * 65536 + i * 32 + k) * 2 ^ k) 0

/-- The violating positions of 32-bit word `i`, lowest first. -/
def maskViol (c : Chip) (a : Arr) (p i : Nat) : List Nat :=
  let diff := Nat.land (c.get .PRB_MASK_BITS (p * 2048 + i)) (Nat.xor (vecWord a p i) (c.get .PRB_TEMPLATE_BITS (p * 2048 + i)))
  ((List.range 32).filter fun k => bitB diff k && i * 32 + k < c.get .H_PROBE_W p).map fun k => i * 32 + k

/-- The lowest violating position of partition `p`, if the cycle is tested and violates. -/
def violation (c : Chip) (a : Arr) (p : Nat) : Option Nat :=
  if !c.on .H_MASK_EN p then none
  else
    (((c.instances .PRB_MASK_BITS).filter fun x => x / 2048 = p).flatMap fun x => maskViol c a p (x % 2048)).head?

/-- A violating cycle stops the partition and is recorded (R214). -/
def Chip.violated (c : Chip) (p pos : Nat) : Chip :=
  let c := c.set .H_STOP_PEND p (orBit (c.get .H_STOP_PEND p) 1)
  let c := c.count .PRB_VIOL_CNT_COUNT p 1
  let c :=
    if c.on .PRB_VIOL_POS_VALID p then c
    else ((c.set .PRB_VIOL_POS_VALID p 1).set .PRB_VIOL_POS_POS p pos).set .PRB_VIOL_CYC_CYCLE p (c.get .PMP_CYCLE_CYCLE p)
  c.probeEvent .PRB_EVENT_VIOL 2 p

/-! The sequencer (R208 to R213) -/

/-- The sequencer's input vector (R208). -/
def Chip.seqInput (c : Chip) (p : Nat) (viol : Bool) : Nat :=
  c.get .H_TRIG p + c.get .H_LATCH_X p * 2 ^ 64 + c.get .H_LATCH_L p * 2 ^ 68 + c.get .H_LATCH_CMP p * 2 ^ 84
    + b2n viol * 2 ^ 86 + c.get .H_LATCH_FORCE p * 2 ^ 87

/-- Bits [127:0] of SEL or VAL of branch `b` of state `j`: the bits [127:88] are written as 0 (R209). -/
def Chip.cndBits (c : Chip) (f : Fld) (p j b : Nat) : Nat :=
  let g := (p * 16 + 2 * j + b) * 4
  (c.get f g + c.get f (g + 1) * 2 ^ 32 + c.get f (g + 2) * 2 ^ 64 + c.get f (g + 3) * 2 ^ 96) % 2 ^ 88

/-- Whether the condition of branch `b` of state `j` is true for input `x` (R209). -/
def Chip.cndTrue (c : Chip) (p j b x : Nat) : Bool :=
  let sel := c.cndBits .PRB_SEL_BITS p j b
  let diff := Nat.land sel (Nat.xor x (c.cndBits .PRB_VAL_BITS p j b))
  if c.on .PRB_CND_CTL_MODE (p * 16 + 2 * j + b) then diff ≠ sel else diff = 0

/-- Count branch `b`'s condition and say whether the branch fires (R209). -/
def Chip.branch (c : Chip) (f : Fld) (p j b x : Nat) : Bool × Chip :=
  let g := p * 16 + 2 * j + b
  if c.on .PRB_CND_CTL_EN g && c.cndTrue p j b x then
    let c := c.set f p (c.get f p + 1)
    (c.get f p = c.get .PRB_CND_CTL_COUNT g, c)
  else (false, c)

/-- Padded TRIG_LINK latency of partition `p` in periods (R183, R184, R212). -/
def Chip.trigLink (c : Chip) (p : Nat) : Nat := (if c.isB0 then 16 else 24) + c.get .LDR_LAT_PAD_TRIG_LINK p

/-- A pulse on trigger line `q`, to every partition at its own latency (R212). -/
def Chip.linePulse (c : Chip) (q : Nat) : Chip :=
  { c with lines := c.lines ++ (List.range 16).map fun p => ⟨q, p, c.period + c.trigLink p⟩ }

/-- A rise of XTRIG_OUT that is to come: its partition, its pin and its period. -/
def xoutEntry (p n due : Nat) : Nat := (p * 4 + n) * 2 ^ 64 + due

/-- The rises of XTRIG_OUT that an action of partition `p` asks for (R213), 8 periods after the evaluation. -/
def Chip.xoutPulse (c : Chip) (p acts : Nat) : Chip :=
  { c with xrise := c.xrise ++ ((List.range 4).filter fun n => bitB acts n).map fun n => xoutEntry p n (c.period + 8) }

/-- An engine's stop request: recorded as HALT_CMD, with the engine named in PRB_EVENT (R215). -/
def Chip.engineStop (c : Chip) (p : Nat) : Chip :=
  (c.set .H_STOP_PEND p (orBit (c.get .H_STOP_PEND p) 5)).probeEvent .PRB_EVENT_SEQ_STOP 3 p

/-- The sequencer enters state `j` by a branch and performs its actions (R209); ACT_TRIGGER is answered apart. -/
def Chip.enterState (c : Chip) (p j : Nat) : Bool × Chip :=
  let g := p * 8 + j
  let c := ((c.set .PRB_STATUS_SEQ p j).set .H_SEQ_CNT_A p 0).set .H_SEQ_CNT_B p 0
  let c := c.xoutPulse p (c.get .PRB_SEQ_CTL_ACT_XOUT g)
  let c := if c.on .PRB_SEQ_CTL_ACT_IRQ g then c.probeEvent .PRB_EVENT_IRQ 4 p else c
  let c := if c.on .PRB_SEQ_CTL_ACT_LINE g then c.linePulse p else c
  let c := if c.on .PRB_SEQ_CTL_ACT_STOP g then c.engineStop p else c
  (c.on .PRB_SEQ_CTL_ACT_TRIGGER g, c)

/-- One evaluation of the sequencer for input `x`: whether ACT_TRIGGER was performed, and the state it leaves. A before B (R209). -/
def Chip.sequence (c : Chip) (p x : Nat) : Bool × Chip :=
  let j := c.get .PRB_STATUS_SEQ p
  let (fa, c) := c.branch .H_SEQ_CNT_A p j 0 x
  let (fb, c) := c.branch .H_SEQ_CNT_B p j 1 x
  if fa then c.enterState p (c.get .PRB_SEQ_CTL_NEXT_A (p * 8 + j))
  else if fb then c.enterState p (c.get .PRB_SEQ_CTL_NEXT_B (p * 8 + j))
  else (false, c)

/-- Clear the latches of partition `p` (R208). -/
def Chip.clearLatches (c : Chip) (p : Nat) : Chip :=
  (((c.set .H_LATCH_X p 0).set .H_LATCH_L p 0).set .H_LATCH_CMP p 0).set .H_LATCH_FORCE p 0

/-! Records (R201, R205, R206) -/

/-- The bytes of the record of the cycle just executed (R201). -/
def recordBytes (c : Chip) (a : Arr) (p x flags : Nat) : List Byte :=
  let w := c.get .H_PROBE_W p
  toBytes 8 (c.get .PMP_CYCLE_CYCLE p) ++ toBytes 4 (c.get .H_CYC_TIME p) ++ toBytes 4 (c.get .PRB_REC_CNT_COUNT p)
    ++ toBytes 8 (x % 2 ^ 64) ++ toBytes 4 (bits x 87 64) ++ toBytes 2 flags ++ toBytes 2 (ceilDiv w 512)
    ++ toBytes 4 (min (c.get .H_CYC_HELD p) (2 ^ 32 - 1)) ++ toBytes 28 0
    ++ (List.range (16 * ceilDiv w 512)).flatMap fun i => toBytes 4 (vecWord a p i)

/-- A change of the rate exponent (R206). -/
def Chip.setRate (c : Chip) (p k : Nat) : Chip :=
  if c.get .PRB_STATUS_RATE p = k then c
  else (((c.set .PRB_STATUS_RATE p k).set .H_PREV_OCC p 0).set .H_FALL_CNT p 0).probeEvent .PRB_EVENT_RATE_CHG 6 p

/-- The rate exponent after a record has been added (R206): forced rise, or rise. -/
def Chip.rateRise (c : Chip) (p : Nat) : Chip :=
  let occ := c.occupancy p
  let k := c.get .PRB_STATUS_RATE p
  let prev := c.get .H_PREV_OCC p
  if !c.on .PRB_CTL_RR_EN p then c
  else if c.stagingFree p < 2 * c.recLen p then c.setRate p 8
  else if k < 8 ∧ 196608 < occ ∧ prev ≠ 0 ∧ prev - 1 < occ then c.setRate p (k + 1)
  else c.set .H_PREV_OCC p (occ + 1)

/-- Count a cycle end for the fall of the rate exponent (R206). -/
def Chip.fallCount (c : Chip) (p : Nat) : Chip :=
  c.set .H_FALL_CNT p (if c.occupancy p < 65536 then c.get .H_FALL_CNT p + 1 else 0)

/-- The rate exponent falls by 1 when RELAX cycles in a row had low occupancy (R206). -/
def Chip.rateFall (c : Chip) (p : Nat) : Chip :=
  let relax := c.get .PRB_RATE_RELAX p
  let k := c.get .PRB_STATUS_RATE p
  if c.on .PRB_CTL_RR_EN p && relax ≠ 0 && relax ≤ c.get .H_FALL_CNT p && c.get .PRB_RATE_MIN p < k then c.setRate p (k - 1) else c

/-- Capture reaches DONE (R202, R215). -/
def Chip.captureDone (c : Chip) (p : Nat) : Chip :=
  let c := (c.set .PRB_STATUS_CAP p capDone).probeEvent .PRB_EVENT_DONE 1 p
  if c.on .PRB_CTL_DONE_STOP p then c.engineStop p else c

/-- Form the record of the cycle just executed (R201, R203, R206): REC_NO wraps at 2^32, and the slot is REC_NO mod N. Log 52 (DEDUCED). -/
def formRecord (c : Chip) (a : Arr) (p x flags : Nat) : Chip :=
  let n := c.get .PRB_REC_CNT_COUNT p
  let r : ProbeRec := ⟨p, n, c.get .PRB_BUF_BASE_BASE p * 64 + (n % 2 ^ 32 % c.bufSlots p) * c.recLen p, recordBytes c a p x flags, 0⟩
  ({ c with recs := c.recs ++ [r] }.bump .PRB_REC_CNT_COUNT p).rateRise p

/-- The trigger is taken (R210): it is recorded, and capture moves to POST or DONE. -/
def Chip.takeTrigger (c : Chip) (p : Nat) (seq force : Bool) : Chip :=
  let c := (((c.set .PRB_TRIG_CYC_CYCLE p (c.get .PMP_CYCLE_CYCLE p)).set .PRB_TRIG_REC_REC_NO p (c.get .PRB_REC_CNT_COUNT p)).set
    .PRB_TRIG_SRC_SEQ p (b2n seq)).set .PRB_TRIG_SRC_FORCE p (b2n force)
  (c.set .H_TRIGGED p 1).probeEvent .PRB_EVENT_TRIGGERED 0 p

/-- Whether evaluations of partition `p` run: capture not IDLE and no DISARM accepted (R202, R216). -/
def Chip.evaluates (c : Chip) (p : Nat) : Bool :=
  c.get .PRB_STATUS_CAP p ≠ capIdle && !(c.cmdPending .prb p && c.get .CQ_CMD (CmdReg.prb.idx p) = 2)

/-- Capture at the end of a cycle, after the sequencer (R202, R205, R210). `k` is the exponent that applied to the cycle. -/
def captureCycle (c : Chip) (a : Arr) (p x k : Nat) (trig viol : Bool) : Chip :=
  let cap := c.get .PRB_STATUS_CAP p
  if cap = capPre ∨ cap = capPost then
    let pattern := c.get .PMP_CYCLE_CYCLE p % 2 ^ k = 0
    let c :=
      if pattern ∨ trig ∨ viol then
        let flags := k + c.get .H_CYC_DOM p * 16 + b2n trig * 32 + b2n (!pattern) * 64 + c.get .PRB_STATUS_SEQ p * 128
          + b2n (cap = capPost) * 1024
        let c := formRecord c a p x flags
        if cap = capPost then
          let left := c.get .H_POST_LEFT p - 1
          let c := c.set .H_POST_LEFT p left
          if left = 0 then c.captureDone p else c
        else c
      else c
    if trig then
      if c.get .PRB_DEPTH_POST p = 0 then c.captureDone p
      else (c.set .PRB_STATUS_CAP p capPost).set .H_POST_LEFT p (c.get .PRB_DEPTH_POST p)
    else c
  else c

/-- What the engine does at the end of a cycle (R208, R214, R215): mask test, evaluation, capture, rate. -/
def probeCycle (c : Chip) (a : Arr) (p : Nat) : Chip :=
  let v := violation c a p
  let c := match v with | none => c | some pos => c.violated p pos
  let c :=
    if c.evaluates p then
      let x := c.seqInput p v.isSome
      let k := c.get .PRB_STATUS_RATE p
      let c := c.clearLatches p
      let (act, c) := c.sequence p x
      let force := bitB x 87
      let trig := c.get .PRB_STATUS_CAP p = capPre && !c.on .H_TRIGGED p && (act || force)
      let c := if trig then c.takeTrigger p act force else c
      captureCycle c a p x k trig v.isSome
    else c
  ((c.fallCount p).rateFall p).prbFull p

/-! Draining (R206, R207) -/

/-- A tag of the probe engine of partition `p` (R312). -/
def Chip.probeTag (c : Chip) (p : Nat) : Option Nat := c.tagIn (0xB000 + p * 512) 512

/-- Write the next `n` bytes of record `r` of partition `p` into deep memory with tag `tag`; a failed write sets WR_ERR. Behind a failed die link the
transaction stays in flight, and ends by its timeout (R314, R401). -/
def drainBytes (c : Chip) (m : Mem) (r : ProbeRec) (n tag : Nat) : Chip × Mem :=
  let d := (r.data.drop r.left).take n
  let target := c.routerOf (c.place r.part (r.addr + r.left) false)
  if c.cutOff routerHub target then (c.launch tag (.drain r.part) target, m)
  else
    let h := designWrite r.part 1 false d.length (r.addr + r.left) d c m
    (if h.status = .ok then h.chip else h.chip.probeEvent .PRB_EVENT_WR_ERR 5 r.part, h.mem)

/-- The oldest record of partition `p` drains `n` bytes, once the engine has a tag; a record all of whose bytes are written has completed. Log 56 (DEDUCED). -/
def recordDrain (p n : Nat) (c : Chip) (m : Mem) : Chip × Mem :=
  match c.recs.find? (fun r => r.part = p), c.probeTag p with
  | none, _ | _, none => (c, m)
  | some r, some tag =>
    let (c, m) := drainBytes c m r n tag
    let r' := { r with left := r.left + min n (r.data.length - r.left) }
    let recs := if r'.left = r.data.length then c.recs.erase r else c.recs.replace r r'
    ({ c with recs := recs }.prbFull p, m)

/-- Whether every record of partition `p` has completed. -/
def Chip.recordsDone (c : Chip) (p : Nat) : Bool :=
  !(c.recs.any fun r => r.part = p) && !c.calls.any fun k => k.live && k.kind = .drain p

/-! Commands (R216) -/

/-- Whether the buffer of partition `p` is valid (R203). -/
def Chip.bufferOk (c : Chip) (p : Nat) : Bool :=
  let base := c.get .PRB_BUF_BASE_BASE p * 64
  let len := c.get .PRB_BUF_LEN_LEN p * 64
  let lo := base / 2 ^ 30
  let hi := (base + len - 1) / 2 ^ 30
  c.bufSlots p * c.recLen p ≤ len && hi < 192 &&
    (List.range (hi + 1 - lo)).all fun i => c.on .DM_MAP_VALID (p * 192 + lo + i) && !c.isGolden p (lo + i)

/-- ARM (R202, R206, R208 to R210, R216). -/
def Chip.prbArm (c : Chip) (p : Nat) : Chip :=
  let st := c.pumpState p
  if st = psEmpty ∨ st = psLoading then c.refuse .prb p 1 0x01
  else if c.get .PRB_STATUS_CAP p ≠ capIdle then c.refuse .prb p 1 0x02
  else if !c.bufferOk p then c.refuse .prb p 1 0x03
  else
    let c := c.clearLatches p
    let c := c.unsetAll [.PRB_TRIG_CYC_CYCLE, .PRB_TRIG_REC_REC_NO, .PRB_TRIG_SRC_SEQ, .PRB_TRIG_SRC_FORCE, .PRB_REC_CNT_COUNT,
      .H_SEQ_CNT_A, .H_SEQ_CNT_B, .H_TRIGGED, .H_POST_LEFT, .H_PREV_OCC, .H_FALL_CNT, .PRB_STATUS_SEQ] p
    let c := (c.set .PRB_STATUS_RATE p (c.get .PRB_RATE_MIN p)).set .PRB_STATUS_CAP p capPre
    c.acceptDone .prb p 1

/-- DISARM (R216). -/
def Chip.prbDisarm (c : Chip) (p : Nat) : Chip :=
  if c.get .PRB_STATUS_CAP p = capIdle then c.refuse .prb p 2 0x02 else c.accept .prb p 2

/-- FORCE (R210, R216). -/
def Chip.prbForce (c : Chip) (p : Nat) : Chip :=
  if c.get .PRB_STATUS_CAP p ≠ capPre then c.refuse .prb p 3 0x02
  else (c.set .H_LATCH_FORCE p 1).acceptDone .prb p 3

/-- A write of PRB_CMD (R93, R216). -/
def Chip.prbCmd (c : Chip) (p code : Nat) : Chip :=
  if c.cmdPending .prb p then c.cmdLost .prb p
  else
    match code with
    | 1 => c.prbArm p
    | 2 => c.prbDisarm p
    | 3 => c.prbForce p
    | _ => c.refuse .prb p code 0x04

/-- A pending DISARM completes when every formed record has completed (R216). -/
def Chip.disarmComplete (c : Chip) (p : Nat) : Chip :=
  if c.cmdPending .prb p && c.get .CQ_CMD (CmdReg.prb.idx p) = 2 && c.recordsDone p then
    (c.set .PRB_STATUS_CAP p capIdle).finish .prb p completed 0
  else c

/-- Priming at an image load or a PRIME: CAP to IDLE and the latches cleared, once every record has completed (R217). A DISARM that was
waiting for the same records completes with it. -/
def Chip.probePrime (c : Chip) (p : Nat) : Chip :=
  ((c.disarmComplete p).set .PRB_STATUS_CAP p capIdle).clearLatches p

/-! Registers of the engine that a partition reset and RELEASE set to their reset values (R217). -/

def probeFields : List Fld :=
  [.PRB_CTL_XOUT_EN, .PRB_CTL_DONE_STOP, .PRB_CTL_RR_EN, .PRB_STATUS_RATE, .PRB_STATUS_CMD_LOST, .PRB_STATUS_CFG_REJ, .PRB_STATUS_FULL,
   .PRB_STATUS_SEQ, .PRB_STATUS_CAP, .PRB_BUF_BASE_BASE, .PRB_BUF_LEN_LEN, .PRB_DEPTH_POST, .PRB_DEPTH_PRE, .PRB_RATE_RELAX, .PRB_RATE_MIN,
   .PRB_MASK_CTL_EN, .PRB_EVENT_FULL, .PRB_EVENT_RATE_CHG, .PRB_EVENT_WR_ERR, .PRB_EVENT_IRQ, .PRB_EVENT_SEQ_STOP, .PRB_EVENT_VIOL,
   .PRB_EVENT_DONE, .PRB_EVENT_TRIGGERED, .PRB_EVENT_EN_EN, .PRB_VIOL_CNT_COUNT, .PRB_VIOL_POS_VALID, .PRB_VIOL_POS_POS, .PRB_VIOL_CYC_CYCLE,
   .PRB_TRIG_CYC_CYCLE, .PRB_TRIG_REC_REC_NO, .PRB_TRIG_SRC_FORCE, .PRB_TRIG_SRC_SEQ, .PRB_REC_CNT_COUNT,
   .H_SEQ_CNT_A, .H_SEQ_CNT_B, .H_LATCH_X, .H_LATCH_L, .H_LATCH_CMP, .H_LATCH_FORCE, .H_POST_LEFT, .H_TRIGGED, .H_FALL_CNT, .H_PREV_OCC, .H_MASK_EN]

/-- Return the engine of partition `p` to its reset values; the windows keep theirs (R217). -/
def Chip.probeReset (c : Chip) (p : Nat) : Chip :=
  let c := (c.unsetAll probeFields p).resultReset .prb p
  let c := [Fld.PRB_SEQ_CTL_ACT_XOUT, .PRB_SEQ_CTL_ACT_IRQ, .PRB_SEQ_CTL_ACT_LINE, .PRB_SEQ_CTL_ACT_STOP, .PRB_SEQ_CTL_ACT_TRIGGER,
      .PRB_SEQ_CTL_NEXT_A, .PRB_SEQ_CTL_NEXT_B].foldl (fun c f => c.clearWhere f fun i => i / 8 = p) c
  let c := [Fld.PRB_SEL_BITS, .PRB_VAL_BITS].foldl (fun c f => c.clearWhere f fun i => i / 64 = p) c
  let c := [Fld.PRB_CND_CTL_EN, .PRB_CND_CTL_MODE, .PRB_CND_CTL_COUNT].foldl (fun c f => c.clearWhere f fun i => i / 16 = p) c
  c

/-- The windows of partition `p` to 0 (R217, RELEASE). -/
def Chip.probeWindows (c : Chip) (p : Nat) : Chip :=
  (c.clearWhere .PRB_TEMPLATE_BITS fun i => i / 2048 = p).clearWhere .PRB_MASK_BITS fun i => i / 2048 = p

end Sys2Proof.Machine
end

