-- ==== Sys2Proof/Machine/Pump.lean ====
section
/-! DEFINITION. The pump (R90 to R117, R412): holds, stops, the beginning of a cycle, ticks, and the rim capture and elastic buffers
that follow them (R231 to R237). -/

namespace Sys2Proof.Machine

/-! Modes and policies (PMP_CTL) -/

def modeHalt : Nat := 0
def modeFree : Nat := 1
def modePaced : Nat := 2
def modeStep : Nat := 3
def ovrStretch : Nat := 0
def ovrElastic : Nat := 1
def ovrFault : Nat := 2

def Chip.mode (c : Chip) (p : Nat) : Nat := c.get .PMP_CTL_MODE p
/-- Whether partition `p` uses its elastic buffers (R234). -/
def Chip.elastic (c : Chip) (p : Nat) : Bool := c.mode p = modePaced && c.get .PMP_CTL_OVR p = ovrElastic
/-- Schedule length S. -/
def Chip.slen (c : Chip) (p : Nat) : Nat := c.get .PMP_SLEN_S p

/-! Holds (R107 to R110) -/

/-- The causes of R107 that are asserted now. -/
def causes (c : Chip) (a : Arr) (p : Nat) : Nat :=
  b2n (c.memLate a p) + c.get .PRB_STATUS_FULL p * 2 + c.get .H_ELB_FULL p * 4 + c.get .PMP_HOLD_REQ_HOST p * 8
    + c.get .PMP_HOLD_REQ_AGENT p * 16 + b2n (c.reps.any fun r => r.part = p) * 32

/-- Note the causes asserted in this period. -/
def sampleCauses (c : Chip) (a : Arr) (p : Nat) : Chip :=
  let now := causes c a p
  (List.range 6).foldl (fun c n => if bitB now n then c.set .H_LAST_ASSERT (p * 6 + n) (c.period + 1) else c) c

/-- Whether every cause of `mask` has cleared and the release delay has elapsed for a step of period `at` (R109): the sixth period after the period
in which the last of them cleared. -/
def holdReady (c : Chip) (a : Arr) (p mask at' : Nat) : Bool :=
  let now := causes c a p
  (List.range 6).all fun n =>
    !bitB mask n || (!bitB now n && (c.get .H_LAST_ASSERT (p * 6 + n) = 0 || c.get .H_LAST_ASSERT (p * 6 + n) + 6 ≤ at'))

/-- The recorded causes of the decision for step `t` (R108). -/
def Chip.holdMark (c : Chip) (p t : Nat) : Nat := c.get .H_HOLD_MARK (p * 4096 + t)

/-- Take the decision for step `t` (R108). ELASTIC_FULL is asserted for decisions on step 0 only (R237). -/
def holdDecide (c : Chip) (a : Arr) (p t : Nat) : Chip :=
  let now := causes c a p
  c.set .H_HOLD_MARK (p * 4096 + t) (if t = 0 then now else now - bit now 2 * 4)

/-- Discard every decision of partition `p` (R110). -/
def Chip.clearMarks (c : Chip) (p : Nat) : Chip := c.clearWhere .H_HOLD_MARK fun i => i / 4096 = p

/-- A hold for the causes of `mask` lands; its first held period is `at` (R108, R112, R149). Log 17 (DEDUCED). -/
def Chip.holdLand (c : Chip) (p mask at' : Nat) : Chip :=
  let c := (((c.set .PMP_STATUS_STATE p psHold).set .PMP_HOLD_CAUSE_SEEN p (Nat.lor (c.get .PMP_HOLD_CAUSE_SEEN p) mask)).set
    .H_HOLD_START p at').set .H_HOLD_LONG_SET p 0
  if bitB mask 0 then c.lateLanded p at' else c

/-- The step STEP_NOW is to execute in period `at`: RUN, or HOLD where it is marked and the condition does not hold yet (R108). -/
def enterStep (c : Chip) (a : Arr) (p at' : Nat) : Chip :=
  let mask := c.holdMark p (c.stepNow p)
  if mask = 0 ∨ holdReady c a p mask at' then c.set .PMP_STATUS_STATE p psRun else c.holdLand p mask at'

/-- A hold outlasts PMP_HOLD_LIMIT (R112). -/
def Chip.holdLong (c : Chip) (p : Nat) : Chip :=
  let limit := c.get .PMP_HOLD_LIMIT_LIMIT p
  if c.pumpState p = psHold && limit ≠ 0 && !c.on .H_HOLD_LONG_SET p
      && limit * Chip.us < (c.period + 1 - c.get .H_HOLD_START p) * c.unitsPerPeriod then
    (c.set .H_HOLD_LONG_SET p 1).pumpEvent .PMP_EVENT_HOLD_LONG 3 p
  else c

/-! Rim capture and elastic buffers (R231 to R237) -/

/-- The bit that tap `key` gives a capture (R231): the value it has held throughout the last two periods, or else its old or its new value, which is a free value. -/
def captureBit (x : NatMap × Chip) (key : Nat) : NatMap × Chip :=
  let v := fun (m : NatMap) => NatMap.find 0 m key
  let f := x.2.fab
  if v f.taps1 = v f.taps2 && v f.taps2 = v f.taps3 then (NatMap.put 0 x.1 key (v f.taps1), x.2)
  else let (b, c) := x.2.fresh 1; (NatMap.put 0 x.1 key b, c)

/-- A new capture of partition `p`'s input taps (R231): only its own tiles count (R230). -/
def Chip.capture (c : Chip) (p : Nat) : NatMap × Chip :=
  let f := c.fab
  let keys := (((f.taps1 ++ f.taps2 ++ f.taps3).map Prod.fst).dedup).filter fun k => c.tileOwner (k / 256) = some p
  keys.foldl captureBit ([], c)

/-- Put a capture into the input FIFOs (R234). -/
def elCapture (c : Chip) (a : Arr) (p : Nat) : Chip × Arr :=
  let (id, c) := c.capture p
  (c, { a with elIn := a.elIn ++ [(p, id)] })

/-- The oldest waiting capture of partition `p`, and the FIFO without it. -/
def elPop (p : Nat) : List (Nat × NatMap) → NatMap × List (Nat × NatMap)
  | [] => ([], [])
  | (q, id) :: l => if q = p then (id, l) else let r := elPop p l; (r.1, (q, id) :: r.2)

/-- Output entries of partition `p`. -/
def Arr.elUsed (a : Arr) (p : Nat) : Nat := (a.elOut.filter fun e => e.part = p).length

/-- Input entries of partition `p` in use (R235, R237): those that wait, and those of the current and the previous cycle; between cycles the one of the last
cycle executed. Log 27 (DEDUCED). -/
def Arr.elInUsed (a : Arr) (c : Chip) (p : Nat) : Nat :=
  let st := c.pumpState p
  let begun := c.get .PMP_CYCLE_CYCLE p + b2n (st = psRun || st = psHold)
  (a.elIn.filter fun e => e.1 = p).length + (if c.elastic p then min begun (if st = psRun || st = psHold then 2 else 1) else 0)

/-- The taps of partition `p` take the bits of an output entry (R236). -/
def showEntry (c : Chip) (a : Arr) (p : Nat) (outs : NatMap) : Arr :=
  { a with rimTaps := orLoads (a.rimTaps.filter fun e => c.tileOwner (e.1 / 64) ≠ some p) outs }

/-- Release output entry `e` (R236). -/
def elRelease (c : Chip) (a : Arr) (e : ElEntry) : Arr :=
  showEntry c { a with elOut := a.elOut.erase e } e.part e.outs

/-- ELASTIC_FULL clears when 2 entries are free (R237). -/
def elFullUpdate (c : Chip) (a : Arr) (p : Nat) : Chip :=
  if c.get .ELB_CTL_ODEPTH p < a.elUsed p + 2 then c else c.set .H_ELB_FULL p 0

/-- Tick `m` arrives: the ended cycle of tick `m - ODLY` leaves (R236). -/
def elTickRelease (c : Chip) (a : Arr) (p m : Nat) : Chip × Arr :=
  match a.elOut.find? fun e => e.part = p && e.due = 0 && e.tick + c.get .ELB_CTL_ODLY p ≤ m with
  | none => (c, a)
  | some e => let a := elRelease c a e; (elFullUpdate c a p, a)

/-- The oldest late entry of partition `p` is due: it leaves in the third period after its cycle's end, and OUT_LATE is set (R236). -/
def elLateRelease (p : Nat) (c : Chip) (a : Arr) : Chip × Arr :=
  match a.elOut.find? fun e => e.part = p && e.due ≠ 0 && e.due ≤ c.period + 1 with
  | none => (c, a)
  | some e =>
    let a := elRelease c a e
    (elFullUpdate ((c.set .ELB_EVENT_OUT_LATE p 1).count .ELB_LATE_CNT_COUNT p 1) a p, a)

/-- At the end of a cycle in ELASTIC the output bits enter the output FIFO; a cycle whose release tick has come already is late (R236). -/
def elCycleEnd (p : Nat) (c : Chip) (a : Arr) : Arr :=
  let j := c.get .H_CYC_TICK p - 1
  let late := j + c.get .ELB_CTL_ODLY p < c.get .H_TICK_NO p
  let outs := a.rimOut.filter fun e => c.tileOwner (e.1 / 64) = some p
  { a with elOut := a.elOut ++ [⟨p, j, outs, if late then c.period + 3 + 1 else 0⟩] }

/-! Beginning a cycle -/

/-- A cycle begins; its step 0 is to execute in period `at` (R30, R54, R110, R231). A repair started in WAIT holds step 0 (R404), one started in a cycle acts
through the decisions of R108 alone; deep data that have arrived for step 0 are loaded at the boundary before it (R143, R153). -/
def beginCycle (p at' : Nat) (c : Chip) (a : Arr) : Chip × Arr :=
  let c := ((c.set .H_TRIG p 0).set .H_CYC_HELD p 0).set .PMP_SLEN_STEP_NOW p 0
  let (id, c, a) :=
    if c.elastic p then
      let r := elPop p a.elIn
      (r.1, c.bump .H_CYC_TICK p, { a with elIn := r.2 })
    else let r := c.capture p; (r.1, r.2, a)
  let mine := fun (e : Nat × Nat) => c.tileOwner (e.1 / 256) = some p
  let a := { a with
    capPrev := orLoads (a.capPrev.filter fun e => !mine e) (a.capCur.filter mine)
    capCur := orLoads (a.capCur.filter fun e => !mine e) id }
  let c :=
    if c.reps.any fun r => r.part = p && r.inWait then c.set .H_HOLD_MARK (p * 4096) (orBit (c.holdMark p 0) 5) else c
  (enterStep c a p at', loadReturns p c a)

/-! Stops (R30, R412) -/

/-- The partition enters HALT: causes, codes and cycle are recorded, decisions are discarded, the divider stops. -/
def Chip.enterHalt (c : Chip) (p cause : Nat) : Chip :=
  let c := (c.set .PMP_STATUS_STATE p psHalt).set .PMP_STOP_CAUSE_STOP p (Nat.lor (c.get .PMP_STOP_CAUSE_STOP p) (bit cause 0))
  let c := ([(Fld.PMP_STOP_CAUSE_MASK, 1), (.PMP_STOP_CAUSE_OVERRUN, 2), (.PMP_STOP_CAUSE_LAG, 3), (.PMP_STOP_CAUSE_HALT_CMD, 5),
      (.PMP_STOP_CAUSE_DATA_PARITY, 6), (.PMP_STOP_CAUSE_REPAIR_FAIL, 7), (.PMP_STOP_CAUSE_HOST_LOSS, 8)] : List (Fld × Nat)).foldl
    (fun c x => if bitB cause x.2 then c.set x.1 p 1 else c) c
  let c := (c.set .PMP_STOP_CYCLE_CYCLE p (c.lastCycle p)).set .PMP_SLEN_STEP_NOW p 0
  ((c.clearMarks p).set .H_DIV_ON p 0).pumpEvent .PMP_EVENT_STOPPED 1 p

/-- A stop cause that arises while no cycle is in progress, in RAMP or WAIT: HALT at once; a START pending in RAMP produces ABORTED (R412). -/
def Chip.stopBetween (c : Chip) (p cause : Nat) : Chip :=
  let ramp := c.pumpState p = psRamp
  let c := c.enterHalt p cause
  if ramp then c.finish .pmp p aborted 0 else c

/-- Stop cause number `n` (a bit of PMP_STOP_CAUSE) arises: at the end of the cycle in progress (R30), at once in RAMP and WAIT, and without effect otherwise
(R412). -/
def Chip.stopCause (c : Chip) (p n : Nat) : Chip :=
  let st := c.pumpState p
  if st = psRun ∨ st = psHold then c.set .H_STOP_PEND p (orBit (c.get .H_STOP_PEND p) n)
  else if st = psRamp ∨ st = psWait then c.stopBetween p (2 ^ n)
  else c

/-! Ticks (R98 to R106) -/

/-- The period of divider tick `j` (R99). -/
def Chip.divPeriod (c : Chip) (p j : Nat) : Nat :=
  c.get .H_DIV_START p + j * (c.get .PMP_TDIV_INT p * 65536 + c.get .PMP_TDIV_FRAC p) / 65536

/-- Whether the divider's next tick falls in this period or has fallen due (R99). -/
def Chip.divDue (c : Chip) (p : Nat) : Bool := c.on .H_DIV_ON p && c.divPeriod p (c.get .H_DIV_J p) ≤ c.period

/-- An overrun tick under ELASTIC (R105, R234): captured and counted in LAG, or the partition stops with cause LAG. -/
def elOverrun (p : Nat) (c : Chip) (a : Arr) : Chip × Arr :=
  let lag := c.get .PMP_STATUS_LAG p
  if lag < c.get .PMP_CTL_ELDEPTH p then
    let (c, a) := elCapture c a p
    let m := c.get .H_TICK_NO p
    let c := ((c.bump .H_TICK_NO p).set .PMP_STATUS_LAG p (lag + 1)).raiseTo .PMP_LAG_MAX_MAX p (lag + 1)
    elTickRelease c a p m
  else (c.set .H_STOP_PEND p (orBit (c.get .H_STOP_PEND p) 3), a)

/-- An overrun tick (R103, R104). `divider` tells whether the divider gave it. -/
def overrunTick (p : Nat) (divider : Bool) (c : Chip) (a : Arr) : Chip × Arr :=
  let c := (c.count .PMP_OVR_CNT_COUNT p 1).pumpEvent .PMP_EVENT_OVR 2 p
  match c.get .PMP_CTL_OVR p with
  | 1 => elOverrun p c a
  | 2 => (c.set .H_STOP_PEND p (orBit (c.get .H_STOP_PEND p) 2), a)
  | _ =>
    if c.on .PMP_STATUS_TICK_PEND p then (c.count .PMP_TICK_MERGE_COUNT p 1, a)
    else ((if divider then c.set .H_DIV_ON p 0 else c).set .PMP_STATUS_TICK_PEND p 1, a)

/-- A tick reaches partition `p` in this period (R99 to R105, R234): accepted in WAIT, an overrun during a cycle, otherwise discarded; never used but in
PACED mode (R101). Log 19 (DEDUCED). -/
def tickEvent (p : Nat) (divider : Bool) (c : Chip) (a : Arr) : Chip × Arr :=
  let st := c.pumpState p
  if c.mode p ≠ modePaced then (c, a)
  else if st = psWait then
    if c.elastic p then
      let (c, a) := elCapture c a p
      let m := c.get .H_TICK_NO p
      let (c, a) := elTickRelease (c.bump .H_TICK_NO p) a p m
      beginCycle p c.period c a
    else beginCycle p c.period c a
  else if st = psRun ∨ st = psHold then overrunTick p divider c a
  else (c, a)

/-- The divider gives its next tick, where one is due (R99). -/
def dividerTick (p : Nat) (c : Chip) (a : Arr) : Chip × Arr :=
  if c.divDue p then tickEvent p true (c.bump .H_DIV_J p) a else (c, a)

/-- A tick from TICK_IN or a rim clock tree: used where PSRC selects that source (R98, R100): PSRC = 1 for TICK_IN, 2 + t for tree t. -/
def externalTick (p psrc : Nat) (c : Chip) (a : Arr) : Chip × Arr :=
  if c.get .PMP_CTL_PSRC p = psrc then tickEvent p false c a else (c, a)

/-- An edge of source `psrc` of partition `p` is sampled in the coming period: its tick comes in the fourth period after it (R100). One edge is sampled per
period. -/
def Chip.sampleEdge (c : Chip) (p psrc : Nat) : Chip :=
  let e := (p, psrc, c.period + 4)
  if e ∈ c.edges then c else { c with edges := c.edges ++ [e] }

/-- The edge of TICK_IN that gives ticks to partition `p`: the rising one, or with EDGE = 1 the falling one (R100). -/
def Chip.tickInEdge (c : Chip) (p : Nat) (rising : Bool) : Bool := rising ≠ c.on .PMP_CTL_EDGE p

/-- The ticks of the edges of partition `p` that were sampled four periods ago (R100). -/
def edgeTicks (p : Nat) (c : Chip) (a : Arr) : Chip × Arr :=
  let due := fun (e : Nat × Nat × Nat) => e.1 = p && e.2.2 ≤ c.period
  (c.edges.filter due).foldl (fun (x : Chip × Arr) e => externalTick p e.2.1 x.1 x.2) ({ c with edges := c.edges.filter fun e => !due e }, a)

/-! Commands (R92 to R94) -/

/-- Whether a march test keeps the pump of partition `p` from START and PRIME (R162). -/
def Chip.underTest (c : Chip) (p : Nat) : Bool :=
  c.cmdPending .mt 0 && c.get .CQ_CMD (CmdReg.mt.idx 0) = 2 && c.get .H_MT_TARGET 0 < 3 && c.ownsBand p (c.get .H_MT_UNIT 0)

/-- The refusal code of START, or 0 (R92, R98, R113, R118, R409). -/
def Chip.startRefusal (c : Chip) (p : Nat) : Nat :=
  let st := c.pumpState p
  if st = psEmpty ∨ st = psLoading then 0x01
  else if st ≠ psHalt ∨ c.mode p = modeHalt ∨ c.underTest p then 0x02
  else if c.mode p = modePaced ∧ c.get .PMP_CTL_PSRC p = 0 ∧ c.get .PMP_TDIV_INT p < c.slen p then 0x03
  else if c.on .PMP_RATE_CHANGING 0 then 0x04
  else 0

/-- An accepted START enters RAMP (R96, R106, R117, R237). -/
def startAccept (p : Nat) (c : Chip) (a : Arr) : Chip × Arr :=
  let c := c.accept .pmp p 1
  let c := c.unsetAll [.PMP_STOP_CAUSE_STOP, .PMP_STOP_CAUSE_MASK, .PMP_STOP_CAUSE_OVERRUN, .PMP_STOP_CAUSE_LAG, .PMP_STOP_CAUSE_HALT_CMD,
    .PMP_STOP_CAUSE_DATA_PARITY, .PMP_STOP_CAUSE_REPAIR_FAIL, .PMP_STOP_CAUSE_HOST_LOSS, .PMP_STOP_CODES_CODES, .PMP_STATUS_LAG, .PMP_STATUS_TICK_PEND,
    .PMP_STATUS_FAULT_OUT, .H_STOP_PEND, .H_STOP_CODES, .H_TICK_NO, .H_CYC_TICK, .H_ELB_FULL, .H_FETCH] p
  let c := ((c.set .PMP_STATUS_STATE p psRamp).set .H_RAMP_START p c.now).setDue .H_RAMP_END p (32 * Chip.us)
  let a := { a with elIn := a.elIn.filter (fun e => e.1 ≠ p), elOut := a.elOut.filter (fun e => e.part ≠ p) }
  let a := if c.elastic p then showEntry c a p [] else a
  (c.faultN, a)

/-- START (R92). -/
def pumpStart (p : Nat) (c : Chip) (a : Arr) : Chip × Arr :=
  match c.startRefusal p with
  | 0 => startAccept p c a
  | code => (c.refuse .pmp p 1 code, a)

/-- HALT with no command pending (R92, R412). -/
def Chip.pumpHalt (c : Chip) (p : Nat) : Chip :=
  let st := c.pumpState p
  if st = psEmpty ∨ st = psLoading then c.refuse .pmp p 2 0x01
  else if st = psHalt then c.refuse .pmp p 2 0x02
  else if st = psRamp ∨ st = psWait then ((c.accept .pmp p 2).enterHalt p (2 ^ 5)).finish .pmp p completed 0
  else (c.accept .pmp p 2).stopCause p 5

/-- STEP (R92, R98). -/
def pumpStep (p count : Nat) (c : Chip) (a : Arr) : Chip × Arr :=
  if c.pumpState p ≠ psWait then (c.refuse .pmp p 3 0x02, a)
  else if c.mode p ≠ modeStep then (c.refuse .pmp p 3 0x05, a)
  else if count = 0 then (c.refuse .pmp p 3 0x06, a)
  else beginCycle p c.period ((c.accept .pmp p 3).set .CQ_COUNT (CmdReg.pmp.idx p) count) a

/-- The nominal VDD_C of a rate in mV (R375). Log 20 (DEDUCED). -/
def vddC (econ : Nat) : Nat := if econ = 1 then 720 else 800

/-- SETRATE (R92, R113): `svc` tells whether the service complex writes it. While a change is in progress it is refused through every PMP_CMD, the one of the
pending SETRATE among them. Log 151 (DEDUCED). -/
def Chip.pumpSetRate (c : Chip) (p rate : Nat) (svc : Bool) : Chip :=
  if !svc then c.refuse .pmp p 5 0x08
  else if c.on .PMP_RATE_CHANGING 0 || (List.range 16).any (fun q => c.pumpState q ≠ psEmpty && c.pumpState q ≠ psHalt) then c.refuse .pmp p 5 0x04
  else
    (((((c.accept .pmp p 5).set .PMP_RATE_CHANGING 0 1).set .H_RATE_PART 0 p).set .H_RATE_NEW 0 rate).setDue .H_RATE_DUE 0 (200 * Chip.us)).toRail
      (.voltage 0 (vddC rate))

/-- A HALT written while a command is pending (R93): an abort of START or STEP (a START that waits for
a power-state exit, R383, has not left HALT); discarded, and counted unless a HALT is pending, otherwise. -/
def Chip.haltPending (c : Chip) (p : Nat) : Chip :=
  match c.get .CQ_CMD (CmdReg.pmp.idx p) with
  | 1 => if c.pumpState p = psRamp then c.stopBetween p (2 ^ 5) else c.finish .pmp p aborted 0
  | 3 => c.stopCause p 5
  | 2 => c
  | _ => c.cmdLost .pmp p

/-- The step rate changes when the 200 microseconds of R113 have passed: PMP_RATE changes and PMP_EVENT.RATE is set
in every partition block, and the SETRATE result is produced, unless a partition reset has discarded the command (R128). -/
def Chip.rateChangeComplete (c : Chip) : Chip :=
  if c.on .PMP_RATE_CHANGING 0 && c.due .H_RATE_DUE 0 then
    let p := c.get .H_RATE_PART 0
    let c := ((c.set .PMP_RATE_CHANGING 0 0).set .PMP_RATE_ECON 0 (c.get .H_RATE_NEW 0)).set .H_RATE_DUE 0 0
    let c := c.set .PWR_AVS_VDD_C 0 (vddC (c.get .PMP_RATE_ECON 0))
    (List.range 16).foldl (fun c q => c.pumpEvent .PMP_EVENT_RATE 4 q)
      (if c.get .CQ_CMD (CmdReg.pmp.idx p) = 5 then c.finish .pmp p completed 0 else c)
  else c

/-- The start ramp ends (R96, R98, R99, R110): FREE enters RUN (or HOLD for a marked step 0), PACED and STEP enter WAIT; the divider starts. -/
def rampComplete (p : Nat) (c : Chip) (a : Arr) : Chip × Arr :=
  if c.pumpState p = psRamp && c.due .H_RAMP_END p && !c.reps.any (fun r => r.part = p) then
    let c := (c.set .H_RAMP_END p 0).set .PMP_SLEN_STEP_NOW p 0
    let (c, a) :=
      if c.mode p = modeFree then beginCycle p c.period c a
      else
        let c := c.set .PMP_STATUS_STATE p psWait
        (if c.mode p = modePaced ∧ c.get .PMP_CTL_PSRC p = 0 then ((c.set .H_DIV_ON p 1).set .H_DIV_START p c.period).set .H_DIV_J p 0 else c, a)
    (c.finish .pmp p completed 0, a)
  else (c, a)

end Sys2Proof.Machine
end

