-- ==== Sys2Proof/Machine/Repair.lean ====
section
/-! DEFINITION. Fetching and checking of instruction words and schedule entries (R39, R40, R79, R96, R111), and repair from the golden
copy (R403, R407). -/

namespace Sys2Proof.Machine

/-! Checking one step's words and entries -/

/-- Whether a repair of this word or entry is under way or waiting. -/
def Chip.repairing (c : Chip) (sched : Bool) (key : Nat) : Bool := c.reps.any fun r => r.sched = sched && r.key = key

/-- A word or entry of partition `p` has failed: REPAIR is asserted from now on (R403). -/
def Chip.startRepair (c : Chip) (p : Nat) (sched : Bool) (key : Nat) : Chip :=
  if c.repairing sched key then c else { c with reps := c.reps ++ [⟨p, sched, key, c.now, c.pumpState p = psWait⟩] }

/-- Check word `s` of BP `b` of partition `p` (R39, R40), `ahead` as it was fetched for its step and otherwise as it stands in the store: a correctable word is
corrected and written back, an uncorrectable one is repaired. -/
def checkBp (ahead : Bool) (p s : Nat) (c : Chip) (a : Arr) (b : Nat) : Chip × Arr :=
  let key := b * 4096 + s
  match checkWord (NatMap.find 0 (if ahead then a.fword else a.istore) key) with
  | .good => (c, a)
  | .corrected w =>
    (c.count .FLT_CNT_COUNT 0 1,
     { a with istore := NatMap.put 0 a.istore key w, fword := if ahead then NatMap.put 0 a.fword key w else a.fword })
  | .bad => (c.startRepair p false key, a)

/-- LEVEL, SWITCH, AGENT and SECTION of XCH_ERR_LOC for a unit. -/
def Unit'.location : Unit' → Nat × Nat × Nat × Nat
  | .tile t => (0, t, 0, 0)
  | .band b => (1, b, 0, 0)
  | .dieSect d k => (2, d, 0, k)
  | .bridge d q => (3, d * 2 + q, 0, 0)
  | .agent t k => (0, t, 1, k)

/-- Record the first parity failure since VALID was cleared (XCH_ERR_LOC). -/
def Chip.schedErrLoc (c : Chip) (p : Nat) (u : Unit') (t : Nat) : Chip :=
  if c.on .XCH_ERR_LOC_VALID p then c
  else
    let (level, switch, agent, sect') := u.location
    (((((c.set .XCH_ERR_LOC_VALID p 1).set .XCH_ERR_LOC_LEVEL p level).set .XCH_ERR_LOC_SWITCH p switch).set .XCH_ERR_LOC_AGENT p agent).set
      .XCH_ERR_LOC_SECTION p sect').set .XCH_ERR_LOC_ENTRY p t

/-- Check entry `t`, read as `e`, of unit `u` of partition `p` (R79, R140). -/
def checkUnit (p t : Nat) (m : NatMap) (c : Chip) (u : Unit') : Chip :=
  if u.entryOk (entryIn m u t) || c.repairing true (u.num * 4096 + t) then c
  else (c.schedErrLoc p u t).startRepair p true (u.num * 4096 + t)

/-- Read every word and entry of partition `p` for step `t`, eight steps ahead of it (R40, R79, R140). Log 14 (DEDUCED). -/
def readStep (p t : Nat) (c : Chip) (a : Arr) : Arr :=
  let other := fun (e : Nat × Nat) => e.1 % 4096 ≠ t
  let bps := fun (e : Nat × Nat) => c.ownsBand p (e.1 / 4096 / 2048)
  let units := fun (e : Nat × Nat) => c.unitOwner (Unit'.ofNum (e.1 / 4096)) = some p
  { a with
    fword := (a.istore.filter fun e => !other e && bps e).foldl (fun m e => NatMap.put 0 m e.1 e.2) (a.fword.filter fun e => other e || !bps e)
    fsched := (a.sched.filter fun e => !other e && units e).foldl (fun m e => NatMap.put 0 m e.1 e.2) (a.fsched.filter fun e => other e || !units e) }

/-- Check every word and entry of partition `p` for step `t`: `ahead` as fetched for that step, otherwise as the stores hold it. -/
def checkStep (ahead : Bool) (p t : Nat) (c : Chip) (a : Arr) : Chip × Arr :=
  let words := if ahead then a.fword else a.istore
  let sched := if ahead then a.fsched else a.sched
  let bps := (listedAt words t).filter fun b => c.ownsBand p (b / 2048)
  let units := ((listedAt sched t).map Unit'.ofNum).filter fun u => c.unitOwner u = some p
  let (c, a) := bps.foldl (fun (x : Chip × Arr) b => checkBp ahead p t x.1 x.2 b) (c, a)
  (units.foldl (checkUnit p t sched) c, a)

/-! The fetch walk outside RUN (R96, R111) -/

/-- Whether word `w` of partition `p` has been read for its step already: one of the eight from the next step on, outside RAMP (R40). -/
def Chip.readAhead (c : Chip) (p w : Nat) : Bool :=
  c.pumpState p ≠ psRamp && (w + c.slen p - c.stepNow p) % c.slen p < 8

/-- The check of the next word of the walk; the walk repeats after word S - 1. A word that has been read for its step is checked as read. -/
def fetchNext (p : Nat) (c : Chip) (a : Arr) : Chip × Arr :=
  let s := c.slen p
  if s = 0 then (c, a)
  else
    let w := c.get .H_FETCH p % s
    checkStep (c.readAhead p w) p w (c.set .H_FETCH p ((w + 1) % s)) a

/-- Whole periods, this one included, until the ramp of partition `p` ends. -/
def Chip.rampLeft (c : Chip) (p : Nat) : Nat := ceilDiv (c.get .H_RAMP_END p - 1 - c.now) c.unitsPerPeriod

/-- The ramp phase of partition `p`, 1 to 16 in RAMP and 0 elsewhere (R96, PMP_STATUS.RPHASE). -/
def Chip.rampPhase (c : Chip) (p : Nat) : Nat :=
  if c.pumpState p = psRamp then min 16 ((c.now - c.get .H_RAMP_START p) / (2 * Chip.us) + 1) else 0

/-- A period of RAMP (R96): in phase j, j of every 16 periods fetch; the last 8 fetches of phase 16 read words 0 to 7 for the first cycle, and their checks
complete 2 periods after the reads (R40). Log 15 (DEDUCED). -/
def rampFetch (p : Nat) (c : Chip) (a : Arr) : Chip × Arr :=
  let left := c.rampLeft p
  let s := c.slen p
  if s = 0 then (c, a)
  else if left ≤ 8 then
    let a := readStep p ((8 - left) % s) c a
    let c := c.set .H_FETCH p ((7 - left) % s)
    if left ≤ 6 then checkStep true p ((6 - left) % s) c a else (c, a)
  else if c.period % 16 < c.rampPhase p then fetchNext p c a
  else (c, a)

/-- The hold decision of R108 for step `j` of the first cycle, taken in the (6 - j)th period before RAMP ends; at any other time it cannot occur. -/
def rampDecision (p j : Nat) (c : Chip) (a : Arr) : Chip :=
  if c.pumpState p = psRamp && c.rampLeft p + j = 6 && 0 < c.rampLeft p && j < c.slen p then holdDecide (sampleCauses c a p) a p j else c

/-- The check of word `w` while the partition is not running (R111); in any other state nothing is fetched. -/
def fetchWhile (p w : Nat) (c : Chip) (a : Arr) : Chip × Arr :=
  let st := c.pumpState p
  if (st = psRamp ∨ st = psWait ∨ st = psHold) ∧ w < c.slen p then checkStep (c.readAhead p w) p w c a else (c, a)

/-! Repair (R403, R407) -/

/-- Periods for which the hold of a repair that ends now will have held the partition before the next step (R109, R407). Log 18 (DEDUCED). -/
def Chip.heldPeriods (c : Chip) (r : Repair) : Nat :=
  let st := c.pumpState r.part
  if st = psHold then c.period + 6 - c.get .H_HOLD_START r.part
  else if st = psRun then 6 - (r.key % 4096 + c.slen r.part - c.stepNow r.part) % (max 1 (c.slen r.part))
  else 0

/-- KIND, unit and section of a schedule entry in the fault log (R407). -/
def Unit'.logPlace : Unit' → Nat × Nat × Nat
  | .tile t => (0, t, 0)
  | .band b => (1, b, 0)
  | .dieSect d k => (2, d, k)
  | .bridge d q => (3, d * 2 + q, 0)
  | .agent t k => (4, t, k)

/-- FLT_LOG_INFO of a repaired word or entry (R407, codes 0x01 and 0x03), without the held periods. -/
def Repair.info (r : Repair) : Nat :=
  if r.sched then
    let (kind, unit, sect') := (Unit'.ofNum (r.key / 4096)).logPlace
    kind * 2 ^ 44 + unit * 2 ^ 32 + sect' * 2 ^ 24 + r.key % 4096
  else r.key / 4096 * 2 ^ 44 + r.key % 4096 * 2 ^ 32

/-- The next waiting repair of partition `p` begins (R403). -/
def Chip.nextRepair (c : Chip) (r : Repair) : Chip :=
  let reps := c.reps.erase r
  match reps.find? fun x => x.part = r.part with
  | none => { c with reps := reps }
  | some x => { c with reps := reps.replace x { x with since := c.now } }

/-- The second check of a repair has passed: it is counted and logged, REPAIR clears, and a ramp is extended (R96, R403). -/
def Chip.repaired (c : Chip) (r : Repair) : Chip :=
  let p := r.part
  let c :=
    if r.sched then (c.count .XCH_REPAIR_CNT_COUNT p 1).logFault fltSchedRepaired p r.info
    else (c.count .FLT_IREP_CNT_COUNT p 1).logFault fltIstRepaired p (r.info + c.heldPeriods r % 2 ^ 32)
  let c := if c.pumpState p = psRamp then c.set .H_RAMP_END p (c.get .H_RAMP_END p + (c.now - r.since)) else c
  c.nextRepair r

/-- The repair of partition `p` that is in progress. -/
def Chip.repairOf (c : Chip) (p : Nat) : Option Repair := c.reps.find? fun r => r.part = p

/-- FLT_LOG_INFO of a failed repair (R407, code 0x02). -/
def Repair.failInfo (r : Repair) (reason : Nat) : Nat :=
  if r.sched then 2 ^ 63 + r.info + reason * 2 ^ 12 else r.info + reason

end Sys2Proof.Machine
end

