-- ==== Sys2Proof/Machine/Cycle.lean ====
section
/-! DEFINITION. One step-clock period of one partition (R9, R30, R91, R107 to R112): the execution of a step by everything the pump
drives, and the end of a cycle. -/

namespace Sys2Proof.Machine

/-! Rim outputs (R55, R59, R233, R236) -/

/-- The rim output bits that OUT wrote at the step of partition `p` are loaded at its end; bits written by several BPs are ORed and counted (R59).
Outside ELASTIC the taps follow in the third period after this one. -/
def rimStep (p : Nat) (c : Chip) (a : Arr) : Chip × Arr :=
  let mine := fun (x : Nat × Nat) => c.tileOwner (x.1 / 64) = some p
  let outs := a.outs.filter mine
  let vals := outs.map fun x => (x.1, b2n (outs.any fun y => y.1 = x.1 && y.2 = 1))
  let a := { a with
    rimOut := vals.foldl (fun m x => NatMap.put 0 m x.1 x.2) a.rimOut
    outPipe := if c.elastic p then a.outPipe else a.outPipe ++ vals.map fun x => (c.period + 3, x.1, x.2)
    outs := a.outs.filter fun x => !mine x }
  (c.encFault p (clashes (outs.map Prod.fst)), a)

/-- The taps take the changes that are due in this period (R233). -/
def tapsStep (c : Chip) (a : Arr) : Arr :=
  { a with
    rimTaps := (a.outPipe.filter fun x => x.1 ≤ c.period).foldl (fun m x => NatMap.put 0 m x.2.1 x.2.2) a.rimTaps
    outPipe := a.outPipe.filter fun x => c.period < x.1 }

/-! The parts of a step -/

/-- The lowest-numbered partition with TOUT = 1 (R102). -/
def Chip.toutPart (c : Chip) : Option Nat := (List.range 16).find? fun p => c.on .PMP_CTL_TOUT p

/-- TICK_OUT follows the steps of the partition it is taken from (R102). -/
def Chip.tickOut (c : Chip) (p s : Nat) : Chip :=
  if c.toutPart ≠ some p then c
  else if s = 0 then c.set .H_TICK_OUT 0 1
  else if s = c.slen p / 2 then c.set .H_TICK_OUT 0 0
  else c

/-- What is sampled in the period of step 0 (R201, R214). -/
def Chip.sampleStart (c : Chip) (p s : Nat) : Chip :=
  if s = 0 then
    ((c.set .H_CYC_TIME p c.stamp).set .H_CYC_DOM p c.dom).set .H_MASK_EN p (c.get .PRB_MASK_CTL_EN p)
  else c

/-- The elastic buffer asserts ELASTIC_FULL in the period of step S - 6 when fewer than 2 output entries are free (R237). -/
def Chip.elFullAssert (c : Chip) (a : Arr) (p s : Nat) : Chip :=
  if c.elastic p && s + 6 = c.slen p && c.get .ELB_CTL_ODEPTH p < a.elUsed p + 2 then
    (c.set .H_ELB_FULL p 1).set .ELB_EVENT_FULL p 1
  else c

/-- Forget which BPs and agents of partition `p` have executed the step. -/
def Chip.clearDone (c : Chip) (p : Nat) : Chip :=
  c.clearWhere .H_STEP_DONE fun i => if i < 131072 then c.ownsBand p (i / 2048) else c.tileOwner ((i - 131072) / 4) = some p

/-- Everything that partition `p` does at step `s`: BPs, agents, exchange, lanes, gathers, rim outputs and returns, in one step (R9). -/
def arrayStep (p s : Nat) (c : Chip) (a : Arr) (m : Mem) : Chip × Arr × Mem :=
  let (c, a) := bpsExec p s c a
  let (c, a, m) := agentsExec p s c a m
  let (c, a) := exchangeStep p (c.slen p) s c a
  let a := laneStep p c a
  let (c, a) := gatherStep p s c a
  let (c, a) := rimStep p c a
  let (c, a) := countReturns p c a
  (c.clearDone p, a, m)

/-! The end of a cycle -/

/-- The stop causes of the cycle act (R30, R53, R94, R104, R105, R407). -/
def Chip.cycleStop (c : Chip) (p : Nat) : Chip :=
  let cause := c.get .H_STOP_PEND p
  let c := if bitB cause 0 then c.set .PMP_STOP_CODES_CODES p (c.get .H_STOP_CODES p) else c
  let c := if bitB cause 6 then c.logFault fltDsParity p (c.get .H_DPAR_FIRST p) else c
  let c := if bitB cause 2 || bitB cause 3 then c.set .PMP_STATUS_FAULT_OUT p 1 else c
  let i := CmdReg.pmp.idx p
  let cmd := c.get .CQ_CMD i
  let c := (c.set .H_DPAR_FIRST p 0).enterHalt p cause
  let c :=
    if cmd = 3 then c.finish .pmp p (if c.get .CQ_COUNT i = 0 then completed else aborted) 0
    else if cmd = 2 then c.finish .pmp p completed 0
    else c
  c.faultN

/-- The pump waits for a tick or a STEP (R91). -/
def Chip.enterWait (c : Chip) (p : Nat) : Chip := (c.set .PMP_STATUS_STATE p psWait).set .PMP_SLEN_STEP_NOW p 0

/-- The pending STRETCH tick is accepted in the next period, and the divider restarts its phase from there (R104). -/
def Chip.stretchRestart (c : Chip) (p : Nat) : Chip :=
  let c := c.set .PMP_STATUS_TICK_PEND p 0
  if c.get .PMP_CTL_PSRC p = 0 then ((c.set .H_DIV_ON p 1).set .H_DIV_START p (c.period + 1)).set .H_DIV_J p 1 else c

/-- What follows a cycle that no stop ends (R91, R98, R104, R105): the next cycle in the next period, or WAIT. -/
def nextCycle (p : Nat) (c : Chip) (a : Arr) : Chip × Arr :=
  let at' := c.period + 1
  if c.mode p = modeFree then beginCycle p at' c a
  else if c.mode p = modeStep then
    if c.get .CQ_COUNT (CmdReg.pmp.idx p) = 0 then ((c.enterWait p).finish .pmp p completed 0, a) else beginCycle p at' c a
  else if c.elastic p && c.get .PMP_STATUS_LAG p ≠ 0 then
    beginCycle p at' (c.set .PMP_STATUS_LAG p (c.get .PMP_STATUS_LAG p - 1)) a
  else if c.on .PMP_STATUS_TICK_PEND p then beginCycle p at' (c.stretchRestart p) a
  else (c.enterWait p, a)

/-- Step S - 1 has completed (R30): outputs enter the elastic buffer, the probe engine evaluates, the cycle number advances, and the partition stops, waits or goes
on. -/
def cycleEnd (p : Nat) (c : Chip) (a : Arr) : Chip × Arr :=
  let a := if c.elastic p then elCycleEnd p c a else a
  let c := probeCycle c a p
  let a := { a with pvec := a.pvec.filter fun e => e.1 / 65536 ≠ p }
  let c := c.set .PMP_CYCLE_CYCLE p ((c.get .PMP_CYCLE_CYCLE p + 1) % 2 ^ 64)
  let i := CmdReg.pmp.idx p
  let c := if c.get .CQ_CMD i = 3 then c.set .CQ_COUNT i (c.get .CQ_COUNT i - 1) else c
  let (c, a) := if c.get .H_STOP_PEND p ≠ 0 then (c.cycleStop p, a) else nextCycle p c a
  ((c.set .H_STOP_PEND p 0).set .H_STOP_CODES p 0, a)

/-! One period -/

/-- Partition `p` executes its current step in this period; the pump takes its decision for the step 6 ahead (R108). -/
def stepExecute (p : Nat) (c : Chip) (a : Arr) (m : Mem) : Chip × Arr × Mem :=
  let s := c.stepNow p
  let n := c.slen p
  let c := (c.sampleStart p s).tickOut p s
  let (c, a, m) := arrayStep p s c a m
  let c := c.elFullAssert a p s
  let a := readStep p ((s + 8) % n) c a
  let (c, a) := checkStep true p ((s + 6) % n) c a
  let c := holdDecide (sampleCauses c a p) a p ((s + 6) % n)
  let c := c.set .H_FETCH p ((s + 7) % n)
  if s + 1 < n then
    let c := c.set .PMP_SLEN_STEP_NOW p (s + 1)
    (enterStep c a p (c.period + 1), a, m)
  else
    let (c, a) := cycleEnd p c a
    (c, a, m)

/-- One period of HOLD (R109, R111, R112): the held step executes when it may, otherwise the period is counted. -/
def holdPeriod (p : Nat) (c : Chip) (a : Arr) (m : Mem) : Chip × Arr × Mem :=
  let c := sampleCauses c a p
  if holdReady c a p (c.holdMark p (c.stepNow p)) c.period then
    let (c, a) := lateResumed p (c.set .PMP_STATUS_STATE p psRun) a
    stepExecute p c a m
  else
    let c := (c.count .PMP_HOLD_PERIODS_PERIODS p 1).set .H_CYC_HELD p (c.get .H_CYC_HELD p + 1)
    let (c, a) := fetchNext p (c.holdLong p) a
    (c, a, m)

/-- One period of RAMP: fetching and checking, and a hold decision in each of the last six periods (R96, R108). -/
def rampPeriod (p : Nat) (c : Chip) (a : Arr) : Chip × Arr :=
  let (c, a) := rampFetch p c a
  (rampDecision p (6 - c.rampLeft p) c a, a)

/-- One period of partition `p`. -/
def partPeriod (p : Nat) (c : Chip) (a : Arr) (m : Mem) : Chip × Arr × Mem :=
  let (c, a) := elLateRelease p c a
  let st := c.pumpState p
  if st = psRun then stepExecute p c a m
  else if st = psHold then holdPeriod p c a m
  else if st = psRamp then
    let (c, a) := rampPeriod p c a
    (c, a, m)
  else if st = psWait then
    let (c, a) := fetchNext p (sampleCauses c a p) a
    (c, a, m)
  else (c, a, m)

/-- The held step of partition `p` executes in this period if its hold may end now (R109); otherwise the event cannot occur. -/
def holdRelease (p : Nat) (c : Chip) (a : Arr) : Chip × Arr :=
  if c.pumpState p = psHold && holdReady c a p (c.holdMark p (c.stepNow p)) c.period then
    lateResumed p (c.set .PMP_STATUS_STATE p psRun) a
  else (c, a)

end Sys2Proof.Machine
end

