-- ==== Sys2Proof/Machine/Partition.lean ====
section
/-! DEFINITION. Partitions (R119 to R135): priming, partition reset, creation, release, host loss and rebinding, and the failure of a
repair (R404), whose outcome is a partition reset. -/

namespace Sys2Proof.Machine

/-! Priming (R63, R84, R117, R153, R237) -/

/-- Entries of a table keyed by BP * `k` + something that lie outside partition `p`. -/
def Chip.outsideBp (c : Chip) (p k : Nat) (m : NatMap) : NatMap := m.filter fun e => !c.ownsBand p (e.1 / k / 2048)

/-- The primed slots of partition `p` in one array, with fresh parity (R65). -/
def primeSlots (c : Chip) (p : Nat) (gold slots par : NatMap) : NatMap × NatMap :=
  (gold.filter fun e => c.ownsBand p (e.1 / 4096 / 2048)).foldl
    (fun (x : NatMap × NatMap) e => writeSlot1 x.1 x.2 (e.1 / 4096) (e.1 % 4096) e.2)
    (c.outsideBp p 4096 slots, c.outsideBp p 512 par)

/-- Both data-store arrays take the primed slots of the golden copy; every other slot is 0. The second array is used in mirrored mode only. -/
def primeStores (p : Nat) (c : Chip) (a : Arr) : Arr :=
  let (sa, pa) := primeSlots c p a.gslot a.slotA a.parA
  let (sb, pb) :=
    if c.on .H_DS_MIRROR p then primeSlots c p a.gslot a.slotB a.parB else (c.outsideBp p 4096 a.slotB, c.outsideBp p 512 a.parB)
  { a with slotA := sa, parA := pa, slotB := sb, parB := pb }

/-- The port bridge of partition `p` presents 0 from the third period after priming on (R55, R233), its captures read 0 until the next cycle begins (R232), and its
FIFOs are empty (R237). -/
def primeRim (p : Nat) (c : Chip) (a : Arr) : Arr :=
  let mine := fun (k : Nat) => c.tileOwner (k / 64) = some p
  let falls := ((a.rimOut ++ a.rimTaps).filter fun e => mine e.1).map fun e => (c.period + 3, e.1, 0)
  { a with
    rimOut := a.rimOut.filter fun e => !mine e.1
    outPipe := a.outPipe ++ falls
    capCur := a.capCur.filter fun e => c.tileOwner (e.1 / 256) ≠ some p
    capPrev := a.capPrev.filter fun e => c.tileOwner (e.1 / 256) ≠ some p
    elIn := a.elIn.filter fun e => e.1 ≠ p
    elOut := a.elOut.filter fun e => e.part ≠ p }

/-- What the executing step has staged for partition `p` is dropped. -/
def dropStaged (p : Nat) (c : Chip) (a : Arr) : Arr :=
  { a with
    drives := a.drives.filter fun x => !c.ownsBand p (x.1 / 2048)
    sends := a.sends.filter fun x => c.tileOwner (x.1 / 512) ≠ some p
    gathers := a.gathers.filter fun x => c.tileOwner (x.1 / 64) ≠ some p
    outs := a.outs.filter fun x => c.tileOwner (x.1 / 64) ≠ some p
    pvec := a.pvec.filter fun e => e.1 / 65536 ≠ p }

/-- The array of partition `p` as primed from the golden copy. -/
def primeArr (p : Nat) (c : Chip) (a : Arr) : Arr :=
  let a := primeRim p c (agentsPrime p c (primeStores p c (dropStaged p c a)))
  { a with
    lane1 := a.lane1.filter fun e => !c.ownsBand p (e.1 / 2048)
    lane2 := a.lane2.filter fun e => !c.ownsBand p (e.1 / 2048)
    xreg := a.xreg.filter fun e => c.xOwner e.1 ≠ some p }

/-- Stop causes and codes. -/
def stopFields : List Fld :=
  [.PMP_STOP_CAUSE_STOP, .PMP_STOP_CAUSE_MASK, .PMP_STOP_CAUSE_OVERRUN, .PMP_STOP_CAUSE_LAG, .PMP_STOP_CAUSE_HALT_CMD,
   .PMP_STOP_CAUSE_DATA_PARITY, .PMP_STOP_CAUSE_REPAIR_FAIL, .PMP_STOP_CAUSE_HOST_LOSS, .PMP_STOP_CODES_CODES, .PMP_STOP_CYCLE_CYCLE]

/-- What priming clears in the pump (R117). -/
def Chip.primePump (c : Chip) (p : Nat) : Chip :=
  (c.unsetAll stopFields p).unsetAll [.PMP_CYCLE_CYCLE, .PMP_SLEN_STEP_NOW, .H_ELB_FULL, .H_TRIG, .H_LATE_N, .H_LATE_FROM] p

/-- PRIME (R92, R106, R162). -/
def pumpPrime (p : Nat) (c : Chip) (a : Arr) : Chip × Arr :=
  let st := c.pumpState p
  if st = psEmpty ∨ st = psLoading then (c.refuse .pmp p 4 0x01, a)
  else if st ≠ psHalt ∨ c.underTest p then (c.refuse .pmp p 4 0x02, a)
  else
    let c := (((c.accept .pmp p 4).primePump p).set .PMP_STATUS_FAULT_OUT p 0).set .H_PRIMING p 2
    (c.faultN, primeArr p c a)

/-- The operands of PMP_CMD other than its code: COUNT, and whether the service complex writes it. A write of PMP_CMD (R92, R93). -/
def pmpCmd (p code count : Nat) (svc : Bool) (c : Chip) (a : Arr) : Chip × Arr :=
  if c.cmdPending .pmp p then
    if code = 2 then (c.haltPending p, a)
    else if code = 5 ∧ svc ∧ c.get .CQ_CMD (CmdReg.pmp.idx p) = 5 then (c.pumpSetRate p (count % 2) svc, a)
    else (c.cmdLost .pmp p, a)
  else
    match code with
    | 1 => pumpStart p c a
    | 2 => (c.pumpHalt p, a)
    | 3 => pumpStep p count c a
    | 4 => pumpPrime p c a
    | 5 => (c.pumpSetRate p (count % 2) svc, a)
    | _ => (c.refuse .pmp p code 0x07, a)

/-! Partition reset (R128) -/

/-- Pump registers and the state behind them that a partition reset and RELEASE return to their reset values (R117); PMP_SLEN.S and PMP_RATE apart. -/
def pumpFields : List Fld :=
  [.PMP_CTL_EDGE, .PMP_CTL_TOUT, .PMP_CTL_ELDEPTH, .PMP_CTL_PSRC, .PMP_CTL_OVR, .PMP_CTL_MODE, .PMP_STATUS_LAG, .PMP_STATUS_CMD_LOST,
   .PMP_STATUS_CFG_REJ, .PMP_STATUS_FAULT_OUT, .PMP_STATUS_TICK_PEND, .PMP_STATUS_STATE, .PMP_SLEN_STEP_NOW, .PMP_TDIV_INT, .PMP_TDIV_FRAC,
   .PMP_HOLD_REQ_AGENT, .PMP_HOLD_REQ_HOST, .PMP_HOLD_CAUSE_SEEN, .PMP_HOLD_LIMIT_LIMIT, .PMP_CYCLE_CYCLE, .PMP_HOLD_PERIODS_PERIODS,
   .PMP_OVR_CNT_COUNT, .PMP_TICK_MERGE_COUNT, .PMP_LAG_MAX_MAX, .PMP_EVENT_RATE, .PMP_EVENT_HOLD_LONG, .PMP_EVENT_OVR, .PMP_EVENT_STOPPED,
   .PMP_EVENT_RESULT, .PMP_EVENT_EN_EN, .PMP_RESULT_CYC_CYCLE,
   .H_FETCH, .H_CYC_HELD, .H_CYC_TIME, .H_CYC_DOM, .H_HOLD_START, .H_HOLD_LONG_SET, .H_STOP_PEND, .H_STOP_CODES, .H_DIV_ON, .H_DIV_START, .H_DIV_J,
   .H_RAMP_END, .H_RAMP_START, .H_RES_CYC, .H_DPAR_FIRST, .H_TRIG, .H_TICK_NO, .H_CYC_TICK, .H_ELB_FULL, .H_LATE_FROM, .H_LATE_N]

/-- The pump's registers to their reset values (R117). -/
def Chip.pumpReset (c : Chip) (p : Nat) : Chip :=
  let c := ((c.unsetAll stopFields p).unsetAll pumpFields p).resultReset .pmp p
  (c.clearMarks p).clearWhere .H_LAST_ASSERT fun i => i / 6 = p

/-- The exchange counters to their reset values (R89). -/
def Chip.xchReset (c : Chip) (p : Nat) : Chip :=
  c.unsetAll [.XCH_REPAIR_CNT_COUNT, .XCH_ERR_LOC_VALID, .XCH_ERR_LOC_LEVEL, .XCH_ERR_LOC_SWITCH, .XCH_ERR_LOC_AGENT, .XCH_ERR_LOC_SECTION,
    .XCH_ERR_LOC_ENTRY, .XCH_EDGE_CNT_COUNT] p

/-- Staged records none of whose writes has been issued are discarded (R217). -/
def Chip.discardRecords (c : Chip) (p : Nat) : Chip :=
  { c with
    recs := c.recs.filter fun r => r.part ≠ p || r.left ≠ 0
    calls := c.calls.map fun k => if k.kind = .drain p then { k with live := false } else k }

/-- Partition reset of a partition that is neither EMPTY nor LOADING (R128): the pump stops, holds and pending commands are dropped, registers
return to their reset values, and the partition is primed again. -/
def partitionReset (p : Nat) (c : Chip) (a : Arr) : Chip × Arr :=
  let c := { c with reps := c.reps.filter fun r => r.part ≠ p }
  let c := ((c.pumpReset p).xchReset p).unsetAll
    [.DM_LATE_CNT_COUNT, .DM_LATE_MAX_PERIODS, .DM_UNMAPPED_CNT_COUNT, .PTN_ENC_FAULT_COUNT,
     .ELB_STATUS_CFG_REJ, .ELB_EVENT_FULL, .ELB_EVENT_OUT_LATE, .ELB_LATE_CNT_COUNT] p
  let c := ((c.discardRecords p).probeReset p).clearDone p
  let c := (c.set .PMP_STATUS_STATE p psLoading).set .H_PRIMING p 3
  (c.faultN, primeArr p c a)

/-- A partition reset that something other than PTN_CMD applies; EMPTY and LOADING are left alone. -/
def partitionResetIf (p : Nat) (c : Chip) (a : Arr) : Chip × Arr :=
  let st := c.pumpState p
  if !c.on .PTN_CFG_ACTIVE p ∨ st = psEmpty ∨ st = psLoading then (c, a) else partitionReset p c a

/-! PTN_CMD (R126, R134) -/

/-- Whether the bands that partition `p` would claim overlap those of an existing partition (R119, R129). -/
def Chip.overlaps (c : Chip) (p : Nat) : Bool :=
  let lo := c.get .PTN_CFG_FIRST p
  let hi := lo + c.get .PTN_CFG_COUNT p
  (List.range 16).any fun q => c.on .PTN_CFG_ACTIVE q && c.get .PTN_CFG_FIRST q < hi && lo < c.get .PTN_CFG_FIRST q + c.get .PTN_CFG_COUNT q

/-- CREATE (R119, R122, R126). -/
def Chip.ptnCreate (c : Chip) (p : Nat) (svc : Bool) : Chip :=
  let n := c.get .PTN_CFG_COUNT p
  let b := c.get .PTN_CFG_BIND p
  if !svc then c.refuse .ptn p 1 0x01
  else if c.on .PTN_CFG_ACTIVE p then c.refuse .ptn p 1 0x02
  else if n = 0 ∨ c.bands < c.get .PTN_CFG_FIRST p + n then c.refuse .ptn p 1 0x03
  else if c.overlaps p then c.refuse .ptn p 1 0x04
  else if b < 4 ∧ !c.portExists b then c.refuse .ptn p 1 0x05
  else ((c.set .PTN_CFG_ACTIVE p 1).set .PMP_STATUS_STATE p psEmpty).acceptDone .ptn p 1

/-- RELEASE: clearing starts (R126, R127). -/
def Chip.ptnRelease (c : Chip) (p : Nat) (svc : Bool) : Chip :=
  let st := c.pumpState p
  if !svc then c.refuse .ptn p 2 0x01
  else if !c.on .PTN_CFG_ACTIVE p then c.refuse .ptn p 2 0x02
  else if st ≠ psEmpty ∧ st ≠ psHalt then c.refuse .ptn p 2 0x06
  else c.accept .ptn p 2

/-- RESET (R126, R128): in EMPTY it has no effect and completes, in LOADING it is refused. -/
def ptnReset (p : Nat) (c : Chip) (a : Arr) : Chip × Arr :=
  let st := c.pumpState p
  if !c.on .PTN_CFG_ACTIVE p ∨ st = psLoading then (c.refuse .ptn p 3 0x02, a)
  else if st = psEmpty then (c.acceptDone .ptn p 3, a)
  else partitionReset p (c.accept .ptn p 3) a

/-- A write of PTN_CMD (R93, R126). -/
def ptnCmd (p code : Nat) (svc : Bool) (c : Chip) (a : Arr) : Chip × Arr :=
  if c.cmdPending .ptn p then (c.cmdLost .ptn p, a)
  else
    match code with
    | 1 => (c.ptnCreate p svc, a)
    | 2 => (c.ptnRelease p svc, a)
    | 3 => ptnReset p c a
    | _ => (c.refuse .ptn p code 0x07, a)

/-! Priming completes (R128, R154) -/

/-- Priming after PRIME or a partition reset completes once every awaited deep access has ended, and, at a PRIME, every record has completed (R217). A RESET
then produces its result; a RELEASE that is pending meanwhile (a die link failed, R401) waits for its own clearing (R127). Log 50 (DEDUCED). -/
def primingComplete (p : Nat) (c : Chip) (a : Arr) : Chip :=
  if c.deepAwaited a p then c
  else
    match c.get .H_PRIMING p with
    | 2 => if c.recordsDone p then ((c.probePrime p).set .H_PRIMING p 0).finish .pmp p completed 0 else c
    | 3 =>
      let c := (c.set .H_PRIMING p 0).set .PMP_STATUS_STATE p psHalt
      if c.get .CQ_CMD (CmdReg.ptn.idx p) = 3 then c.finish .ptn p completed 0 else c
    | _ => c

/-! RELEASE clearing (R127) -/

/-- The granules mapped for partition `p`, as byte ranges of deep memory. -/
def Chip.mappedRanges (c : Chip) (p : Nat) : List Nat :=
  ((List.range 192).filter fun n => c.on .DM_MAP_VALID (p * 192 + n)).map fun n =>
    deepKey (c.get .DM_MAP_STACK (p * 192 + n)) (c.get .DM_MAP_GRANULE (p * 192 + n)) 0

/-- Clear one granule of deep memory, error marks and all. -/
def Mem.clearGranule (m : Mem) (x : Nat) : Mem :=
  { m with
    deep := Memory.clearRange m.deep x (x + 2 ^ 30)
    deepErr := m.deepErr.filter fun e => e.1 < x / 32 || (x + 2 ^ 30) / 32 ≤ e.1 }

/-- Clear the cisterns of partition `p`. -/
def Mem.clearCisterns (m : Mem) (c : Chip) (p : Nat) : Mem :=
  let lo := c.get .PTN_CFG_FIRST p * 8 * 0x80000
  let hi := lo + c.get .PTN_CFG_COUNT p * 8 * 0x80000
  { m with
    cistern := Memory.clearRange m.cistern lo hi
    cisErr := m.cisErr.filter fun e => e.1 < lo / 8 || hi / 8 ≤ e.1 }

/-- Clear the memories of partition `p`: cisterns, deep-memory regions and the golden copy (R127). -/
def Mem.clearPart (m : Mem) (c : Chip) (p : Nat) : Mem := (c.mappedRanges p).foldl Mem.clearGranule (m.clearCisterns c p)

/-- Clear the stores and schedules of partition `p`, its golden copy and its map of probed words (R127). -/
def clearStores (p : Nat) (c : Chip) (a : Arr) : Arr :=
  let out := fun (e : Nat × Nat) => c.unitOwner (Unit'.ofNum (e.1 / 4096)) ≠ some p
  { a with
    istore := c.outsideBp p 4096 a.istore
    fword := c.outsideBp p 4096 a.fword
    gword := c.outsideBp p 4096 a.gword
    gslot := c.outsideBp p 4096 a.gslot
    slotA := c.outsideBp p 4096 a.slotA
    slotB := c.outsideBp p 4096 a.slotB
    parA := c.outsideBp p 512 a.parA
    parB := c.outsideBp p 512 a.parB
    sched := a.sched.filter out
    fsched := a.fsched.filter out
    gsched := a.gsched.filter out
    pmap := c.outsideBp p 4096 a.pmap }

/-- The port bridge of partition `p`, whose bands are no longer owned: its output taps present 0, and its elastic buffers are empty (R230, R241). -/
def clearBridges (p : Nat) (c : Chip) (a : Arr) : Arr :=
  let mine := fun (k : Nat) => c.tileOwner (k / 64) = some p
  { a with
    rimTaps := a.rimTaps.filter fun e => !mine e.1
    rimOut := a.rimOut.filter fun e => !mine e.1
    outPipe := a.outPipe.filter fun e => !mine e.2.1
    capCur := a.capCur.filter fun e => c.tileOwner (e.1 / 256) ≠ some p
    capPrev := a.capPrev.filter fun e => c.tileOwner (e.1 / 256) ≠ some p
    elIn := a.elIn.filter fun e => e.1 ≠ p
    elOut := a.elOut.filter fun e => e.part ≠ p }

/-- The registers that RELEASE returns to their reset values beside the pump's, the exchange's and the probe engine's (R135, R164, R198, R241). -/
def releaseFields : List Fld :=
  [.PMP_SLEN_S, .XCH_STATUS_LOADED, .PTN_CFG_ACTIVE, .PTN_CFG_FALLBACK, .PTN_CFG_LOSS, .PTN_CFG_ALT, .PTN_CFG_BIND, .PTN_CFG_COUNT, .PTN_CFG_FIRST,
   .PTN_ENC_FAULT_COUNT, .PTN_LOSS_PORT, .PTN_LOSS_CFG_REJ, .PTN_LOSS_FALLBACK, .PTN_LOSS_REBOUND, .PTN_LOSS_CMD_LOST, .PTN_LOSS_LOST,
   .PTN_LOSS_CYC_CYCLE, .PTN_DPAR_LOC_VALID, .PTN_DPAR_LOC_BP, .PTN_DPAR_LOC_SLOT,
   .DM_STATUS_LD, .DM_STATUS_LC, .DM_LATE_CNT_COUNT, .DM_LATE_MAX_PERIODS, .DM_UNMAPPED_CNT_COUNT, .DM_ERR_CFG_REJ, .DM_ERR_MIRROR_USED, .DM_ERR_UNMAPPED,
   .DM_ERR_DEEP_UE, .DM_ERR_DEEP_CE, .DM_ERR_CIS_UE, .DM_ERR_CIS_CE, .DM_ERR_LOC_VALID, .DM_ERR_LOC_NET, .DM_ERR_LOC_ADDR,
   .LDR_PARAM_REQ_CERT, .LDR_PARAM_SRC, .LDR_PARAM_DEEP_BASE, .LDR_SRC_ADDR, .LDR_STATUS_CMD_LOST, .LDR_STATUS_CFG_REJ, .LDR_STATUS_STEP,
   .LDR_REFUSE_SECTION, .LDR_REFUSE_SUB, .LDR_REFUSE_OFF_OFFSET, .LDR_IMAGE_ID_ID, .LDR_LAT_PAD_TRIG_LINK, .LDR_LAT_PAD_CIS_RD, .LDR_CERT_CERT,
   .ELB_CTL_ODEPTH, .ELB_CTL_ODLY, .ELB_STATUS_CFG_REJ, .ELB_EVENT_FULL, .ELB_EVENT_OUT_LATE, .ELB_LATE_CNT_COUNT,
   .H_DS_MIRROR, .H_GOLD_LO, .H_GOLD_CNT, .H_PROBE_W, .H_LC_LOADED, .H_PRIMING, .H_REBIND]

/-- Partition `p` ceases to be bound to `n`: a port whose BAR2 shows it is denied there until GLB_BAR2_SEL is rewritten (R306). -/
def Chip.bar2Unbound (c : Chip) (p n : Nat) : Chip := if n < 4 ∧ c.get .GLB_BAR2_SEL_PART n = p then c.set .H_BAR2_OUT n 1 else c

/-- The register blocks of partition `p` at their reset values, PTN_RESULT apart, the staged records that PRB_STATUS.OCC counts among them (R127, R135, R217). -/
def Chip.releaseRegs (c : Chip) (p : Nat) : Chip :=
  let c := c.bar2Unbound p (c.get .PTN_CFG_BIND p)
  let c := { c with reps := c.reps.filter (fun r => r.part ≠ p), recs := c.recs.filter fun r => r.part ≠ p }
  let c := (((((c.pumpReset p).xchReset p).probeReset p).probeWindows p).resultReset .ldr p).unsetAll releaseFields p
  ([Fld.DM_MAP_VALID, .DM_MAP_STACK, .DM_MAP_GRANULE].foldl (fun c f => c.clearWhere f fun i => i / 192 = p) c).clearDone p

/-- The clearing of a pending RELEASE ends (R127, R135), whatever state a command accepted meanwhile has brought the pump to. Log 38 (DEDUCED), 152 (DESIGN
CHOICE). -/
def releaseComplete (p : Nat) (c : Chip) (a : Arr) (m : Mem) : Chip × Arr × Mem :=
  if c.cmdPending .ptn p && c.get .CQ_CMD (CmdReg.ptn.idx p) = 2 then
    ((c.releaseRegs p).finish .ptn p completed 0, clearBridges p c (clearStores p c a), m.clearPart c p)
  else (c, a, m)

/-! Host loss and rebinding (R130 to R133) -/

/-- Policy HALT at the loss of a host (R132). -/
def Chip.lossHalt (c : Chip) (p : Nat) : Chip := c.stopCause p 8

/-- The set bits of PMP_EVENT and of PRB_EVENT of partition `p`, as their enables number them. -/
def Chip.pumpEvents (c : Chip) (p : Nat) : Nat :=
  c.get .PMP_EVENT_RESULT p + c.get .PMP_EVENT_STOPPED p * 2 + c.get .PMP_EVENT_OVR p * 4 + c.get .PMP_EVENT_HOLD_LONG p * 8 + c.get .PMP_EVENT_RATE p * 16
def Chip.probeEvents (c : Chip) (p : Nat) : Nat :=
  c.get .PRB_EVENT_TRIGGERED p + c.get .PRB_EVENT_DONE p * 2 + c.get .PRB_EVENT_VIOL p * 4 + c.get .PRB_EVENT_SEQ_STOP p * 8 + c.get .PRB_EVENT_IRQ p * 16
    + c.get .PRB_EVENT_WR_ERR p * 32 + c.get .PRB_EVENT_RATE_CHG p * 64 + c.get .PRB_EVENT_FULL p * 128

/-- The pending bits of partition `p`'s two vectors at port `n` are cleared: it is no longer bound to that port (R125, R296). -/
def Chip.dropVectors (c : Chip) (p n : Nat) : Chip :=
  if n < 4 then (c.set .MSIX_PBA_BIT (n * 64 + p) 0).set .MSIX_PBA_BIT (n * 64 + (16 + p)) 0 else c

/-- Partition `p` becomes bound to `b`: the old port's pending bits for it are cleared, and its enabled event bits that are still set signal once at its new
master, as messages of a port (R296) or as interrupt sources (R341). -/
def Chip.bindTo (c : Chip) (p b : Nat) : Chip :=
  let old := c.get .PTN_CFG_BIND p
  let c := c.set .PTN_CFG_BIND p b
  if old = b then c
  else
    let c := (c.dropVectors p old).bar2Unbound p old
    let c := if Nat.land (c.pumpEvents p) (c.get .PMP_EVENT_EN_EN p) ≠ 0 then c.partIrq p p (16 + p) else c
    if Nat.land (c.probeEvents p) (c.get .PRB_EVENT_EN_EN p) ≠ 0 then c.partIrq p (16 + p) (32 + p) else c

/-- What partition `p`, bound to lost port `n`, does (R131, R132). -/
def Chip.partLoss (n : Nat) (c : Chip) (p : Nat) : Chip :=
  if c.on .PTN_CFG_ACTIVE p && c.get .PTN_CFG_BIND p = n then
    let c := (((c.set .PMP_HOLD_REQ_HOST p 0).set .PTN_LOSS_LOST p 1).set .PTN_LOSS_PORT p n).set .PTN_LOSS_CYC_CYCLE p (c.get .PMP_CYCLE_CYCLE p)
    let c := c.raise (64 + p)
    match c.get .PTN_CFG_LOSS p with
    | 0 => c.lossHalt p
    | 2 => c.set .H_REBIND p (1 + n)
    | _ => c
  else c

/-- Host port `n` is lost (R130): once until its host returns. Log 39 (DEDUCED). -/
def Chip.hostLoss (c : Chip) (n : Nat) : Chip :=
  if c.on .H_LOST n then c else (List.range 16).foldl (Chip.partLoss n) ((c.set .H_LOST n 1).raise (160 + n))

/-- Whether ALT of partition `p`, whose host at port `n` is lost, is available (R133). -/
def Chip.altAvailable (c : Chip) (p n : Nat) : Bool :=
  let alt := c.get .PTN_CFG_ALT p
  alt = 4 || (alt < 4 && alt ≠ n && !c.on .H_LOST alt && c.portExists alt && c.on .H_LINKUP alt)

/-- The arbitration point of a REBIND of partition `p` (R129, R133), whatever its binding has become since the loss. Log 153 (DESIGN CHOICE). -/
def Chip.rebind (c : Chip) (p : Nat) : Chip :=
  match c.get .H_REBIND p with
  | 0 => c
  | n + 1 =>
    let c := c.set .H_REBIND p 0
    if c.altAvailable p n then (c.bindTo p (c.get .PTN_CFG_ALT p)).set .PTN_LOSS_REBOUND p 1
    else
      let c := c.set .PTN_LOSS_FALLBACK p 1
      if c.on .PTN_CFG_FALLBACK p then c else c.lossHalt p

/-! A repair ends (R403, R404) -/

/-- The repair `r` fails for `reason` (R404): a partition reset in RUN, WAIT and HOLD, a stop in RAMP, the cause alone in HALT. -/
def repairFailed (r : Repair) (reason : Nat) (c : Chip) (a : Arr) : Chip × Arr :=
  let p := r.part
  let c := ((c.set .FLT_SRC_REPAIR 0 1).logFault fltRepairFail p (r.failInfo reason)).nextRepair r
  let st := c.pumpState p
  let (c, a) :=
    if st = psRun ∨ st = psWait ∨ st = psHold then
      let n := c.get .PMP_CYCLE_CYCLE p
      let (c, a) := partitionReset p c a
      (((c.set .PMP_STOP_CAUSE_REPAIR_FAIL p 1).set .PMP_STOP_CYCLE_CYCLE p n).pumpEvent .PMP_EVENT_STOPPED 1 p, a)
    else if st = psRamp then (c.stopBetween p (2 ^ 7), a)
    else if st = psHalt then (c.set .PMP_STOP_CAUSE_REPAIR_FAIL p 1, a)
    else (c, a)
  (c.faultN, a)

/-- The repair of partition `p` in progress fails for `reason`: 1 golden read failed, 2 check failed again, 3 after 20 microseconds (R404). -/
def repairFail (p reason : Nat) (c : Chip) (a : Arr) : Chip × Arr :=
  match c.repairOf p with
  | none => (c, a)
  | some r => if reason = 3 ∧ c.now < r.since + 20 * Chip.us then (c, a) else repairFailed r reason c a

/-- The golden entry of the repair in progress is written into the store, and stands in for what was fetched for its step (R40, R403). Log 42 (DEDUCED). -/
def writeGolden (r : Repair) (a : Arr) : Arr :=
  if r.sched then
    { a with sched := NatMap.put 0 a.sched r.key (NatMap.find 0 a.gsched r.key), fsched := NatMap.put 0 a.fsched r.key (NatMap.find 0 a.gsched r.key) }
  else
    { a with istore := NatMap.put 0 a.istore r.key (NatMap.find 0 a.gword r.key), fword := NatMap.put 0 a.fword r.key (NatMap.find 0 a.gword r.key) }

/-- Whether the word or entry of a repair passes its check. -/
def repairOk (r : Repair) (a : Arr) : Bool :=
  if r.sched then
    let u := Unit'.ofNum (r.key / 4096)
    u.entryOk (entryIn a.sched u (r.key % 4096))
  else checkWord (NatMap.find 0 a.istore r.key) ≠ .bad

/-- Stack and granule of the golden granules of partition `p` (R187, R188). -/
def Chip.goldenPlaces (c : Chip) (p : Nat) : List (Nat × Nat) :=
  ((List.range (c.get .H_GOLD_CNT p)).map fun i => p * 192 + c.get .H_GOLD_LO p + i).map fun i => (c.get .DM_MAP_STACK i, c.get .DM_MAP_GRANULE i)

/-- For each channel slot of the golden granules, whether its bytes cannot be delivered (R158). -/
def Chip.goldenDead (c : Chip) (p : Nat) : List Bool :=
  (c.goldenPlaces p).flatMap fun x => (List.range stackChannels).map fun i => c.deepDead x.1 (i * 256)

/-- Whether some unit of the golden granules has an error that is uncorrectable in every copy (R157, R159). -/
def Chip.goldenBad (c : Chip) (m : Mem) (p : Nat) : Bool :=
  m.deepErr.any fun e => (e.2 % 3 = 2 && (!c.mirrored (e.1 / 2 ^ 25 / stackGranules) || e.2 / 3 = 2)) &&
    ((c.goldenPlaces p).any fun x => x.1 * stackGranules + x.2 = e.1 / 2 ^ 25)

/-- Whether the read of a golden entry completes with OK (R404). Where in the golden granules an entry lies is open: with a part of them unreadable a free value
decides. Log 164 (DESIGN CHOICE). -/
def Chip.goldenReadOk (c : Chip) (m : Mem) (p : Nat) : Bool × Chip :=
  let dead := c.goldenDead p
  if !dead.any id && !c.goldenBad m p then (true, c)
  else if dead.all id then (false, c)
  else let (v, c) := c.fresh 1; (v = 1, c)

/-- The golden entry arrives, is written, and is checked again (R403); a golden read that fails is a failed repair (R404). -/
def goldenWrite (p : Nat) (c : Chip) (a : Arr) (m : Mem) : Chip × Arr :=
  match c.repairOf p with
  | none => (c, a)
  | some r =>
    let (ok, c) := c.goldenReadOk m p
    if !ok then repairFailed r 1 c a
    else
      let a := writeGolden r a
      if repairOk r a then (c.repaired r, a) else repairFailed r 2 c a

end Sys2Proof.Machine
end

