-- ==== Sys2Proof/Machine/Image.lean ====
section
/-! DEFINITION. The image format and the loader's checks 3 to 18 of R191, as functions of the image's bytes and of the partition it is
loaded onto (R165 to R188, R47, R48, R57 to R59, R87, R161, R199). -/

namespace Sys2Proof.Machine

/-! Refusals (R197, R198) -/

/-- A refusal: the check step, the code of R197, and what LDR_REFUSE and LDR_REFUSE_OFF show. -/
structure Refuse where
  step : Nat
  code : Nat
  sect : Nat := 0
  sub : Nat := 0
  off : Nat := 0
deriving DecidableEq, Repr

def imgPerm : Nat := 0x01
def imgState : Nat := 0x02
def imgFormat : Nat := 0x03
def imgVersion : Nat := 0x04
def imgSectionType : Nat := 0x05
def imgKey : Nat := 0x06
def imgSig : Nat := 0x07
def imgHash : Nat := 0x08
def imgDecrypt : Nat := 0x09
def imgDecompress : Nat := 0x0A
def imgCert : Nat := 0x0B
def imgGrade : Nat := 0x0C
def imgShape : Nat := 0x0D
def imgPlacement : Nat := 0x0E
def latUnknown : Nat := 0x0F
def latencyMismatch : Nat := 0x10
def latRange : Nat := 0x11
def dmShort : Nat := 0x12
def badOpcode : Nat := 0x13
def badOperandCode : Nat := 0x14
def badFieldUse : Nat := 0x15
def driverConflict : Nat := 0x16
def probeLimit : Nat := 0x17
def imgReloc : Nat := 0x18
def exchBadCode : Nat := 0x19
def exchNoBridge : Nat := 0x1A
def exchEdge : Nat := 0x1B
def exchOutConflict : Nat := 0x1C
def memBadEntry : Nat := 0x1D
def memLatency : Nat := 0x1E
def memRetConflict : Nat := 0x1F
def memQueueDepth : Nat := 0x20
def imgPatch : Nat := 0x21
def probeMapCode : Nat := 0x22
def rimSection : Nat := 0x23
def imgSource : Nat := 0x24

/-- The first check of a list that fails, or nothing. -/
def firstFail : List (Bool × Refuse) → Except Refuse Unit
  | [] => .ok ()
  | (bad, r) :: rs => if bad then .error r else firstFail rs

/-- Refuse where `bad` holds. -/
def refuseIf (bad : Bool) (r : Refuse) : Except Refuse Unit := if bad then .error r else .ok ()

/-- `n` little-endian bytes at `off` as a number (R166). -/
def leAt (b : List Byte) (off n : Nat) : Nat := ofBytes ((b.drop off).take n)

/-- Bytes `off` to `off + n - 1`. -/
def slice (b : List Byte) (off n : Nat) : List Byte := (b.drop off).take n

/-! Header and directory (R167 to R170) -/

/-- Directory entries that the header announces. -/
def hdrCount (img : List Byte) : Nat := leAt img 0x0C 4
/-- IMAGE_LEN of the header. -/
def hdrLen (img : List Byte) : Nat := leAt img 0x18 8
/-- FLAGS.ENCRYPTED of the header. -/
def hdrEnc (img : List Byte) : Nat := leAt img 0x20 4 % 2

/-- Steps 3 and 4: the header (R167), IMAGE_LEN within the `held` bytes of the source (R190), the version (R168). -/
def headerCheck (img : List Byte) (held : Nat) : Except Refuse Unit :=
  let bad := fun (off : Nat) => ({ step := 3, code := imgFormat, off := off } : Refuse)
  firstFail
    [(leAt img 0 4 ≠ 0x49584456, bad 0), (leAt img 8 4 ≠ 64, bad 8), (hdrCount img < 3 || 4096 < hdrCount img, bad 0x0C),
     (leAt img 0x10 8 ≠ 64, bad 0x10), (2 ≤ leAt img 0x20 4, bad 0x20), (leAt img 0x24 4 ≠ 0, bad 0x24), (leAt img 0x30 16 ≠ 0, bad 0x30),
     (held < hdrLen img, bad 0x18),
     (leAt img 4 2 ≠ 3, { step := 4, code := imgVersion, off := 4 }), (2 < leAt img 6 2, { step := 4, code := imgVersion, off := 6 })]

/-- A directory entry (R169), with its 32 bytes. -/
structure Sect where
  typ : Nat
  flags : Nat
  off : Nat
  stored : Nat
  plain : Nat
  raw : List Byte
deriving DecidableEq, Repr

/-- Entry `i` of the directory. -/
def sectAt (img : List Byte) (i : Nat) : Sect :=
  let o := 64 + 32 * i
  ⟨leAt img o 2, leAt img (o + 2) 2, leAt img (o + 8) 8, leAt img (o + 16) 8, leAt img (o + 24) 8, slice img o 32⟩

/-- The directory. -/
def sects (img : List Byte) : List Sect := (List.range (hdrCount img)).map (sectAt img)

/-- The entry of a section type. -/
def sectOf (img : List Byte) (typ : Nat) : Option Sect := (sects img).find? fun s => s.typ = typ

/-- Sections that are never compressed, and never encrypted (R170). -/
def neverCompressed : List Nat := [0x0001, 0x0002, 0x0010, 0x0060]
def neverEncrypted : List Nat := [0x0001, 0x0002, 0x0010]

/-- Whether directory entry `i`, after a section that ends at `prev`, breaks R166, R169 or R170. Log 45 (DEDUCED). -/
def dirEntryBad (img : List Byte) (i prev : Nat) (s : Sect) : Bool :=
  let comp := s.flags % 2 = 1
  let enc := bitB s.flags 1
  leAt img (64 + 32 * i + 4) 4 ≠ 0 || 4 ≤ s.flags || s.off % 64 ≠ 0 || s.off < prev || hdrLen img < s.off + s.stored ||
    (comp && s.typ ∈ neverCompressed) || (enc && s.typ ∈ neverEncrypted) || (enc && s.stored < 28) ||
    (!comp && s.stored ≠ s.plain + (if enc then 28 else 0))

/-- The entries in order, each after the end of the one before (R166). -/
def dirCheck (img : List Byte) : Nat → Nat → List Sect → Except Refuse Unit
  | _, _, [] => .ok ()
  | i, prev, s :: ss =>
    if dirEntryBad img i prev s then .error { step := 5, code := imgFormat, off := 64 + 32 * i }
    else dirCheck img (i + 1) (s.off + s.stored) ss

/-- The types of R170. -/
def knownTypes : List Nat := [0x0001, 0x0002, 0x0010, 0x0011, 0x0020, 0x0021, 0x0030, 0x0031, 0x0040, 0x0041, 0x0050, 0x0060, 0x0070, 0x8080]

/-- Types that occur exactly once (R170). -/
def onceTypes : List Nat := [0x0001, 0x0002, 0x0011, 0x0020, 0x0021, 0x0040, 0x0041]

/-- Whether a type occurs a wrong number of times, or MANIFEST and SIGNATURE do not stand at their ends (R170). -/
def occursBad (ss : List Sect) : Bool :=
  let n := fun (t : Nat) => (ss.filter fun s => s.typ = t).length
  onceTypes.any (fun t => n t ≠ 1) || knownTypes.any (fun t => 1 < n t) || (ss.head?.map Sect.typ) ≠ some 1 || (ss.getLast?.map Sect.typ) ≠ some 2

/-- The first directory entry at fault for its occurrence: a type of R170 that has occurred before, MANIFEST out of the first place, another type there,
SIGNATURE out of the last place, another type there. -/
def occursFault (seen : List Nat) : Nat → List Nat → Option Nat
  | _, [] => none
  | i, t :: ts =>
    if (t ∈ knownTypes && t ∈ seen) || decide ((t = 1) ≠ (i = 0)) || decide ((t = 2) ≠ (ts = [])) then some i
    else occursFault (t :: seen) (i + 1) ts

/-- The offset that a wrong occurrence is refused at (R198): of the entry at fault; where a type is missing, and so no entry is, of the directory. Log 157
(DEDUCED). -/
def occursOff (ss : List Sect) : Nat := 64 + 32 * (occursFault [] 0 (ss.map Sect.typ)).getD 0

/-- The first section of an unknown type that must not be skipped (R170), with its place in the directory. LDR_REFUSE.SECTION shows the unknown type. Log
158 (DEDUCED). -/
def unknownType : Nat → List Sect → Except Refuse Unit
  | _, [] => .ok ()
  | i, s :: ss =>
    if s.typ ∉ knownTypes && s.typ < 0x8000 then .error { step := 6, code := imgSectionType, sect := s.typ, off := 64 + 32 * i }
    else unknownType (i + 1) ss

/-- Steps 5 and 6. A header whose FLAGS.ENCRYPTED does not say whether some directory entry has ENCRYPTED is refused with the directory (R167). Log 159 (DEDUCED). -/
def directoryCheck (img : List Byte) : Except Refuse Unit := do
  let ss := sects img
  refuseIf (hdrLen img < 64 + 32 * hdrCount img) { step := 5, code := imgFormat, off := 0x0C }
  dirCheck img 0 (64 + 32 * hdrCount img) ss
  refuseIf (occursBad ss) { step := 5, code := imgFormat, off := occursOff ss }
  refuseIf (hdrEnc img ≠ b2n (ss.any fun s => bitB s.flags 1)) { step := 5, code := imgFormat, off := 0x20 }
  unknownType 0 ss

/-! Keys, signature and manifest (R171 to R173) -/

/-- Byte offset of the manifest. -/
def manOff (img : List Byte) : Nat := (sectAt img 0).off
/-- A manifest field. -/
def manField (img : List Byte) (off n : Nat) : Nat := leAt img (manOff img + off) n

/-- Whether a vault slot holds a usable key in the current life-cycle state (R173, R398): blobs are used in PROVISIONED, SECURED and RMA. -/
def Chip.slotUsable (c : Chip) (slot : Nat) : Bool :=
  let lc := c.get .LC_STATE_STATE 0
  c.on .H_VAULT_SLOT slot && (lc = 2 || lc = 3 || lc = 4)

/-- Whether slot `k` holds an image-signing key (R395). -/
def Chip.signSlot (c : Chip) (k : Nat) : Bool := (k = 0 || (3 ≤ k && k ≤ 7)) && c.slotUsable k

/-- Whether slot `k` holds an AES key (R395). -/
def Chip.aesSlot (c : Chip) (k : Nat) : Bool := 8 ≤ k && k ≤ 63 && c.slotUsable k

/-- Step 7: SIG_SLOT, then the signature over header, directory and manifest as stored (R172, R173). -/
def signatureCheck (c : Chip) (img : List Byte) : Except Refuse Unit :=
  let n := hdrCount img
  let man := sectAt img 0
  let sig := sectAt img (n - 1)
  let msg := slice img 0 (64 + 32 * n) ++ slice img man.off man.stored
  let slot := manField img 0x16 1
  firstFail
    [(!c.signSlot slot, { step := 7, code := imgKey, sect := 1, off := man.off + 0x16 }),
     (sig.stored ≠ 96 || !Config.ecdsaVerify slot (Config.sha384 msg) (slice img sig.off 48) (slice img (sig.off + 48) 48),
      { step := 7, code := imgSig, sect := 2, off := sig.off })]

/-- The hash table lists exactly the other sections, in directory order (R171). -/
def hashTableCheck (img : List Byte) : Nat → List Sect → Except Refuse Unit
  | _, [] => .ok ()
  | i, s :: ss =>
    let at' := 0x100 + 52 * i
    if manField img at' 2 ≠ s.typ || manField img (at' + 2) 2 ≠ 0 then .error { step := 8, code := imgFormat, sect := 1, off := manOff img + at' }
    else hashTableCheck img (i + 1) ss

/-- Step 8: the manifest (R171). -/
def manifestCheck (img : List Byte) : Except Refuse Unit := do
  let n := hdrCount img
  let f := manField img
  let bad := fun (off : Nat) => ({ step := 8, code := imgFormat, sect := 1, off := manOff img + off } : Refuse)
  firstFail
    [(f 0 4 ≠ 256 + 52 * (n - 2) || (sectAt img 0).stored ≠ f 0 4, bad 0), (f 4 2 ∉ [410, 420, 440], bad 4), (f 6 1 < 1 || 64 < f 6 1, bad 6),
     (f 7 1 < 1 || 4 < f 7 1, bad 7), (15 < f 8 1 || (f 7 1 = 1 && f 8 1 ≠ 0), bad 8), (4 ≤ f 9 1 || f 9 1 / 2 % 2 ≠ hdrEnc img, bad 9),
     (f 0x0A 2 < 16 || 4096 < f 0x0A 2, bad 0x0A), (f 0x0E 2 ≠ 0, bad 0x0E),
     (65536 < f 0x10 4 || (0 < f 0x10 4) ≠ (sectOf img 0x50).isSome, bad 0x10), (192 < f 0x14 1, bad 0x14),
     (f 0x15 1 < 1 || 192 < f 0x15 1, bad 0x15), (hdrEnc img = 0 && f 0x17 1 ≠ 0, bad 0x17), (f 0x18 8 ≠ leAt img 0x28 8, bad 0x18),
     (32 ≤ f 0x24 4, bad 0x24), (f 0x58 168 ≠ 0, bad 0x58)]
  hashTableCheck img 0 ((sects img).drop 1).dropLast

/-- The manifest's S, PROBE_BITS, DESIGN_GRANULES and GOLDEN_GRANULES, and COUNT. -/
def manS (img : List Byte) : Nat := manField img 0x0A 2
def manProbe (img : List Byte) : Nat := manField img 0x10 4
def manDesign (img : List Byte) : Nat := manField img 0x14 1
def manGolden (img : List Byte) : Nat := manField img 0x15 1
def manCount (img : List Byte) : Nat := manField img 6 1

/-- The grade of the module as a number. -/
def Chip.gradeNo (c : Chip) : Nat := match c.grade with | .vdx410 => 410 | .vdx420 => 420 | .vdx440 => 440

/-- D of partition `p` (R120). -/
def Chip.partDies (c : Chip) (p : Nat) : Nat :=
  (c.get .PTN_CFG_FIRST p + c.get .PTN_CFG_COUNT p - 1) / 16 - c.get .PTN_CFG_FIRST p / 16 + 1

/-- Steps 9 to 11: the decryption key, the certificate (R193), and grade, shape and placement (R165). -/
def targetCheck (c : Chip) (p : Nat) (img : List Byte) : Except Refuse Unit :=
  let f := manField img
  let at' := fun (step code off : Nat) => ({ step := step, code := code, sect := 1, off := manOff img + off } : Refuse)
  firstFail
    [(hdrEnc img = 1 && !c.aesSlot (f 0x17 1), at' 9 imgKey 0x17),
     (c.on .LDR_PARAM_REQ_CERT p && f 0x24 4 % 32 ≠ 31, at' 10 imgCert 0x24),
     (f 4 2 ≠ c.gradeNo, at' 11 imgGrade 4), (f 6 1 ≠ c.get .PTN_CFG_COUNT p, at' 11 imgShape 6), (f 7 1 ≠ c.partDies p, at' 11 imgShape 7),
     (2 ≤ f 7 1 && f 8 1 ≠ c.get .PTN_CFG_FIRST p % 16, at' 11 imgPlacement 8)]

/-! Opening a section (R174, R191) -/

/-- The hash that the manifest gives directory entry `i`. -/
def manHash (img : List Byte) (i : Nat) : List Byte := slice img (manOff img + 0x100 + 52 * (i - 1) + 4) 48

/-- A 384-bit digest as bytes, most significant first. -/
def digestBytes (d : BitVec 384) : List Byte := (toBytes 48 d.toNat).reverse

/-- Whether the stored bytes of section `s` have the hash that the manifest gives them. -/
def hashOk (img : List Byte) (s : Sect) : Bool := digestBytes (Config.sha384 (slice img s.off s.stored)) = manHash img ((sects img).idxOf s)

/-- The plain bytes of section `s`: hash, then decryption, then decompression (R191). -/
def openSect (img : List Byte) (step : Nat) (s : Sect) : Except Refuse (List Byte) :=
  let bad := fun (code : Nat) => ({ step := step, code := code, sect := s.typ, off := s.off } : Refuse)
  let body := slice img s.off s.stored
  if !hashOk img s then .error (bad imgHash)
  else
    let clear :=
      if bitB s.flags 1 then
        Config.gcmOpen (manField img 0x17 1) (slice body 0 12) s.raw (slice body 12 (s.stored - 28)) (slice body (s.stored - 16) 16)
      else some body
    match clear with
    | none => .error (bad imgDecrypt)
    | some b =>
      if s.flags % 2 = 0 then .ok b
      else
        match Config.inflate b with
        | none => .error (bad imgDecompress)
        | some d => if d.length = s.plain then .ok d else .error (bad imgDecompress)

/-- The plain bytes of an optional section, and its entry. -/
def openType (img : List Byte) (step typ : Nat) : Except Refuse (Option (Sect × List Byte)) :=
  match sectOf img typ with
  | none => .ok none
  | some s => (openSect img step s).map fun b => some (s, b)

/-- The offset that LDR_REFUSE_OFF gives for byte `pos` of a section's content (R198): of the section itself after decompression; in an encrypted section the
content follows the 12-byte IV. -/
def Sect.place (s : Sect) (pos : Nat) : Nat :=
  if s.flags % 2 = 1 then s.off else if bitB s.flags 1 then s.off + 12 + pos else s.off + pos

/-- A refusal of content at byte `pos` of section `s`. -/
def Sect.refuse (s : Sect) (step code pos : Nat) : Refuse := { step := step, code := code, sect := s.typ, off := s.place pos }

/-! Latency pinning (R183 to R186) -/

/-- The device latency of a unit of R183 on this stepping; 0 for an unknown unit. -/
def Chip.latDevice (c : Chip) (u : Nat) : Nat :=
  match u with
  | 1 => if c.isB0 then 5 else 6
  | 2 => 2 | 3 => 4 | 4 => 6 | 5 => 8 | 6 => 3
  | 7 => if c.isB0 then 16 else 24
  | _ => 0

/-- The default of a unit, and whether it is exact, and its largest assumption. -/
def latDefault (u : Nat) : Nat := match u with | 1 => 6 | 2 => 2 | 3 => 4 | 4 => 6 | 5 => 8 | 6 => 3 | 7 => 24 | _ => 0
def latExact (u : Nat) : Bool := 2 ≤ u && u ≤ 6
def latLargest (u : Nat) : Nat := match u with | 1 => 15 | 7 => 63 | _ => 0

/-- The entries of a LATENCY section: unit, reserved byte, assumption. -/
def latEntries (d : List Byte) : List (Nat × Nat × Nat) :=
  (List.range (leAt d 0 4)).map fun i => (leAt d (4 + 4 * i) 1, leAt d (5 + 4 * i) 1, leAt d (6 + 4 * i) 2)

/-- Pass 1: reserved bytes and units named twice. -/
def latPass1 (s : Sect) : Nat → List Nat → List (Nat × Nat × Nat) → Except Refuse Unit
  | _, _, [] => .ok ()
  | i, seen, (u, res, _) :: es =>
    if res ≠ 0 || u ∈ seen then .error (s.refuse 12 imgFormat (4 + 4 * i)) else latPass1 s (i + 1) (u :: seen) es

/-- Pass 2: units that the device table does not list. -/
def latPass2 (s : Sect) : Nat → List (Nat × Nat × Nat) → Except Refuse Unit
  | _, [] => .ok ()
  | i, (u, _, _) :: es =>
    if u = 0 || 7 < u then .error { s.refuse 12 latUnknown (4 + 4 * i) with sub := u } else latPass2 s (i + 1) es

/-- Pass 3: one unit of the device table against its assumption. -/
def latUnit (c : Chip) (es : List (Nat × Nat × Nat)) (miss hit : Nat → Refuse) (u : Nat) : List (Bool × Refuse) :=
  let named := es.find? fun e => e.1 = u
  let a := match named with | some e => e.2.2 | none => latDefault u
  let r := match named with | some _ => hit (es.findIdx fun (e : Nat × Nat × Nat) => e.1 = u) | none => miss u
  if latExact u then [(a ≠ c.latDevice u, { r with code := latencyMismatch, sub := u })]
  else [(latLargest u < a, { r with code := latRange, sub := u }), (a < c.latDevice u, { r with code := latencyMismatch, sub := u })]

/-- The assumption for a unit. -/
def latAssumed (es : List (Nat × Nat × Nat)) (u : Nat) : Nat :=
  match es.find? fun e => e.1 = u with
  | some e => e.2.2
  | none => latDefault u

/-- Step 12: the assumptions of the image (R184). -/
def latencyCheck (c : Chip) (img : List Byte) : Except Refuse (List (Nat × Nat × Nat)) := do
  match ← openType img 12 0x10 with
  | none =>
    let r := fun (_ : Nat) => ({ step := 12, code := 0, sect := 1, off := manOff img } : Refuse)
    firstFail ([1, 2, 3, 4, 5, 6, 7].flatMap (latUnit c [] r r))
    return []
  | some (s, d) =>
    refuseIf (d.length < 4 || d.length ≠ 4 + 4 * leAt d 0 4) (s.refuse 12 imgFormat 0)
    let es := latEntries d
    latPass1 s 0 [] es
    latPass2 s 0 es
    firstFail ([1, 2, 3, 4, 5, 6, 7].flatMap
      (latUnit c es (fun _ => s.refuse 12 0 0) (fun i => s.refuse 12 0 (4 + 4 * i))))
    return es

/-! Design-memory layout (R177, R187) -/

/-- Whether LAYOUT record at byte `j` breaks R177; an undefined KIND and a non-zero reserved byte are refused as a bad region is. Log 161 (DEDUCED). -/
def layoutBad (img d : List Byte) (j : Nat) : Bool :=
  let base := leAt d j 8
  let len := leAt d (j + 8) 8
  let kind := leAt d (j + 16) 1
  leAt d (j + 17) 7 ≠ 0 || 1 < kind || (kind = 1 && manDesign img * 2 ^ 30 < base + len) ||
    (kind = 0 && (base < cisternBase || cisternBase + 8 * manCount img * 0x80000 < base + len))

/-- Whether some granule of `[lo, hi)` is beyond the space or unmapped (R187). -/
def Chip.granulesShort (c : Chip) (p lo hi : Nat) : Bool :=
  (List.range (hi - lo)).any fun i => 192 ≤ lo + i || !c.on .DM_MAP_VALID (p * 192 + lo + i)

/-- Step 13. -/
def layoutCheck (c : Chip) (p : Nat) (img : List Byte) : Except Refuse Unit := do
  match ← openType img 13 0x11 with
  | none => return ()
  | some (s, d) =>
    refuseIf (d.length % 24 ≠ 0) (s.refuse 13 imgFormat 0)
    firstFail ((List.range (d.length / 24)).map fun i => (layoutBad img d (24 * i), s.refuse 13 imgFormat (24 * i)))
    let lo := c.get .LDR_PARAM_DEEP_BASE p
    let mid := lo + manDesign img
    firstFail
      [(c.granulesShort p lo mid, { step := 13, code := dmShort, sect := 1, off := manOff img + 0x14 }),
       (c.granulesShort p mid (mid + manGolden img), { step := 13, code := dmShort, sect := 1, off := manOff img + 0x15 })]

/-! Instruction words (R175, step 14) -/

/-- The load-time conditions of R47, R57 and R48 on one word, in that order. -/
def wordRefusal (w : Nat) : Nat :=
  let op := Word.op w
  let prb := Word.prb w
  let snd := Word.snd w
  let port := Word.port w
  if reservedCount w ≠ 0 then badOperandCode
  else if 8 ≤ op then badOpcode
  else if op = 0 then (if snd = 0 ∧ port = 0 ∧ prb = 0 then 0 else badFieldUse)
  else if op = 1 ∨ op = 2 then (if (snd = 0 ∧ port ≠ 0) ∨ (op = 2 ∧ 256 ≤ Word.tt w) then badFieldUse else 0)
  else if op = 7 then (if snd = 1 then 0 else badFieldUse)
  else if snd = 0 then 0 else badFieldUse

/-- The target that a word of relative BP `r` at step `t` drives, for R59: kind 0 an out-port, 1 a gather input, 2 a rim output bit. -/
def wordDrives (r t w : Nat) : Option (Nat × Nat × Nat) :=
  if Word.snd w = 1 then some (t, 0, r / 32 % 8 * 64 + Word.port w)
  else if Word.op w = 3 then some (t, 1, Word.port w)
  else if Word.op w = 6 then some (t, 2, Word.port w)
  else none

/-- Word `t` of stanza `n`. -/
def stanzaWord (d : List Byte) (s n t : Nat) : Nat := leAt d (10 * (s * n + t)) 10

/-- The BPs of a STANZA_MAP or PRIME_MAP that name an entry, with its number. -/
def mapEntries (d : List Byte) (nbp : Nat) : List (Nat × Nat) :=
  ((List.range nbp).map fun r => (r, leAt d (4 * r) 4)).filter fun e => e.2 ≠ 0xFFFFFFFF

/-- The words of one BP, each checked (step 14). -/
def bpWordsCheck (st : Sect) (d : List Byte) (s : Nat) (e : Nat × Nat) : List (Bool × Refuse) :=
  (List.range s).map fun t =>
    let code := wordRefusal (stanzaWord d s e.2 t)
    (code ≠ 0, st.refuse 14 code (10 * (s * e.2 + t)))

/-- The targets driven in one tile, in BP order, with the stanza position of each. -/
def tileDrives (d : List Byte) (s : Nat) (bps : List (Nat × Nat)) : List ((Nat × Nat × Nat) × Nat) :=
  bps.flatMap fun e => (List.range s).filterMap fun t =>
    (wordDrives e.1 t (stanzaWord d s e.2 t)).map fun k => (k, 10 * (s * e.2 + t))

/-- R59 for one tile: a target driven a second time. -/
def driverCheck (st : Sect) : List (Nat × Nat × Nat) → List ((Nat × Nat × Nat) × Nat) → Except Refuse Unit
  | _, [] => .ok ()
  | seen, (k, pos) :: ks => if k ∈ seen then .error (st.refuse 14 driverConflict pos) else driverCheck st (k :: seen) ks

/-- The words of every tile, tile by tile (R191, step 14). -/
def tilesCheck (st : Sect) (d : List Byte) (s : Nat) (es : List (Nat × Nat)) (tiles : Nat) : Except Refuse Unit :=
  (List.range tiles).foldlM
    (fun _ t => do
      let bps := es.filter fun e => e.1 / 256 = t
      firstFail (bps.flatMap (bpWordsCheck st d s))
      driverCheck st [] (tileDrives d s bps)) ()

/-- The words of the image with their relative BP and step (step 14). -/
def stanzaCheck (img : List Byte) : Except Refuse (List (Nat × Nat × Nat)) := do
  let s := manS img
  let nbp := 2048 * manCount img
  match ← openType img 14 0x21, ← openType img 14 0x20 with
  | some (ms, m), some (ss, d) =>
    refuseIf (m.length ≠ 4 * nbp) (ms.refuse 14 imgFormat 0)
    refuseIf (d.length % (10 * s) ≠ 0) (ss.refuse 14 imgFormat (d.length - d.length % (10 * s)))
    let es := mapEntries m nbp
    firstFail (es.map fun e => (d.length / (10 * s) ≤ e.2, ms.refuse 14 imgFormat (4 * e.1)))
    tilesCheck ss d s es (8 * manCount img)
    let words := es.flatMap fun e => (List.range s).map fun t => (e.1, t, stanzaWord d s e.2 t)
    refuseIf (65536 < (words.filter fun w => Word.prb w.2.2 = 1).length) (ss.refuse 14 probeLimit 0)
    return words
  | _, _ => return []

/-! Schedules (R176, steps 15 and 16) -/

/-- A record of XCH_SCHED or AGENT_SCHED: LEVEL, SUB, UNIT, its entries and its place in the section. -/
structure Rec where
  level : Nat
  sub : Nat
  unit : Nat
  entries : List Nat
  pos : Nat
deriving DecidableEq, Repr

/-- Bytes per stored entry, bits used, and the SUB values of a level. -/
def levelBytes (l : Nat) : Nat := match l with | 0 => 24 | 1 => 40 | 2 => 16 | 3 => 16 | 4 => 8 | _ => 24
def levelBits (l : Nat) : Nat := match l with | 0 => 168 | 1 => 272 | 2 => 128 | 3 => 128 | 4 => 32 | _ => 136
def levelSubs (l : Nat) : List Nat := match l with | 3 => [16, 17] | 4 => [0, 1] | 5 => [0, 1, 2, 3] | _ => [0]

/-- The record at byte `pos`. -/
def recordAt (d : List Byte) (s pos : Nat) : Rec :=
  let l := leAt d pos 1
  ⟨l, leAt d (pos + 1) 1, leAt d (pos + 2) 2, (List.range s).map fun t => leAt d (pos + 4 + t * levelBytes l) (levelBytes l), pos⟩

/-- The place of entry `t` of a record. -/
def Rec.entryPos (r : Rec) (t : Nat) : Nat := r.pos + 4 + t * levelBytes r.level

/-- Check the format of a record (R176): XCH_SCHED holds records of LEVEL 0 to 4, AGENT_SCHED of LEVEL 5. Log 160 (DEDUCED). -/
def recordFormat (sc : Sect) (step : Nat) (levels : List Nat) (d : List Byte) (s : Nat) (seen : List Rec) (r : Rec) : Except Refuse Unit :=
  firstFail
    ((d.length < r.pos + 4 || r.level ∉ levels || r.sub ∉ levelSubs r.level ||
        seen.any (fun x => x.level = r.level && x.unit = r.unit && x.sub = r.sub) || d.length < r.pos + 4 + s * levelBytes r.level,
      sc.refuse step imgFormat r.pos) ::
     (List.range s).map fun t => (2 ^ levelBits r.level ≤ r.entries.getD t 0, sc.refuse step imgFormat (r.entryPos t)))

/-- Check the records of a section one at a time; `check` sees the records before. -/
def recordsCheck (sc : Sect) (step : Nat) (levels : List Nat) (d : List Byte) (s : Nat) (check : List Rec → Rec → Except Refuse Unit) :
    Nat → Nat → List Rec → Except Refuse (List Rec)
  | 0, _, seen => .ok seen
  | fuel + 1, pos, seen =>
    if d.length ≤ pos then .ok seen
    else do
      let r := recordAt d s pos
      recordFormat sc step levels d s seen r
      check seen r
      recordsCheck sc step levels d s check fuel (r.entryPos s) (seen ++ [r])

/-- The unit that a record names, relocated (R181). -/
def Rec.target (r : Rec) (first : Nat) : Unit' :=
  match r.level with
  | 0 => .tile (8 * first + r.unit)
  | 1 => .band (first + r.unit)
  | 2 => .dieSect ((first + r.unit) / 16) ((first + r.unit) % 16)
  | 3 => .dieSect (first / 16 + r.unit) r.sub
  | 4 => .bridge (first / 16 + r.unit) r.sub
  | _ => .agent (8 * first + r.unit) r.sub

/-- Slots of an entry of a record's level as V, SRC and DST. -/
def Rec.slots (r : Rec) (e : Nat) : List (Nat × Nat × Nat) :=
  match r.level with
  | 0 => (List.range 8).map fun i => let x := e / 2 ^ (21 * i); (bit x 20, bits x 19 10, bits x 9 0)
  | 1 => (List.range 16).map fun i => let x := e / 2 ^ (17 * i); (bit x 16, bits x 15 8, bits x 7 0)
  | 4 => []
  | _ => (List.range 8).map fun i => let x := e / 2 ^ (16 * i); (bit x 15, bits x 14 5, bits x 4 0)

/-- The valid connections of an entry: SRC and DST. -/
def Rec.conns (r : Rec) (e : Nat) : List (Nat × Nat) := ((r.slots e).filter fun x => x.1 = 1).map fun x => x.2

/-- EXCH_BAD_CODE for one entry (R87). -/
def entryBadCode (r : Rec) (e : Nat) : Bool :=
  let srcTop := match r.level with | 0 => 0x210 | 1 => 0xA0 | _ => 0x240
  let dstTop := match r.level with | 0 => 0x210 | 1 => 0xA0 | _ => 32
  (r.slots e).any fun x => (x.1 = 0 && (x.2.1 ≠ 0 || x.2.2 ≠ 0)) || (x.1 = 1 && (srcTop ≤ x.2.1 || dstTop ≤ x.2.2))

/-- The bridge ports that an entry of a die-switch section or a bridge port names. -/
def Rec.ports (r : Rec) (e : Nat) : List Nat :=
  match r.level with
  | 4 => if e = 0 then [] else [r.sub]
  | 3 => if r.conns e = [] then [] else (r.sub - 16) :: ((r.conns e).filter fun x => 0x200 ≤ x.1).map fun x => (x.1 - 0x200) / 32
  | 2 => ((r.conns e).filter fun x => 0x200 ≤ x.1).map fun x => (x.1 - 0x200) / 32
  | _ => []

/-- The die of a record at level 2 or above. -/
def Rec.die (r : Rec) (first : Nat) : Nat := if r.level = 2 then (first + r.unit) / 16 else first / 16 + r.unit

/-- EXCH_NO_BRIDGE for one entry (R87). -/
def entryNoBridge (c : Chip) (r : Rec) (first e : Nat) : Bool :=
  (r.level = 4 && e ≠ 0 && c.dies = 2) || (r.ports e).any fun q => !c.portConnected (r.die first) q

/-- EXCH_EDGE for one entry (R87): every band and bridge it names is the partition's. `k` is the relocation of R181. -/
def entryEdge (c : Chip) (p first k : Nat) (r : Rec) (e : Nat) : Bool :=
  let d := r.die first
  (if r.level = 4 && e ≠ 0 then [0, 1] else r.ports e).any (fun q => c.portOwner d q ≠ some p) ||
    (2 ≤ r.level && r.level ≤ 3 &&
      (r.conns e).any fun x => x.1 < 0x200 && (15 < x.1 / 32 + k || !c.ownsBand p (d * 16 + x.1 / 32 + k)))

/-- Out-lanes that an entry of a bridge section feeds, as a mask. -/
def Rec.fedMask (r : Rec) (t : Nat) : Nat := (r.conns (r.entries.getD t 0)).foldl (fun m x => orBit m x.2) 0

/-- The THRU mask of entry `t` of the bridge port record of (die, port), if one has been read. -/
def thruMask (seen : List Rec) (first d q t : Nat) : Nat :=
  match seen.find? fun r => r.level = 4 && r.die first = d && r.sub = q with
  | some r => r.entries.getD t 0
  | none => 0

/-- The out-lanes that entry `t` of the bridge section of (die, port) feeds, if its record has been read. -/
def fedBy (seen : List Rec) (first d q t : Nat) : Nat :=
  match seen.find? fun r => r.level = 3 && r.die first = d && r.sub = 16 + q with
  | some r => r.fedMask t
  | none => 0

/-- EXCH_OUT_CONFLICT for entry `t` (R81, R87). -/
def entryConflict (c : Chip) (seen : List Rec) (first s : Nat) (r : Rec) (t : Nat) : Bool :=
  let e := r.entries.getD t 0
  let d := r.die first
  if r.level = 4 then
    let q := r.sub
    let far := c.farDie d (1 - q)
    let back := c.farDie d q
    Nat.land e (fedBy seen first d q ((t + s - 1) % s)) ≠ 0 || Nat.land e (thruMask seen first far q t) ≠ 0 ||
      Nat.land e (thruMask seen first back q t) ≠ 0
  else
    clashes ((r.conns e).map Prod.snd) ≠ 0 ||
      (r.level = 3 && Nat.land (r.fedMask t) (thruMask seen first d (r.sub - 16) ((t + 1) % s)) ≠ 0)

/-- Relocation limit of a record's unit (R176, R181). -/
def Rec.limit (r : Rec) (img : List Byte) : Nat :=
  match r.level with | 0 => 8 * manCount img | 1 => manCount img | 2 => manCount img | 3 => manField img 7 1 | 4 => manField img 7 1 | _ => 8 * manCount img

/-- The die on which the unit that a record names falls. -/
def Rec.onDie (r : Rec) (first : Nat) : Nat :=
  match r.level with
  | 1 => (first + r.unit) / 16
  | 2 => (first + r.unit) / 16
  | 3 => first / 16 + r.unit
  | 4 => first / 16 + r.unit
  | _ => (8 * first + r.unit) / 128

/-- Relocation of a record (R22, R181): a unit on an unpopulated die, then a unit beyond the partition. Log 156 (DEDUCED). -/
def relocFails (c : Chip) (img : List Byte) (first : Nat) (sc : Sect) (step : Nat) (r : Rec) : List (Bool × Refuse) :=
  [(r.limit img ≤ r.unit && c.dies ≤ r.onDie first, sc.refuse step imgGrade r.pos), (r.limit img ≤ r.unit, sc.refuse step imgReloc r.pos)]

/-- k of R181. -/
def relocK (img : List Byte) (first : Nat) : Nat := if 2 ≤ manField img 7 1 then 0 else first % 16

/-- Relocation, then the conditions of R87 in table order, on one record of XCH_SCHED. -/
def xchRecord (c : Chip) (p : Nat) (img : List Byte) (sc : Sect) (seen : List Rec) (r : Rec) : Except Refuse Unit :=
  let first := c.get .PTN_CFG_FIRST p
  let s := manS img
  let each := fun (code : Nat) (bad : Nat → Bool) =>
    (List.range s).map fun t => (bad t, sc.refuse 15 code (r.entryPos t))
  let e := fun (t : Nat) => r.entries.getD t 0
  firstFail
    (relocFails c img first sc 15 r
      ++ each exchBadCode (fun t => entryBadCode r (e t))
      ++ each exchNoBridge (fun t => entryNoBridge c r first (e t))
      ++ each exchEdge (fun t => entryEdge c p first (relocK img first) r (e t))
      ++ each exchOutConflict (fun t => entryConflict c seen first s r t))

/-- Step 15: the records of XCH_SCHED. -/
def xchCheck (c : Chip) (p : Nat) (img : List Byte) : Except Refuse (List Rec) := do
  match ← openType img 15 0x30 with
  | none => return []
  | some (sc, d) => recordsCheck sc 15 [0, 1, 2, 3, 4] d (manS img) (xchRecord c p img sc) d.length 0 []

/-- MEM_BAD_ENTRY for one agent entry (R161). -/
def agentBad (e : Nat) : Bool :=
  let g := (List.range 16).map (entryGather e)
  4 < entryIssue e || e / 2 ^ 131 ≠ 0 || g.any (fun x => (x.1 = 1 && 99 ≤ x.2) || (x.1 = 0 && x.2 ≠ 0)) ||
    clashes ((g.filter fun x => x.1 = 1).map Prod.snd) ≠ 0

/-- The return step, modulo S, of the read that entry `t` issues (R143). -/
def readReturn (s lc ld t e : Nat) : Option Nat :=
  if entryIssue e = issCread then some ((t + lc) % s) else if entryIssue e = issDread then some ((t + ld) % s) else none

/-- MEM_RET_CONFLICT at entry `t`: an earlier entry's read returns at the same step. -/
def retConflict (r : Rec) (s lc ld t : Nat) : Bool :=
  match readReturn s lc ld t (r.entries.getD t 0) with
  | none => false
  | some u => (List.range t).any fun v => readReturn s lc ld v (r.entries.getD v 0) = some u

/-- Deep issues in the window of LD executed steps that begins at issue step `t` (R148). -/
def deepInWindow (r : Rec) (s ld t : Nat) : Nat :=
  let deep := (List.range s).filter fun v => 3 ≤ entryIssue (r.entries.getD v 0)
  ld / s * deep.length + (deep.filter fun v => (v + s - t) % s < ld % s).length

/-- MEM_QUEUE_DEPTH (R148, R161). -/
def queueOver (r : Rec) (s ld : Nat) : Bool :=
  (List.range s).any fun t => 3 ≤ entryIssue (r.entries.getD t 0) && 16 < deepInWindow r s ld t

/-- Relocation, then the conditions of R161, on one record of AGENT_SCHED. -/
def agentRecord (c : Chip) (p : Nat) (img : List Byte) (lc : Nat) (sc : Sect) (_ : List Rec) (r : Rec) : Except Refuse Unit :=
  let s := manS img
  let ld := manField img 0x0C 2
  firstFail
    (relocFails c img (c.get .PTN_CFG_FIRST p) sc 16 r
      ++ (List.range s).map (fun t => (agentBad (r.entries.getD t 0), sc.refuse 16 memBadEntry (r.entryPos t)))
      ++ (List.range s).map (fun t => (retConflict r s lc ld t, sc.refuse 16 memRetConflict (r.entryPos t)))
      ++ [(queueOver r s ld, sc.refuse 16 memQueueDepth r.pos)])

/-- Step 16: LD, then the records of AGENT_SCHED. -/
def agentCheck (c : Chip) (p : Nat) (img : List Byte) (lc : Nat) : Except Refuse (List Rec) := do
  let ld := manField img 0x0C 2
  refuseIf (ld < 160 || 1023 < ld) { step := 16, code := memLatency, sect := 1, off := manOff img + 0x0C }
  match ← openType img 16 0x31 with
  | none => return []
  | some (sc, d) => recordsCheck sc 16 [5] d (manS img) (agentRecord c p img lc sc) d.length 0 []

/-- An entry as it is written: band up-link sources of die-switch sections relocated (R181). -/
def Rec.relocated (r : Rec) (k e : Nat) : Nat :=
  if r.level = 2 ∨ r.level = 3 then
    (List.range 8).foldl
      (fun v i =>
        let x := e / 2 ^ (16 * i) % 2 ^ 16
        v + (if bit x 15 = 1 ∧ bits x 14 5 < 0x200 then x + k * 2 ^ 10 else x) * 2 ^ (16 * i)) 0
  else e

/-- The schedule entries of records, with parity, at their store keys (R79, R181, R182). -/
def schedOf (first k : Nat) (rs : List Rec) : NatMap :=
  (rs.flatMap fun r =>
    let u := r.target first
    (r.entries.zipIdx).filterMap fun e => if e.1 = 0 then none else some (u.num * 4096 + e.2, u.withParity (r.relocated k e.1))).foldl
    (fun m x => NatMap.put 0 m x.1 x.2) []

/-! Priming and patches (R178, R179, step 17) -/

/-- The slots that PRIME_MAP and PRIMING set, at keys BP * 4096 + slot (R178). -/
def primedSlots (first : Nat) (es : List (Nat × Nat)) (d : List Byte) : NatMap :=
  (es.flatMap fun e => (List.range 4096).filterMap fun k =>
    if bit ((d.getD (512 * e.2 + k / 8) 0).toNat) (k % 8) = 1 then some ((2048 * first + e.1) * 4096 + k, 1) else none).foldl
    (fun m x => NatMap.put 0 m x.1 x.2) []

/-- The value that the located bits form, bit 0 first. -/
def locValue (slots : NatMap) : List Nat → Nat
  | [] => 0
  | k :: ks => NatMap.find 0 slots k + 2 * locValue slots ks

/-- Put a value into the located bits. -/
def locPut (slots : NatMap) (v : Nat) : List Nat → NatMap
  | [] => slots
  | k :: ks => locPut (NatMap.put 0 slots k (v % 2)) (v / 2) ks

/-- The locators of a patch entry, each checked against those before: relative BP and slot as one key. -/
def locators (s : Sect) (d : List Byte) (nbp pos : Nat) : Nat → List Nat → Nat → Except Refuse (List Nat)
  | 0, named, _ => .ok named
  | n + 1, named, i =>
    let loc := leAt d (pos + 4 + 4 * i) 4
    if nbp ≤ loc / 4096 || loc ∈ named then .error (s.refuse 17 imgPatch (pos + 4 + 4 * i))
    else locators s d nbp pos n (named ++ [loc]) (i + 1)

/-- The patch table (R179): entry by entry. An undefined KIND or WIDTH, a non-zero reserved byte and an entry that is not whole are refused with IMG_FORMAT. Log
162 (DEDUCED). -/
def patchAll (s : Sect) (d : List Byte) (first nbp deepBase : Nat) : Nat → Nat → List Nat → NatMap → Except Refuse NatMap
  | 0, _, _, slots => .ok slots
  | fuel + 1, pos, named, slots =>
    if d.length ≤ pos then .ok slots
    else do
      let kind := leAt d pos 1
      let width := leAt d (pos + 1) 1
      refuseIf (d.length < pos + 4 || (kind ≠ 1 && kind ≠ 2) || width < 1 || 40 < width || leAt d (pos + 2) 2 ≠ 0 ||
        d.length < pos + 4 + 4 * width) (s.refuse 17 imgFormat pos)
      let all ← locators s d nbp pos width named 0
      let keys := (all.drop named.length).map fun l => (2048 * first) * 4096 + l
      let v := locValue slots keys + deepBase * 2 ^ (if kind = 1 then 27 else 30)
      refuseIf (2 ^ width ≤ v) (s.refuse 17 imgPatch pos)
      patchAll s d first nbp deepBase fuel (pos + 4 + 4 * width) all (locPut slots v keys)

/-- Step 17: the primed slots, patched. -/
def primingCheck (c : Chip) (p : Nat) (img : List Byte) : Except Refuse NatMap := do
  let first := c.get .PTN_CFG_FIRST p
  let nbp := 2048 * manCount img
  match ← openType img 17 0x41, ← openType img 17 0x40 with
  | some (ms, m), some (ps, d) =>
    refuseIf (m.length ≠ 4 * nbp) (ms.refuse 17 imgFormat 0)
    refuseIf (d.length % 512 ≠ 0) (ps.refuse 17 imgFormat (d.length - d.length % 512))
    let es := mapEntries m nbp
    firstFail (es.map fun e => (d.length / 512 ≤ e.2, ms.refuse 17 imgFormat (4 * e.1)))
    let slots := primedSlots first es d
    match ← openType img 17 0x70 with
    | none => return slots
    | some (s, t) => patchAll s t first nbp (c.get .LDR_PARAM_DEEP_BASE p) t.length 0 [] slots
  | _, _ => return []

/-! Probe map (R180, R199, step 18) -/

/-- The entries of PROBE_MAP: locator, position, reserved bytes. -/
def probeEntries (d : List Byte) (w : Nat) : List (Nat × Nat × Nat) :=
  (List.range w).map fun i => (leAt d (8 * i) 4, leAt d (8 * i + 4) 2, leAt d (8 * i + 6) 2)

/-- The cases of R199 that refuse a map, entry by entry. -/
def probeEntriesCheck (s : Sect) (tagged : List Nat) (w : Nat) : Nat → List Nat → List Nat → List (Nat × Nat × Nat) → Except Refuse Unit
  | _, _, _, [] => .ok ()
  | i, locs, poss, (loc, pos, _) :: es =>
    if loc ∉ tagged || loc ∈ locs || w ≤ pos || pos ∈ poss then .error (s.refuse 18 probeMapCode (8 * i))
    else probeEntriesCheck s tagged w (i + 1) (loc :: locs) (pos :: poss) es

/-- Step 18: positions (+ 1) of the PRB-tagged words. `words` are the image's words by relative BP and step. Reserved bits of every entry come first (R199). An
image without a map holds no tagged word; one that does is refused at the manifest's PROBE_BITS. Log 163 (DEDUCED). -/
def probeCheck (c : Chip) (p : Nat) (img : List Byte) (words : List (Nat × Nat × Nat)) : Except Refuse NatMap := do
  let tagged := (words.filter fun w => Word.prb w.2.2 = 1).map fun w => w.1 * 4096 + w.2.1
  match ← openType img 18 0x50 with
  | none =>
    refuseIf (tagged ≠ []) { step := 18, code := probeMapCode, sect := 1, off := manOff img + 0x10 }
    return []
  | some (s, d) =>
    let w := manProbe img
    let es := probeEntries d (d.length / 8)
    firstFail (es.zipIdx.map fun e => (2 ^ 29 ≤ e.1.1 || e.1.2.2 ≠ 0, s.refuse 18 imgFormat (8 * e.2)))
    refuseIf (d.length ≠ 8 * w) (s.refuse 18 probeMapCode 0)
    probeEntriesCheck s tagged w 0 [] [] es
    refuseIf (es.length ≠ tagged.length) (s.refuse 18 probeMapCode 0)
    let first := c.get .PTN_CFG_FIRST p
    return es.foldl (fun m e => NatMap.put 0 m (2048 * first * 4096 + e.1) (e.2.1 + 1)) []

/-! All of it -/

/-- What an image that has passed steps 3 to 18 writes into the partition. -/
structure Loaded where
  words : NatMap
  sched : NatMap
  slots : NatMap
  pmap : NatMap
  lats : List (Nat × Nat × Nat)
deriving DecidableEq, Repr

/-- Steps 5 to 18 of R191, in order. -/
def imageCheck (c : Chip) (p : Nat) (img : List Byte) : Except Refuse Loaded := do
  directoryCheck img
  signatureCheck c img
  manifestCheck img
  targetCheck c p img
  let lats ← latencyCheck c img
  layoutCheck c p img
  let words ← stanzaCheck img
  let xch ← xchCheck c p img
  let ags ← agentCheck c p img (latAssumed lats 1)
  let slots ← primingCheck c p img
  let pmap ← probeCheck c p img words
  let first := c.get .PTN_CFG_FIRST p
  let words := words.foldl (fun m w => NatMap.put 0 m ((2048 * first + w.1) * 4096 + w.2.1) (encodeWord w.2.2)) []
  return ⟨words, schedOf first (relocK img first) (xch ++ ags), slots, pmap, lats⟩

/-- One optional section at step 20: SYMBOLS is opened and its table checked; of an unknown type only the hash is checked, and the section is skipped (R170,
R179). -/
def symbolStep (img : List Byte) (sym : Option (List Byte)) (s : Sect) : Except Refuse (Option (List Byte)) :=
  if s.typ = 0x8080 then do
    let b ← openSect img 20 s
    refuseIf (!Config.symbolsOk b) (s.refuse 20 imgFormat 0)
    return some b
  else do
    refuseIf (!hashOk img s) { step := 20, code := imgHash, sect := s.typ, off := s.off }
    return sym

/-- The optional sections of an image, in directory order. -/
def optionalSects (img : List Byte) : List Sect := (sects img).filter fun s => 0x8000 ≤ s.typ

/-- Step 20: SYMBOLS and every optional section of an unknown type (R170, R179); the table of symbols. -/
def symbolsCheck (img : List Byte) : Except Refuse (Option (List Byte)) := (optionalSects img).foldlM (symbolStep img) none

/-! The steps, one after the other, with what each reads (R191) -/

/-- The stored bytes of the sections of the given types. -/
def sectReads (img : List Byte) (types : List Nat) : List (Nat × Nat) := (types.filterMap (sectOf img)).map fun s => (s.off, s.stored)

/-- The byte ranges of the image that a check step reads. -/
def stepReads (img : List Byte) (step : Nat) : List (Nat × Nat) :=
  match step with
  | 3 => [(0, 64)]
  | 5 => [(64, 32 * hdrCount img)]
  | 7 => sectReads img [0x01, 0x02]
  | 12 => sectReads img [0x10]
  | 13 => sectReads img [0x11]
  | 14 => sectReads img [0x21, 0x20]
  | 15 => sectReads img [0x30]
  | 16 => sectReads img [0x31]
  | 17 => sectReads img [0x41, 0x40, 0x70]
  | 18 => sectReads img [0x50]
  | 19 => sectReads img [0x60]
  | 20 => (optionalSects img).map fun s => (s.off, s.stored)
  | _ => []

/-- Where byte `k` of the ranges lies, and how many bytes its range still has; none past their end. -/
def readSpan : List (Nat × Nat) → Nat → Option (Nat × Nat)
  | [], _ => none
  | (o, n) :: rs, k => if k < n then some (o + k, n - k) else readSpan rs (k - n)

/-- Put bytes at offset `off` of what is known of the image. -/
def overlay (img : List Byte) (off : Nat) (bs : List Byte) : List Byte :=
  img.take off ++ List.replicate (off - img.length) 0 ++ bs ++ img.drop (off + bs.length)

/-- The checks that are made once the bytes of a step have been read: steps 3 and 4, 5 and 6, 7 to 11, then one by one. -/
def stepCheck (c : Chip) (p held : Nat) (img : List Byte) (step : Nat) : Except Refuse Unit :=
  match step with
  | 3 => headerCheck img held
  | 5 => directoryCheck img
  | 7 => do signatureCheck c img; manifestCheck img; targetCheck c p img
  | 12 => (latencyCheck c img).map fun _ => ()
  | 13 => layoutCheck c p img
  | 14 => (stanzaCheck img).map fun _ => ()
  | 15 => (xchCheck c p img).map fun _ => ()
  | 16 => do let lats ← latencyCheck c img; let _ ← agentCheck c p img (latAssumed lats 1)
  | 17 => (primingCheck c p img).map fun _ => ()
  | 18 => do let words ← stanzaCheck img; let _ ← probeCheck c p img words
  | 19 => (openType img 19 0x60).map fun _ => ()
  | _ => .ok ()

/-- The step whose bytes are read next. -/
def nextStep (step : Nat) : Nat := if step = 3 then 5 else if step = 5 then 7 else if step = 7 then 12 else step + 1

end Sys2Proof.Machine
end

