-- ==== Sys2Proof/Machine/Rim.lean ====
section
/-! DEFINITION. The rim fabric's control (R218, R219, R225, R229, R238 to R240): sectors, bus contention, reset trees, the scrubber. -/

namespace Sys2Proof.Machine

/-! Sectors (R218, R219, R252) -/

def sectEmpty : Nat := 0
def sectLoading : Nat := 1
def sectStarting : Nat := 2
def sectRunning : Nat := 3

/-- State of sector `k`. -/
def Chip.sector (c : Chip) (k : Nat) : Nat := c.get .RIM_SECT_STATE_STATE k

/-- Owner codes of a sector: 0 to 15 a partition. -/
def ownerModule : Nat := 16
def ownerNone : Nat := 31

/-- Whether sector `k` carries a configuration that the scrubber reads (R238, R252). -/
def Chip.scrubbed (c : Chip) (k : Nat) : Bool := 2 ≤ c.sector k && c.get .RIM_SECT_OWN_OWNER k ≠ ownerNone

/-! Bank bus lines (R225) -/

/-- The drivers of a line that are not disabled, among those whose enables are 1. -/
def Chip.liveDrivers (c : Chip) (bank line : Nat) (ds : List Nat) : List Nat :=
  ds.dedup.filter fun d => !c.on .H_BUS_OFF (bank * 4096 + line * 64 + d)

/-- Two or more enables of line `line` of bank `bank` overlap for `ps` picoseconds (R225): above 200 ps every enabled driver is disabled and the event
is recorded. Only a sector in STARTING or RUNNING has its drivers enabled (R252). -/
def Chip.busContention (c : Chip) (bank line : Nat) (ds : List Nat) (ps : Nat) : Chip :=
  let live := if c.sector bank < sectStarting then [] else c.liveDrivers bank line ds
  if live.length < 2 ∨ ps ≤ 200 then c
  else
    let c := live.foldl (fun c d => c.set .H_BUS_OFF (bank * 4096 + line * 64 + d) 1) c
    let c := c.set .RIM_BUS_EVT_BANK 0 (orBit (c.get .RIM_BUS_EVT_BANK 0) bank)
    let c :=
      if c.on .RIM_BUS_LOC_VALID 0 then c
      else ((c.set .RIM_BUS_LOC_VALID 0 1).set .RIM_BUS_LOC_BANK 0 bank).set .RIM_BUS_LOC_LINE 0 line
    c.raise 225

/-- Ones written to RIM_BUS_EVT clear its bits and re-enable the disabled drivers of those banks (R225). -/
def Chip.busEvtClear (c : Chip) (mask : Nat) : Chip :=
  let old := c.get .RIM_BUS_EVT_BANK 0
  (c.set .RIM_BUS_EVT_BANK 0 (old - Nat.land old mask)).clearWhere .H_BUS_OFF fun i => bitB mask (i / 4096)

/-! Reset trees (R229) -/

/-- Reset tree `r` is asserted, at once. -/
def Chip.assertTree (c : Chip) (r : Nat) : Chip := (c.set .H_RST_TREE r 1).set .H_RST_CNT r 0

/-- The source of reset tree `r` has deasserted: the tree follows at the second rising edge of clock tree SYNC (R229). -/
def Chip.releaseTree (c : Chip) (r : Nat) : Chip :=
  if c.on .H_RST_TREE r && !c.on .H_RST_CNT r then c.set .H_RST_CNT r 1 else c

/-- The source of reset tree `r` stands at `asserted`. -/
def Chip.driveTree (c : Chip) (r : Nat) (asserted : Bool) : Chip := if asserted then c.assertTree r else c.releaseTree r

/-- A rising edge of the clock tree that reset tree `r` is synchronised to. -/
def Chip.syncTree (c : Chip) (r : Nat) : Chip :=
  match c.get .H_RST_CNT r with
  | 1 => c.set .H_RST_CNT r 2
  | 2 => (c.set .H_RST_TREE r 0).set .H_RST_CNT r 0
  | _ => c

/-! The scrubber (R238, R240) -/

/-- The next frame at or after `f` in a sector that is scrubbed, counting the sectors passed over; none where no sector is scrubbed. -/
def Chip.scrubFrom (c : Chip) (f : Nat) : Option Nat :=
  if c.scrubbed (f / 8192) then some f
  else (((List.range 12).map fun i => (f / 8192 + 1 + i) % 12).find? c.scrubbed).map fun k => k * 8192

/-- Bit `e` (word * 128 + bit, check bits from 64 on) of frame `f` has flipped. -/
def Mem.flipBit (m : Mem) (f e : Nat) : Mem :=
  let k := f * 16 + e / 128
  let at' := f * 128 + e / 128 * 8 + e % 128 / 8
  { m with
    rimErr := NatMap.put 0 m.rimErr k (Nat.xor (NatMap.find 0 m.rimErr k) (2 ^ (e % 128)))
    rim := if e % 128 < 64 then Memory.write m.rim at' (Memory.read m.rim at' ^^^ BitVec.ofNat 8 (2 ^ (e % 8))) else m.rim }

/-- The bits of word `w` of frame `f` that are in error. -/
def Mem.wordErrors (m : Mem) (f w : Nat) : List Nat :=
  ((List.range 72).filter fun i => bitB (NatMap.find 0 m.rimErr (f * 16 + w)) i).map fun i => w * 128 + i

/-- Word `w` of frame `f` is checked (R238): one error is corrected and counted; more are uncorrectable, and the word is left as read. The memory, the corrected
words and whether one was uncorrectable. -/
def scrubWord (f : Nat) (r : Mem × Nat × Bool) (w : Nat) : Mem × Nat × Bool :=
  match r.1.wordErrors f w with
  | [] => r
  | [e] => (r.1.flipBit f e, r.2.1 + 1, r.2.2)
  | _ => (r.1, r.2.1, true)

/-- Bits of a frame by number, word * 128 + bit: `data` by word and data bit, `check` by word and check bit, which stand above the 64 data bits. -/
def flippedBits (data : List (Fin 16 × Fin 64)) (check : List (Fin 16 × Fin 8)) : List Nat :=
  data.map (fun x => x.1.val * 128 + x.2.val) ++ check.map fun x => x.1.val * 128 + 64 + x.2.val

/-- The scrubber reads the next frame, of which the bits of `errs` have flipped since it was last read (R238, R407). LUT bits of cells in SHIFT mode are neither
checked nor rewritten (R239). Log 61 (DESIGN CHOICE). -/
def scrubFrame (errs : List Nat) (c : Chip) (m : Mem) : Chip × Mem :=
  if !c.on .RIM_SCRUB_CTL_EN 0 then (c, m)
  else
    let at' := c.get .RIM_SCRUB_STATUS_FRAME 0
    match c.scrubFrom at' with
    | none => (c, m)
    | some f =>
      let c := if f < at' then c.bump .RIM_SCRUB_STATUS_PASSES 0 else c
      let spared := Config.shiftLutBits f (m.rim.filter fun x => x.1 / 0x100000 = f / 8192)
      let errs := errs.filter fun e => 64 ≤ e % 128 || !((e / 128 * 64 + e % 128) ∈ spared)
      let (m, ce, ue) := (List.range 16).foldl (scrubWord f) (errs.foldl (fun m e => m.flipBit f e) m, 0, false)
      let c := if ce = 0 then c else c.count .RIM_SCRUB_CE_CNT_COUNT 0 ce
      let c :=
        if ue then
          let c := if c.on .RIM_SCRUB_UE_LOC_VALID 0 then c else ((c.set .RIM_SCRUB_UE_LOC_VALID 0 1).set .RIM_SCRUB_UE_LOC_FRAME 0 f).raise 224
          (c.logFault fltRimUe 0 f).faultN
        else c
      (if f = 98303 then (c.set .RIM_SCRUB_STATUS_FRAME 0 0).bump .RIM_SCRUB_STATUS_PASSES 0 else c.set .RIM_SCRUB_STATUS_FRAME 0 (f + 1), m)

end Sys2Proof.Machine
end

