-- ==== Sys2Proof/Machine/RimLoad.lean ====
section
/-! DEFINITION. The rim loader (R242 to R256): streams word by word, frames, sector states, and RIM_LD_CMD. -/

namespace Sys2Proof.Machine

def rimSync : Nat := 0x01
def rimDevid : Nat := 0x02
def rimEarlyEnd : Nat := 0x03
def rimFrameCrc : Nat := 0x04
def rimStreamCrc : Nat := 0x05
def rimCmdCode : Nat := 0x06
def rimOwner : Nat := 0x07
def rimTapCode : Nat := 0x08
def rimBusDrv : Nat := 0x09
def rimSource : Nat := 0x0A
def rimBusy : Nat := 0x0B
def rimState : Nat := 0x0C

/-! CRC-32 (R247) -/

/-- One byte into the CRC register (reflected polynomial 0x04C1_1DB7). -/
def crcByte (r : Nat) (b : Byte) : Nat :=
  (List.range 8).foldl (fun r _ => if r % 2 = 1 then Nat.xor (r / 2) 0xEDB88320 else r / 2) (Nat.xor r b.toNat)

/-- Bytes into the CRC register. -/
def crcBytes (r : Nat) (bs : List Byte) : Nat := bs.foldl crcByte r

/-- The initial register, and the final exclusive OR. -/
def crcInit : Nat := 0xFFFFFFFF
def crcDone (r : Nat) : Nat := Nat.xor r 0xFFFFFFFF

/-- CRC-32 of bytes. -/
def crc32 (bs : List Byte) : Nat := crcDone (crcBytes crcInit bs)

/-- The CRC word of a frame (R247): the frame number, then its 128 bytes. -/
def frameCrc (f : Nat) (d : List Byte) : Nat := crc32 (toBytes 4 f ++ d)

/-! Frames -/

/-- Clear the frames of sector `k`, with their reference CRCs and error marks. -/
def Mem.clearSector (m : Mem) (k : Nat) : Mem :=
  { m with
    rim := Memory.clearRange m.rim (k * 0x100000) ((k + 1) * 0x100000)
    rimRef := m.rimRef.filter fun e => e.1 / 8192 ≠ k
    rimErr := m.rimErr.filter fun e => e.1 / (8192 * 16) ≠ k }

/-- The 128 bytes of a frame. -/
def Mem.frame (m : Mem) (f : Nat) : List Byte := Memory.readN m.rim (f * 128) 128

/-! The stream -/

/-- Whether a stream is in progress. -/
def Chip.streaming (c : Chip) : Bool := c.on .RIM_LD_STATUS_BUSY 0

/-- A stream begins from `origin`: 0 xSPI, 1 load bus, 2 image of partition `p`. -/
def Chip.streamStart (c : Chip) (origin p : Nat) : Chip :=
  let c := ((c.set .RIM_LD_STATUS_BUSY 0 1).set .RIM_LD_STATUS_ORIGIN 0 origin).set .RIM_LD_STATUS_PART 0 p
  (((((c.set .H_RS_STATE 0 1).set .H_RS_WORD 0 0).set .H_RS_CRC 0 crcInit).set .H_RS_MASK 0 0).set .H_RS_SECT 0 0).set .H_RS_LAST 0 0

/-- Every sector in LOADING is cleared and returns to EMPTY (R250). -/
def dropLoading (c : Chip) (m : Mem) : Chip × Mem :=
  (List.range 12).foldl
    (fun (x : Chip × Mem) k =>
      if x.1.sector k = sectLoading then (x.1.set .RIM_SECT_STATE_STATE k sectEmpty, x.2.clearSector k) else x) (c, m)

/-- The stream ends with failure `code` at word `w` (R249, R250). -/
def streamFail (code w : Nat) (c : Chip) (m : Mem) : Chip × Mem :=
  let (c, m) := dropLoading c m
  let c := ((((c.set .RIM_LD_STATUS_ERR 0 1).set .RIM_LD_STATUS_CODE 0 code).set .RIM_LD_ERR_LOC_WORD 0 w).set .RIM_LD_STATUS_BUSY 0 0).set .H_RS_STATE 0 4
  let c := c.raise 223
  (if c.get .RIM_LD_STATUS_ORIGIN 0 = 2 then c else c.finish .rimLd 0 refused code, m)

/-- Count words of the stream and take them into its CRC (R246, R247). -/
def Chip.streamWords (c : Chip) (ws : List Nat) : Chip :=
  (c.set .H_RS_WORD 0 (c.get .H_RS_WORD 0 + ws.length)).set .H_RS_CRC 0 (crcBytes (c.get .H_RS_CRC 0) (ws.flatMap (toBytes 4)))

/-- Whether this device acts on the words it receives (R246): the mask applies on the load bus only. -/
def Chip.selected (c : Chip) : Bool := c.get .RIM_LD_STATUS_ORIGIN 0 ≠ 1 || bitB (c.get .H_RS_MASK 0) c.lbSel

/-- Words of an xSPI stream that MAXLEN lets the loader take (R242), and that the flash device holds from RIM_LD_SRC on (R190). -/
def Chip.streamLimit (c : Chip) : Nat := c.get .RIM_LD_PARAM_MAXLEN 0 * 16
def Chip.flashWords (c : Chip) : Nat := (c.get .H_FLASH_SIZE 0 - c.get .RIM_LD_SRC_ADDR 0) / 4

/-- The words, from word `w` of the stream on, that its source brings: past MAXLEN and past the flash device an xSPI source brings none; the load bus and an image
bring what they bring. -/
def Chip.brought (c : Chip) (w : Nat) (ws : List Nat) : List Nat :=
  if c.get .RIM_LD_STATUS_ORIGIN 0 = 0 then ws.take (min c.streamLimit c.flashWords - w) else ws

/-- The source brings no word `w` (R242, R249): RIM_SOURCE where the flash device ends before MAXLEN does, since the read of that word fails; else RIM_EARLY_END. -/
def streamDry (w : Nat) (c : Chip) (m : Mem) : Chip × Mem :=
  streamFail (if c.get .RIM_LD_STATUS_ORIGIN 0 = 0 ∧ c.flashWords ≤ w ∧ w < c.streamLimit then rimSource else rimEarlyEnd) w c m

/-- A command of the stream with the words it calls for: before the sync word it is no sync word, past its end the source brings none, on a device that is not
selected it is counted only, and otherwise `act` performs it on the words that the source brings and, where the stream goes on, they are counted. -/
def streamCommand (w : Nat) (data : List Nat) (act : List Nat → Chip → Mem → Chip × Mem) (c : Chip) (m : Mem) : Chip × Mem :=
  let at' := c.get .H_RS_WORD 0
  if !c.streaming then (c, m)
  else if c.get .H_RS_STATE 0 = 1 then streamFail rimSync 0 c m
  else if c.brought at' [w] = [] then streamDry at' c m
  else if !c.selected then (c.streamWords (w :: data), m)
  else
    let (c, m) := act (c.brought (at' + 1) data) c m
    (if c.streaming then c.streamWords (w :: data) else c, m)

/-- The stream ends with RIM_CMD at the current command word. -/
def badCommand (c : Chip) (m : Mem) : Chip × Mem := streamFail rimCmdCode (c.get .H_RS_WORD 0) c m

/-- The first word (R245). -/
def streamSync (w : Nat) (c : Chip) (m : Mem) : Chip × Mem :=
  if !c.streaming then (c, m)
  else if c.get .H_RS_STATE 0 ≠ 1 then streamCommand w [] (fun _ => badCommand) c m
  else if c.brought 0 [w] = [] then streamDry 0 c m
  else if w = 0xA5C35A3C then (((c.streamWords [w]).set .H_RS_STATE 0 2).set .H_RS_MASK 0 0xFF, m)
  else streamFail rimSync 0 c m

/-- A command word. Log 62 (DESIGN CHOICE). -/
def cmdWord (op arg : Nat) : Nat := op * 2 ^ 24 + arg % 2 ^ 24

/-- NOP, and any OP that R245 does not define. -/
def streamNop (op arg : Nat) (c : Chip) (m : Mem) : Chip × Mem :=
  streamCommand (cmdWord op arg) [] (fun _ c m => if op = 0 ∧ arg = 0 then (c, m) else badCommand c m) c m

/-- DEVID, with the word that follows it, where the source brings one. -/
def streamDevid (arg : Nat) (id : List Nat) (c : Chip) (m : Mem) : Chip × Mem :=
  streamCommand (cmdWord 1 arg) id
    (fun id c m =>
      if arg ≠ 0 then badCommand c m
      else
        match id with
        | [] => streamDry (c.get .H_RS_WORD 0 + 1) c m
        | x :: _ => if x = c.get .RIM_ID_ID 0 then (c, m) else streamFail rimDevid (c.get .H_RS_WORD 0 + 1) c m) c m

/-- SELECT (R246): obeyed on the load bus on every device, ignored from other sources. -/
def streamSelect (arg : Nat) (c : Chip) (m : Mem) : Chip × Mem :=
  if !c.streaming then (c, m)
  else if c.get .H_RS_STATE 0 = 1 then streamFail rimSync 0 c m
  else if c.brought (c.get .H_RS_WORD 0) [cmdWord 2 arg] = [] then streamDry (c.get .H_RS_WORD 0) c m
  else if 0x100 ≤ arg then (if c.selected then badCommand c m else (c.streamWords [cmdWord 2 arg], m))
  else
    let c := c.streamWords [cmdWord 2 arg]
    (if c.get .RIM_LD_STATUS_ORIGIN 0 = 1 then c.set .H_RS_MASK 0 arg else c, m)

/-- Whether the stream in progress may configure sector `k` (R242). -/
def Chip.mayLoad (c : Chip) (k : Nat) : Bool :=
  c.get .RIM_SECT_OWN_OWNER k = if c.get .RIM_LD_STATUS_ORIGIN 0 = 2 then c.get .RIM_LD_STATUS_PART 0 else ownerModule

/-- SECTOR. -/
def streamSector (arg : Nat) (c : Chip) (m : Mem) : Chip × Mem :=
  streamCommand (cmdWord 3 arg) []
    (fun _ c m =>
      if 11 < arg then badCommand c m
      else if !c.mayLoad arg then streamFail rimOwner (c.get .H_RS_WORD 0) c m
      else
        (((c.set .RIM_SECT_STATE_STATE arg sectLoading).set .H_RS_SECT 0 (arg + 1)).set .H_RS_PTR 0 (8192 * arg), m.clearSector arg)) c m

/-- FADDR. -/
def streamFaddr (arg : Nat) (c : Chip) (m : Mem) : Chip × Mem :=
  streamCommand (cmdWord 4 arg) []
    (fun _ c m =>
      match c.get .H_RS_SECT 0 with
      | 0 => badCommand c m
      | k + 1 => if 8191 < arg then badCommand c m else (c.set .H_RS_PTR 0 (8192 * k + arg), m)) c m

/-- Frames of sector `k` that hold something. -/
def Mem.framesOf (m : Mem) (k : Nat) : List Nat := ((m.rim.map fun x => x.1 / 128).dedup).filter fun f => f / 8192 = k

/-- The driver points of bank `k`, as line * 64 + driver, that the sector's frames enable as constant 1 once frame `f` holds `d` (R248). -/
def Mem.constDrivers (m : Mem) (k f : Nat) (d : List Byte) : List Nat :=
  (Config.frameDrivers f d ++ ((m.framesOf k).filter fun g => g ≠ f).flatMap fun g => Config.frameDrivers g (m.frame g)).dedup

/-- The checks of R248 on a frame of sector `k`, after its CRC; 0 where it passes. Log 59 (DEDUCED). -/
def Chip.frameRefusal (c : Chip) (m : Mem) (k f : Nat) (d : List Byte) : Nat :=
  let owner := c.get .RIM_SECT_OWN_OWNER k
  let taps := Config.frameTaps f d
  if taps.any (fun t => 15 < owner || c.tileOwner (t / 512) ≠ some owner) then rimTapCode
  else if clashes ((m.constDrivers k f d).map fun x => x / 64) ≠ 0 then rimBusDrv
  else 0

/-- Write a frame at the pointer, with its reference CRC (R245, R247, R248). -/
def writeFrame (d : List Byte) (c : Chip) (m : Mem) : Chip × Mem :=
  let f := c.get .H_RS_PTR 0
  ({ (c.set .H_RS_LAST 0 (f + 1)).set .H_RS_PTR 0 (f + 1) with rimFrame := d },
    { m with
      rim := Memory.writeN m.rim (f * 128) d
      rimRef := NatMap.put 0 m.rimRef f (frameCrc f d + 1)
      rimErr := m.rimErr.filter fun e => e.1 / 16 ≠ f })

/-- WRITE: frames of 32 data words and a CRC word each, checked one after the other; `i` counts the frames done. Log 58 (DEDUCED). -/
def writeFrames (k : Nat) : Nat → Nat → List Nat → Chip → Mem → Chip × Mem
  | 0, _, _, c, m => (c, m)
  | n + 1, i, ws, c, m =>
    let d := (ws.take 32).flatMap (toBytes 4)
    let f := c.get .H_RS_PTR 0
    let w := c.get .H_RS_WORD 0 + 33 * i + 33
    if ws.length < 33 then streamDry (c.get .H_RS_WORD 0 + 33 * i + 1 + ws.length) c m
    else if ws.getD 32 0 ≠ frameCrc f d then streamFail rimFrameCrc w c m
    else
      match c.frameRefusal m k f d with
      | 0 =>
        let (c, m) := writeFrame d c m
        writeFrames k n (i + 1) (ws.drop 33) c m
      | code => streamFail code w c m

/-- Whether WRITE or REPEAT of n frames may run: a current sector, n from 1 to 8,192, and no frame past the sector's last (R245). -/
def Chip.framesOk (c : Chip) (n : Nat) : Bool :=
  let k := c.get .H_RS_SECT 0
  k ≠ 0 && 1 ≤ n && n ≤ 8192 && c.get .H_RS_PTR 0 + n ≤ 8192 * k

/-- WRITE. -/
def streamWrite (arg : Nat) (data : List Nat) (c : Chip) (m : Mem) : Chip × Mem :=
  streamCommand (cmdWord 5 arg) (data.take (33 * arg))
    (fun data c m => if !c.framesOk arg then badCommand c m else writeFrames (c.get .H_RS_SECT 0 - 1) arg 0 data c m) c m

/-- Write one frame again into the next `n` frames. -/
def repeatFrames (k : Nat) (d : List Byte) : Nat → Chip → Mem → Chip × Mem
  | 0, c, m => (c, m)
  | n + 1, c, m =>
    match c.frameRefusal m k (c.get .H_RS_PTR 0) d with
    | 0 =>
      let (c, m) := writeFrame d c m
      repeatFrames k d n c m
    | code => streamFail code (c.get .H_RS_WORD 0) c m

/-- REPEAT of the frame that the stream has written last. -/
def streamRepeat (arg : Nat) (c : Chip) (m : Mem) : Chip × Mem :=
  streamCommand (cmdWord 6 arg) []
    (fun _ c m =>
      if c.get .H_RS_LAST 0 = 0 ∨ !c.framesOk arg then badCommand c m
      else repeatFrames (c.get .H_RS_SECT 0 - 1) c.rimFrame arg c m) c m

/-- Sector `k` starts: its flip-flops take their reset values, its SHIFT cells the contents of its frames, and no edge of a tree has been counted (R253, R254). -/
def Chip.fabStart (c : Chip) (k : Nat) : Chip :=
  let c := c.clearWhere .H_START_EDGES fun i => i / 12 = k
  { c with fab := { c.fab with ffs := c.fab.ffs.filter fun e => e.1 / 65536 ≠ k, shifts := c.fab.shifts.filter fun e => e.1 / 32768 ≠ k } }

/-- Every sector in LOADING moves to STARTING (R253). -/
def Chip.startSectors (c : Chip) : Chip :=
  (List.range 12).foldl
    (fun c k => if c.sector k = sectLoading then ((c.fabStart k).set .RIM_SECT_STATE_STATE k sectStarting).setDue .H_SECT_DUE k 96 else c) c

/-- END, on every device whatever the mask (R247), with the word that follows it, where the source brings one: the stream CRC is checked, and the sectors in
LOADING start. -/
def streamEnd (arg : Nat) (crc : List Nat) (c : Chip) (m : Mem) : Chip × Mem :=
  let at' := c.get .H_RS_WORD 0
  if !c.streaming then (c, m)
  else if c.get .H_RS_STATE 0 = 1 then streamFail rimSync 0 c m
  else if c.brought at' [cmdWord 8 arg] = [] then streamDry at' c m
  else if arg ≠ 0 then (if c.selected then badCommand c m else (c.streamWords (cmdWord 8 arg :: crc), m))
  else
    match c.brought (at' + 1) crc with
    | [] => streamDry (at' + 1) c m
    | x :: _ =>
      let c := c.streamWords [cmdWord 8 arg]
      if crcDone (c.get .H_RS_CRC 0) ≠ x then streamFail rimStreamCrc (at' + 1) c m
      else
        let c := ((c.startSectors).set .RIM_LD_STATUS_BUSY 0 0).set .H_RS_STATE 0 3
        (if c.get .RIM_LD_STATUS_ORIGIN 0 = 2 then c else c.finish .rimLd 0 completed 0, m)

/-- No rising edge on LB_CLK for 100 microseconds ends a load-bus stream before its END (R242, R249). -/
def loadBusTimeout (c : Chip) (m : Mem) : Chip × Mem :=
  if c.streaming && c.get .RIM_LD_STATUS_ORIGIN 0 = 1 then streamFail rimEarlyEnd (c.get .H_RS_WORD 0) c m else (c, m)

/-- Sector `k` has spent 20 ns in STARTING (R253). -/
def Chip.sectorRun (c : Chip) (k : Nat) : Chip :=
  if c.sector k = sectStarting && c.due .H_SECT_DUE k then (c.set .RIM_SECT_STATE_STATE k sectRunning).set .H_SECT_DUE k 0 else c

/-! A stream that an image's RIM section holds -/

/-- Words that follow a command word. -/
def dataWords (w : Nat) : Nat := match w / 2 ^ 24 with | 1 => 1 | 5 => 33 * (w % 2 ^ 24) | 8 => 1 | _ => 0

/-- The next command of a stream whose coming words are `ws`; where there are none before END, RIM_EARLY_END (R245, R249). -/
def streamNext (ws : List Nat) (c : Chip) (m : Mem) : Chip × Mem :=
  match ws with
  | [] => streamDry (c.get .H_RS_WORD 0) c m
  | w :: rest =>
    let arg := w % 2 ^ 24
    let data := rest.take (dataWords w)
    if c.get .H_RS_STATE 0 = 1 then streamSync w c m
    else
      match w / 2 ^ 24 with
      | 1 => streamDevid arg data c m
      | 2 => streamSelect arg c m
      | 3 => streamSector arg c m
      | 4 => streamFaddr arg c m
      | 5 => streamWrite arg data c m
      | 6 => streamRepeat arg c m
      | 8 => streamEnd arg data c m
      | op => streamNop op arg c m

/-- Bytes as 32-bit little-endian words. -/
def wordsOf : Nat → List Byte → List Nat
  | 0, _ => []
  | n + 1, bs => if bs.length < 4 then [] else ofBytes (bs.take 4) :: wordsOf n (bs.drop 4)

/-! RIM_LD_CMD (R93, R242, R250, R255, R256) -/

/-- LOAD. -/
def Chip.rimLoad (c : Chip) : Chip :=
  let src := c.get .RIM_LD_PARAM_SRC 0
  if 2 ≤ src then c.refuse .rimLd 0 1 rimSource
  else if c.streaming || c.on .H_ABSENT 0 then c.refuse .rimLd 0 1 rimBusy
  else (c.accept .rimLd 0 1).streamStart src 0

/-- ABORT of a pending LOAD (R250). Log 60 (DESIGN CHOICE). -/
def rimAbort (c : Chip) (m : Mem) : Chip × Mem :=
  let (c, m) := dropLoading c m
  (((c.set .RIM_LD_STATUS_BUSY 0 0).set .H_RS_STATE 0 0).finish .rimLd 0 aborted 0, m)

/-- CLEAR (R255): the sector is module-owned, or its owner's pump is in EMPTY or HALT. -/
def Chip.rimClear (c : Chip) (k : Nat) : Chip :=
  let o := c.get .RIM_SECT_OWN_OWNER k
  let st := c.pumpState o
  if k < 12 ∧ (o = ownerModule ∨ (o < 16 ∧ (st = psEmpty ∨ st = psHalt))) then (c.accept .rimLd 0 3).set .H_CLR_SECT 0 k
  else c.refuse .rimLd 0 3 rimState

/-- A pending CLEAR has cleared its sector (R255). -/
def rimCleared (c : Chip) (m : Mem) : Chip × Mem :=
  if c.cmdPending .rimLd 0 && c.get .CQ_CMD (CmdReg.rimLd.idx 0) = 3 then
    let k := c.get .H_CLR_SECT 0
    ((c.set .RIM_SECT_STATE_STATE k sectEmpty).finish .rimLd 0 completed 0, m.clearSector k)
  else (c, m)

/-- A write of RIM_LD_CMD by the service complex. -/
def rimLdCmd (code sector : Nat) (c : Chip) (m : Mem) : Chip × Mem :=
  if c.cmdPending .rimLd 0 then
    if code = 2 ∧ c.get .CQ_CMD (CmdReg.rimLd.idx 0) = 1 then rimAbort c m else (c.cmdLost .rimLd 0, m)
  else
    match code with
    | 1 => (c.rimLoad, m)
    | 2 => (c.refuse .rimLd 0 2 rimState, m)
    | 3 => (c.rimClear sector, m)
    | _ => (c.refuse .rimLd 0 code 0x0D, m)

/-! Taps of another partition (R220) -/

/-- Whether a configured sector selects a tap of a tile that its owner partition does not own. -/
def Chip.strayTap (c : Chip) (m : Mem) (k : Nat) : Bool :=
  let o := c.get .RIM_SECT_OWN_OWNER k
  o < 16 && 2 ≤ c.sector k && (m.framesOf k).any fun f => (Config.frameTaps f (m.frame f)).any fun t => c.tileOwner (t / 512) ≠ some o

/-- Ownership of bands has changed without a reload: sectors that select taps of another partition show it (R220). -/
def Chip.rimEdges (c : Chip) (m : Mem) : Chip :=
  (List.range 12).foldl (fun c k => if c.strayTap m k then c.set .RIM_SECT_OWN_EDGE k 1 else c) c

end Sys2Proof.Machine
end

