-- ==== Sys2Proof/Machine/Loader.lean ====
section
/-! DEFINITION. The image loader (R187 to R198): LDR_CMD, the arrival of image bytes, installation, the hand-off of the rim section, and
the end of a load. -/

namespace Sys2Proof.Machine

/-- Whether a LOAD of partition `p` is pending. -/
def Chip.loading (c : Chip) (p : Nat) : Bool := c.cmdPending .ldr p

/-- The bytes of the image of partition `p` that have arrived. -/
def Chip.image (c : Chip) (p : Nat) : List Byte := ((c.imgs.find? fun e => e.1 = p).map Prod.snd).getD []

/-- Keep the bytes that have arrived. -/
def Chip.setImage (c : Chip) (p : Nat) (b : List Byte) : Chip := { c with imgs := (p, b) :: c.imgs.filter fun e => e.1 ≠ p }

/-- Forget them. -/
def Chip.dropImage (c : Chip) (p : Nat) : Chip := { c with imgs := c.imgs.filter fun e => e.1 ≠ p }

/-- Show where a load was refused (R198). -/
def Chip.showRefuse (c : Chip) (p : Nat) (r : Refuse) : Chip :=
  ((c.set .LDR_REFUSE_SECTION p r.sect).set .LDR_REFUSE_SUB p r.sub).set .LDR_REFUSE_OFF_OFFSET p r.off

/-- LDR_REFUSE and LDR_REFUSE_OFF are cleared by every other result (R198). -/
def Chip.clearRefuse (c : Chip) (p : Nat) : Chip := c.unsetAll [.LDR_REFUSE_SECTION, .LDR_REFUSE_SUB, .LDR_REFUSE_OFF_OFFSET] p

/-- Registers and modes that describe the loaded image. -/
def imageFields : List Fld :=
  [.PMP_SLEN_S, .XCH_STATUS_LOADED, .DM_STATUS_LC, .DM_STATUS_LD, .LDR_IMAGE_ID_ID, .LDR_LAT_PAD_TRIG_LINK, .LDR_LAT_PAD_CIS_RD, .LDR_CERT_CERT,
   .H_DS_MIRROR, .H_GOLD_LO, .H_GOLD_CNT, .H_PROBE_W, .H_LC_LOADED, .H_PRIMING, .LDR_STATUS_STEP, .H_IMG_POS]

/-- Clear `n` partition granules from granule `lo` (R192). -/
def Mem.clearGranules (m : Mem) (c : Chip) (p lo n : Nat) : Mem :=
  ((List.range n).filter fun i => c.on .DM_MAP_VALID (p * 192 + lo + i)).foldl
    (fun m i => m.clearGranule (deepKey (c.get .DM_MAP_STACK (p * 192 + lo + i)) (c.get .DM_MAP_GRANULE (p * 192 + lo + i)) 0)) m

/-- Everything that the load has written is cleared (R192): stores and schedules, and the golden granules once step 14 is reached. -/
def loadClear (p step : Nat) (c : Chip) (a : Arr) (m : Mem) : Chip × Arr × Mem :=
  let img := c.image p
  let m := if 14 ≤ step then m.clearGranules c p (c.get .LDR_PARAM_DEEP_BASE p + manDesign img) (manGolden img) else m
  let a := clearStores p c a
  (((c.unsetAll imageFields p).dropImage p).set .PMP_STATUS_STATE p psEmpty, a, m)

/-- The rim loader drops the rim section of partition `p`'s image, where it takes one (R250). -/
def Chip.rimDrop (p : Nat) (c : Chip) (m : Mem) : Chip × Mem :=
  if c.streaming && c.get .RIM_LD_STATUS_ORIGIN 0 = 2 && c.get .RIM_LD_STATUS_PART 0 = p then
    let (c, m) := dropLoading c m
    ((c.set .RIM_LD_STATUS_BUSY 0 0).set .H_RS_STATE 0 0, m)
  else (c, m)

/-- The pending LOAD of partition `p` is refused (R192, R198). -/
def loadRefuse (p : Nat) (r : Refuse) (c : Chip) (a : Arr) (m : Mem) : Chip × Arr × Mem :=
  let (c, a, m) := loadClear p r.step c a m
  ((c.showRefuse p r).finish .ldr p refused r.code, a, m)

/-- The pending LOAD of partition `p` is aborted (R194, R250). -/
def loadAbort (p : Nat) (c : Chip) (a : Arr) (m : Mem) : Chip × Arr × Mem :=
  let (c, m) := c.rimDrop p m
  let (c, a, m) := loadClear p (c.get .LDR_STATUS_STEP p) c a m
  ((c.clearRefuse p).finish .ldr p aborted 0, a, m)

/-- A refusal before the header is read (R198). Log 44 (DEDUCED). -/
def Chip.loadRefused (c : Chip) (p cmd code : Nat) : Chip := (c.clearRefuse p).refuse .ldr p cmd code

/-- LOAD with none pending (R189, R190): steps 1 and 2 of R191, then the pump enters LOADING. -/
def Chip.ldrLoad (c : Chip) (p : Nat) (svc : Bool) : Chip :=
  if !svc then c.loadRefused p 1 imgPerm
  else if !c.on .PTN_CFG_ACTIVE p ∨ c.pumpState p ≠ psEmpty then c.loadRefused p 1 imgState
  else if 4 < c.get .LDR_PARAM_SRC p then c.loadRefused p 1 imgSource
  else ((((c.accept .ldr p 1).set .PMP_STATUS_STATE p psLoading).set .LDR_STATUS_STEP p 3).set .H_IMG_POS p 0).setImage p []

/-- ABORT with no LOAD pending (R194, R196). -/
def Chip.ldrAbort (c : Chip) (p : Nat) (svc : Bool) : Chip := c.loadRefused p 2 (if svc then imgState else imgPerm)

/-- A write of LDR_CMD (R93, R194, R196, R409). -/
def ldrCmd (p code : Nat) (svc : Bool) (c : Chip) (a : Arr) (m : Mem) : Chip × Arr × Mem :=
  if c.loading p then
    if code = 2 && svc then loadAbort p c a m else (c.cmdLost .ldr p, a, m)
  else
    match code with
    | 1 => (c.ldrLoad p svc, a, m)
    | 2 => (c.ldrAbort p svc, a, m)
    | _ => (c.loadRefused p code 0x25, a, m)

/-! Installation (R181, R182, R186 to R188) -/

/-- Write entries into a table. -/
def putAll (m es : NatMap) : NatMap := es.foldl (fun m e => NatMap.put 0 m e.1 e.2) m

/-- The stores, schedules and golden copy of partition `p` take the checked image. -/
def installArr (p : Nat) (l : Loaded) (c : Chip) (a : Arr) : Arr :=
  let a := clearStores p c a
  { a with
    istore := putAll a.istore l.words, gword := putAll a.gword l.words
    sched := putAll a.sched l.sched, gsched := putAll a.gsched l.sched
    gslot := putAll a.gslot l.slots, pmap := putAll a.pmap l.pmap }

/-- What the image tells the pump, the agents, the probe engine and the loader's registers. -/
def Chip.installRegs (c : Chip) (p : Nat) (img : List Byte) (l : Loaded) : Chip :=
  let lc := latAssumed l.lats 1
  let c := ((c.set .PMP_SLEN_S p (manS img)).set .DM_STATUS_LC p lc).set .DM_STATUS_LD p (manField img 0x0C 2)
  let c := (c.set .LDR_LAT_PAD_CIS_RD p (lc - c.latDevice 1)).set .LDR_LAT_PAD_TRIG_LINK p (latAssumed l.lats 7 - c.latDevice 7)
  let c := ((c.set .LDR_IMAGE_ID_ID p (leAt img 0x28 8)).set .LDR_CERT_CERT p (manField img 0x24 4)).set .H_DS_MIRROR p (manField img 9 1 % 2)
  let c := (c.set .H_GOLD_LO p (c.get .LDR_PARAM_DEEP_BASE p + manDesign img)).set .H_GOLD_CNT p (manGolden img)
  c.set .H_PROBE_W p (manProbe img)

/-- Step 20, then priming (R91, R154, R191). -/
def loadPrime (p : Nat) (c : Chip) (a : Arr) (m : Mem) : Chip × Arr × Mem :=
  match symbolsCheck (c.image p) with
  | .error r => loadRefuse p r c a m
  | .ok sym =>
    let c := match sym with
      | some b => { c with syms := (p, BitVec.ofNat 8 (c.get .LDR_PARAM_DEEP_BASE p) :: b) :: c.syms.filter fun e => e.1 ≠ p }
      | none => { c with syms := c.syms.filter fun e => e.1 ≠ p }
    let c := ((c.set .LDR_STATUS_STEP p 20).set .H_PRIMING p 1).primePump p
    (c, primeArr p c a, m)

/-- Bytes that the source holds from LDR_SRC on (R190). -/
def Chip.sourceHeld (c : Chip) (p : Nat) : Nat :=
  let top := if c.get .LDR_PARAM_SRC p = 4 then c.get .H_FLASH_SIZE 0 else 2 ^ 64
  top - c.get .LDR_SRC_ADDR p

/-- The section whose bytes a failing read at `off` was after, and that place; before the header has been read both are 0 (R190, R198). Log 46 (DEDUCED). -/
def sourceFailure (img : List Byte) (step off : Nat) : Refuse :=
  if step = 3 then { step := step, code := imgSource }
  else
    { step := step, code := imgSource, off := off,
      sect := if step = 5 then 0 else ((sects img).find? fun s => s.off ≤ off && off < s.off + s.stored).elim 0 Sect.typ }

/-- The read that the load of partition `p` waits for: where it goes on, and how many bytes follow there; none where its step has read everything. -/
def Chip.reading (c : Chip) (p : Nat) : Option (Nat × Nat) :=
  if c.get .H_PRIMING p = 0 then readSpan (stepReads (c.image p) (c.get .LDR_STATUS_STEP p)) (c.get .H_IMG_POS p) else none

/-- The load goes on to `step`, whose bytes are still to be read. -/
def Chip.loadStep (c : Chip) (p step : Nat) : Chip := (c.set .LDR_STATUS_STEP p step).set .H_IMG_POS p 0

/-- Everything that the present step reads has arrived: its check is made, and the load goes on (R191). An image that has passed step 18 is written into the
partition; at step 19 a rim section waits for the rim loader, and without one the load goes on to step 20. -/
def loadCheck (p : Nat) (c : Chip) (a : Arr) (m : Mem) : Chip × Arr × Mem :=
  let img := c.image p
  let step := c.get .LDR_STATUS_STEP p
  if step = 20 then loadPrime p c a m
  else
    match stepCheck c p (c.sourceHeld p) img step with
    | .error r => loadRefuse p r c a m
    | .ok _ =>
      if step = 19 then (c, a, m)
      else if step < 18 then (c.loadStep p (nextStep step), a, m)
      else
        match imageCheck c p img with
        | .error r => loadRefuse p r c a m
        | .ok l => ((c.installRegs p img l).loadStep p (if (sectOf img 0x60).isSome then 19 else 20), installArr p l c a, m)

/-- Bytes that the loader has asked for have arrived: each goes to the place that is being read, and a step that has all of its bytes is checked. A read beyond the
last byte of the source fails (R190). `fuel` bounds the reads and steps. -/
def loadFeed (p : Nat) : Nat → List Byte → Chip → Arr → Mem → Chip × Arr × Mem
  | 0, _, c, a, m => (c, a, m)
  | fuel + 1, bs, c, a, m =>
    let img := c.image p
    let step := c.get .LDR_STATUS_STEP p
    if !c.loading p || c.on .H_PRIMING p then (c, a, m)
    else
      match c.reading p with
      | some (off, n) =>
        if c.sourceHeld p ≤ off then loadRefuse p (sourceFailure img step off) c a m
        else if bs = [] then (c, a, m)
        else
          let got := bs.take (min n (c.sourceHeld p - off))
          loadFeed p fuel (bs.drop got.length) ((c.setImage p (overlay img off got)).set .H_IMG_POS p (c.get .H_IMG_POS p + got.length)) a m
      | none =>
        let x := loadCheck p c a m
        if step = 19 then x else loadFeed p fuel bs x.1 x.2.1 x.2.2

/-- Image bytes have arrived for partition `p`, in the order of the loader's reads (R190, R191). Log 43 (DEDUCED). -/
def imageArrive (p : Nat) (bs : List Byte) (c : Chip) (a : Arr) (m : Mem) : Chip × Arr × Mem := loadFeed p (2 * bs.length + 40) bs c a m

/-! The rim section (R180, R242) -/

/-- The outcome of a rim section's stream for the load. -/
def rimSectionDone (p : Nat) (s : Sect) (c : Chip) (a : Arr) (m : Mem) : Chip × Arr × Mem :=
  if c.get .H_RS_STATE 0 = 3 then imageArrive p [] (c.loadStep p 20) a m
  else
    loadRefuse p { s.refuse 19 rimSection (4 * c.get .RIM_LD_ERR_LOC_WORD 0) with sub := c.get .RIM_LD_STATUS_CODE 0 } c a m

/-- Whether the rim loader takes the rim section of partition `p`'s image. -/
def Chip.rimFed (c : Chip) (p : Nat) : Bool := c.streaming && c.get .RIM_LD_STATUS_ORIGIN 0 = 2 && c.get .RIM_LD_STATUS_PART 0 = p

/-- The rim loader takes the next command of the rim section in progress, and when the stream has ended the load goes on or is refused (R242, R245, R250). Log 49
(DEDUCED). -/
def imageStream (c : Chip) (a : Arr) (m : Mem) : Chip × Arr × Mem :=
  let p := c.get .RIM_LD_STATUS_PART 0
  if c.rimFed p then
    match openType (c.image p) 19 0x60 with
    | .ok (some (s, d)) =>
      let (c, m) := streamNext ((wordsOf d.length d).drop (c.get .H_RS_WORD 0)) c m
      if c.streaming then (c, a, m) else rimSectionDone p s c a m
    | _ => (c, a, m)
  else (c, a, m)

/-- The image loader hands its rim section to the rim loader once that is free; the stream begins (R242). -/
def rimHandoff (p : Nat) (c : Chip) (a : Arr) (m : Mem) : Chip × Arr × Mem :=
  if c.loading p && c.get .LDR_STATUS_STEP p = 19 && c.reading p = none && !c.streaming && !c.on .H_ABSENT 0 then (c.streamStart 2 p, a, m)
  else (c, a, m)

/-! The source -/

/-- A read of the image source fails: the load ends with IMG_SOURCE at its step; one whose rim section the rim loader takes ends the stream with RIM_SOURCE (R190,
R249, R250). -/
def sourceFail (p : Nat) (c : Chip) (a : Arr) (m : Mem) : Chip × Arr × Mem :=
  let off := (c.reading p).elim 0 Prod.fst
  if c.rimFed p then
    let w := c.get .H_RS_WORD 0
    let (c, m) := streamFail rimSource w c m
    rimSectionDone p ((sectOf (c.image p) 0x60).getD (sectAt (c.image p) 0)) c a m
  else loadRefuse p (sourceFailure (c.image p) (c.get .LDR_STATUS_STEP p) off) c a m

/-- Bytes of the image source arrive, or a read of it fails (R190). A partition that is not reading an image receives none. -/
def sourceRead (p : Nat) (bs : Option (List Byte)) (c : Chip) (a : Arr) (m : Mem) : Chip × Arr × Mem :=
  if c.loading p && c.reading p ≠ none then
    match bs with
    | some b => imageArrive p b c a m
    | none => sourceFail p c a m
  else (c, a, m)

/-- Port `n` is lost: pending loads that read from it end with IMG_SOURCE at whatever step they have reached (R190). -/
def sourcesLost (n : Nat) (c : Chip) (a : Arr) (m : Mem) : Chip × Arr × Mem :=
  (List.range 16).foldl
    (fun (x : Chip × Arr × Mem) p =>
      if x.1.loading p && x.1.get .LDR_STATUS_STEP p ≠ 0 && x.1.get .LDR_PARAM_SRC p = n then sourceFail p x.1 x.2.1 x.2.2 else x) (c, a, m)

/-! The end of a load (R91, R154, R192) -/

/-- Priming at an image load completes: the pump enters HALT with cycle number 0, and the result is COMPLETED. -/
def loadComplete (p : Nat) (c : Chip) (a : Arr) : Chip :=
  if c.deepAwaited a p || !c.recordsDone p then c
  else
    let c := (((c.probePrime p).set .H_PRIMING p 0).set .PMP_STATUS_STATE p psHalt).set .LDR_STATUS_STEP p 0
    let c := ((c.set .XCH_STATUS_LOADED p 1).set .H_LC_LOADED p 1).dropImage p
    (c.clearRefuse p).finish .ldr p completed 0

/-- Priming of partition `p` completes, whichever event asked for it (R154). -/
def primingDone (p : Nat) (c : Chip) (a : Arr) : Chip := if c.get .H_PRIMING p = 1 then loadComplete p c a else primingComplete p c a

end Sys2Proof.Machine
end

