-- ==== Sys2Proof/Machine/MarchTest.lean ====
section
/-! DEFINITION. The march test engine (R162, R163) and the failure of a deep-memory channel (R158, R400). -/

namespace Sys2Proof.Machine

/-! The march test engine -/

/-- Targets of MT_CMD. -/
def mtInstr : Nat := 0
def mtData : Nat := 1
def mtCistern : Nat := 2
def mtSram : Nat := 3

/-- Whether a unit exists for a target (MT_UNIT). -/
def Chip.mtUnitOk (c : Chip) (target unit : Nat) : Bool := if target = mtSram then unit < 8 else unit < c.bands

/-- Whether a destructive test is accepted (R162): band unowned or its pump in EMPTY; a service SRAM bank at start-up only. -/
def Chip.mtDestructiveOk (c : Chip) (target unit : Nat) : Bool :=
  if target = mtSram then c.on .FLT_SRC_BOOT 0
  else
    match c.bandOwner unit with
    | none => true
    | some p => c.pumpState p = psEmpty

/-- Whether a preserving test is accepted (R162): the band's pump in EMPTY or HALT; a service SRAM bank at any time. Log 41 (DEDUCED). -/
def Chip.mtPreservingOk (c : Chip) (target unit : Nat) : Bool :=
  if target = mtSram then true
  else
    match c.bandOwner unit with
    | none => false
    | some p => c.pumpState p = psEmpty || c.pumpState p = psHalt

/-- Duration of a test in units of module time, from the table of R162; at 1.2 GHz the array's stores take as many periods. -/
def Chip.mtTime (c : Chip) (target : Nat) (preserving : Bool) : Nat :=
  match target, preserving with
  | 0, false => 40960 * c.unitsPerPeriod
  | 0, true => 49120 * c.unitsPerPeriod
  | 1, false => 5120 * c.unitsPerPeriod
  | 1, true => 6240 * c.unitsPerPeriod
  | 2, false => 656000 * c.unitsPerPeriod
  | 2, true => 787200 * c.unitsPerPeriod
  | _, false => 15840000
  | _, true => 18720000

/-- A test is accepted. -/
def Chip.mtStart (c : Chip) (code target unit : Nat) : Chip :=
  (((c.accept .mt 0 code).set .H_MT_TARGET 0 target).set .H_MT_UNIT 0 unit).setDue .H_MT_DUE 0 (c.mtTime target (code = 2))

/-- MT_CMD 0x1, a destructive test. -/
def Chip.mtDestructive (c : Chip) (target unit : Nat) : Chip :=
  if !c.mtUnitOk target unit then c.refuse .mt 0 1 0x03
  else if !c.mtDestructiveOk target unit then c.refuse .mt 0 1 0x01
  else c.mtStart 1 target unit

/-- MT_CMD 0x2, a preserving test. -/
def Chip.mtPreserving (c : Chip) (target unit : Nat) : Chip :=
  if !c.mtUnitOk target unit then c.refuse .mt 0 2 0x03
  else if !c.mtPreservingOk target unit then c.refuse .mt 0 2 0x01
  else c.mtStart 2 target unit

/-- A write of MT_CMD by the service complex (R93, R163). -/
def Chip.mtCmd (c : Chip) (code target unit : Nat) : Chip :=
  if c.cmdPending .mt 0 then c.cmdLost .mt 0
  else
    match code with
    | 1 => c.mtDestructive target unit
    | 2 => c.mtPreserving target unit
    | _ => c.refuse .mt 0 code 0x02

/-- The tested stores at 0 (R162). -/
def mtClear (target unit : Nat) (a : Arr) (m : Mem) : Arr × Mem :=
  let out := fun (k : Nat) (e : Nat × Nat) => e.1 / k / 2048 ≠ unit
  match target with
  | 0 => ({ a with istore := a.istore.filter (out 4096) }, m)
  | 1 =>
    ({ a with
       slotA := a.slotA.filter (out 4096), slotB := a.slotB.filter (out 4096)
       parA := a.parA.filter (out 512), parB := a.parB.filter (out 512) }, m)
  | 2 =>
    let lo := unit * 8 * 0x80000
    let hi := lo + 8 * 0x80000
    (a, { m with cistern := Memory.clearRange m.cistern lo hi, cisErr := m.cisErr.filter fun e => e.1 < lo / 8 || hi / 8 ≤ e.1 })
  | _ =>
    let lo := unit * 0x200000
    let hi := lo + 0x200000
    (a, { m with sram := Memory.clearRange m.sram lo hi, sramErr := m.sramErr.filter fun e => e.1 < lo / 8 || hi / 8 ≤ e.1 })

/-- The failing words of a test, each a unit and a word, are counted, and the first is located (R163). -/
def Chip.mtFailures (c : Chip) (target : Nat) (fails : List (Nat × Nat)) : Chip :=
  match fails with
  | [] => c
  | (u, w) :: _ =>
    let c := c.count .MT_FAIL_CNT_COUNT 0 fails.length
    if c.on .MT_FAIL_LOC_VALID 0 then c
    else (((c.set .MT_FAIL_LOC_VALID 0 1).set .MT_FAIL_LOC_TARGET 0 target).set .MT_FAIL_LOC_UNIT 0 u).set .MT_FAIL_LOC_WORD 0 w

/-- The march test in progress ends, having met the given failing words (R162, R163). -/
def mtComplete (fails : List (Nat × Nat)) (c : Chip) (a : Arr) (m : Mem) : Chip × Arr × Mem :=
  if c.cmdPending .mt 0 && c.due .H_MT_DUE 0 then
    let target := c.get .H_MT_TARGET 0
    let unit := c.get .H_MT_UNIT 0
    let (a, m) := if c.get .CQ_CMD (CmdReg.mt.idx 0) = 1 then mtClear target unit a m else (a, m)
    let c := (c.mtFailures target fails).set .H_MT_DUE 0 0
    (c.finish .mt 0 (if fails = [] then 0 else 1) 0, a, m)
  else (c, a, m)

/-! Channel failure (R158, R400, R406, R407) -/

/-- Whether partition `p` has a granule on stack `k`. -/
def Chip.onStack (c : Chip) (p k : Nat) : Bool :=
  (c.instances .DM_MAP_VALID).any fun i => i / 192 = p && c.get .DM_MAP_STACK i = k

/-- Whether some partition maps a granule of stack `k`. -/
def Chip.stackMapped (c : Chip) (k : Nat) : Bool := (List.range 16).any fun p => c.onStack p k

/-- Granules of stack `k` that partitions map (DMC_STACK_STATUS.USED). -/
def Chip.stackUsed (c : Chip) (k : Nat) : Nat := ((c.instances .DM_MAP_VALID).filter fun i => c.get .DM_MAP_STACK i = k).length

/-- A command of channel `ch` of stack `k` exceeds 4 microseconds: the channel has failed (R158, R400). -/
def Chip.channelFail (c : Chip) (k ch : Nat) : Chip :=
  if c.chFailed k ch ∨ c.dies ≤ k / 2 then c
  else
    let c := (c.set .DMC_STACK_STATUS_CH_FAIL k (orBit (c.get .DMC_STACK_STATUS_CH_FAIL k) ch)).raise 244
    let c := c.logFault fltChannelFail 0 (k * 2 ^ 8 + ch + b2n (c.mirrored k) * 2 ^ 16)
    let c := (List.range 16).foldl (fun c p => if c.onStack p k then c.dmErr .DM_ERR_MIRROR_USED p else c) c
    (if !c.mirrored k && c.stackMapped k then c.set .FLT_SRC_MEM 0 1 else c).faultN

end Sys2Proof.Machine
end

