-- ==== Sys2Proof/Machine/Pins.lean ====
section
/-! DEFINITION. Banks and pins (R265 to R272, R276): bank supplies, pin configuration and its checks, break-before-make switching, the
bank lock, and the agents' GPIO port. A pin is numbered bank * 32 + n. -/

namespace Sys2Proof.Machine

/-- One period of the 100 MHz pin clock in units of module time (R270). -/
def pinPeriod : Nat := 48

/-- The first pin-clock edge after now (R270). -/
def Chip.pinEdge (c : Chip) : Nat := (c.now / pinPeriod + 1) * pinPeriod

/-! Standards (R266, R268) -/

/-- The supply codes at which a standard may be written. -/
def stdSupplies (std : Nat) : List Nat :=
  match std with
  | 0x00 => [0, 1, 2, 3, 4, 7]
  | 0x01 => [4]
  | 0x02 => [4]
  | 0x03 => [3]
  | 0x04 => [2]
  | 0x05 => [1]
  | 0x06 => [0]
  | 0x08 => [2]
  | 0x09 => [1]
  | 0x0A => [0]
  | 0x0C => [2]
  | 0x0D => [1]
  | 0x14 => [1, 2, 3, 4]
  | 0x15 => [1, 2, 3, 4]
  | 0x10 => [2, 3]
  | 0x11 => [0, 1, 2]
  | _ => []

/-- The largest DRIVE code of a standard. -/
def stdDrive (std : Nat) : Nat :=
  if 1 ≤ std && std ≤ 3 then 3 else if std = 4 || std = 5 then 2 else if std = 6 then 1 else 0

def stdSstl (std : Nat) : Bool := 0x08 ≤ std && std ≤ 0x0D
def stdGtl (std : Nat) : Bool := std = 0x14 || std = 0x15
def stdDiff (std : Nat) : Bool := std = 0x10 || std = 0x11

/-- Whether a standard is in order at a bank's supply and reference (R268, first two rows). -/
def stdOk (std vccio vref : Nat) : Bool :=
  (stdSupplies std).contains vccio && (!stdSstl std || vref ≠ 0) && (!stdGtl std || vref = 2)

/-! Bank supplies (R265, R267) -/

/-- Nominal VCCIO of a code, in millivolts. -/
def vccioMv (code : Nat) : Nat :=
  match code with | 0 => 1200 | 1 => 1500 | 2 => 1800 | 3 => 2500 | _ => 3300

/-- Whether the measured supply of bank `b` lies outside ±10 % of the declared one (R265). Log 65 (DEDUCED). -/
def Chip.vMismatch (c : Chip) (b : Nat) : Bool :=
  let code := c.get .IOB_BANK_CFG_VCCIO b
  let mv := c.get .IOB_BANK_STATUS_VMEAS b * 20
  code < 5 && (mv * 10 < vccioMv code * 9 || vccioMv code * 11 < mv * 10)

/-- VMISMATCH follows the measurement and the declaration; a change raises source 227 + b. -/
def Chip.vUpdate (c : Chip) (b : Nat) : Chip :=
  let v := b2n (c.vMismatch b)
  if c.get .IOB_BANK_STATUS_VMISMATCH b = v then c else (c.set .IOB_BANK_STATUS_VMISMATCH b v).raise (227 + b)

/-- The 100 µs measurement of bank `b`, in units of 20 mV. Log 146 (DESIGN CHOICE). -/
def Chip.vMeasure (c : Chip) (b v : Nat) : Chip := (c.set .IOB_BANK_STATUS_VMEAS b v).vUpdate b

/-- The supply of bank `b` reaches 1.0 V; BSTRAP reads `strap` (R265, R267). A bank of a module that is not present reads PGOOD = 0 (R391). Log 68 (DEDUCED). -/
def Chip.pgoodRise (c : Chip) (b strap : Nat) : Chip :=
  if c.on .IOB_BANK_STATUS_PGOOD b || c.on .H_ABSENT 0 then c
  else
    (((c.set .IOB_BANK_STATUS_PGOOD b 1).set .IOB_BANK_STATUS_STRAP b strap).setDue .H_PG_SETTLE b (100 * Chip.us)).raise (227 + b)

/-- 100 µs have passed since PGOOD rose: the pins take the state of R265. -/
def Chip.pgoodSettle (c : Chip) (b : Nat) : Chip :=
  if c.due .H_PG_SETTLE b then c.set .H_PG_SETTLE b 0 else c

/-- The reset trees whose source is the active-low pin IOB<b>_2 are asserted, as its input reads 0 (R229, R267). -/
def Chip.pinResets (c : Chip) (b : Nat) : Chip :=
  (List.range 4).foldl (fun c r => if c.get .RIM_RST_CTL_SRC r = 2 ∧ c.get .RIM_RST_CTL_BANK r = b then c.assertTree r else c) c

/-- The supply of bank `b` falls below 1.0 V: its pins enter the power-off state at once, and their inputs read 0 (R267). -/
def Chip.pgoodFall (c : Chip) (b : Nat) : Chip :=
  if c.on .IOB_BANK_STATUS_PGOOD b then (((c.set .IOB_BANK_STATUS_PGOOD b 0).set .H_PG_SETTLE b 0).pinResets b).raise (227 + b) else c

/-- What governs the pins of a bank (R265). -/
inductive BankState where
  | powerOff | strapped | asSector | function
deriving DecidableEq, Repr

/-- The first row of R265 that applies to bank `b`. -/
def Chip.bankState (c : Chip) (b : Nat) : BankState :=
  if !c.on .IOB_BANK_STATUS_PGOOD b || c.on .H_PG_SETTLE b then .powerOff
  else if c.get .IOB_BANK_CFG_VCCIO b = 7 || c.on .IOB_BANK_STATUS_VMISMATCH b then .strapped
  else if c.sector b < 2 then .asSector
  else .function

/-! Configuration writes (R268, R276) -/

/-- A written value of IOB_PIN_CFG: its fields. -/
structure PinCfg where
  agent : Nat
  idle : Nat
  term : Nat
  pull : Nat
  slew : Nat
  drive : Nat
  std : Nat
  func : Nat
deriving DecidableEq, Repr

/-- The fields of a word. -/
def PinCfg.ofWord (v : Nat) : PinCfg :=
  ⟨bits v 27 26, bits v 25 24, bits v 21 20, bits v 18 16, bits v 13 12, bits v 9 8, bits v 7 3, bits v 2 0⟩

/-- The word of a configuration. -/
def PinCfg.word (x : PinCfg) : Nat :=
  x.agent * 2 ^ 26 + x.idle * 2 ^ 24 + x.term * 2 ^ 20 + x.pull * 2 ^ 16 + x.slew * 2 ^ 12 + x.drive * 2 ^ 8 + x.std * 2 ^ 3 + x.func

/-- The configuration in force at the pad of pin `i` (R270). -/
def Chip.padCfg (c : Chip) (i : Nat) : PinCfg := PinCfg.ofWord (c.get .H_PIN_CFG i)

/-- The configuration that pin `i` holds. -/
def Chip.pinCfg (c : Chip) (i : Nat) : PinCfg :=
  ⟨c.get .IOB_PIN_CFG_AGENT i, c.get .IOB_PIN_CFG_IDLE i, c.get .IOB_PIN_CFG_TERM i, c.get .IOB_PIN_CFG_PULL i, c.get .IOB_PIN_CFG_SLEW i,
   c.get .IOB_PIN_CFG_DRIVE i, c.get .IOB_PIN_CFG_STD i, c.get .IOB_PIN_CFG_FUNC i⟩

/-- No field holds a reserved encoding. -/
def PinCfg.encodingOk (x : PinCfg) : Bool :=
  x.idle < 3 && x.term < 3 && x.pull < 5 && x.slew < 3 && x.func < 3 && stdSupplies x.std ≠ []

/-- The checks of R268 on a write of `x` to pin `n` of bank `b`. -/
def Chip.pinCfgOk (c : Chip) (b n : Nat) (x : PinCfg) : Bool :=
  x.encodingOk && stdOk x.std (c.get .IOB_BANK_CFG_VCCIO b) (c.get .IOB_BANK_CFG_VREF b) && x.drive ≤ stdDrive x.std
    && (x.term ≠ 1 || stdDiff x.std) && (x.term ≠ 2 || stdSstl x.std)
    && (n % 2 = 0 || (!stdDiff x.std && (!stdDiff (c.get .IOB_PIN_CFG_STD (b * 32 + n - 1)) || x = c.pinCfg (b * 32 + n))))

/-- A write of the bank's block is not performed. -/
def Chip.iobReject (c : Chip) (b : Nat) : Chip := c.set .IOB_BANK_STATUS_CFG_REJ b 1

/-- Put a configuration into the fields of pin `i`. -/
def Chip.putPinCfg (c : Chip) (i : Nat) (x : PinCfg) : Chip :=
  (((((((c.set .IOB_PIN_CFG_AGENT i x.agent).set .IOB_PIN_CFG_IDLE i x.idle).set .IOB_PIN_CFG_TERM i x.term).set .IOB_PIN_CFG_PULL i x.pull).set
    .IOB_PIN_CFG_SLEW i x.slew).set .IOB_PIN_CFG_DRIVE i x.drive).set .IOB_PIN_CFG_STD i x.std).set .IOB_PIN_CFG_FUNC i x.func

/-- A write of IOB_PIN_CFG[n] of bank `b` (R13, R268, R270): locked fields ignore it without error, and a change waits for its pin-clock edge. -/
def Chip.writePinCfg (c : Chip) (b n v : Nat) : Chip :=
  let i := b * 32 + n
  let x := PinCfg.ofWord v
  if c.on .IOB_BANK_CFG_LOCKED b then c
  else if !c.pinCfgOk b n x then c.iobReject b
  else
    let old := c.pinCfg i
    let c := (c.putPinCfg i x).set .H_PIN_PEND i (c.pinEdge + 1)
    if old.func = x.func ∧ old.std = x.std then c else c.set .H_PIN_MOVE i 1

/-- Whether IOB_BANK_CFG of bank `b` may take a supply and a reference code (R268, R276). -/
def Chip.bankCfgOk (c : Chip) (b vccio vref : Nat) : Bool :=
  (vccio < 5 || vccio = 7) && vref < 3 &&
    (List.range 32).all fun n => c.get .IOB_PIN_CFG_FUNC (b * 32 + n) = 0 && stdOk (c.get .IOB_PIN_CFG_STD (b * 32 + n)) vccio vref

/-- A write of IOB_BANK_CFG of bank `b`. -/
def Chip.writeBankCfg (c : Chip) (b v : Nat) : Chip :=
  if c.on .IOB_BANK_CFG_LOCKED b then c
  else if !c.bankCfgOk b (bits v 2 0) (bits v 9 8) then c.iobReject b
  else ((c.set .IOB_BANK_CFG_VCCIO b (bits v 2 0)).set .IOB_BANK_CFG_VREF b (bits v 9 8)).vUpdate b

/-- A write of IOB_LOCK of bank `b` (R272): 0xA5 and then 0x5A, with no other write to the block between them, lock the bank. -/
def Chip.iobLock (c : Chip) (b key : Nat) : Chip :=
  if key = 0xA5 then c.set .H_LOCK_SEQ b 1
  else if key = 0x5A && c.on .H_LOCK_SEQ b then (c.set .H_LOCK_SEQ b 0).set .IOB_BANK_CFG_LOCKED b 1
  else c.set .H_LOCK_SEQ b 0

/-! Switching (R270) -/

/-- The pin whose configuration and fabric and AGP bits govern pin `i`: the even pin of a differential pair governs both (R268). `std` is each pin's standard. -/
def pairPin (std : Nat → Nat) (i : Nat) : Nat := if i % 2 = 1 && stdDiff (std (i - 1)) then i - 1 else i

/-- The pin that governs pin `i` at the pads, and as its registers stand. -/
def Chip.padPin (c : Chip) (i : Nat) : Nat := pairPin (fun j => (c.padCfg j).std) i
def Chip.cfgPin (c : Chip) (i : Nat) : Nat := pairPin (c.get .IOB_PIN_CFG_STD) i

/-- The source that drives pin `i` once it has switched. -/
def Chip.pinFunc (c : Chip) (i : Nat) : Nat := (c.padCfg (c.padPin i)).func

/-- The pins that switch with pin `i`: both of a differential pair that is, or was, configured. -/
def Chip.pinsWith (c : Chip) (i : Nat) : List Nat :=
  if i % 2 = 0 && (stdDiff (c.get .IOB_PIN_CFG_STD i) || stdDiff (c.padCfg i).std) then [i, i + 1] else [i]

/-- Pin `i` goes idle from the edge until two periods later. -/
def Chip.pinIdle (c : Chip) (i : Nat) : Chip :=
  (c.setDue .H_PIN_IDLE i (2 * pinPeriod)).set .H_PIN_SRC i 0

/-- The pending change of pin `i` is taken at the pin-clock edge (R270): the written settings take effect, and where FUNC or STD has changed the old source is
released and the pad goes idle. Log 66 (DEDUCED). -/
def Chip.pinChange (c : Chip) (i : Nat) : Chip :=
  if c.due .H_PIN_PEND i then
    let pins := if c.on .H_PIN_MOVE i then c.pinsWith i else []
    pins.foldl Chip.pinIdle (((c.set .H_PIN_PEND i 0).set .H_PIN_MOVE i 0).set .H_PIN_CFG i (c.pinCfg i).word)
  else c

/-- Two pin-clock periods have passed: the new source drives the pad of pin `i`. A further change of FUNC or STD that falls due at this edge is taken instead. -/
def Chip.pinSwitched (c : Chip) (i : Nat) : Chip :=
  if c.due .H_PIN_IDLE i && !(c.due .H_PIN_PEND i && c.on .H_PIN_MOVE i) then
    (c.pinsWith i).foldl (fun c j => (c.set .H_PIN_IDLE j 0).set .H_PIN_SRC j (c.pinFunc j)) c
  else c

/-- Whether a pin of bank `b` is idle under R270 (IOB_BANK_STATUS.SWITCHING). -/
def Chip.switching (c : Chip) (b : Nat) : Bool := (List.range 32).any fun n => c.on .H_PIN_IDLE (b * 32 + n)

/-! The agents' GPIO port (R271) -/

/-- The four AGP data registers: output or output enable, low or high half. -/
inductive AgpReg where
  | outLo | outHi | oeLo | oeHi
deriving DecidableEq, Repr

/-- The field that holds a register's values, and its first pin. -/
def AgpReg.place : AgpReg → Fld × Nat
  | .outLo => (.AGP_OUT_LO_VAL, 0)
  | .outHi => (.AGP_OUT_HI_VAL, 16)
  | .oeLo => (.AGP_OE_LO_VAL, 0)
  | .oeHi => (.AGP_OE_HI_VAL, 16)

/-- Whether bit `i` of an AGP data register counts: the odd pin's bits of a differential pair are ignored (R268). -/
def Chip.agpCounts (c : Chip) (pin : Nat) : Bool := c.cfgPin pin = pin

/-- Whether core `k` owns a pin (R271). -/
def Chip.agpOwns (c : Chip) (k pin : Nat) : Bool := c.get .IOB_PIN_CFG_AGENT pin + 4 = k

/-- The first masked bit of pins that core `k` does not own. -/
def Chip.agpDenied (c : Chip) (k b base mask : Nat) : Option Nat :=
  (List.range 16).find? fun i => bitB mask i && c.agpCounts (b * 32 + base + i) && !c.agpOwns k (b * 32 + base + i)

/-- Core `k` writes `v` to an AGP data register of bank `b` (R271). -/
def Chip.agpWrite (c : Chip) (k b : Nat) (r : AgpReg) (v : Nat) : Chip :=
  let (f, base) := r.place
  let mask := bits v 31 16
  let new := (List.range 16).foldl
    (fun x i =>
      if bitB mask i && c.agpCounts (b * 32 + base + i) && c.agpOwns k (b * 32 + base + i) then setBits x i i (bit v i) else x) (c.get f b)
  let c := match c.agpDenied k b base mask with
    | none => c
    | some i =>
      let c := c.count .AGP_DENY_CNT_COUNT 0 1
      if c.on .AGP_DENY_LOC_VALID 0 then c
      else ((((c.set .AGP_DENY_LOC_VALID 0 1).set .AGP_DENY_LOC_CORE 0 (k - 4)).set .AGP_DENY_LOC_BANK 0 b).set .AGP_DENY_LOC_PIN 0 (base + i)).raise 239
  c.set f b new

/-- The written AGP_OUT and AGP_OE values of bank `b` reach its pads (R271). -/
def Chip.agpReach (c : Chip) (b : Nat) : Chip :=
  (c.set .H_AGP_OUT b (c.get .AGP_OUT_LO_VAL b + c.get .AGP_OUT_HI_VAL b * 2 ^ 16)).set .H_AGP_OE b
    (c.get .AGP_OE_LO_VAL b + c.get .AGP_OE_HI_VAL b * 2 ^ 16)

/-! Pads -/

/-- What drives a pad: nothing of the module (high impedance, or boundary scan, which is outside), a level, or the rim fabric. -/
inductive PadSrc where
  | external
  | level (v : Bool)
  | rim
deriving DecidableEq, Repr

/-- What the output of a standard makes of a level at a bank's supply (R266): NONE and an LVDS pair in a bank declared at 1.8 V drive nothing, and the GTL modes
never drive high. -/
def padLevel (std vccio : Nat) (v : Bool) : PadSrc :=
  if std = 0 || (std = 0x10 && vccio ≠ 3) || (stdGtl std && v) then .external else .level v

/-- What drives pin `n` of bank `b` (R265, R266, R269, R270; boundary scan, R397): while the pin is idle and with FUNC = IDLE the IDLE setting, with GPIO the AGP bits
that have reached the pad, with RIM the fabric. The even pin of a differential pair governs both, and the odd one carries the complement. -/
def Chip.padSrc (c : Chip) (b n : Nat) : PadSrc :=
  let i := b * 32 + n
  let g := c.padPin i
  let x := c.padCfg g
  let out := fun (v : Bool) => padLevel x.std (c.get .IOB_BANK_CFG_VCCIO b) (v ≠ (g ≠ i))
  if (3 ≤ c.get .H_JTAG_IR 0 && c.get .H_JTAG_IR 0 ≤ 5) || c.bankState b ≠ .function || x.std = 0 then .external
  else
    match c.get .H_PIN_SRC g with
    | 0 => if x.idle = 1 then out false else if x.idle = 2 then out true else .external
    | 2 => if bitB (c.get .H_AGP_OE b) (g % 32) then out (bitB (c.get .H_AGP_OUT b) (g % 32)) else .external
    | _ => .rim

/-- Whether the input of pin `n` of bank `b` reads 0 whatever the pad does (R267, R269, AGP_IN). -/
def Chip.inputOff (c : Chip) (b n : Nat) : Bool :=
  !c.on .IOB_BANK_STATUS_PGOOD b || c.get .IOB_PIN_CFG_STD (c.cfgPin (b * 32 + n)) = 0

/-- What the module drove on its pads at pin-clock edge `k`, as 1 + level at the pins it drove. -/
def Chip.padsAt (c : Chip) (k : Nat) : NatMap := ((c.fab.pads.find? fun e => e.1 = k).map Prod.snd).getD []

/-- A read of AGP_IN of bank `b`: the pads as they stood two pin-clock periods ago (R271). A pad that the module does not drive has the board's level; an input that is
off reads 0, and the odd pin of a differential pair, whose bits are ignored (R268), reads a free value. Log 67 (DEDUCED). -/
def Chip.agpIn (c : Chip) (b : Nat) : Nat × Chip :=
  let k := c.now / pinPeriod - 2
  let (v, c) := c.fresh 32
  ((List.range 32).foldl
    (fun x n =>
      let i := b * 32 + n
      if c.inputOff b n then setBits x n n 0
      else if c.cfgPin i ≠ i then x
      else match NatMap.find 0 (c.padsAt k) i with
        | 0 => setBits x n n (b2n (Config.padLevel (k * pinPeriod) i))
        | l + 1 => setBits x n n l) v, c)

end Sys2Proof.Machine
end

