-- ==== Sys2Proof/Machine/Line.lean ====
section
/-! DEFINITION. What travels on a serial lane, bit by bit (R278 to R286): 8b/10b code groups, the 64b/66b scrambler, PRBS patterns, Gray
coding. A list of line bits stands in the order of the line, first bit first. -/

namespace Sys2Proof.Machine

/-- The number that line bits spell, first bit lowest, and `n` line bits of a number. -/
def bitsNat (l : List Bool) : Nat := l.foldr (fun b v => b2n b + 2 * v) 0
def natBits (n v : Nat) : List Bool := (List.range n).map (bitB v)

/-! 8b/10b (R282): the code table of IEEE 802.3 clause 36. Log 165 (PRESUMED). -/

/-- The 6-bit codes of D.0 to D.31 at running disparity -, bit a highest. -/
def code6 : List Nat :=
  [0b100111, 0b011101, 0b101101, 0b110001, 0b110101, 0b101001, 0b011001, 0b111000, 0b111001, 0b100101, 0b010101, 0b110100, 0b001101, 0b101100,
   0b011100, 0b010111, 0b011011, 0b100011, 0b010011, 0b110010, 0b001011, 0b101010, 0b011010, 0b111010, 0b110011, 0b100110, 0b010110, 0b110110,
   0b001110, 0b101110, 0b011110, 0b101011]

/-- The 4-bit codes at running disparity -, bit f highest: of data, and of K groups. -/
def code4 : List Nat := [0b1011, 0b1001, 0b0101, 0b1100, 0b1101, 0b1010, 0b0110, 0b1110]
def code4k : List Nat := [0b1011, 0b0110, 0b1010, 0b1100, 0b1101, 0b0101, 0b1001, 0b0111]

/-- Ones in `n` bits. -/
def ones (n v : Nat) : Nat := ((List.range n).filter (bitB v)).length

/-- The running disparity (true: +) after `n` bits `v`, whose half are ones where it does not change. -/
def disparity (n v : Nat) (rd : Bool) : Bool := if ones n v * 2 = n then rd else n < ones n v * 2

/-- The 6-bit code of `x` at a running disparity. -/
def enc6 (x : Nat) (k rd : Bool) : Nat :=
  let v := if k && x = 28 then 0b001111 else code6.getD x 0
  if rd && (ones 6 v ≠ 3 || x = 7) then 63 - v else v

/-- The 4-bit code of `y` after `x` at a running disparity: the alternate code of .7 breaks runs of five. -/
def enc4 (x y : Nat) (k rd : Bool) : Nat :=
  if k then (let v := code4k.getD y 0; if rd then 15 - v else v)
  else
    let alt := y = 7 && (if rd then x = 11 || x = 13 || x = 14 else x = 17 || x = 18 || x = 20)
    let v := if alt then 0b0111 else code4.getD y 0
    if rd && (ones 4 v ≠ 2 || y = 3) then 15 - v else v

/-- The K groups of the code table. -/
def kGroups : List Nat := [0x1C, 0x3C, 0x5C, 0x7C, 0x9C, 0xBC, 0xDC, 0xFC, 0xF7, 0xFB, 0xFD, 0xFE]

/-- The ten line bits of a character at a running disparity, and the running disparity after it. -/
def enc10 (byte : Nat) (k rd : Bool) : List Bool × Bool :=
  let s := enc6 (byte % 32) k rd
  let mid := disparity 6 s rd
  let f := enc4 (byte % 32) (byte / 32) k mid
  ((natBits 6 s).reverse ++ (natBits 4 f).reverse, disparity 4 f mid)

/-- The character and the K flag that ten line bits carry at a running disparity; none where the group is not in the table or breaks it (R282). -/
def dec10 (g : List Bool) (rd : Bool) : Option (Nat × Bool) :=
  match (List.range 256).find? fun b => (enc10 b false rd).1 = g with
  | some b => some (b, false)
  | none => (kGroups.find? fun b => (enc10 b true rd).1 = g).map fun b => (b, true)

/-- The running disparity after a group, valid or not. -/
def rdAfter (g : List Bool) (rd : Bool) : Bool := disparity 10 (bitsNat g) rd

/-- The comma patterns, and whether one of them begins a list of bits (R282). -/
def commaHere (g : List Bool) : Bool :=
  g.take 7 = [false, false, true, true, true, true, true] || g.take 7 = [true, true, false, false, false, false, false]

/-- The first place, from `lo` up to `hi`, at which a comma begins. -/
def commaAt (lo hi : Nat) (g : List Bool) : Option Nat := ((List.range (hi - lo)).map (· + lo)).find? fun i => i + 7 ≤ g.length && commaHere (g.drop i)

/-! The scrambler x^58 + x^39 + 1 (R281). The register holds the last 58 line bits, the latest lowest. -/

/-- One bit through a scrambler: the line bit, which enters the register. -/
def scramBit (r : List Bool × Nat) (b : Bool) : List Bool × Nat :=
  let o := (b ^^ bitB r.2 38) ^^ bitB r.2 57
  (r.1 ++ [o], (r.2 * 2 + b2n o) % 2 ^ 58)

/-- One line bit through a descrambler. -/
def descramBit (r : List Bool × Nat) (b : Bool) : List Bool × Nat :=
  (r.1 ++ [(b ^^ bitB r.2 38) ^^ bitB r.2 57], (r.2 * 2 + b2n b) % 2 ^ 58)

/-- A payload scrambled and descrambled, and the register after it. -/
def scramble (s : Nat) (l : List Bool) : List Bool × Nat := l.foldl scramBit ([], s)
def descramble (s : Nat) (l : List Bool) : List Bool × Nat := l.foldl descramBit ([], s)

/-! PRBS patterns (R284). The register holds the last 31 bits of the pattern, the latest lowest. -/

/-- The bits of the register, counted from the latest as 1, whose exclusive OR is the next bit of a pattern. -/
def patTaps (pat : Nat) : List Nat :=
  match pat with
  | 0 => [7, 6] | 1 => [9, 5] | 2 => [15, 14] | 3 => [23, 18] | 4 => [31, 28] | _ => [13, 12, 2, 1]

/-- The next bit of pattern `pat`. -/
def patNext (pat r : Nat) : Bool := (patTaps pat).foldl (fun b n => b ^^ bitB r (n - 1)) false

/-- A bit enters the register. -/
def patPush (r : Nat) (b : Bool) : Nat := (r * 2 + b2n b) % 2 ^ 31

/-- `n` bits of a pattern, and the register after them. -/
def patBits (pat : Nat) : Nat → Nat → List Bool × Nat
  | 0, r => ([], r)
  | n + 1, r =>
    let b := patNext pat r
    let x := patBits pat n (patPush r b)
    (b :: x.1, x.2)

/-- Gray coding of pairs of bits into PAM4 symbols, which is its own inverse (R284, R285). -/
def grayPairs : List Bool → List Bool
  | a :: b :: l => a :: (a ^^ b) :: grayPairs l
  | l => l

end Sys2Proof.Machine
end

