-- ==== Sys2Proof/Machine/Lanes.lean ====
section
/-! DEFINITION. Serial lanes (R277 to R290, R303): rates and encodings, alignment, equalisation, PRBS, sparing. A lane is numbered
quad * 4 + l. -/

namespace Sys2Proof.Machine

/-! Rates and encodings (R278) -/

def encRaw : Nat := 0
def enc8b10b : Nat := 1
def enc64b66b : Nat := 2

/-- The number of lane `l` of quad `q`. -/
def laneNo (q : Fin 16) (l : Fin 4) : Fin 64 := ⟨q.val * 4 + l.val, by omega⟩

/-- Whether an encoding is allowed at a rate code. -/
def encAllowed (rate enc : Nat) : Bool :=
  if rate ≤ 3 || rate = 5 then enc = encRaw || enc = enc8b10b
  else if rate = 4 || (6 ≤ rate && rate ≤ 8) then enc = encRaw || enc = enc64b66b
  else false

/-- Whether a rate code is PAM4. -/
def ratePam4 (rate : Nat) : Bool := rate = 7 || rate = 8

/-- Line bits per period of the recovered clock, D. -/
def rateD (rate : Nat) : Nat :=
  match rate with | 4 => 33 | 5 => 40 | 6 => 66 | 7 => 136 | 8 => 272 | _ => 20

/-- The rate code of lane `i`, from the PLL it selects. -/
def Chip.laneRate (c : Chip) (i : Nat) : Nat :=
  if c.on .LQ_LANE_CTL_PLL i then c.get .LQ_QUAD_CTL_PLLB (i / 4) else c.get .LQ_QUAD_CTL_PLLA (i / 4)

def Chip.laneEn (c : Chip) (i : Nat) : Bool := c.on .LQ_LANE_CTL_EN i
def Chip.laneEnc (c : Chip) (i : Nat) : Nat := c.get .LQ_LANE_CTL_ENC i

/-- Nominal line rate of a rate code in kb/s. -/
def rateKbps (rate : Nat) : Nat :=
  match rate with
  | 0 => 1250000 | 1 => 2500000 | 2 => 3125000 | 3 => 6250000 | 4 => 10312500 | 5 => 12500000 | 6 => 25781250 | 7 => 53125000 | _ => 106250000

/-- Whether lane `i` is lent to a service Ethernet port (R290). -/
def Chip.ethLane (c : Chip) (i : Nat) : Bool := i < 2 && c.on .ETH_CTL_EN i

/-- A write of quad `q`'s registers is not performed (R303). Log 69 (DEDUCED). -/
def Chip.lqReject (c : Chip) (q : Nat) : Chip := c.set .LQ_QUAD_CTL_CFG_REJ q 1

/-! Sparing (R287 to R289) -/

/-- The spare of quad `q`. -/
def Chip.spareOf (c : Chip) (q : Nat) : Nat := q * 4 + c.get .LQ_QUAD_CTL_QSPARE q

/-- Whether lane `i` agrees with lane `s` in what R287 asks for. -/
def Chip.sameLink (c : Chip) (i s : Nat) : Bool :=
  c.laneEn i && c.laneEn s && c.get .LQ_LANE_CTL_PLL i = c.get .LQ_LANE_CTL_PLL s && c.laneEnc i = c.laneEnc s
    && c.get .LQ_LANE_CTL_SCR i = c.get .LQ_LANE_CTL_SCR s && c.get .LQ_LANE_CTL_RCDIV i = c.get .LQ_LANE_CTL_RCDIV s

/-- Whether PROTECT and QSPARE of quad `q` may be set so (R287). -/
def Chip.protectOk (c : Chip) (q protect spare : Nat) : Bool :=
  protect = 0 || (!bitB protect spare && (List.range 4).all fun l => !bitB protect l || c.sameLink (q * 4 + l) (q * 4 + spare))

/-- Return every port of quad `q` to its own lane (R289). -/
def Chip.laneRevert (c : Chip) (q : Nat) : Chip := (c.set .LQ_QUAD_STATUS_SPARE_USED q 0).set .LQ_QUAD_STATUS_FAILED q 0

/-- Whether lane `i`, protected and not failed over, has failed (R288): no signal, or lock lost for FAIL_TIME. -/
def Chip.laneFailed (c : Chip) (i : Nat) : Bool :=
  bitB (c.get .LQ_QUAD_CTL_PROTECT (i / 4)) (i % 4) && (!c.on .LQ_LANE_STATUS_SIGDET i || (!c.on .LQ_LANE_STATUS_LOCK i && c.due .H_LANE_FAIL i))

/-- Protected lane `i` has failed: the quad fails over, once (R288, R289, R407). -/
def Chip.laneFail (c : Chip) (i : Nat) : Chip :=
  let q := i / 4
  if c.laneFailed i && !c.on .LQ_QUAD_STATUS_SPARE_USED q then
    let c := (c.set .LQ_QUAD_STATUS_SPARE_USED q 1).set .LQ_QUAD_STATUS_FAILED q (orBit (c.get .LQ_QUAD_STATUS_FAILED q) (i % 4))
    ((c.set .H_LANE_FAIL i 0).logFault fltLaneFailover 0 i).raise (200 + q)
  else c

/-- The lane whose receiver serves fabric port `i` (R288). -/
def Chip.portLane (c : Chip) (i : Nat) : Nat :=
  if bitB (c.get .LQ_QUAD_STATUS_FAILED (i / 4)) (i % 4) then c.spareOf (i / 4) else i

/-- Whether port `i` sees valid receive data (R279, R285, R287): its lane is locked, no checker takes the bits, and it is no armed spare's own port. -/
def Chip.portValid (c : Chip) (i : Nat) : Bool :=
  c.on .LQ_LANE_STATUS_LOCK (c.portLane i) && !c.on .LQ_PRBS_CTL_CHK_EN (c.portLane i)
    && !(c.get .LQ_QUAD_CTL_PROTECT (i / 4) ≠ 0 && i = c.spareOf (i / 4))

/-- The rim sector in which the data ports of lane `i` lie (R277). -/
def laneSector (i : Nat) : Nat := i / 4 % 12

/-- A signal of the receive data of port `i` (R279): while the port sees no valid data, every valid bit is 0. -/
def Chip.portSignal (c : Chip) (i u : Nat) (sig : LaneSig) : Bool :=
  let l := c.portLane i
  let v := c.get .H_RX_UNIT (l * 32 + u)
  let x := v - 1
  if v = 0 || !c.portValid i then false
  else
    match sig with
    | .valid => true
    | .data n => bitB (if c.laneEnc l = enc64b66b then x / 4 else if c.laneEnc l = enc8b10b then x % 256 else x) n
    | .header n => c.laneEnc l = enc64b66b && n < 2 && bitB x n
    | .k => c.laneEnc l = enc8b10b && bitB x 8
    | .err => c.laneEnc l = enc8b10b && bitB x 9

/-- What the transmitter of a lane sends (R285, R287, R288, R290). -/
inductive LaneTx where
  | off
  | idle
  | ethernet
  | pattern
  | nothing
  | port (i : Nat)
deriving DecidableEq, Repr

/-- The lane of quad `q` that its spare stands in for. -/
def Chip.failedLane (c : Chip) (q : Nat) : Option Nat :=
  ((List.range 4).find? fun l => bitB (c.get .LQ_QUAD_STATUS_FAILED q) l).map fun l => q * 4 + l

/-- What the transmitter of lane `i` sends: a lane that has failed over is in electrical idle, an armed spare sends the data of no port, and after a failover those of the
failed lane's port; a running generator takes the place of encoded data. -/
def Chip.laneTx (c : Chip) (i : Nat) : LaneTx :=
  let q := i / 4
  let spare := c.get .LQ_QUAD_CTL_PROTECT q ≠ 0 && i = c.spareOf q
  if !c.laneEn i then .off
  else if c.ethLane i then .ethernet
  else if bitB (c.get .LQ_QUAD_STATUS_FAILED q) (i % 4) then .idle
  else if c.on .LQ_PRBS_CTL_GEN_EN i then .pattern
  else if c.on .LQ_QUAD_STATUS_SPARE_USED q && i = c.spareOf q then (match c.failedLane q with | some l => .port l | none => .nothing)
  else if spare then .nothing
  else .port i

/-! Register writes (R283, R284, R286, R303) -/

/-- Whether every lane of quad `q` that uses PLL B (`b`) or A has EN = 0. -/
def Chip.pllIdle (c : Chip) (q : Nat) (b : Bool) : Bool :=
  (List.range 4).all fun l => !c.laneEn (q * 4 + l) || c.on .LQ_LANE_CTL_PLL (q * 4 + l) ≠ b

/-- A write of LQ_QUAD_CTL of quad `q`. -/
def Chip.writeQuadCtl (c : Chip) (q v : Nat) : Chip :=
  let a := bits v 7 0
  let b := bits v 15 8
  let c := if bitB v 30 then c.set .LQ_QUAD_CTL_CFG_REJ q 0 else c
  if 8 < a || 8 < b || (a ≠ c.get .LQ_QUAD_CTL_PLLA q && !c.pllIdle q false) || (b ≠ c.get .LQ_QUAD_CTL_PLLB q && !c.pllIdle q true)
      || !c.protectOk q (bits v 23 20) (bits v 17 16) then c.lqReject q
  else
    let c := if a = c.get .LQ_QUAD_CTL_PLLA q then c else c.set .LQ_QUAD_STATUS_PLLA_LOCK q 0
    let c := if b = c.get .LQ_QUAD_CTL_PLLB q then c else c.set .LQ_QUAD_STATUS_PLLB_LOCK q 0
    let c := ((((c.set .LQ_QUAD_CTL_PLLA q a).set .LQ_QUAD_CTL_PLLB q b).set .LQ_QUAD_CTL_FAIL_TIME q (bits v 26 24)).set
      .LQ_QUAD_CTL_PROTECT q (bits v 23 20)).set .LQ_QUAD_CTL_QSPARE q (bits v 17 16)
    if bitB v 31 then c.laneRevert q else c

/-- A PLL of quad `q` locks (R278). -/
def Chip.pllLock (c : Chip) (q : Nat) (b : Bool) : Chip :=
  c.set (if b then .LQ_QUAD_STATUS_PLLB_LOCK else .LQ_QUAD_STATUS_PLLA_LOCK) q 1

/-- A lane that is disabled is neither locked nor adapted, and no bits are on their way in it. Log 71 (DEDUCED). -/
def Chip.laneOff (c : Chip) (i : Nat) : Chip :=
  if c.laneEn i then c
  else
    let c := (((c.set .LQ_LANE_STATUS_LOCK i 0).set .LQ_LANE_STATUS_ADAPTED i 0).set .H_LANE_FAIL i 0).set .H_HUNT i 0
    { c.clearWhere .H_RX_UNIT (fun k => k / 32 = i) with lanes := c.lanes.filter fun x => x.lane ≠ i }

/-- A raw lane is locked while its signal detect is 1 (R282). -/
def Chip.laneRaw (c : Chip) (i : Nat) : Chip :=
  if c.laneEn i && c.laneEnc i = encRaw && c.on .LQ_LANE_STATUS_SIGDET i then c.set .LQ_LANE_STATUS_LOCK i 1 else c

/-- A write of LQ_LANE_CTL of lane `i` (R278, R290, R303). -/
def Chip.writeLaneCtl (c : Chip) (i v : Nat) : Chip :=
  let enc := bits v 5 4
  let same := bit v 9 = c.get .LQ_LANE_CTL_ALIGN i && bit v 8 = c.get .LQ_LANE_CTL_SCR i && bit v 7 = c.get .LQ_LANE_CTL_RXINV i
    && bit v 6 = c.get .LQ_LANE_CTL_TXINV i && enc = c.laneEnc i && bit v 1 = c.get .LQ_LANE_CTL_PLL i
  let rate := if bitB v 1 then c.get .LQ_QUAD_CTL_PLLB (i / 4) else c.get .LQ_QUAD_CTL_PLLA (i / 4)
  if c.ethLane i || !encAllowed rate enc || (c.laneEn i && !same) then c.lqReject (i / 4)
  else
    let c := ((((((((c.set .LQ_LANE_CTL_RCDIV i (bits v 12 10)).set .LQ_LANE_CTL_ALIGN i (bit v 9)).set .LQ_LANE_CTL_SCR i (bit v 8)).set
      .LQ_LANE_CTL_RXINV i (bit v 7)).set .LQ_LANE_CTL_TXINV i (bit v 6)).set .LQ_LANE_CTL_ENC i enc).set .LQ_LANE_CTL_PLL i (bit v 1)).set
      .LQ_LANE_CTL_EN i (bit v 0))
    (c.laneOff i).laneRaw i

/-- A write of LQ_LANE_TXEQ of lane `i` (R283). -/
def Chip.writeTxeq (c : Chip) (i v : Nat) : Chip :=
  if c.ethLane i || 63 < bits v 5 0 + bits v 11 6 + bits v 17 12 then c.lqReject (i / 4)
  else ((c.set .LQ_LANE_TXEQ_PRE i (bits v 5 0)).set .LQ_LANE_TXEQ_MAIN i (bits v 11 6)).set .LQ_LANE_TXEQ_POST i (bits v 17 12)

/-- Whether a pattern may run at a rate (R284). Log 70 (DEDUCED). -/
def patOk (rate pat : Nat) : Bool := if ratePam4 rate then pat = 5 else pat < 5

/-- A 1 written to INJ stays until the next generated word, whose error it is (R286). -/
def Chip.prbsInject (c : Chip) (i : Nat) : Chip := c.set .LQ_PRBS_CTL_INJ i 1

/-- The generator of lane `i` starts; what pattern state it starts from is a free value that is not 0, where it would stay. Log 166 (DESIGN CHOICE). -/
def Chip.genStart (c : Chip) (i : Nat) : Chip :=
  let (v, c) := c.fresh 31
  (c.set .H_GEN i (if v % 64 = 0 then v + 1 else v)).set .H_GEN_BITS i 0

/-- The checker of lane `i` starts to seek the pattern. -/
def Chip.chkStart (c : Chip) (i : Nat) : Chip :=
  ((((c.set .H_CHK i 0).set .H_CHK_RUN i 0).set .H_CHK_WIN i 0).set .H_CHK_BAD i 0).set .LQ_PRBS_STATUS_CHK_LOCK i 0

/-- A write of LQ_PRBS_CTL of lane `i` (R284 to R286, R290, R303). -/
def Chip.writePrbsCtl (c : Chip) (i v : Nat) : Chip :=
  let pat := bits v 10 8
  if c.ethLane i || 5 < pat || ((bitB v 0 || bitB v 1) && !patOk (c.laneRate i) pat) then c.lqReject (i / 4)
  else
    let c := if bitB v 0 && (!c.on .LQ_PRBS_CTL_GEN_EN i || pat ≠ c.get .LQ_PRBS_CTL_PAT i) then c.genStart i else c
    let c := if !bitB v 1 || !c.on .LQ_PRBS_CTL_CHK_EN i || pat ≠ c.get .LQ_PRBS_CTL_PAT i then c.chkStart i else c
    let c := ((((c.set .LQ_PRBS_CTL_INJ_RATE i (bits v 15 12)).set .LQ_PRBS_CTL_INV i (bit v 11)).set .LQ_PRBS_CTL_PAT i pat).set
      .LQ_PRBS_CTL_CHK_EN i (bit v 1)).set .LQ_PRBS_CTL_GEN_EN i (bit v 0)
    if bitB v 16 then c.prbsInject i else c

/-- A write of LQ_DFE of lane `i` (R283). -/
def Chip.writeDfe (c : Chip) (i v : Nat) : Chip :=
  if c.ethLane i || 11 < bits v 11 8 then c.lqReject (i / 4)
  else (c.set .LQ_DFE_TAPSEL i (bits v 11 8)).set .LQ_DFE_FREEZE i (bit v 31)

/-! Alignment (R281, R282) -/

/-- Whether lane `i` hunts in encoding `enc`. -/
def Chip.laneHunts (c : Chip) (i enc : Nat) : Bool :=
  c.laneEn i && c.laneEnc i = enc && c.on .LQ_LANE_STATUS_ADAPTED i && !c.on .LQ_LANE_STATUS_LOCK i

/-- Lane `i` locks: windows start here. Log 147 (DESIGN CHOICE). -/
def Chip.laneLock (c : Chip) (i : Nat) : Chip :=
  (((c.set .LQ_LANE_STATUS_LOCK i 1).set .H_LANE_FAIL i 0).set .H_WIN i 0).set .H_WIN_BAD i 0

/-- Lock or alignment of lane `i` is lost (R281, R282, R288): a protected lane has FAIL_TIME to regain it. -/
def Chip.laneUnlock (c : Chip) (i : Nat) : Chip :=
  let q := i / 4
  let c := ((c.set .LQ_LANE_STATUS_LOCK i 0).set .LQ_LANE_STATUS_LOCK_LOST i 1).set .H_HUNT i 0
  let c := if bitB (c.get .LQ_QUAD_CTL_PROTECT q) (i % 4) then c.setDue .H_LANE_FAIL i ((c.get .LQ_QUAD_CTL_FAIL_TIME q + 1) * Chip.us) else c
  (c.set .H_AN i 0).raise (200 + q)

/-- A header or code group of a locked lane, in consecutive windows of `size`: an invalid one is counted, and `limit` of them within one window lose the lock
(R281, R282). -/
def Chip.laneCheck (c : Chip) (i size limit : Nat) (ok : Bool) : Chip :=
  let c := if ok then c else (c.count .LQ_LANE_ERR_COUNT i 1).set .H_WIN_BAD i (c.get .H_WIN_BAD i + 1)
  let c := c.set .H_WIN i (c.get .H_WIN i + 1)
  if limit ≤ c.get .H_WIN_BAD i then c.laneUnlock i
  else if size ≤ c.get .H_WIN i then (c.set .H_WIN i 0).set .H_WIN_BAD i 0
  else c

/-- Unit `u` of lane `i` presents `v` in this period (R279). -/
def Chip.presentUnit (c : Chip) (i u v : Nat) : Chip := c.set .H_RX_UNIT (i * 32 + u) (v + 1)

/-- The payload of a block, descrambled where SCR = 1 (R281). -/
def Chip.rxPayload (c : Chip) (i : Nat) (l : List Bool) : Nat × Chip :=
  let x := descramble (c.get .H_DESC i) l
  (bitsNat (if c.on .LQ_LANE_CTL_SCR i then x.1 else l), c.set .H_DESC i x.2)

/-- The 64b/66b receiver of lane `i` on the bits `g` not yet taken: hunting, each valid header counts and an invalid one slips by one bit; locked, blocks are presented as
units from `u` on (R281). A receiver that has not adapted takes no header (R283). -/
def rxBlocks (i : Nat) : Nat → Nat → Chip → List Bool → Chip × List Bool
  | 0, _, c, g => (c, g)
  | fuel + 1, u, c, g =>
    let head := bitsNat (g.take 2)
    let ok := head = 1 || head = 2
    if g.length < 66 then (c, g)
    else if c.on .LQ_LANE_STATUS_LOCK i then
      let (v, c) := c.rxPayload i ((g.drop 2).take 64)
      rxBlocks i fuel (u + 1) ((c.presentUnit i u (head + 4 * v)).laneCheck i 64 16 ok) (g.drop 66)
    else if !c.laneHunts i enc64b66b then (c, [])
    else if ok then
      let c := (c.rxPayload i ((g.drop 2).take 64)).2
      let n := c.get .H_HUNT i + 1
      rxBlocks i fuel u (if n = 64 then (c.set .H_HUNT i 0).laneLock i else c.set .H_HUNT i n) (g.drop 66)
    else rxBlocks i fuel u (c.set .H_HUNT i 0) (g.drop 1)

/-! Clause 37 auto-negotiation of a 1000BASE-X port (R290). Log 167 (PRESUMED). -/

/-- A character of a lane lent to a 1000BASE-X port: configuration ordered sets (K28.5, D21.5 or D2.2, two bytes of the word) are watched for, and three equal words with the
acknowledge bit complete the negotiation. -/
def Chip.anChar (c : Chip) (i byte : Nat) (k : Bool) : Chip :=
  if k && byte = 0xBC then c.set .H_AN_POS i 1
  else
    match c.get .H_AN_POS i with
    | 1 => c.set .H_AN_POS i (if !k && (byte = 0xB5 || byte = 0x42) then 2 else 0)
    | 2 => (c.set .H_AN_POS i 3).set .H_AN_WORD i (c.get .H_AN_WORD i / 256 * 256 + byte)
    | 3 =>
      let w := c.get .H_AN_WORD i % 256 + byte * 256
      let same := w / 256 = c.get .H_AN_WORD i / 256 && bitB w 14
      let c := (c.set .H_AN_POS i 0).set .H_AN_WORD i w
      if 3 ≤ c.get .H_AN i then c else c.set .H_AN i (if same then c.get .H_AN i + 1 else 0)
    | _ => c

/-- One code group of an aligned 8b/10b lane, presented as unit `u`: 8 data bits, K and ERR (R279, R282). -/
def Chip.rxGroup (c : Chip) (i u : Nat) (g : List Bool) : Chip :=
  let rd := c.on .H_RX_RD i
  let c := c.set .H_RX_RD i (b2n (rdAfter g rd))
  match dec10 g rd with
  | some (byte, k) => ((c.presentUnit i u (byte + b2n k * 2 ^ 8)).anChar i byte k).laneCheck i 16 4 true
  | none => ((c.presentUnit i u (0xFE + 2 ^ 8 + 2 ^ 9)).set .H_AN_POS i 0).laneCheck i 16 4 false

/-- A receiver aligns on the comma that begins `g`. -/
def Chip.commaAlign (c : Chip) (i : Nat) (g : List Bool) : Chip := (c.laneLock i).set .H_RX_RD i (b2n (g.headD false))

/-- The 8b/10b receiver of lane `i` on the bits `g` not yet taken: unaligned it seeks a comma; aligned it takes groups, and with ALIGN = 1 it realigns on every comma at a new
position (R282). -/
def rxChars (i : Nat) : Nat → Nat → Chip → List Bool → Chip × List Bool
  | 0, _, c, g => (c, g)
  | fuel + 1, u, c, g =>
    if !c.on .LQ_LANE_STATUS_LOCK i then
      if !c.laneHunts i enc8b10b then (c, [])
      else
        match commaAt 0 g.length g with
        | none => (c, g.drop (g.length - 6))
        | some k => rxChars i fuel u (c.commaAlign i (g.drop k)) (g.drop k)
    else
      let align := c.on .LQ_LANE_CTL_ALIGN i
      if g.length < (if align then 16 else 10) then (c, g)
      else
        match (if align then commaAt 1 10 g else none) with
        | some k => rxChars i fuel u (c.commaAlign i (g.drop k)) (g.drop k)
        | none => rxChars i fuel (u + 1) (c.rxGroup i u (g.take 10)) (g.drop 10)

/-! The PRBS checker (R285) -/

/-- The checker of lane `i` takes a received bit: unlocked it seeds itself from the bits and locks after 64 that match; locked it counts, and 64 errors in a window of 1,024
bits unlock it. Log 168 (DEDUCED). -/
def Chip.chkBit (c : Chip) (i : Nat) (b : Bool) : Chip :=
  let b := b ^^ c.on .LQ_PRBS_CTL_INV i
  let r := c.get .H_CHK i
  let want := patNext (c.get .LQ_PRBS_CTL_PAT i) r
  if !c.on .LQ_PRBS_STATUS_CHK_LOCK i then
    let run := if b = want then c.get .H_CHK_RUN i + 1 else 0
    let c := c.set .H_CHK i (patPush r b)
    if run = 64 then (((c.set .LQ_PRBS_STATUS_CHK_LOCK i 1).set .H_CHK_RUN i 0).set .H_CHK_WIN i 0).set .H_CHK_BAD i 0 else c.set .H_CHK_RUN i run
  else
    let c := (c.count .LQ_PRBS_ERR_COUNT i (b2n (b ≠ want))).set .H_PRBS_BITS i (min (c.get .H_PRBS_BITS i + 1) (2 ^ 64 - 1))
    let bad := c.get .H_CHK_BAD i + b2n (b ≠ want)
    let n := c.get .H_CHK_WIN i + 1
    let c := c.set .H_CHK i (patPush r want)
    if bad = 64 then ((c.chkStart i).set .LQ_PRBS_STATUS_CHK_LOST i 1).raise (200 + i / 4)
    else if n = 1024 then (c.set .H_CHK_WIN i 0).set .H_CHK_BAD i 0
    else (c.set .H_CHK_WIN i n).set .H_CHK_BAD i bad

/-- The checker takes the bits of a period; PAM4 bits after Gray decoding (R284, R285). -/
def Chip.chkBits (c : Chip) (i : Nat) (l : List Bool) : Chip :=
  if c.on .LQ_PRBS_CTL_CHK_EN i then (if ratePam4 (c.laneRate i) then grayPairs l else l).foldl (fun c b => c.chkBit i b) c else c

/-! Receiving -/

/-- The bits of lane `i` that are on their way. -/
def Chip.laneBuf (c : Chip) (i : Nat) : LaneBuf := (c.lanes.find? fun x => x.lane = i).getD ⟨i, [], [], []⟩

/-- Keep them. -/
def Chip.setLaneBuf (c : Chip) (x : LaneBuf) : Chip := { c with lanes := x :: c.lanes.filter fun y => y.lane ≠ x.lane }

/-- The `D` line bits of one period of lane `i`'s recovered clock arrive: what was presented before is gone, and the units that are complete now are presented (R279). -/
def Chip.rxPeriod (c : Chip) (i : Nat) (l : List Bool) : Chip :=
  let c := (c.clearWhere .H_RX_UNIT fun k => k / 32 = i).chkBits i l
  if c.laneEnc i = encRaw then (if c.on .LQ_LANE_STATUS_LOCK i then c.presentUnit i 0 (bitsNat l) else c)
  else
    let g := (c.laneBuf i).group ++ l
    let (c, g) := if c.laneEnc i = enc64b66b then rxBlocks i (2 * g.length + 1) 0 c g else rxChars i (2 * g.length + 1) 0 c g
    c.setLaneBuf { c.laneBuf i with group := g }

/-- Whole periods of `d` bits. -/
def rxPeriods (i d : Nat) : Nat → Chip → List Bool → Chip × List Bool
  | 0, c, l => (c, l)
  | fuel + 1, c, l => if l.length < d then (c, l) else rxPeriods i d fuel (c.rxPeriod i (l.take d)) (l.drop d)

/-- Line bits arrive at lane `i`, in the order of the line; RXINV inverts them. A lane that is disabled or has no signal receives none. Log 72 (DEDUCED). -/
def Chip.laneReceive (c : Chip) (i : Nat) (l : List Bool) : Chip :=
  if !c.laneEn i || !c.on .LQ_LANE_STATUS_SIGDET i then c
  else
    let l := (c.laneBuf i).line ++ l.map fun b => b ^^ c.on .LQ_LANE_CTL_RXINV i
    let (c, rest) := rxPeriods i (rateD (c.laneRate i)) (l.length + 1) c l
    c.setLaneBuf { c.laneBuf i with line := rest }

/-- Line bits of a 64b/66b lane arrive; the lane locks where they complete 64 valid headers (R281). -/
def Chip.blockLock (c : Chip) (i : Nat) (l : List Bool) : Chip := if c.laneEnc i = enc64b66b then c.laneReceive i l else c

/-- Line bits of an 8b/10b lane arrive; it aligns where they bring a comma (R282). -/
def Chip.commaBits (c : Chip) (i : Nat) (l : List Bool) : Chip := if c.laneEnc i = enc8b10b then c.laneReceive i l else c

/-- Line bits of a locked encoded lane arrive; lock or alignment is lost where too many headers or groups are invalid (R281, R282). -/
def Chip.lockLoss (c : Chip) (i : Nat) (l : List Bool) : Chip :=
  if c.on .LQ_LANE_STATUS_LOCK i && c.laneEnc i ≠ encRaw then c.laneReceive i l else c

/-! Adaptation (R283) -/

/-- The equaliser taps of lane `i` take values that the line decides. Log 73 (DEDUCED). -/
def Chip.adaptTaps (c : Chip) (i : Nat) : Chip :=
  if c.on .LQ_DFE_FREEZE i then c
  else (List.range 12).foldl (fun c k => let r := c.fresh 8; r.2.set .H_DFE_TAP (i * 12 + k) r.1) c

/-- Initial adaptation of lane `i` completes (R283). -/
def Chip.adapted (c : Chip) (i : Nat) : Chip :=
  if c.laneEn i && c.on .LQ_LANE_STATUS_SIGDET i then (c.adaptTaps i).set .LQ_LANE_STATUS_ADAPTED i 1 else c

/-- Signal detect of lane `i` changes (R282, R283, R289): without a signal no lane is locked. Log 169 (DEDUCED). -/
def Chip.signalDetect (c : Chip) (i : Nat) (up : Bool) : Chip :=
  if c.on .LQ_LANE_STATUS_SIGDET i = up then c
  else if up then (c.set .LQ_LANE_STATUS_SIGDET i 1).laneRaw i
  else
    let c := (c.set .LQ_LANE_STATUS_SIGDET i 0).set .LQ_LANE_STATUS_ADAPTED i 0
    if c.on .LQ_LANE_STATUS_LOCK i then c.laneUnlock i else c

/-- A read of LQ_DFE of lane `i`: the selected tap, which still moves while the receiver adapts (R283). -/
def Chip.readDfe (c : Chip) (i : Nat) : Nat × Chip :=
  let c := if c.laneEn i && c.on .LQ_LANE_STATUS_SIGDET i then c.adaptTaps i else c
  let k := c.get .LQ_DFE_TAPSEL i
  (c.get .LQ_DFE_FREEZE i * 2 ^ 31 + k * 2 ^ 8 + c.get .H_DFE_TAP (i * 12 + k), c)

/-- A read of LQ_PRBS_ERR of lane `i` (R285): the count, LQ_PRBS_BITS latched, and a new interval. -/
def Chip.prbsErrRead (c : Chip) (i : Nat) : Nat × Chip :=
  (c.get .LQ_PRBS_ERR_COUNT i,
   ((c.set .LQ_PRBS_BITS_COUNT i (c.get .H_PRBS_BITS i)).set .H_PRBS_BITS i 0).set .LQ_PRBS_ERR_COUNT i 0)

end Sys2Proof.Machine
end

