-- ==== Sys2Proof/Machine/Fabric.lean ====
section
/-! DEFINITION. The configured rim fabric (R219 to R231, R252 to R254): cells, flip-flops and shift registers, bus lines, clock trees and their
edges, the input taps, the pads, and the transmit data of lanes. What a sector's frames configure is `Config.sector`. -/

namespace Sys2Proof.Machine

/-! Sectors -/

/-- What the frames of sector `k` configure. -/
def Mem.sectorCfg (m : Mem) (k : Nat) : SectorCfg := Config.sector k (m.rim.filter fun x => x.1 / 0x100000 = k)

/-- Whether sector `k` presents its configured function: STARTING or RUNNING (R252). -/
def Chip.sectorLive (c : Chip) (k : Nat) : Bool := k < 12 && sectStarting ≤ c.sector k

/-- The sectors that do. -/
def Chip.liveSectors (c : Chip) : List Nat := (List.range 12).filter c.sectorLive

/-- Whether routing of sector `k` reaches signals of sector `j` (R219): both have one owner; else the boundary multiplexer delivers 0. A sector that is not live
presents 0. Log 170 (DEDUCED). -/
def Chip.joined (c : Chip) (k j : Nat) : Bool := c.get .RIM_SECT_OWN_OWNER k = c.get .RIM_SECT_OWN_OWNER j && c.sectorLive j

/-- Whether tap bits of a tile belong to the partition that owns sector `k` (R220). -/
def Chip.tapOwned (c : Chip) (k tile : Nat) : Bool :=
  c.get .RIM_SECT_OWN_OWNER k < 16 && c.tileOwner tile = some (c.get .RIM_SECT_OWN_OWNER k)

/-- The cell `n` of a sector, where it is configured. -/
def sectCell (s : SectorCfg) (n : Nat) : Option CellCfg := s.cells.find? fun x => x.num = n

/-- The clock tree of a cell: one of the two that its block selects (R223). -/
def sectTree (s : SectorCfg) (x : CellCfg) : Option Nat :=
  (s.trees.find? fun b => b.1 = x.num / 8).map fun b => if x.tree2 then b.2.2.val else b.2.1.val

/-! Flip-flops and shift registers (R221, R222, R229, R253, R254) -/

/-- Whether the flip-flops of cell `x` of sector `k` are held in reset: before the second edge of their tree after the start-up reset is released, and while their
reset tree is asserted. -/
def Chip.cellReset (c : Chip) (k : Nat) (s : SectorCfg) (x : CellCfg) : Bool :=
  c.sector k ≠ sectRunning || (match sectTree s x with | some t => c.get .H_START_EDGES (k * 12 + t) < 2 | none => true) ||
    (match x.rst with | some r => c.on .H_RST_TREE r.val | none => false)

/-- The keys of a cell's flip-flops and shift register. -/
def cellKey (k n : Nat) : Nat := k * 32768 + n

/-- The value of flip-flop FA (`b` false) or FB of cell `n` of sector `k`. -/
def Chip.flop (c : Chip) (k : Nat) (s : SectorCfg) (n : Nat) (b : Bool) : Bool :=
  match sectCell s n with
  | none => false
  | some x =>
    match NatMap.find 0 c.fab.ffs (cellKey k n * 2 + b2n b) with
    | 0 => if b then x.resetB else x.resetA
    | v + 1 => if c.cellReset k s x then (if b then x.resetB else x.resetA) else v = 1

/-- The contents of the shift register of cell `x` of sector `k`, the bit for address 0 lowest. -/
def Chip.shiftOf (c : Chip) (k : Nat) (x : CellCfg) : Nat :=
  match NatMap.find 0 c.fab.shifts (cellKey k x.num) with
  | 0 => x.lut.toNat % 2 ^ 32
  | v + 1 => v

/-! Signals. A signal that depends on itself through logic alone has no settled value: none. -/

/-- The number that the first `n` inputs of a cell spell. -/
def inputIndex (read : RimSrc → Option Bool) (ins : List RimSrc) (n : Nat) : Option Nat :=
  (List.range n).foldl (fun v i => do return (← v) + b2n (← read (ins.getD i (.const false))) * 2 ^ i) (some 0)

/-- The values of a list of signals, or none where one has none. -/
def readAll (read : RimSrc → Option Bool) : List RimSrc → Option (List Bool)
  | [] => some []
  | s :: ss => do
    let b ← read s
    let bs ← readAll read ss
    return b :: bs

/-- The value of a bus line (R224, R225): the keeper's while no driver is enabled, else the OR of what the enabled drivers drive. `off` tells which are disabled. -/
def lineValue (read : RimSrc → Option Bool) (off : BusDriver → Bool) (keep : Bool) (ds : List BusDriver) : Option Bool := do
  let live := ds.filter fun d => !off d
  let ens ← readAll read (live.map BusDriver.enable)
  let on := (live.zip ens).filterMap fun x => if x.2 then some x.1.data else none
  if on = [] then return keep
  else return (← readAll read on).any id

/-- The configured drivers of line `l` of bank `k`. -/
def sectDrivers (s : SectorCfg) (l : Nat) : List BusDriver := s.drivers.filter fun d => d.line = l

/-- Whether a driver point is disabled after contention (R225). -/
def Chip.driverOff (c : Chip) (k : Nat) (d : BusDriver) : Bool := c.on .H_BUS_OFF (k * 4096 + d.line * 64 + d.point)

/-- The value that sector `k` reads from a routing source (R219 to R225, R267, R269, R277). `fuel` bounds the depth of the logic. -/
def rimRead (c : Chip) (a : Arr) (m : Mem) : Nat → Nat → RimSrc → Option Bool
  | 0, _, _ => none
  | fuel + 1, k, src =>
    match src with
    | .const b => some b
    | .ffA j n => some (c.joined k j && c.flop j (m.sectorCfg j) n false)
    | .ffB j n => some (c.joined k j && c.flop j (m.sectorCfg j) n true)
    | .tap t n => some (c.tapOwned k t && NatMap.find 0 a.rimTaps (t * 64 + n) = 1)
    | .lane l u s => some (c.joined k (laneSector l) && c.portSignal l u s)
    | .bus j l =>
      if !c.joined k j then some false
      else
        lineValue (rimRead c a m fuel j) (c.driverOff j) (NatMap.find 0 c.fab.keeper (j * 64 + l) = 1) (sectDrivers (m.sectorCfg j) l)
    | .pin i =>
      if !c.joined k (i / 32) || c.inputOff (i / 32) (i % 32) then some false
      else
        match c.padSrc (i / 32) (i % 32) with
        | .level v => some v
        | .external => some (Config.padLevel c.now i)
        | .rim =>
          match (m.sectorCfg (i / 32)).pins.find? fun x => x.1 = c.padPin i % 32 with
          | none => some (Config.padLevel c.now i)
          | some x => do
            if ← rimRead c a m fuel (i / 32) x.2.2 then
              let v ← rimRead c a m fuel (i / 32) x.2.1
              match padLevel (c.padCfg (c.padPin i)).std (c.get .IOB_BANK_CFG_VCCIO (i / 32)) (v ≠ (c.padPin i ≠ i)) with
              | .level w => return w
              | _ => return Config.padLevel c.now i
            else return Config.padLevel c.now i
    | .carry j n =>
      match sectCell (m.sectorCfg j) n with
      | none => some false
      | some (x : CellCfg) =>
        if !c.joined k j || x.mode ≠ CellMode.carry then some false
        else do
          let i ← inputIndex (rimRead c a m fuel j) x.ins 5
          let cin ← if n % 1024 = 0 then some x.carryIn else rimRead c a m fuel j (.carry j (n - 1))
          return bitB x.lut.toNat (32 + i) || (bitB x.lut.toNat i && cin)
    | .out j n =>
      match sectCell (m.sectorCfg j) n with
      | none => some false
      | some (x : CellCfg) =>
        if !c.joined k j then some false
        else
          match x.mode with
          | .lut => (inputIndex (rimRead c a m fuel j) x.ins 6).map (bitB x.lut.toNat)
          | .shift => (inputIndex (rimRead c a m fuel j) x.ins 5).map (bitB (c.shiftOf j x))
          | .carry => do
            let i ← inputIndex (rimRead c a m fuel j) x.ins 5
            let cin ← if n % 1024 = 0 then some x.carryIn else rimRead c a m fuel j (.carry j (n - 1))
            return bitB x.lut.toNat i ^^ cin

/-- More than the cells, bus lines, pins and carries that a signal can pass through. -/
def rimDepth : Nat := 1000000

/-- What sector `k` reads from a source. -/
def rimValue (c : Chip) (a : Arr) (m : Mem) (k : Nat) (src : RimSrc) : Option Bool := rimRead c a m rimDepth k src

/-- A value that is settled, or else a free one. Log 171 (DESIGN CHOICE). -/
def Chip.settle (c : Chip) (v : Option Bool) : Bool × Chip :=
  match v with
  | some b => (b, c)
  | none => let (x, c) := c.fresh 1; (x = 1, c)

/-! Clock edges (R221 to R223, R253) -/

/-- What an edge of its clock makes of cell `x` of sector `k`, with its clock enable at 1: the entries of its flip-flops and of its shift register. The values come from the
fabric as it stood before the edge, `old`; `r` collects them. -/
def clockCell (old : Chip) (a : Arr) (m : Mem) (k : Nat) (s : SectorCfg) (r : (NatMap × NatMap) × Chip) (x : CellCfg) : (NatMap × NatMap) × Chip :=
  let val := rimValue old a m k
  let key := cellKey k x.num
  let (en, c) := r.2.settle (val x.enable)
  if !en then (r.1, c)
  else
    let (fa, c) := c.settle (val (if x.byX && x.mode ≠ .shift then x.x else .out k x.num))
    let (fb, c) := c.settle (val (if x.mode = .carry && !x.byY then .carry k x.num else x.y))
    let below := if x.num % 8 = 0 then none else (sectCell s (x.num - 1)).filter fun y => y.mode = .shift && y.cascade
    let (ser, c) := c.settle (match below with | some y => some (bitB (old.shiftOf k y) 31) | none => val (x.ins.getD 5 (.const false)))
    let ffs := if old.cellReset k s x then r.1.1 else NatMap.put 0 (NatMap.put 0 r.1.1 (key * 2) (b2n fa + 1)) (key * 2 + 1) (b2n fb + 1)
    let shifts := if x.mode = .shift then NatMap.put 0 r.1.2 key ((old.shiftOf k x * 2 + b2n ser) % 2 ^ 32 + 1) else r.1.2
    ((ffs, shifts), c)

/-- A rising edge of clock tree `t` at the cells of every running sector. -/
def clockCells (t : Nat) (c : Chip) (a : Arr) (m : Mem) : Chip :=
  let old := c
  let (fs, c) := ((List.range 12).filter fun k => c.sector k = sectRunning).foldl
    (fun r k =>
      let s := m.sectorCfg k
      (s.cells.filter fun x => sectTree s x = some t).foldl (clockCell old a m k s) r) ((c.fab.ffs, c.fab.shifts), c)
  { c with fab := { c.fab with ffs := fs.1, shifts := fs.2 } }

/-- The start-up counts of running sectors take an edge of tree `t` (R253). -/
def Chip.startEdges (c : Chip) (t : Nat) : Chip :=
  (List.range 12).foldl
    (fun c k => if c.sector k = sectRunning && c.get .H_START_EDGES (k * 12 + t) < 2 then c.bump .H_START_EDGES (k * 12 + t) else c) c

/-- Flip-flops of a reset tree that deasserts hold their reset values (R229). -/
def Chip.leaveReset (c : Chip) (m : Mem) (r : Nat) : Chip :=
  let stays := fun (e : Nat × Nat) => ((sectCell (m.sectorCfg (e.1 / 65536)) (e.1 / 2 % 32768)).bind fun x => x.rst.map Fin.val) ≠ some r
  { c with fab := { c.fab with ffs := c.fab.ffs.filter stays } }

/-- The reset trees that are synchronised to tree `t` take its edge (R229). -/
def resetEdges (t : Nat) (c : Chip) (m : Mem) : Chip :=
  (List.range 4).foldl
    (fun c r =>
      if c.get .RIM_RST_CTL_SYNC r ≠ t then c
      else
        let d := c.syncTree r
        if c.on .H_RST_TREE r && !d.on .H_RST_TREE r then d.leaveReset m r else d) c

/-- The bus keepers follow the lines that are driven (R224). -/
def keepLines (c : Chip) (a : Arr) (m : Mem) : Chip :=
  c.liveSectors.foldl
    (fun c k =>
      (((m.sectorCfg k).drivers.map BusDriver.line).dedup).foldl
        (fun c l =>
          let (v, c) := c.settle (rimValue c a m k (.bus k l))
          { c with fab := { c.fab with keeper := NatMap.put 0 c.fab.keeper (k * 64 + l) (b2n v) } }) c) c

/-- Tree `t` rises: cells load, start-up and reset trees count the edge, and partitions paced from it sample it (R100, R226, R229, R253). -/
def treeRise (t : Nat) (c : Chip) (a : Arr) (m : Mem) : Chip :=
  let c := keepLines (resetEdges t ((clockCells t c a m).startEdges t) m) a m
  (List.range 16).foldl (fun c p => if c.get .PMP_CTL_PSRC p = 2 + t then c.sampleEdge p (2 + t) else c) c

/-! Clock trees (R226 to R228, R280, R288) -/

/-- A source code of R226 as the hardware sees it: a lane's code is the recovered clock of the lane that serves its port (R288). -/
def Chip.clockSource (c : Chip) (code : Nat) : Nat := if 0x20 ≤ code && code ≤ 0x5F then 0x20 + c.portLane (code - 0x20) else code

/-- The source that tree `t` is to pass. -/
def Chip.treeSel (c : Chip) (t : Nat) : Nat :=
  c.clockSource (if bitB (c.get .RIM_CLK_STATUS_ON_ALT 0) t then c.get .RIM_CLK_SEL_ALT t else c.get .RIM_CLK_SEL_SRC t)

/-- Tree `t` is low and waits for the second rising edge of its new source, or for none (R228). -/
def Chip.treeWait (c : Chip) (t : Nat) : Chip :=
  let c := (c.set .H_TREE_LVL t 0).set .H_TREE_DEAD t 0
  if c.treeSel t = 0 then (c.set .H_TREE_SRC t 0).set .H_TREE_PH t 0 else c.set .H_TREE_PH t 2

/-- The selection of tree `t` may have changed: where it has, the old source still passes until its next falling edge, or the tree goes low at once where that source is
lost or there is none (R228). -/
def Chip.treeSwitch (c : Chip) (t : Nat) : Chip :=
  if c.treeSel t = c.get .H_TREE_SRC t && !c.on .H_TREE_DEAD t then c.set .H_TREE_PH t 0
  else if c.get .H_TREE_SRC t = 0 || c.on .H_TREE_DEAD t || 2 ≤ c.get .H_TREE_PH t then c.treeWait t
  else c.set .H_TREE_PH t 1

/-- Every tree whose source a failover or a revert of a lane changes. -/
def Chip.treesSwitch (c : Chip) : Chip :=
  (List.range 12).foldl (fun c t => if c.treeSel t = c.get .H_TREE_SRC t || c.get .H_TREE_PH t ≠ 0 || c.on .H_TREE_LOW t then c else c.treeSwitch t) c

/-- A source code of R226 is defined and allowed for tree `t`. -/
def clockCodeOk (t code : Nat) : Bool :=
  code ≤ 0x18 || (0x20 ≤ code && code ≤ 0x5F && t < 8) || code = 0x60 || (0x61 ≤ code && code ≤ 0x6C)

/-- A performed write of RIM_CLK_SEL returns the tree to SRC (R227, R228). -/
def Chip.clockSelected (c : Chip) (t : Nat) : Chip :=
  let c := c.set .RIM_CLK_STATUS_ON_ALT 0 (c.get .RIM_CLK_STATUS_ON_ALT 0 - bit (c.get .RIM_CLK_STATUS_ON_ALT 0) t * 2 ^ t)
  (c.set .H_TREE_LOW t 0).treeSwitch t

/-- The source of tree `t` shows no rising edge for 10.24 microseconds (R227, R228): the tree goes low, and with AUTO it switches to ALT. A lane's clock is never lost (R280). -/
def Chip.clockLoss (c : Chip) (t : Nat) : Chip :=
  let src := c.treeSel t
  if src = 0 || (0x20 ≤ src && src ≤ 0x5F) then c
  else
    let c := (c.set .RIM_CLK_STATUS_LOST 0 (orBit (c.get .RIM_CLK_STATUS_LOST 0) t)).set .H_TREE_DEAD t 1
    let c :=
      if c.on .RIM_CLK_SEL_AUTO t && !bitB (c.get .RIM_CLK_STATUS_ON_ALT 0) t then
        (c.set .RIM_CLK_STATUS_ON_ALT 0 (orBit (c.get .RIM_CLK_STATUS_ON_ALT 0) t)).treeWait t
      else (c.set .H_TREE_LOW t 1).set .H_TREE_LVL t 0
    c.raise 226

/-- Tree `t` takes level `v` of the source that it passes. -/
def treeLevel (t : Nat) (v : Bool) (c : Chip) (a : Arr) (m : Mem) : Chip :=
  let rises := v && !c.on .H_TREE_LVL t
  let c := (c.set .H_TREE_LVL t (b2n v)).set .H_TREE_DEAD t 0
  if rises then treeRise t c a m else c

/-- Source `code` rises or falls, at tree `t` (R228). -/
def treeFollow (code : Nat) (rising : Bool) (a : Arr) (m : Mem) (c : Chip) (t : Nat) : Chip :=
  let ph := c.get .H_TREE_PH t
  if c.on .H_TREE_LOW t then c
  else if ph ≤ 1 then
    if code ≠ c.get .H_TREE_SRC t then c
    else if ph = 1 && !rising then c.treeWait t
    else treeLevel t rising c a m
  else if code ≠ c.treeSel t || !rising then c
  else if ph = 2 then c.set .H_TREE_PH t 3
  else treeLevel t true ((c.set .H_TREE_SRC t code).set .H_TREE_PH t 0) a m

/-- Whether a source can show an edge to `rising`: of a clock-driver cell, where the cell stands at that level (R226). -/
def clockShows (code : Nat) (rising : Bool) (c : Chip) (a : Arr) (m : Mem) : Bool :=
  if 0x61 ≤ code && code ≤ 0x6C then
    c.sectorLive (code - 0x61) && (match rimValue c a m (code - 0x61) (m.sectorCfg (code - 0x61)).clockCell with | some v => v = rising | none => true)
  else code ≠ 0

/-- An edge of clock source `code` (R226, R228). Log 172 (DESIGN CHOICE). -/
def clockEdge (code : Nat) (rising : Bool) (c : Chip) (a : Arr) (m : Mem) : Chip :=
  if clockShows code rising c a m then (List.range 12).foldl (treeFollow code rising a m) c else c

/-! Reset trees (R229) -/

/-- Whether the source of reset tree `r` stands asserted: the SW_ASSERT bit, the active-low pin IOB<BANK>_2, or the reset-driver cell of a sector, which asserts at 1. Log 63
(DEDUCED). -/
def resetSource (r : Nat) (c : Chip) (a : Arr) (m : Mem) : Option Bool :=
  let b := c.get .RIM_RST_CTL_BANK r
  match c.get .RIM_RST_CTL_SRC r with
  | 0 => some false
  | 1 => some (c.on .RIM_RST_CTL_SW_ASSERT r)
  | 2 =>
    if c.inputOff b 2 then some true
    else match c.padSrc b 2 with | .level v => some (!v) | _ => some (!Config.padLevel c.now (b * 32 + 2))
  | _ => if c.sectorLive b then rimValue c a m b (m.sectorCfg b).resetCell else some false

/-- A performed write of RIM_RST_CTL: tree `r` follows the source it selects (R229). -/
def resetSelected (r : Nat) (c : Chip) (a : Arr) (m : Mem) : Chip :=
  let (v, c) := c.settle (resetSource r c a m)
  c.driveTree r v

/-- The pin or the reset-driver cell that is the source of reset tree `r` changes: the tree asserts at once, and follows a deassertion at the second rising edge of tree SYNC
(R229). A cell shows only the level at which it stands; a pin whose input is off shows none. -/
def resetTreeChange (r : Nat) (asserted : Bool) (c : Chip) (a : Arr) (m : Mem) : Chip :=
  match c.get .RIM_RST_CTL_SRC r with
  | 2 => if c.inputOff (c.get .RIM_RST_CTL_BANK r) 2 && !asserted then c else c.driveTree r asserted
  | 3 => if (resetSource r c a m).any fun v => v ≠ asserted then c else c.driveTree r asserted
  | _ => c

/-! Input taps (R220, R230, R231, R252) -/

/-- The taps that live sectors drive, each with the sectors' sources: a tap of another partition's tile is ignored (R220). -/
def Chip.tapDrives (c : Chip) (m : Mem) : List (Nat × Nat × RimSrc) :=
  c.liveSectors.flatMap fun k => ((m.sectorCfg k).taps.filter fun x => c.tapOwned k x.1).map fun x => (x.1 * 256 + x.2.1, k, x.2.2)

/-- The level of tap `key`: what drives it, and where several sectors drive it to different levels a free value. Log 171 (DESIGN CHOICE). -/
def tapLevel (c : Chip) (a : Arr) (m : Mem) (ds : List (Nat × Nat × RimSrc)) (key : Nat) : Option Bool :=
  match (ds.filter fun x => x.1 = key).map fun x => rimValue c a m x.2.1 x.2.2 with
  | [] => some false
  | v :: vs => if vs.all fun w => w = v then v else none

/-- The input taps as they stand in this period join the history of the last three (R231). -/
def tapsSnapshot (c : Chip) (a : Arr) (m : Mem) : Chip :=
  let ds := c.tapDrives m
  let (now, c) := ((ds.map Prod.fst).dedup).foldl
    (fun (r : NatMap × Chip) key => let (v, d) := r.2.settle (tapLevel c a m ds key); (NatMap.put 0 r.1 key (b2n v), d)) ([], c)
  { c with fab := { c.fab with taps1 := now, taps2 := c.fab.taps1, taps3 := c.fab.taps2 } }

/-! Pads (R270, R271) -/

/-- The level that the module drives on pin `i`, where it drives one. -/
def padDriven (c : Chip) (a : Arr) (m : Mem) (i : Nat) : Option Bool :=
  match c.padSrc (i / 32) (i % 32) with
  | .external => none
  | .level v => some v
  | .rim => do
    let x ← (m.sectorCfg (i / 32)).pins.find? fun x => x.1 = c.padPin i % 32
    if ← rimValue c a m (i / 32) x.2.2 then
      match padLevel (c.padCfg (c.padPin i)).std (c.get .IOB_BANK_CFG_VCCIO (i / 32)) ((← rimValue c a m (i / 32) x.2.1) ≠ (c.padPin i ≠ i)) with
      | .level v => return v
      | _ => none
    else none

/-- The pads that the module drives, as 1 + level. -/
def padsDriven (c : Chip) (a : Arr) (m : Mem) : NatMap :=
  (((List.range 12).filter fun b => c.bankState b = .function).flatMap fun b => (List.range 32).map fun n => b * 32 + n).foldl
    (fun r i => match padDriven c a m i with | some v => NatMap.put 0 r i (b2n v + 1) | none => r) []

/-- The pin-clock edge that has come in the last period is over: the pads as they stand are kept, those of the last four edges in all. -/
def padsSnapshot (c : Chip) (a : Arr) (m : Mem) : Chip :=
  let k := c.now / pinPeriod
  if k ≤ (c.now - c.unitsPerPeriod) / pinPeriod then c
  else { c with fab := { c.fab with pads := (k, padsDriven c a m) :: c.fab.pads.take 3 } }

/-- At a pin-clock edge the written AGP values reach the pads (R271). -/
def Chip.pinClock (c : Chip) : Chip :=
  if c.now / pinPeriod ≤ (c.now - c.unitsPerPeriod) / pinPeriod then c
  else (List.range 12).foldl Chip.agpReach c

/-! Transmit data of lanes (R279, R281, R282, R284 to R286) -/

/-- The number that the sources of one field of a transmit unit spell. -/
def unitField (read : RimSrc → Option Bool) (ds : List (Nat × LaneSig × RimSrc)) (u n : Nat) (sig : Nat → LaneSig) (c : Chip) : Nat × Chip :=
  (List.range n).foldl
    (fun (r : Nat × Chip) i =>
      match ds.find? fun d => d.1 = u && d.2.1 = sig i with
      | none => r
      | some d => let (v, c) := r.2.settle (read d.2.2); (r.1 + b2n v * 2 ^ i, c)) (0, c)

/-- The line bits of transmit unit `u` of port `i`, encoded for lane `l`; none where its valid bit is 0. -/
def unitBits (i l u : Nat) (c : Chip) (a : Arr) (m : Mem) : List Bool × Chip :=
  let k := laneSector i
  let ds := if c.sectorLive k then ((m.sectorCfg k).lanes.filter fun d => d.1 = i).map Prod.snd else []
  let read := rimValue c a m k
  let (valid, c) := unitField read ds u 1 (fun _ => .valid) c
  if valid = 0 then ([], c)
  else if c.laneEnc l = encRaw then
    let d := rateD (c.laneRate l)
    let (v, c) := unitField read ds u d .data c
    (natBits d v, c)
  else if c.laneEnc l = enc8b10b then
    let (v, c) := unitField read ds u 8 .data c
    let (kf, c) := unitField read ds u 1 (fun _ => .k) c
    let x := enc10 v (kf = 1) (c.on .H_TX_RD l)
    (x.1, c.set .H_TX_RD l (b2n x.2))
  else
    let (h, c) := unitField read ds u 2 .header c
    let (v, c) := unitField read ds u 64 .data c
    let x := scramble (c.get .H_SCRAM l) (natBits 64 v)
    (natBits 2 h ++ (if c.on .LQ_LANE_CTL_SCR l then x.1 else natBits 64 v), c.set .H_SCRAM l x.2)

/-- Units that a port may send in a period (R279). -/
def unitsPerWord (enc rate : Nat) : Nat := if enc = encRaw then 1 else if enc = enc8b10b then rateD rate / 10 else ceilDiv (rateD rate) 66

/-- The next word of the pattern generator of lane `l`: with INJ one bit of it is inverted, which one is a free value, and with INJ_RATE = n the last of every 2^(n + 10)
(R284 to R286). Log 166 (DESIGN CHOICE). -/
def Chip.patternWord (c : Chip) (l : Nat) : List Bool × Chip :=
  let rate := c.laneRate l
  let d := rateD rate
  let x := patBits (c.get .LQ_PRBS_CTL_PAT l) d (c.get .H_GEN l)
  let c := c.set .H_GEN l x.2
  let (at', c) := if c.on .LQ_PRBS_CTL_INJ l then c.fresh 16 else (0, c)
  let n := c.get .LQ_PRBS_CTL_INJ_RATE l
  let done := c.get .H_GEN_BITS l
  let err := fun (i : Nat) => (c.on .LQ_PRBS_CTL_INJ l && i = at' % d) ^^ (n ≠ 0 && (done + i + 1) % 2 ^ (n + 10) = 0)
  let w := x.1.zipIdx.map fun b => (b.1 ^^ c.on .LQ_PRBS_CTL_INV l) ^^ err b.2
  (if ratePam4 rate then grayPairs w else w, (c.set .LQ_PRBS_CTL_INJ l 0).set .H_GEN_BITS l ((done + d) % 2 ^ 26))

/-- `n` free line bits: what a transmitter sends where its port brings no valid unit. Log 173 (DESIGN CHOICE). -/
def Chip.fillBits (c : Chip) : Nat → List Bool × Chip
  | 0 => ([], c)
  | n + 1 => let (v, c) := c.fresh 1; let x := c.fillBits n; (decide (v = 1) :: x.1, x.2)

/-- The next word of port `i` on lane `l`: the units of this period are encoded behind those still to be sent. -/
def portWord (i l : Nat) (c : Chip) (a : Arr) (m : Mem) : List Bool × Chip :=
  let d := rateD (c.laneRate l)
  let (w, c) := (List.range (unitsPerWord (c.laneEnc l) (c.laneRate l))).foldl
    (fun (r : List Bool × Chip) u => let (b, c) := unitBits i l u r.2 a m; (r.1 ++ b, c)) ((c.laneBuf l).tx, c)
  let (fill, c) := c.fillBits (d - w.length)
  ((w ++ fill).take d, c.setLaneBuf { c.laneBuf l with tx := w.drop d })

/-- Lane `l` sends its next word; TXINV inverts it. -/
def laneWord (a : Arr) (m : Mem) (c : Chip) (l : Nat) : Chip :=
  let send := fun (x : List Bool × Chip) => x.2.set .H_TX_WORD l (bitsNat (x.1.map fun b => b ^^ x.2.on .LQ_LANE_CTL_TXINV l))
  match c.laneTx l with
  | .pattern => send (c.patternWord l)
  | .port i => send (portWord i l c a m)
  | _ => c.set .H_TX_WORD l 0

/-- Words of lane `l` that have been due by module time `t`, from its nominal line rate and D (R278). Log 174 (DESIGN CHOICE). -/
def Chip.wordsBy (c : Chip) (l t : Nat) : Nat := t * rateKbps (c.laneRate l) / (4800000 * rateD (c.laneRate l))

/-- The lanes send the words that fall due in this period. -/
def lanesPeriod (c : Chip) (a : Arr) (m : Mem) : Chip :=
  ((List.range 64).filter c.laneEn).foldl
    (fun c l => (List.range (c.wordsBy l (c.now + c.unitsPerPeriod) - c.wordsBy l c.now)).foldl (fun c _ => laneWord a m c l) c) c

/-! One period of the fabric -/

/-- The fabric in a step-clock period: the pads of the last pin-clock edge, the keepers, the taps, and what the lanes send. -/
def fabricPeriod (c : Chip) (a : Arr) (m : Mem) : Chip := lanesPeriod (tapsSnapshot (keepLines (padsSnapshot c a m) a m) a m) a m

/-- Drivers of one bus line overlap (R225): during an overlap the line is the OR of what they drive, and the keeper holds that once they are disabled. -/
def contention (bank line : Nat) (ds : List Nat) (ps : Nat) (c : Chip) (a : Arr) (m : Mem) : Chip :=
  let live := if c.sectorLive bank then c.liveDrivers bank line ds else []
  if live.length < 2 ∨ ps ≤ 200 then c
  else
    let on := (sectDrivers (m.sectorCfg bank) line).filter fun d => d.point ∈ live
    let (v, c) := on.foldl (fun (r : Bool × Chip) d => let (b, c) := r.2.settle (rimValue c a m bank d.data); (r.1 || b, c)) (false, c)
    { c with fab := { c.fab with keeper := NatMap.put 0 c.fab.keeper (bank * 64 + line) (b2n v) } }.busContention bank line ds ps

end Sys2Proof.Machine
end

