-- ==== Sys2Proof/Machine/Ethernet.lean ====
section
/-! DEFINITION. The service Ethernet ports (R290 to R292, R348): descriptor rings in service SRAM, PTP event messages and their stamps. -/

namespace Sys2Proof.Machine

/-- Whether bytes `[x, x + n)` of service SRAM lie in banks 2, 3 and 7 (R348). -/
def ethBanks (x n : Nat) : Bool := (0x400000 ≤ x && x + n ≤ 0x800000) || (0xE00000 ≤ x && x + n ≤ 0x1000000)

/-! PTP messages (R291) -/

/-- Big-endian 16-bit number at `i` of a frame. -/
def be16 (f : List Byte) (i : Nat) : Nat := (f.getD i 0).toNat * 256 + (f.getD (i + 1) 0).toNat

/-- Whether a UDP header at `u` goes to port 319 or 320. -/
def ptpPort (f : List Byte) (u : Nat) : Bool := be16 f (u + 2) = 319 || be16 f (u + 2) = 320

/-- Where the PTP message of a frame begins, over Ethernet, UDP over IPv4 or UDP over IPv6. -/
def ptpStart (f : List Byte) : Option Nat :=
  match be16 f 12 with
  | 0x88F7 => some 14
  | 0x0800 =>
    let u := 14 + (f.getD 14 0).toNat % 16 * 4
    if f.getD 23 0 = 17 ∧ ptpPort f u then some (u + 8) else none
  | 0x86DD => if f.getD 20 0 = 17 ∧ ptpPort f 54 then some 62 else none
  | _ => none

/-- messageType and sequenceId of a PTP message at `i`. -/
def ptpType (f : List Byte) (i : Nat) : Nat := (f.getD i 0).toNat % 16
def ptpSeq (f : List Byte) (i : Nat) : Nat := be16 f (i + 30)

/-- The place of the event message of a frame: messageType 0 to 3 of IEEE 1588. Log 76 (PRESUMED). -/
def ptpEvent (f : List Byte) : Option Nat :=
  match ptpStart f with
  | some i => if ptpType f i < 4 ∧ i < f.length then some i else none
  | none => none

/-- Replace the bytes of `f` from `i`. -/
def patch (f : List Byte) (i : Nat) (d : List Byte) : List Byte := f.take i ++ d ++ f.drop (i + d.length)

/-- Big-endian bytes. -/
def beBytes (n v : Nat) : List Byte := (toBytes n v).reverse

/-- Sum of the big-endian 16-bit words of bytes. -/
def wordSum : List Byte → Nat
  | a :: b :: l => a.toNat * 256 + b.toNat + wordSum l
  | [a] => a.toNat * 256
  | [] => 0

/-- Fold a one's-complement sum into 16 bits. -/
def fold16 (v : Nat) : Nat := if v = 0 then 0 else (v - 1) % 65535 + 1

/-- The UDP checksum over IPv6 after `old` bytes became `new` (R291). -/
def udpCorrect (sum : Nat) (old new : List Byte) : Nat :=
  let words := old.length / 2
  let v := 65535 - fold16 (65535 - sum + (words * 65535 - wordSum old) + wordSum new)
  if v = 0 then 65535 else v

/-- The frame with `origin` at originTimestamp of its Sync message at `i`, and its UDP checksum set to 0 or corrected (R291). -/
def oneStep (f : List Byte) (i : Nat) (origin : List Byte) : List Byte :=
  let g := patch f (i + 34) origin
  match be16 f 12 with
  | 0x0800 => patch g (i - 2) [0, 0]
  | 0x86DD => patch g (i - 2) (beBytes 2 (udpCorrect (be16 f (i - 2)) ((f.drop (i + 34)).take 10) origin))
  | _ => g

/-! Stamps -/

/-- A stamp of a transmitted event message enters port `p`'s two-step FIFO of 16 entries, or is discarded (R291). -/
def Chip.txStamp (c : Chip) (p typ seq : Nat) : Chip :=
  if (c.txTs.filter fun e => e.1 = p).length < 16 then
    { c with txTs := c.txTs ++ [(p, typ % 16 * 2 ^ 56 + seq % 65536 * 2 ^ 40 + c.stamp % 2 ^ 32)] }.raise (220 + p)
  else c.set .ETH_STATUS_TS_OVF p 1

/-- ETH_TX_TS of port `p` as it stands: the oldest stamp with VALID, or 0. -/
def Chip.txTsTop (c : Chip) (p : Nat) : Nat := match c.txTs.find? fun e => e.1 = p with | some e => 2 ^ 63 + e.2 | none => 0

/-- Remove the oldest stamp of port `p`. -/
def Chip.txTsPop (c : Chip) (p : Nat) : Chip :=
  match c.txTs.find? fun e => e.1 = p with | some e => { c with txTs := c.txTs.erase e } | none => c

/-- A write of ETH_PTP_NEXT_NS of port `p` arms the next epoch (R292). -/
def Chip.epochArm (c : Chip) (p ns : Nat) : Chip :=
  if 999999999 < ns then c else (c.set .ETH_PTP_NEXT_NS_NS p ns).set .H_EPOCH_ARM p 1

/-- The time-stamp domain's counter has wrapped: an armed value becomes EPOCH of port `p` (R292). Log 115 (DEDUCED). -/
def Chip.epochWrap (c : Chip) (p : Nat) : Chip :=
  if c.on .H_EPOCH_ARM p then
    ((((c.set .H_EPOCH_SEC p (c.get .ETH_PTP_NEXT_SEC_SEC p)).set .H_EPOCH_NS p (c.get .ETH_PTP_NEXT_NS_NS p)).set .H_EPOCH_ARM p 0).set
      .ETH_STATUS_EPOCH_VALID p 1)
  else c.set .ETH_STATUS_EPOCH_VALID p 0

/-- EPOCH + counter value as an originTimestamp: 6 bytes of seconds and 4 of nanoseconds. -/
def Chip.origin (c : Chip) (p : Nat) : List Byte :=
  let ns := c.get .H_EPOCH_NS p + c.stamp
  beBytes 6 (c.get .H_EPOCH_SEC p + ns / 1000000000) ++ beBytes 4 (ns % 1000000000)

/-! Rings (R348) -/

/-- A descriptor: its address, BUF, LEN and FLAGS. -/
structure EthDesc where
  at' : Nat
  buf : Nat
  len : Nat
  flags : Nat
deriving DecidableEq, Repr

/-- The descriptor of index `i` of a ring at `base`. -/
def ethDesc (base i : Nat) (c : Chip) (m : Mem) : EthDesc × Chip × Mem :=
  let x := base + 32 * i
  let h := sramRead 32 x 8 c m
  (⟨x, ofBytes (h.data.take 4), ofBytes ((h.data.drop 4).take 2), ofBytes ((h.data.drop 6).take 2)⟩, h.chip, h.mem)

/-- Return a descriptor: LEN, FLAGS and TIME are written, OWN is 0. -/
def EthDesc.finish (d : EthDesc) (len flags time : Nat) (c : Chip) (m : Mem) : Chip × Mem :=
  let h := sramWrite 32 (d.at' + 4) (toBytes 2 len ++ toBytes 2 flags ++ toBytes 8 time) c m
  (h.chip, h.mem)

/-- The next index of a ring of 2^`log2` entries. -/
def ringNext (log2 i : Nat) : Nat := (i + 1) % 2 ^ log2

/-- A frame for which port `p` has no descriptor is dropped and counted. -/
def Chip.ethDrop (c : Chip) (p : Nat) : Chip := c.count .ETH_RX_IDX_DROP p 1

/-- Put a frame into receive descriptor `d`: truncated to its buffer, or refused where the buffer lies outside banks 2, 3 and 7. -/
def ethStore (f : List Byte) (fcsOk : Bool) (d : EthDesc) (c : Chip) (m : Mem) : Chip × Mem :=
  if !ethBanks d.buf d.len then d.finish d.len 8 0 c m
  else
    let n := min f.length d.len
    let h := sramWrite (n + 1) d.buf (f.take n) c m
    let err := b2n (!fcsOk || d.len < f.length)
    let stamped := (ptpEvent f).isSome
    let time := if stamped then h.chip.stamp % 2 ^ 32 + h.chip.dom * 2 ^ 32 else 0
    d.finish n (err * 8 + b2n stamped * 16) time h.chip h.mem

/-- Whether port `p` is enabled with one of the options of R290: 1000BASE-X at RATE 0, 10GBASE-R at RATE 4, 25GBASE-R at RATE 6, which alone has RS-FEC. -/
def Chip.ethOption (c : Chip) (p : Nat) : Bool :=
  let rate := c.laneRate p
  c.on .ETH_CTL_EN p &&
    match c.get .ETH_CTL_MODE p with
    | 0 => rate = 0 && !c.on .ETH_CTL_FEC p
    | 1 => rate = 4 && !c.on .ETH_CTL_FEC p
    | _ => rate = 6

/-- ETH_STATUS.LINK of port `p`: an option of R290, its lane locked, and at 1000BASE-X the negotiation complete. Log 75 (DEDUCED), 167 (PRESUMED). -/
def Chip.ethLink (c : Chip) (p : Nat) : Bool :=
  c.ethOption p && c.on .LQ_LANE_STATUS_LOCK p && (c.get .ETH_CTL_MODE p ≠ 0 || 3 ≤ c.get .H_AN p)

/-- The longest frame (R290). -/
def maxFrame : Nat := 9216

/-- Port `p` receives a frame (R290, R291, R348). PAUSE frames are discarded. Log 77 (DEDUCED), 175 (DEDUCED). -/
def frameReceive (p : Nat) (f : List Byte) (fcsOk : Bool) (c : Chip) (m : Mem) : Chip × Mem :=
  if !c.ethLink p || be16 f 12 = 0x8808 || maxFrame < f.length then (c, m)
  else
    let hw := c.get .ETH_RX_IDX_HW p
    if hw = c.get .ETH_RX_IDX_SW p then (c.ethDrop p, m)
    else
      let (d, c, m) := ethDesc (c.get .ETH_RX_RING_OFFSET p * 64) hw c m
      if d.flags % 2 = 0 then (c.ethDrop p, m)
      else
        let (c, m) := ethStore f fcsOk d c m
        ((c.set .ETH_RX_IDX_HW p (ringNext (c.get .ETH_RX_RING_LOG2 p) hw)).raise (216 + 2 * p), m)

/-- The frame of a transmit descriptor leaves with the stamping its flags ask for (R291, R292). -/
def Chip.ethSend (c : Chip) (p flags : Nat) (f : List Byte) : Chip :=
  let out := fun (c : Chip) (g : List Byte) => { c with frames := (p, g) :: c.frames }
  match ptpEvent f with
  | none => out c f
  | some i =>
    let stamp := fun (c : Chip) => c.txStamp p (ptpType f i) (ptpSeq f i)
    if bitB flags 2 && ptpType f i = 0 then
      if c.on .ETH_STATUS_EPOCH_VALID p then out c (oneStep f i (c.origin p))
      else (stamp (out c f)).set .ETH_STATUS_EPOCH_MISS p 1
    else if bitB flags 1 then stamp (out c f)
    else out c f

/-- Port `p` sends the frame of its next owned transmit descriptor (R290, R348). Log 175 (DEDUCED). -/
def frameTransmit (p : Nat) (c : Chip) (m : Mem) : Chip × Mem :=
  let hw := c.get .ETH_TX_IDX_HW p
  if !c.ethOption p || hw = c.get .ETH_TX_IDX_SW p then (c, m)
  else
    let (d, c, m) := ethDesc (c.get .ETH_TX_RING_OFFSET p * 64) hw c m
    if d.flags % 2 = 0 then (c, m)
    else
      let next := fun (x : Chip × Mem) =>
        ((x.1.set .ETH_TX_IDX_HW p (ringNext (x.1.get .ETH_TX_RING_LOG2 p) hw)).raise (217 + 2 * p), x.2)
      if !ethBanks d.buf d.len || maxFrame < d.len then next (d.finish d.len (d.flags - 1 + (1 - bit d.flags 3) * 8) 0 c m)
      else
        let h := sramRead (d.len + 1) d.buf d.len c m
        next (d.finish d.len (d.flags - 1) 0 (h.chip.ethSend p d.flags h.data) h.mem)

/-! Registers (R303, R348) -/

/-- A write of ETH_CTL of port `p`. Log 74 (DEDUCED). -/
def Chip.writeEthCtl (c : Chip) (p v : Nat) : Chip :=
  if bits v 2 1 = 3 then c else ((c.set .ETH_CTL_FEC p (bit v 3)).set .ETH_CTL_MODE p (bits v 2 1)).set .ETH_CTL_EN p (bit v 0)

/-- A write of a ring register of port `p`: while EN = 0, with 2^4 to 2^12 descriptors. -/
def Chip.writeEthRing (c : Chip) (log2 offset : Fld) (p v : Nat) : Chip :=
  if c.on .ETH_CTL_EN p || bits v 31 28 < 4 || 12 < bits v 31 28 then c
  else (c.set log2 p (bits v 31 28)).set offset p (bits v 23 6)

end Sys2Proof.Machine
end

