-- ==== Sys2Proof/Machine/Mailbox.lean ====
section
/-! DEFINITION. Mailbox channels (R350 to R355): ends, commits, snapshots, takes, and resets of the ends. -/

namespace Sys2Proof.Machine

/-! Ends (R350, R351) -/

/-- An end of a channel. -/
inductive MbxEnd where
  | sender | receiver
deriving DecidableEq, Repr

/-- The port that owns channel `n`, for n below 32. -/
def Chip.mbxPort (c : Chip) (n : Nat) : Nat := if c.x16 then n / 16 else n / 8

/-- The end of an even channel (`first`) or of an odd one that a party takes which sends on even channels and receives on odd ones. -/
def mbxEnd (n : Nat) (sendsEven : Bool) : MbxEnd := if (n % 2 = 0) = sendsEven then .sender else .receiver

/-- The end of channel `n` that an initiator is, if any. -/
def Chip.mbxEndOf (c : Chip) (who : Init) (n : Nat) : Option MbxEnd :=
  match who with
  | .host k => if n < 32 ∧ c.mbxPort n = k then some (mbxEnd n true) else none
  | .core k sec =>
    if 4 ≤ k.val then none
    else if n < 32 then some (mbxEnd n false)
    else some (mbxEnd n (!(sec && k.val < 2)))

/-! Signals (R350) -/

/-- The arrival signal of channel `n`. -/
def Chip.mbxArrival (c : Chip) (n : Nat) : Chip :=
  if n < 32 then (if n % 2 = 0 then c.raise (96 + n) else c.msi (c.mbxPort n) 40)
  else if n % 2 = 0 then c.raise (128 + (n - 32)) else c

/-- The take signal of channel `n`. -/
def Chip.mbxTaken (c : Chip) (n : Nat) : Chip :=
  if n < 32 then (if n % 2 = 0 then c.msi (c.mbxPort n) 40 else c.raise (96 + n))
  else if n % 2 = 0 then c else c.raise (128 + (n - 32))

/-! Posting and taking (R352, R353) -/

/-- Copy the 16 words of channel `n` from one field to another. -/
def Chip.mbxCopy (c : Chip) (src dst : Fld) (n : Nat) : Chip :=
  (List.range 16).foldl (fun c w => c.set dst (n * 16 + w) (c.get src (n * 16 + w))) c

/-- A commit on channel `n` (R352). -/
def Chip.mbxCommit (c : Chip) (n : Nat) : Chip :=
  let c := (c.mbxCopy .H_MBX_STAGE .MBX_MSG_DATA n).bump .MBX_STATUS_SEQ n
  let c := if c.on .MBX_STATUS_FULL n then c.set .MBX_STATUS_COLLISION n 1 else c.set .MBX_STATUS_FULL n 1
  ((c.set .MBX_STATUS_SRESET n 0).set .MBX_STATUS_RRESET n 0).mbxArrival n

/-- A write of MBX_DOORBELL of channel `n` by its sender end. -/
def Chip.mbxDoorbell (c : Chip) (n ring : Nat) : Chip := if ring % 2 = 1 then c.mbxCommit n else c

/-- The receiver's read of word 0 of channel `n` latches the message and SEQ (R353): the word, and the state it leaves. -/
def Chip.mbxSnapshot (c : Chip) (n : Nat) : Nat × Chip :=
  (c.get .MBX_MSG_DATA (n * 16),
   ((c.mbxCopy .MBX_MSG_DATA .H_MBX_SNAP n).set .H_MBX_SNAPSEQ n (c.get .MBX_STATUS_SEQ n)).set .MBX_STATUS_SNAP n 1)

/-- The receiver's read of word 15 of channel `n` (R353): with a snapshot it is the take. -/
def Chip.mbxTake (c : Chip) (n : Nat) : Nat × Chip :=
  if !c.on .MBX_STATUS_SNAP n then (c.get .MBX_MSG_DATA (n * 16 + 15), c)
  else
    let v := c.get .H_MBX_SNAP (n * 16 + 15)
    let c := c.set .MBX_STATUS_SNAP n 0
    if c.get .MBX_STATUS_SEQ n = c.get .H_MBX_SNAPSEQ n then (v, (c.set .MBX_STATUS_FULL n 0).mbxTaken n) else (v, c)

/-- A read of word `w` of channel `n` by one of its ends. -/
def Chip.mbxRead (c : Chip) (side : MbxEnd) (n w : Nat) : Nat × Chip :=
  match side with
  | .sender => (c.get .H_MBX_STAGE (n * 16 + w), c)
  | .receiver =>
    if w = 0 then c.mbxSnapshot n
    else if w = 15 then c.mbxTake n
    else (c.get (if c.on .MBX_STATUS_SNAP n then .H_MBX_SNAP else .MBX_MSG_DATA) (n * 16 + w), c)

/-- Stage 16 words of channel `n` and commit them, as the firmware does (R352). -/
def Chip.mbxPost (c : Chip) (n : Nat) (ws : List Nat) : Chip :=
  ((List.range 16).foldl (fun c w => c.set .H_MBX_STAGE (n * 16 + w) (ws.getD w 0)) c).mbxCommit n

/-! Resets (R355) -/

/-- The `side` end of channel `n` is reset. -/
def Chip.mbxReset (c : Chip) (side : MbxEnd) (n : Nat) : Chip :=
  let full := c.on .MBX_STATUS_FULL n
  match side with
  | .sender =>
    let c := if full then c.set .MBX_STATUS_SRESET n 1 else c
    (List.range 16).foldl (fun c w => c.set .H_MBX_STAGE (n * 16 + w) 0) c
  | .receiver =>
    let c := if full then c.set .MBX_STATUS_RRESET n 1 else c
    c.set .MBX_STATUS_SNAP n 0

/-- Host port `k` is reset. -/
def Chip.mbxPortReset (c : Chip) (k : Nat) : Chip :=
  (List.range 32).foldl (fun c n => if c.mbxPort n = k then c.mbxReset (mbxEnd n true) n else c) c

/-- Core `k` is reset: core 2 or 3 resets the service end, core 0 or 1 the secure end. -/
def Chip.mbxCoreReset (c : Chip) (k : Nat) : Chip :=
  if k < 2 then (List.range 32).foldl (fun c n => c.mbxReset (mbxEnd (32 + n) false) (32 + n)) c
  else if k < 4 then (List.range 64).foldl (fun c n => c.mbxReset (mbxEnd n (32 ≤ n)) n) c
  else c

/-- A vault wipe writes zeros over channels 32 to 63 (R355, R394). -/
def Chip.mbxWipe (c : Chip) : Chip :=
  let c := ([Fld.H_MBX_STAGE, .H_MBX_SNAP, .MBX_MSG_DATA].foldl (fun c f => c.clearWhere f fun i => 512 ≤ i)) c
  [Fld.H_MBX_SNAPSEQ, .MBX_STATUS_SEQ, .MBX_STATUS_SRESET, .MBX_STATUS_RRESET, .MBX_STATUS_COLLISION, .MBX_STATUS_SNAP, .MBX_STATUS_FULL].foldl
    (fun c f => c.clearWhere f fun i => 32 ≤ i) c

/-! Messages of the service firmware (R356, R357, R359) -/

def utEvent : Nat := 0x7F00

/-- Channel pairs of a port. -/
def Chip.utPairs (c : Chip) : Nat := if c.x16 then 8 else 4

/-- The even channel of pair `j` of port `n`. -/
def Chip.utChannel (c : Chip) (n j : Nat) : Nat := 2 * (n * c.utPairs + j)

/-- The channel of port `n`'s events: the odd one of its last pair. -/
def Chip.eventChannel (c : Chip) (n : Nat) : Nat := c.utChannel n (c.utPairs - 1) + 1

/-- The 16 words of a message. -/
def utWords (ver typ id flags frag status : Nat) (payload : List Byte) : List Nat :=
  let b := toBytes 2 ver ++ toBytes 2 typ ++ toBytes 2 id ++ toBytes 1 flags ++ toBytes 1 frag ++ toBytes 2 payload.length ++ toBytes 2 status ++ payload
  (List.range 16).map fun w => ofBytes ((b.drop (4 * w)).take 4)

/-- The fragments of a payload, 52 bytes each; an empty payload has one. `flags` are those of every fragment but MORE. -/
def utFragments (ver typ id flags status : Nat) : Nat → Nat → List Byte → List (List Nat)
  | 0, _, _ => []
  | f + 1, frag, payload =>
    let rest := payload.drop 52
    utWords ver typ id (flags + b2n (rest ≠ [])) frag status (payload.take 52) ::
      (if rest = [] then [] else utFragments ver typ id flags status f (frag + 1) rest)

/-- Queue a message for channel `ch`. -/
def Chip.fwSend (c : Chip) (ch ver typ id flags status : Nat) (payload : List Byte) : Chip :=
  { c with fwOut := c.fwOut ++ (utFragments ver typ id flags status 64 0 payload).map fun ws => (ch, ws) }

/-- An EVENT message to port `n` (R359, R361). Log 112 (DEDUCED). -/
def Chip.utEventSend (c : Chip) (n code : Nat) (data : List Byte) : Chip :=
  c.fwSend (c.eventChannel n) (c.get .H_UT_VER n) utEvent 0 0 0 (toBytes 2 code ++ data)

end Sys2Proof.Machine
end

