-- ==== Sys2Proof/Machine/Dma.lean ====
section
/-! DEFINITION. DMA (R297 to R302) and network transactions in flight (R311 to R315). A channel is numbered port * 8 + channel. -/

namespace Sys2Proof.Machine

/-! Record codes (R300) -/

def dmaAborted : Nat := 1
def dmaDescErr : Nat := 2
def dmaHostErr : Nat := 6
def dmaTimeout : Nat := 7

/-- The place of a code in the order of R300's table. -/
def dmaRank (s : Nat) : Nat := match s with | 0 => 9 | 1 => 8 | n => n

/-- The first of two codes in that order. -/
def dmaJoin (a b : Nat) : Nat := if dmaRank a ≤ dmaRank b then a else b

/-- The code of a network status. -/
def Status.dma : Status → Nat
  | .ok => 0
  | .netTimeout => 7
  | .netNoTarget => 4
  | .netDenied => 3
  | .netAborted => 1
  | .dmUnmapped => 4
  | .dmAlign => 4
  | .dmNoAtomic => 4
  | .dmUe => 5
  | .dmChannel => 8

/-! Channels -/

/-- Ring entries of channel `ch`. -/
def Chip.dmaRing (c : Chip) (ch : Nat) : Nat := 2 ^ c.get .DMA_CH_RING_LOG2 ch

/-- The descriptor that channel `ch` executes. -/
def Chip.dmaItem (c : Chip) (ch : Nat) : Option DmaItem := c.dma.find? fun x => x.chan = ch

/-- Replace the descriptor in execution of a channel. -/
def Chip.putItem (c : Chip) (x : DmaItem) : Chip := { c with dma := c.dma.map fun y => if y.chan = x.chan then x else y }

/-- Drop it. -/
def Chip.dropItem (c : Chip) (ch : Nat) : Chip := { c with dma := c.dma.filter fun x => x.chan ≠ ch }

/-- Whether channel `ch` awaits a transaction (DMA_CH_STATUS.BUSY). -/
def Chip.dmaBusy (c : Chip) (ch : Nat) : Bool := c.txns.any fun t => t.chan = ch && t.live

/-- A tag of channel `ch` that is not in use (R312). Log 81 (DEDUCED). -/
def Chip.freeTag (c : Chip) (ch : Nat) : Option Nat :=
  ((List.range 256).map fun j => 0x8000 + ch * 256 + j).find? fun g => !c.txns.any fun t => t.tag = g

/-- A DMA descriptor (R298). -/
structure DmaDesc where
  hostAddr : Nat
  design : Nat
  length : Nat
  ctrl : Nat
  user : Nat
deriving DecidableEq, Repr

/-- The descriptor in 32 bytes of host memory; `none` where the read of them has failed and delivered fewer. -/
def dmaDecode (b : List Byte) : Option DmaDesc :=
  let f := fun i n => ofBytes ((b.drop i).take n)
  if b.length < 32 then none else some ⟨f 0 8, f 8 8, f 16 4, f 20 4, f 24 8⟩

/-- Whether a descriptor's fields are in order (R298, R300). -/
def dmaDescOk (d : DmaDesc) : Bool :=
  bit d.ctrl 3 = 0 && d.ctrl < 256 && 1 ≤ d.length && d.length ≤ 16777216 && d.design + d.length ≤ 2 ^ 40

/-- The descriptor of which a channel has read `b`, with its status so far. USER and IRQ of one that could not be read are free values. Log 79 (DEDUCED). -/
def Chip.dmaFetch (c : Chip) (b : List Byte) : DmaDesc × Nat × Chip :=
  match dmaDecode b with
  | some d => (d, if dmaDescOk d then 0 else dmaDescErr, c)
  | none =>
    let (user, c) := c.fresh 64
    let (irq, c) := c.fresh 1
    (⟨0, 0, 0, irq * 2, user⟩, dmaHostErr, c)

/-- Channel `ch` takes the next descriptor (R297, R300): one at a time, so a failure leaves those after it unexecuted. Log 78 (DEDUCED). -/
def Chip.dmaStart (c : Chip) (ch : Nat) (b : List Byte) : Chip :=
  let i := c.get .H_DMA_NEXT ch
  let (d, st, c) := c.dmaFetch b
  let x : DmaItem := ⟨ch, i, d.hostAddr, d.design, d.length, d.ctrl, d.user, 0, 0, st, st ≠ 0, false⟩
  { c with dma := c.dma ++ [x] }.set .H_DMA_NEXT ch ((i + 1) % c.dmaRing ch)

/-- Whether the partition of a descriptor is bound to its port (R123, R300). -/
def Chip.dmaBound (c : Chip) (x : DmaItem) : Bool := c.get .PTN_CFG_BIND (bits x.ctrl 7 4) = x.chan / 8

/-- What the target of a transaction of `n` bytes at design address `a` does (R123, R155); behind a failed die link it does nothing (R401). -/
def dmaAccess (x : DmaItem) (a n : Nat) (data : List Byte) (c : Chip) (m : Mem) : Hit :=
  let p := bits x.ctrl 7 4
  if !c.dmaBound x then ⟨.netDenied, [], c, m⟩
  else if c.cutOff routerHub (c.routerOf (c.place p a false)) then ⟨.netTimeout, [], c, m⟩
  else if bitB x.ctrl 0 then netRead c m p a n false
  else netWrite c m p a (data.take n) false

/-- The status of a transaction whose host data have not come: a failure that R300 checks before HOST_ERR, or that. -/
def Chip.dmaNoData (c : Chip) (x : DmaItem) (a : Nat) : Nat :=
  if !c.dmaBound x then Status.netDenied.dma
  else
    match c.place (bits x.ctrl 7 4) a false with
    | .unmapped | .outside => Status.dmUnmapped.dma
    | _ => dmaHostErr

/-- Issue up to `k` transactions of the descriptor in execution (R300, R312, R313). `data` is what the reads of host memory have delivered for
them; a read that has not delivered its bytes has failed. -/
def dmaIssue (ch : Nat) : Nat → List Byte → Chip → Mem → Chip × Mem
  | 0, _, c, m => (c, m)
  | k + 1, data, c, m =>
    match c.dmaItem ch, c.freeTag ch with
    | some x, some tag =>
      let a := x.design + x.issued
      let n := min (256 - a % 256) (x.len - x.issued)
      if x.stopped || x.len ≤ x.issued then (c, m)
      else if !bitB x.ctrl 0 && data.length < n then (c.putItem { x with status := dmaJoin x.status (c.dmaNoData x a), stopped := true }, m)
      else
        let target := c.routerOf (c.place (bits x.ctrl 7 4) a false)
        let h := dmaAccess x a n data c m
        let t : Txn := { tag := tag, gen := c.get .H_TAG_GEN tag, chan := ch, bytes := n, status := h.status.dma, hostAddr := x.hostAddr + x.issued,
                         data := h.data, since := c.now, target := target, deepCh := c.placeChannel (c.place (bits x.ctrl 7 4) a false) }
        dmaIssue ch k (data.drop n) ({ h.chip with txns := h.chip.txns ++ [t] }.putItem { x with issued := x.issued + n }) h.mem
    | _, _ => (c, m)

/-! Records (R299, R301) -/

/-- Interrupt of channel `ch` (R296, R298, R340). -/
def Chip.dmaIrq (c : Chip) (ch : Nat) : Chip := (c.msi (ch / 8) (32 + ch % 8)).raise (168 + ch)

/-- Channel `ch` stops with EN = 0. -/
def Chip.dmaStop (c : Chip) (ch : Nat) : Chip := ((c.set .DMA_CH_CTL_EN ch 0).set .DMA_CH_CTL_ABORT ch 0).raise (168 + ch)

/-- Write the completion record of index `i` of channel `ch`. -/
def Chip.dmaRecord (c : Chip) (ch i user bytes status : Nat) (irq : Bool) : Chip :=
  let phase := 1 - c.get .H_DMA_PASS ch
  let rec' := toBytes 8 user ++ toBytes 4 bytes ++ toBytes 2 i ++ toBytes 1 status ++ toBytes 1 phase
  let c := { c with host := ⟨ch / 8, c.get .DMA_CH_CPL_BASE_ADDR ch * 64 + 16 * i, rec'⟩ :: c.host }
  let next := (i + 1) % c.dmaRing ch
  let c := c.set .DMA_CH_STATUS_CI ch next
  let c := if next = 0 then c.set .H_DMA_PASS ch phase else c
  if irq then c.dmaIrq ch else c

/-- A later descriptor of an aborted channel, of which it has read `b`, receives its record with ABORTED (R301). -/
def Chip.dmaAbortOne (ch : Nat) (c : Chip) (b : List Byte) : Chip :=
  let i := c.get .H_DMA_NEXT ch
  if i = c.get .DMA_CH_PI_PI ch then c
  else
    let (d, _, c) := c.dmaFetch b
    (c.set .H_DMA_NEXT ch ((i + 1) % c.dmaRing ch)).dmaRecord ch i d.user 0 dmaAborted (bitB d.ctrl 1)

/-- An aborted channel with nothing left in execution: the later descriptors that it has read receive their records, and after the last one it stops (R301). Log 79 (DEDUCED). -/
def Chip.dmaAbortRest (c : Chip) (ch : Nat) (rest : List (List Byte)) : Chip :=
  let c := rest.foldl (Chip.dmaAbortOne ch) c
  if c.get .H_DMA_NEXT ch = c.get .DMA_CH_PI_PI ch then c.dmaStop ch else c

/-- Channel `ch` executes: it goes on with its descriptor, or takes the next one, of which it has read `b`, from host memory (R297, R300); an aborted channel only records it. -/
def dmaDescriptor (ch : Nat) (b : List Byte) (count : Nat) (data : List Byte) (c : Chip) (m : Mem) : Chip × Mem :=
  if !c.on .DMA_CH_CTL_EN ch then (c, m)
  else if (c.dmaItem ch).isSome then (if c.on .DMA_CH_CTL_ABORT ch then (c, m) else dmaIssue ch count data c m)
  else if c.on .DMA_CH_CTL_ABORT ch then (c.dmaAbortRest ch [b], m)
  else if c.get .H_DMA_NEXT ch = c.get .DMA_CH_PI_PI ch then (c, m)
  else dmaIssue ch count data (c.dmaStart ch b) m

/-- The status of a descriptor whose transactions have all ended. -/
def DmaItem.final (x : DmaItem) : Nat := if x.status = 0 ∧ x.aborted then dmaAborted else x.status

/-- All of the descriptor in execution has ended: its record, and what follows a failure or an abort (R299 to R301). -/
def Chip.descriptorComplete (c : Chip) (ch : Nat) (rest : List (List Byte)) : Chip :=
  match c.dmaItem ch with
  | none => c
  | some x =>
    if c.dmaBusy ch || (x.issued < x.len && !x.stopped) then c
    else
      let st := x.final
      let c := (c.dropItem ch).dmaRecord ch x.index x.user (if st = dmaAborted then x.issued else x.done) st (bitB x.ctrl 1)
      let c := if 1 < st then c.set .DMA_CH_STATUS_ERR ch 1 else c
      if c.on .DMA_CH_CTL_ABORT ch then c.dmaAbortRest ch rest
      else if st = 0 then c
      else c.dmaStop ch

/-- A 1 written to ABORT of channel `ch` (R301). A channel that is stopped already has nothing to abort. -/
def Chip.dmaAbort (c : Chip) (ch : Nat) (rest : List (List Byte)) : Chip :=
  if !c.on .DMA_CH_CTL_EN ch then c
  else
    let c := c.set .DMA_CH_CTL_ABORT ch 1
    match c.dmaItem ch with
    | none => c.dmaAbortRest ch rest
    | some x => if x.issued < x.len && !x.stopped then c.putItem { x with stopped := true, aborted := true } else c

/-! Completions (R311, R314, R315) -/

/-- Transaction `t` ends with code `status`: its data go to the host, its bytes and its failure to the descriptor, and its tag is free (R299 to R302). -/
def Chip.dmaEnd (c : Chip) (t : Txn) (status : Nat) (data : List Byte) : Chip :=
  let c := { c with txns := c.txns.erase t }
  match (if t.live then c.dmaItem t.chan else none) with
  | none => c
  | some x =>
    let c := if data = [] then c else { c with host := ⟨t.chan / 8, t.hostAddr, data⟩ :: c.host }
    if status = 0 then (if x.status = 0 then c.putItem { x with done := x.done + t.bytes } else c)
    else c.putItem { x with status := dmaJoin x.status status, stopped := true }

/-- Whether an access of an agent holds tag `g` (R312). -/
def Arr.accOfTag (a : Arr) (g : Nat) : Option Access :=
  a.accs.find? fun x => 3 ≤ x.kind && !x.arrived && (x.agent / 4) * 64 + x.agent % 4 * 16 + x.place = g

/-- A response with generation `gen` arrives for tag `g`, after `retries` retries on die links (R311, R314, R400). Log 84 (DEDUCED). -/
def txnComplete (g gen retries : Nat) (c : Chip) (a : Arr) : Chip × Arr :=
  let c := if retries = 0 then c else c.count .FLT_CNT_COUNT 6 retries
  if gen ≠ c.get .H_TAG_GEN g then (c.count .NOC_LATE_CNT_COUNT 0 1, a)
  else
    match c.txns.find? fun t => t.tag = g with
    | some t => (if c.cutOff routerHub t.target then c else c.dmaEnd t t.status t.data, a)
    | none =>
      match a.accOfTag g with
      | some x => (c, deepReturn x.agent x.place c a)
      | none => (c, a)

/-- The timeout of a transaction issued at `since` has passed. -/
def Chip.netExpired (c : Chip) (since : Nat) : Bool := since + c.get .NOC_TIMEOUT_US 0 * Chip.us ≤ c.now

/-- A timeout is counted and located, and the tag's generation advances (R314). -/
def Chip.netTimedOut (c : Chip) (g source target : Nat) : Chip :=
  let c := (c.bump .H_TAG_GEN g).count .NOC_TIMEOUT_CNT_COUNT 0 1
  if c.on .NOC_ERR_LOC_VALID 0 then c
  else ((((c.set .NOC_ERR_LOC_VALID 0 1).set .NOC_ERR_LOC_TAG 0 g).set .NOC_ERR_LOC_TARGET 0 target).set .NOC_ERR_LOC_SOURCE 0 source).raise 246

/-- NOC_TIMEOUT has passed without a response for tag `g` (R314). An agent that is so answered takes a value the spec does not give. Log 82 (DEDUCED). -/
def netTimeout (g : Nat) (c : Chip) (a : Arr) : Chip × Arr :=
  match c.txns.find? fun t => t.tag = g with
  | some t => if c.netExpired t.since then ((c.netTimedOut g routerHub t.target).dmaEnd t dmaTimeout [], a) else (c, a)
  | none =>
    match a.accOfTag g with
    | none => (c, a)
    | some x =>
      if c.netExpired x.since then
        let (v, c) := (c.netTimedOut g (x.agent / 4) x.target).fresh 64
        let x' := if x.kind = issDread then { x with data := v } else x
        (c, deepArrival x.agent x.place { a with accs := a.accs.map fun y => if y = x then x' else y })
      else (c, a)

/-- Tags in use (NOC_STATUS): those of DMA transactions, of the other calls in flight and of deep accesses. -/
def tagsUsed (c : Chip) (a : Arr) : Nat := c.txns.length + c.calls.length + (a.accs.filter fun x => 3 ≤ x.kind && !x.arrived).length

/-! Loss and reset of a port (R302, R315) -/

/-- Channels of port `n`. -/
def dmaChans (n : Nat) : List Nat := (List.range 8).map fun k => n * 8 + k

/-- The channels of port `n` stop with LOSS = 1; what is in flight is performed, and its completions are discarded. Log 80 (DEDUCED). -/
def Chip.dmaLoss (c : Chip) (n : Nat) : Chip :=
  let c := { c with
    dma := c.dma.filter fun x => x.chan / 8 ≠ n
    txns := c.txns.map fun t => if t.chan / 8 = n then { t with live := false } else t }
  (dmaChans n).foldl
    (fun c ch =>
      let was := c.on .DMA_CH_CTL_EN ch
      let c := (((c.set .DMA_CH_CTL_EN ch 0).set .DMA_CH_CTL_ABORT ch 0).set .DMA_CH_STATUS_LOSS ch 1).set .H_DMA_NEXT ch (c.get .DMA_CH_STATUS_CI ch)
      if was then c.raise (168 + ch) else c) c

/-- Port `n` is reset: its DMA registers return to their reset values, but for LOSS and CI (R302, R303). -/
def Chip.dmaReset (c : Chip) (n : Nat) : Chip :=
  (dmaChans n).foldl
    (fun c ch => c.unsetAll [.DMA_CH_DESC_BASE_ADDR, .DMA_CH_CPL_BASE_ADDR, .DMA_CH_RING_LOG2, .DMA_CH_PI_PI, .DMA_CH_STATUS_CFG_REJ,
      .DMA_CH_STATUS_ERR, .H_DMA_PASS] ch) (c.dmaLoss n)

/-! Registers (R297, R303, R390) -/

/-- A write to a DMA register of channel `ch` is not performed. -/
def Chip.dmaReject (c : Chip) (ch : Nat) : Chip := c.set .DMA_CH_STATUS_CFG_REJ ch 1

/-- A write of DMA_CH_PI (R297): an index that fits the ring, and not during a QUIESCE (R390). -/
def Chip.writeDmaPi (c : Chip) (ch v : Nat) : Chip :=
  if c.dmaRing ch ≤ v % 65536 || c.on .H_QUIESCE 0 then c.dmaReject ch else c.set .DMA_CH_PI_PI ch v

/-- A write of DMA_CH_CTL (R300, R301). -/
def Chip.writeDmaCtl (c : Chip) (ch v : Nat) : Chip :=
  let c := if bitB v 1 then c.dmaAbort ch [] else c
  if c.on .DMA_CH_CTL_ABORT ch || bitB v 1 then c else c.set .DMA_CH_CTL_EN ch (bit v 0)

/-- A write of a ring's base or size: while EN = 0; 16 to 65,536 entries. -/
def Chip.writeDmaBase (c : Chip) (f : Fld) (ch v : Nat) : Chip := if c.on .DMA_CH_CTL_EN ch then c.dmaReject ch else c.set f ch v
def Chip.writeDmaRing (c : Chip) (ch v : Nat) : Chip :=
  if c.on .DMA_CH_CTL_EN ch || bits v 4 0 < 4 || 16 < bits v 4 0 then c.dmaReject ch else c.set .DMA_CH_RING_LOG2 ch (bits v 4 0)

/-! Failed channels (R158, R400) -/

/-- Accesses in flight that channel `x` serves fail with status DM_CHANNEL once it and, in a mirrored stack, its pair have failed: a design read returns 0 at its
return step and sets DEEP_UE (R158). What a write in flight has written stays. Log 28 (DEDUCED). -/
def inFlightFail (x : Nat) (c : Chip) (a : Arr) : Chip × Arr :=
  if c.channelDead x then
    let hit := fun (y : Access) => y.deepCh = x && 3 ≤ y.kind && !y.arrived
    let c := (List.range 16).foldl
      (fun c p => if a.accs.any fun y => hit y && y.live && y.kind = issDread && c.accOf p y then c.dmErr .DM_ERR_DEEP_UE p else c) c
    ({ c with txns := c.txns.map fun t => if t.deepCh = x then { t with status := if t.status = 0 then Status.dmChannel.dma else t.status, data := [] } else t },
      { a with accs := (a.accs.map fun y => if hit y then { y with arrived := true, data := 0 } else y).filter fun y => y.live || !y.arrived })
  else (c, a)

/-- The failure of a channel and what it does to accesses in flight (R158, R400). -/
def channelLost (k ch : Nat) (c : Chip) (a : Arr) : Chip × Arr :=
  if c.chFailed k ch ∨ c.dies ≤ k / 2 then (c, a)
  else
    let (c, a) := inFlightFail (1 + k * 16 + if c.mirrored k then ch / 2 * 2 else ch) (c.channelFail k ch) a
    (c.faultN, a)

end Sys2Proof.Machine
end

