-- ==== Sys2Proof/Machine/Ports.lean ====
section
/-! DEFINITION. The PCIe host ports (R130, R293 to R296, R302, R318, R355): resets, links, losses; and the failure of a die link (R401). -/

namespace Sys2Proof.Machine

/-! Configuration space (R294) -/

/-- What the configuration space of a port shows of its function: identity, sizes of its BARs in bytes (0: absent), limits in bytes, the MSI-X table, and the capabilities that
are there. -/
structure CfgSpace where
  vendor : Nat
  device : Nat
  classCode : Nat
  bar0 : Nat
  bar2 : Nat
  maxPayload : Nat
  maxReadRequest : Nat
  msixVectors : Nat
  msixTable : Nat
  msixPba : Nat
  serial : Nat
  dStates : List Nat
  aer : Bool
  ltr : Bool
  flr : Bool
  aspmL1 : Bool
  aspmL0s : Bool
  l0p : Bool
  sriov : Bool
  msi : Bool
deriving DecidableEq, Repr

/-- The configuration space of every port (R294). No command of the table writes it, so a reset of the port (R295) leaves it as it is: at its reset values. D-states 0 and 3 stand for D0
and the two of D3. Log 179 (DEDUCED). -/
def Chip.cfgSpace (c : Chip) : CfgSpace where
  vendor := Config.vendorId.toNat
  device := match c.grade with | .vdx410 => 0x0410 | .vdx420 => 0x0420 | .vdx440 => 0x0440
  classCode := 0x120000
  bar0 := 0x10000000
  bar2 := 0x1000000000
  maxPayload := 512
  maxReadRequest := 4096
  msixVectors := 48
  msixTable := 0xD80000
  msixPba := 0xD81000
  serial := Config.serial
  dStates := [0, 3]
  aer := true
  ltr := true
  flr := true
  aspmL1 := true
  aspmL0s := false
  l0p := true
  sriov := false
  msi := false

/-! Resets of a port (R16, R295, R302, R318, R355) -/

/-- The number of an initiator in the keys of its latches (R16): 0 to 3 a host port, 4 to 11 a core. -/
def initNumber : Init → Nat
  | .host n => n.val
  | .core k _ => 4 + k.val

/-- The latches and held low halves of initiator number `w` are discarded (R16). A key is register * 16 + initiator. -/
def Chip.dropLatches (c : Chip) (w : Nat) : Chip :=
  { c with latch := c.latch.filter fun e => e.1 % 16 ≠ w, held := c.held.filter fun e => e.1 % 16 ≠ w }

/-- The MSI-X state of port `n` at its reset values. -/
def Chip.msixReset (c : Chip) (n : Nat) : Chip :=
  let c := [Fld.MSIX_ADDR_LO_ADDR, .MSIX_ADDR_HI_ADDR, .MSIX_DATA_DATA, .MSIX_CTRL_MASK].foldl (fun c f => c.clearWhere f fun i => i / 48 = n) c
  c.clearWhere .MSIX_PBA_BIT fun i => i / 64 = n

/-- The number of the initiator of an access that waits; a command has none. -/
def Deferred.by : Deferred → Option Nat
  | .read who .. | .write who .. | .atomic who .. => some (initNumber who)
  | .bar2Read n .. | .bar2Write n .. => some n.val
  | _ => none

/-- The number of the initiator of a transaction; a probe engine has none. -/
def CallKind.by : CallKind → Option Nat
  | .access who .. => some (initNumber who)
  | .bar2 n .. => some n.val
  | .post k => some (4 + k)
  | .drain _ => none

/-- Initiator number `w` is reset or lost (R315): what has not left it is abandoned (NET_ABORTED), and the completions of what has left are discarded. -/
def Chip.abandon (c : Chip) (w : Nat) : Chip :=
  { c with
    waiting := c.waiting.filter fun d => d.by ≠ some w
    calls := c.calls.map fun k => if k.kind.by = some w then { k with live := false } else k }

/-- A reset of host port `n` under R295, whatever its cause. -/
def Chip.portReset (c : Chip) (n : Nat) : Chip :=
  let c := (((((c.msixReset n).dmaReset n).mbxPortReset n).dropLatches n).abandon n)
  c.unsetAll [.H_BAR2_OUT, .GLB_BAR2_SEL_CFG_REJ, .GLB_BAR2_SEL_WIN, .GLB_BAR2_SEL_PART, .GLB_ACC_ERR_COUNT, .GLB_ACC_LOC_VALID, .GLB_ACC_LOC_BAR2,
    .GLB_ACC_LOC_WRITE, .GLB_ACC_LOC_OFFSET] n

/-! Loss of a host (R130 to R133, R190, R302, R345) -/

/-- Trace to the host memory of port `n` stops (R345). -/
def Chip.sinkLost (c : Chip) (n : Nat) : Chip :=
  if c.on .TRC_CTL_EN 0 && c.on .TRC_CTL_SINK 0 && c.get .TRC_CTL_PORT 0 = n then
    ((c.set .TRC_CTL_EN 0 0).set .TRC_STATUS_SINK_LOST 0 1).raise 254
  else c

/-- Host port `n` is lost: its partitions, its DMA, the loads that read from it and the trace sink. -/
def portLost (n : Nat) (c : Chip) (a : Arr) (m : Mem) : Chip × Arr × Mem :=
  if c.on .H_LOST n then (c, a, m)
  else sourcesLost n ((((c.hostLoss n).dmaLoss n).sinkLost n).abandon n) a m

/-! Links (R130, R295) -/

/-- The link of port `n` leaves the active state: the port is reset, and its host told of no more. -/
def Chip.linkLeaves (c : Chip) (n : Nat) : Chip :=
  let up := c.on .H_LINKUP n
  let c := (((c.set .H_LINKUP n 0).set .DMA_PORT_STATUS_SPEED n 0).set .DMA_PORT_STATUS_WIDTH n 0).portReset n
  if up then c.raise (164 + n) else c

/-- Port `n` is reset and its host lost, as at PERST_N (R130, R295). -/
def portHold (n : Nat) (c : Chip) (a : Arr) (m : Mem) : Chip × Arr × Mem := portLost n ((c.linkLeaves n).set .H_LINK_DUE n 0) a m

/-- PERST_N[n] asserts. -/
def perstAssert (n : Nat) (c : Chip) (a : Arr) (m : Mem) : Chip × Arr × Mem :=
  if !c.portExists n || c.on .H_PERST n then (c, a, m) else portHold n (c.set .H_PERST n 1) a m

/-- PERST_N[n] deasserts: the port retrains, and LINK_RETURN tells when it has. -/
def Chip.perstDeassert (c : Chip) (n : Nat) : Chip := c.set .H_PERST n 0

/-- The link of port `n` leaves the active state by itself. -/
def Chip.linkDown (c : Chip) (n : Nat) : Chip :=
  if c.on .H_LINKUP n then (c.linkLeaves n).setDue .H_LINK_DUE n (1000 * Chip.us) else c

/-- Whether the link of port `n` may be in the active state (R293, R295, R362, R381, R389, R391, R398). -/
def Chip.mayTrain (c : Chip) (n : Nat) : Bool :=
  c.portExists n && !c.on .H_PERST n && !c.on .H_ABSENT 0 && !c.on .FLT_SRC_BOOT 0 && c.get .PWR_STATE_STATE 0 < 3 && c.get .LC_STATE_STATE 0 ≠ 5

/-- A lane count to which a port of this mode trains (R293). -/
def Chip.widthOk (c : Chip) (w : Nat) : Bool := w = 1 || w = 2 || w = 4 || w = 8 || (c.x16 && w = 16)

/-- The host of port `n` has completed a HELLO: it has returned, and its next loss is a new one (R130, R132). -/
def Chip.hostBack (c : Chip) (n : Nat) : Chip := if c.on .H_LINKUP n then c.set .H_LOST n 0 else c

/-- The link of port `n` has trained to the active state at a speed code 1 to 6 and a width (R295): its host is back. Log 87 (DEDUCED). -/
def Chip.linkReturn (c : Chip) (n speed width : Nat) : Chip :=
  if c.mayTrain n && !c.on .H_LINKUP n && 1 ≤ speed && speed ≤ 6 && c.widthOk width then
    (((((c.set .H_LINKUP n 1).set .H_LOST n 0).set .H_LINK_DUE n 0).set .DMA_PORT_STATUS_SPEED n speed).set .DMA_PORT_STATUS_WIDTH n width).raise
      (164 + n)
  else c

/-- The link of port `n` has not returned within 1 ms. -/
def linkTimeout (n : Nat) (c : Chip) (a : Arr) (m : Mem) : Chip × Arr × Mem :=
  if c.due .H_LINK_DUE n && !c.on .H_LINKUP n then portLost n (c.set .H_LINK_DUE n 0) a m else (c, a, m)

/-- Hot plug reports a surprise removal at port `n`; the link's own fall is a link-down. Log 86 (DEDUCED). -/
def surpriseRemoval (n : Nat) (c : Chip) (a : Arr) (m : Mem) : Chip × Arr × Mem := if c.portExists n then portLost n c a m else (c, a, m)

/-- A function-level reset of port `n`: the link is kept (R295, R340). -/
def Chip.functionReset (c : Chip) (n : Nat) : Chip := if c.on .H_LINKUP n then (c.portReset n).raise (164 + n) else c

/-! A die link fails (R401, R406, R407) -/

/-- The partitions that own a band of die `d`. -/
def Chip.partsOnDie (c : Chip) (d : Nat) : List Nat :=
  (List.range 16).filter fun p => (List.range 16).any fun b => c.ownsBand p (d * 16 + b)

/-- Eight consecutive retries of one flit fail the link of die `d`: every partition on that die is reset. The retries are counted (R400). -/
def linkFail (d : Nat) (c : Chip) (a : Arr) : Chip × Arr :=
  if c.dies ≤ d ∨ c.on .H_LINK_FAIL d then (c, a)
  else
    let c := ((c.set .H_LINK_FAIL d 1).set .FLT_SRC_LINK 0 1).count .FLT_CNT_COUNT 6 8
    let (c, a) := (c.partsOnDie d).foldl (fun (x : Chip × Arr) p => partitionResetIf p (x.1.logFault fltLinkFail p d) x.2) (c, a)
    (c.faultN, a)

end Sys2Proof.Machine
end

