-- ==== Sys2Proof/Machine/Service.lean ====
section
/-! DEFINITION. What the service cores do (R321, R328 to R349): posts, takes, claims, trace packets and flushes, core resets; and the
events of the interrupt sources (R340, R341). -/

namespace Sys2Proof.Machine

/-! Rights (R319, R323) -/

/-- An access of core `k` is not performed (R323). -/
def Chip.coreDenied (c : Chip) (k : Nat) : Chip := (c.count .SVC_ACC_ERR_COUNT k 1).answer .netNoTarget 0xFFFFFFFF

/-! The scheduler (R329 to R333) -/

/-- The first tag of core `k`, which has 1,024 (R312). -/
def coreTags (k : Nat) : Nat := 0xD000 + k * 1024

/-- Core `k` writes SCH_POST: a post of its SCH_POST_VAL. A post that waits leaves the write in flight, and the core stalled (R332). -/
def Chip.corePost (c : Chip) (k thread index : Nat) : Chip :=
  let c := c.bump .SCH_POST_RES_COUNT k
  let waits := c.posts ≠ [] ∨ c.postPlace = 0
  let c := c.post ⟨thread, index, c.get .SCH_POST_VAL_VALUE k, k, 0⟩
  if waits then (c.launch ((c.tagIn (coreTags k) 1024).getD (coreTags k)) (.post k) routerHub).icSettle else c.icSettle.answer .ok

/-- Core `k` wakes from a low-power state: SYNC, with the address of its next instruction, a free value, and its secure state, then LP_EXIT (R343, R347). -/
def Chip.wakeCore (c : Chip) (k : Nat) : Chip :=
  match c.get .H_LP k with
  | 0 => c
  | s + 1 =>
    let (addr, c) := c.fresh 48
    let c := (c.trcForm k 2 (addr + b2n (c.on .H_SEC k) * 2 ^ 48)).trcForm k 5 (s + c.get .H_LP_LOST k * 16)
    (c.set .H_LP k 0).set .H_LP_LOST k 0

/-- A take by core `k`. -/
def Chip.coreTake (c : Chip) (k : Nat) : Chip :=
  let (v, c) := c.take k
  c.schRefill.icSettle.answer .ok v

/-- A write of SCH_DONE by core `k`. -/
def Chip.coreDone (c : Chip) (k thread : Nat) : Chip := (c.done k thread).answer .ok

/-! The interrupt controller (R334 to R341) -/

/-- Whether sector `k` lets its interrupt taps signal (R341): owned by the module, or by a partition bound to the service complex. Log 64 (DEDUCED). -/
def Chip.tapsSignal (c : Chip) (k : Nat) : Bool :=
  let o := c.get .RIM_SECT_OWN_OWNER k
  o = ownerModule || (o < 16 && c.on .PTN_CFG_ACTIVE o && c.get .PTN_CFG_BIND o = 4)

/-- Whether an event of source `s` may signal now (R340, R341). -/
def Chip.sourceLive (c : Chip) (s : Nat) : Bool :=
  if 16 ≤ s && s < 48 then c.get .PTN_CFG_BIND (s % 16) = 4 || c.get .PTN_CFG_BIND (s % 16) = 7
  else if 256 ≤ s then c.tapsSignal ((s - 256) / 64)
  else true

/-- An event of interrupt source `s`. -/
def Chip.sourceEvent (c : Chip) (s : Nat) : Chip := if c.sourceLive s then c.raise s else c

/-- Ones written to word `w` of IC_PEND_SET. Log 142 (DEDUCED). -/
def Chip.icPendSet (c : Chip) (w mask : Nat) : Chip :=
  c.raiseAll (((List.range 32).filter fun i => bitB mask i).map fun i => 32 * w + i)

/-- Whether core `k` reaches IC_CLAIM and IC_COMPLETE of target `t` (R336). -/
def ownsTarget (k : Nat) (sec : Bool) (t : Nat) : Bool := t / 2 = k && (sec || t % 2 = 1)

/-- A read of IC_CLAIM of target `t` by core `k`. -/
def Chip.coreClaim (c : Chip) (k : Nat) (sec : Bool) (t : Nat) : Chip :=
  if ownsTarget k sec t then
    let (s, c) := c.icClaim t
    c.answer .ok s
  else c.coreDenied k

/-- A write of IC_COMPLETE of target `t` by core `k`. -/
def Chip.coreComplete (c : Chip) (k : Nat) (sec : Bool) (t s : Nat) : Chip :=
  if ownsTarget k sec t then (c.icComplete t s).answer .ok else c.coreDenied k

/-! Trace (R342 to R347) -/

/-- One packet leaves the FIFO for its sink (R345). -/
def sinkWrite (k : TrcPacket) (c : Chip) (m : Mem) : Chip × Mem :=
  let i := c.get .TRC_WP_WP 0
  let at' := c.get .TRC_BASE_ADDR 0 * 16 + 16 * i
  let next := (i + 1) % 2 ^ c.get .TRC_LEN_LOG2 0
  let c := c.set .TRC_WP_WP 0 next
  let c := if next = 0 then c.set .TRC_STATUS_WRAPPED 0 1 else c
  if c.on .TRC_CTL_SINK 0 then ({ c with host := ⟨c.get .TRC_CTL_PORT 0, at', k.bytes⟩ :: c.host }, m)
  else
    let h := sramWrite 16 (at' % 2 ^ 24) k.bytes c m
    (h.chip, h.mem)

/-- The oldest packet leaves the FIFO. Log 91 (DESIGN CHOICE). -/
def trcDrain (c : Chip) (m : Mem) : Chip × Mem :=
  match c.trc with
  | [] => (c, m)
  | k :: ks => if c.on .TRC_CTL_EN 0 then sinkWrite k { c with trc := ks } m else (c, m)

/-- `n` packets leave the FIFO. -/
def trcDrainN : Nat → Chip → Mem → Chip × Mem
  | 0, c, m => (c, m)
  | n + 1, c, m => let x := trcDrain c m; trcDrainN n x.1 x.2

/-- With STALL = 1 and fewer than 256 bytes of the FIFO free, a core waits until 1 KiB is free (R344). -/
def trcStall (c : Chip) (m : Mem) : Chip × Mem :=
  if c.on .TRC_CTL_STALL 0 && 240 < c.trc.length then trcDrainN (c.trc.length - 192) c m else (c, m)

/-- Core `k` writes TRC_SW: a SOFTWARE packet (R342). -/
def Chip.coreTrace (c : Chip) (k v : Nat) : Chip := (c.trcForm (16 + k) 10 v).icSettle.answer .ok

/-! What a core's execution traces (R320, R342 to R347) -/

/-- Core `k` executes in secure state or not: a change of state forms SEC_ENTER before it and SEC_EXIT, with the return address, a free value, after it (R343, R346). Log 12 (DEDUCED). -/
def Chip.secSwitch (c : Chip) (k : Nat) (sec : Bool) : Chip :=
  if c.on .H_SEC k = sec then c
  else if sec then (c.trcForm k 6 0).set .H_SEC k 1
  else
    let (addr, c) := c.fresh 48
    (c.set .H_SEC k 0).trcForm k 7 addr

/-- The runs of instructions that a traced core has ended since its last access: ADDR packets whose number, addresses and lengths are free values (R343). -/
def Chip.addrRuns : Nat → Nat → Chip → Chip
  | _, 0, c => c
  | k, n + 1, c =>
    let (run, c) := c.fresh 64
    Chip.addrRuns k n (c.trcForm k 1 run)

/-- A traced core's ADDR packets: at most 3 between two accesses. Log 178 (DESIGN CHOICE). -/
def Chip.coreRuns (c : Chip) (k : Nat) : Chip :=
  if c.trcEnabled k then
    let (n, c) := c.fresh 2
    Chip.addrRuns k n c
  else c

/-- What is seen of an initiator that executes an access: a core in secure state or not has gone on executing. It waits while the funnel stalls enabled cores (R344), has
woken from its wait on an empty slot (R347), and has formed its packets. -/
def initSeen (who : Init) (c : Chip) (m : Mem) : Chip × Mem :=
  match who with
  | .host _ => (c, m)
  | .core k sec =>
    let (c, m) := if c.trcEnabled k.val then trcStall c m else (c, m)
    let c := if c.get .H_LP k.val = 1 then c.wakeCore k.val else c
    let d := (c.coreRuns k.val).secSwitch k.val sec
    (if c.trcEnabled k.val then d.icSettle else d, m)

/-- Whether a packet is core `k`'s own: of its trace or of its software channel. -/
def packetOf (k : Nat) (x : TrcPacket) : Bool := x.src = k || x.src = 16 + k

/-- Packets up to and including the last one of core `k`. -/
def flushLen (k : Nat) (ks : List TrcPacket) : Nat := ks.length - ((ks.reverse.findIdx? (packetOf k)).getD ks.length)

/-- Whether a core enters a low-power state `st` now: 0 needs LPWAIT and an empty slot. -/
def Chip.mayRest (c : Chip) (k st : Nat) : Bool := st ≠ 0 || (c.on .TRC_CTL_LPWAIT 0 && c.get .SCH_SLOT k = 0)

/-- Core `k` has entered low-power state `st`, its packets flushed or not, and its LP_ENTER is written (R347). -/
def Chip.lpEnter (c : Chip) (k st lost : Nat) : Chip := ((c.trcForm k 4 (st + lost * 16)).set .H_LP k (st + 1)).set .H_LP_LOST k lost

/-- Core `k`'s packets are flushed to the sink before it enters low-power state `st` (R347). -/
def traceFlush (k st : Nat) (c : Chip) (m : Mem) : Chip × Mem :=
  if c.mayRest k st then
    let (c, m) := trcDrainN (flushLen k c.trc) c m
    (c.lpEnter k st 0, m)
  else (c, m)

/-- The flush of core `k` has not completed within 100 microseconds: what is left of its packets is discarded and counted (R347). -/
def Chip.flushIncomplete (c : Chip) (k st : Nat) : Chip :=
  if c.mayRest k st then
    let n := (c.trc.filter (packetOf k)).length
    ({ c with trc := c.trc.filter fun x => !packetOf k x }.count .TRC_LOST_COUNT 0 n).lpEnter k st 1
  else c

/-- Every packet in the FIFO is flushed (R385, R390). -/
def flushAll (c : Chip) (m : Mem) : Chip × Mem := trcDrainN c.trc.length c m

/-! Cores (R321, R349, R355, R361) -/

/-- A 1 written to SVC_CTL.ICINV of core `k`: the bit reads 1 until the invalidation is done. Log 94 (DEDUCED). -/
def Chip.icInvalidate (c : Chip) (k : Nat) : Chip := c.set .SVC_CTL_ICINV k 1

/-- The firmware of core 2 or 3 has restarted: no port is negotiated, and every port will be told (R361). -/
def Chip.firmwareRestart (c : Chip) : Chip :=
  let c := (List.range 4).foldl (fun (c : Chip) n => (c.set .H_UT_VER n 0).set .H_UT_KA n 0) c
  { c with fwOut := [], utWait := [], utAsm := [] }.set .H_FW_DOWN 0 ((List.range 4).foldl (fun v n => v + b2n (c.portExists n) * 2 ^ n) 0)

/-- Whether core `k` executes (SVC_CTL.RUN), which is 1 at reset for core 0 and 0 for the others: kept as a difference from that value. -/
def Chip.runs (c : Chip) (k : Nat) : Nat := (c.get .SVC_CTL_RUN k + b2n (k = 0)) % 2

/-- Set SVC_CTL.RUN of core `k`. -/
def Chip.setRuns (c : Chip) (k v : Nat) : Chip := c.set .SVC_CTL_RUN k (v + b2n (k = 0))

/-- SVC_ENTRY of core `k`, whose reset value for core 0 is the boot ROM's entry: kept as a difference from that value. -/
def Chip.entry (c : Chip) (k : Nat) : Nat := if k = 0 then Nat.xor (c.get .SVC_ENTRY_ADDR 0) Config.bootEntry.toNat else c.get .SVC_ENTRY_ADDR k

/-- Set SVC_ENTRY of core `k`. -/
def Chip.setEntry (c : Chip) (k v : Nat) : Chip :=
  c.set .SVC_ENTRY_ADDR k (if k = 0 then Nat.xor v Config.bootEntry.toNat else v)

/-- A 1 written to SVC_CTL.RST of core `k` (R349): it restarts at SVC_ENTRY with RUN = 1. Log 93 (DESIGN CHOICE). -/
def Chip.coreReset (c : Chip) (k : Nat) : Chip :=
  let c := ((c.setRuns k 1).set .H_LP k 0).set .H_LP_LOST k 0 |>.set .H_SEC k 0
  let c := ((c.mbxCoreReset k).dropLatches (4 + k)).abandon (4 + k)
  if k = 2 ∨ k = 3 then c.firmwareRestart else c

end Sys2Proof.Machine
end

