-- ==== Sys2Proof/Machine/Time.lean ====
section
/-! DEFINITION. The timekeeper (R363 to R374): the timing-clock tick, steps, alignments, compares, pulses, switches and stamps. -/

namespace Sys2Proof.Machine

/-! Counters (R363, R364) -/

/-- Units of module time per timing-clock tick (800 MHz). -/
def tkPeriod : Nat := 6

/-- WRAPS and NS of domain `d` as one number. -/
def Chip.tkExt (c : Chip) (d : Nat) : Nat := c.get .TK_NOW_WRAPS d * 2 ^ 32 + c.get .TK_NOW_NS d

/-- Load WRAPS and NS of domain `d` from one number. -/
def Chip.setExt (c : Chip) (d v : Nat) : Chip := (c.set .TK_NOW_WRAPS d (v / 2 ^ 32)).set .TK_NOW_NS d (v % 2 ^ 32)

/-- The increment of domain `d` in units of 2^-32 ns. -/
def Chip.tkInc (c : Chip) (d : Nat) : Nat := c.get .TK_INC_INT d * 2 ^ 32 + c.get .TK_INC_FRAC d

/-- Whether TK_INC accepts a value (R364). -/
def tkIncOk (v : Nat) : Bool := 0x120000000 ≤ v && v ≤ 0x160000000

/-! Crossing (R370, R373) -/

/-- Whether a counter that moves from `old` to `new` passes `v`: `v` lies in (old, new] modulo 2^32, and the way forward is below 2^31. -/
def crosses (old new v : Nat) : Bool :=
  let d := (new + 2 ^ 32 - old) % 2 ^ 32
  let x := (v + 2 ^ 32 - old) % 2 ^ 32
  d < 2 ^ 31 && 0 < x && x ≤ d

/-- Compare `i` fires: the sequencers of every partition see it, and its source is raised (R208, R373). -/
def Chip.compareFire (c : Chip) (i : Nat) : Chip :=
  let c := (c.set .TK_CMP_ARM i 0).set .TK_CMP_FIRED i 1
  let c := (List.range 16).foldl (fun c p => c.set .H_LATCH_CMP p (orBit (c.get .H_LATCH_CMP p) i)) c
  c.raise (240 + i)

/-- Compare `i`, where its domain is `d` and has moved from `old` to `new`. -/
def Chip.compareTick (d old new : Nat) (c : Chip) (i : Nat) : Chip :=
  if c.on .TK_CMP_ARM i && c.get .TK_CMP_DOM i = d && crosses old new (c.get .TK_CMP_VALUE i) then c.compareFire i else c

/-- PPS_OUT rises, and NEXT advances by a second (R370). -/
def Chip.ppsRise (c : Chip) : Chip :=
  ((c.set .H_PPS_OUT 0 1).setDue .H_PPS_FALL 0 (c.get .TK_PPS_OUT_WIDTH 0 * 1000 * Chip.us)).set .TK_PPS_OUT_NEXT 0
    ((c.get .TK_PPS_OUT_NEXT 0 + 1000000000) % 2 ^ 32)

/-- PPS_OUT, where the domain it follows is `d` and has moved from `old` to `new`. -/
def Chip.ppsTick (c : Chip) (d old new : Nat) : Chip :=
  if c.on .TK_PPS_OUT_EN 0 && c.get .TK_PPS_OUT_DOM 0 = d && crosses old new (c.get .TK_PPS_OUT_NEXT 0) then c.ppsRise else c

/-- Domain `d` has moved from `old` to `new`, WRAPS included: compares, PPS_OUT, and the Ethernet epochs where the time-stamp domain has
wrapped (R292, R371). -/
def Chip.tkMoved (c : Chip) (d old new : Nat) : Chip :=
  let c := (List.range 2).foldl (Chip.compareTick d (old % 2 ^ 32) (new % 2 ^ 32)) (c.ppsTick d (old % 2 ^ 32) (new % 2 ^ 32))
  if c.dom = d && new / 2 ^ 32 = (old / 2 ^ 32 + 1) % 2 ^ 32 then (List.range 2).foldl Chip.epochWrap c else c

/-! The tick (R363, R366 to R369) -/

/-- The magnitude of a signed 32-bit number. -/
def magnitude (v : Nat) : Nat := (signed 32 v).natAbs

/-- Whether the jump threshold of domain `d` refuses a step of `delta` (R366, R367): one of 0 refuses every step. Log 187 (DEDUCED). -/
def Chip.jumpRefused (c : Chip) (d delta : Nat) (override : Bool) : Bool :=
  (c.get .TK_JUMP_THR_THR d < magnitude delta || c.get .TK_JUMP_THR_THR d = 0) && !override

/-- The value of domain `d` after the increment of the next tick: WRAPS, NS and the fraction as one number. -/
def Chip.tkRaised (c : Chip) (d : Nat) : Nat := (c.tkExt d * 2 ^ 32 + c.get .H_TK_FRAC d + c.tkInc d) % 2 ^ 96

/-- That value after the step that waits for the tick. -/
def Chip.tkNext (c : Chip) (d : Nat) : Nat :=
  if c.on .H_STEP_PEND d then wrapInt 96 (Int.ofNat (c.tkRaised d) + signed 32 (c.get .H_STEP_DELTA d) * 4294967296) % 2 ^ 96 else c.tkRaised d

/-- Load WRAPS, NS and the fraction of domain `d`. -/
def Chip.setTk (c : Chip) (d v : Nat) : Chip := (c.setExt d (v / 2 ^ 32)).set .H_TK_FRAC d (v % 2 ^ 32)

/-- The alignment of domain `d`, which has had its increment (R367): whether it was performed, and the state. -/
def Chip.tkAlign (c : Chip) (d : Nat) : Bool × Chip :=
  let diff := (c.get .TK_ALIGN_VALUE d + 2 ^ 32 - c.get .TK_NOW_NS d) % 2 ^ 32
  let c := c.set .TK_ALIGN_ARM d 0
  if c.jumpRefused d diff (c.on .TK_ALIGN_OVERRIDE d) then (false, (c.set .TK_DSTATUS_ALIGN_REF d 1).raise 243)
  else (true, ((c.setExt d (wrapInt 64 (Int.ofNat (c.tkExt d) + signed 32 diff))).set .H_TK_FRAC d 0).set .TK_DSTATUS_ALIGN_DONE d 1)

/-- The step that waits for a tick of domain `d`, which has had its increment (R366). -/
def Chip.tkStepApply (c : Chip) (d : Nat) : Chip :=
  if c.on .H_STEP_PEND d then
    ((c.setTk d (wrapInt 96 (Int.ofNat (c.tkExt d * 2 ^ 32 + c.get .H_TK_FRAC d) + signed 32 (c.get .H_STEP_DELTA d) * 4294967296) % 2 ^ 96)).set .H_STEP_PEND d 0).set
      .TK_DSTATUS_STEP_DONE d 1
  else c

/-- One tick of domain `d`, in the order of R368: the increment; at an accepted edge of PPS_IN the capture (R369) and an armed alignment; the step, which an alignment leaves to the
following tick. Compares see the counter after all of them. Log 113 (DEDUCED). -/
def Chip.tkTick (c : Chip) (edge : Bool) (d : Nat) : Chip :=
  let old := c.tkExt d
  let c := c.setTk d (c.tkRaised d)
  let c := if edge then (c.set .TK_PPS_CAP_VALID d 1).set .TK_PPS_CAP_NS d (c.get .TK_NOW_NS d) else c
  let (aligned, c) := if edge && c.on .TK_ALIGN_ARM d then c.tkAlign d else (false, c)
  let c := if aligned then c else c.tkStepApply d
  c.tkMoved d old (c.tkExt d)

/-- One timing-clock tick; `edge` tells that an accepted edge of PPS_IN is assigned to it. -/
def Chip.timingTickWith (c : Chip) (edge : Bool) : Chip := ((c.tkTick edge 0).tkTick edge 1).bump .H_TK_AT 0

/-- One timing-clock tick. -/
def Chip.timingTick (c : Chip) : Chip := c.timingTickWith false

/-- Whether the timing clock runs: in every power state but SLEEP and OFF (R363, R381). -/
def Chip.timing (c : Chip) : Bool := c.get .PWR_STATE_STATE 0 < 3

/-- The ticks that have fallen due, one to each period of 6 units; while the clock is stopped they are passed over. -/
def Chip.timingTicks : Nat → Chip → Chip
  | 0, c => c
  | n + 1, c =>
    if c.now / tkPeriod ≤ c.get .H_TK_AT 0 then c
    else if c.timing then Chip.timingTicks n c.timingTick
    else c.set .H_TK_AT 0 (c.now / tkPeriod)

/-- Whether the next timing-clock tick may be taken now: it is due or the very next one. -/
def Chip.tickNear (c : Chip) : Bool := c.timing && c.get .H_TK_AT 0 ≤ c.now / tkPeriod

/-- The next tick is taken now if `p` holds of it; otherwise the event it stands for cannot occur. -/
def Chip.tickIf (c : Chip) (p : Bool) : Chip := if c.tickNear && p then c.timingTick else c

/-- The tick in which domain `d` carries out of NS (R363). -/
def Chip.wrapTick (c : Chip) (d : Nat) : Chip := c.tickIf (c.tkNext d / 2 ^ 64 = (c.get .TK_NOW_WRAPS d + 1) % 2 ^ 32)

/-- The tick in which compare `i` fires (R373). Log 114 (DEDUCED). -/
def Chip.compareEvent (c : Chip) (i : Nat) : Chip :=
  let d := c.get .TK_CMP_DOM i
  c.tickIf (c.on .TK_CMP_ARM i && crosses (c.get .TK_NOW_NS d) (c.tkNext d / 2 ^ 32 % 2 ^ 32) (c.get .TK_CMP_VALUE i))

/-- The tick in which PPS_OUT rises (R370). -/
def Chip.ppsRiseEvent (c : Chip) : Chip :=
  let d := c.get .TK_PPS_OUT_DOM 0
  c.tickIf (c.on .TK_PPS_OUT_EN 0 && crosses (c.get .TK_NOW_NS d) (c.tkNext d / 2 ^ 32 % 2 ^ 32) (c.get .TK_PPS_OUT_NEXT 0))

/-- PPS_OUT falls after WIDTH milliseconds (R370). -/
def Chip.ppsFall (c : Chip) : Chip := if c.due .H_PPS_FALL 0 then (c.set .H_PPS_OUT 0 0).set .H_PPS_FALL 0 0 else c

/-! Corrections (R366) -/

/-- A write of TK_STEP of domain `d` (R366). -/
def Chip.tkStep (c : Chip) (d delta : Nat) (override : Bool) : Chip :=
  if c.jumpRefused d delta override then (c.set .TK_DSTATUS_STEP_REF d 1).raise 243
  else (c.set .H_STEP_PEND d 1).set .H_STEP_DELTA d delta

/-! PPS_IN and the time-stamp domain (R369, R371) -/

/-- A pending switch request is decided (R371). -/
def Chip.ppsSwitch (c : Chip) : Chip :=
  if !c.on .TK_SEL_PEND 0 then c
  else
    let c := (c.set .TK_SEL_PEND 0 0).set .H_SW_DUE 0 0
    let diff := (c.get .TK_PPS_CAP_NS 0 + 2 ^ 32 - c.get .TK_PPS_CAP_NS 1) % 2 ^ 32
    if magnitude diff ≤ c.get .TK_SEL_TOL_TOL 0 then (c.set .TK_SEL_DOM 0 (1 - c.dom)).set .TK_SEL_SW_DONE 0 1
    else c.set .TK_SEL_SW_REF 0 1

/-- Whether an edge that comes now follows the last accepted one by 500 ms or more. -/
def Chip.ppsSpaced (c : Chip) : Bool := c.get .H_PPS_LAST 0 = 0 || c.get .H_PPS_LAST 0 - 1 + 500000 * Chip.us ≤ c.now

/-- A rising edge of PPS_IN; `long` tells that it stays high for at least 100 ns (R369). The tick to which an accepted edge is assigned is taken now; while the timing clock is
stopped nothing is sampled. Log 113 (DEDUCED). -/
def Chip.ppsIn (c : Chip) (long : Bool) : Chip :=
  if !c.timing then c
  else if long && c.ppsSpaced then (((c.set .H_PPS_LAST 0 (c.now + 1)).timingTickWith true).raise 242).ppsSwitch
  else c.count .TK_PPS_GLITCH_COUNT 0 1

/-- A 1 written to TK_SEL.REQ (R371). -/
def Chip.tkRequest (c : Chip) : Chip :=
  if c.on .TK_SEL_PEND 0 then c else (c.set .TK_SEL_PEND 0 1).setDue .H_SW_DUE 0 (2000000 * Chip.us)

/-- No edge has been accepted within 2 s of a request (R371). -/
def Chip.tkNoPps (c : Chip) : Chip :=
  if c.on .TK_SEL_PEND 0 && c.due .H_SW_DUE 0 then ((c.set .TK_SEL_PEND 0 0).set .H_SW_DUE 0 0).set .TK_SEL_SW_NOPPS 0 1 else c

/-! Stamps (R365) -/

/-- The 64-bit value of a 32-bit stamp, from a reference that was read within 2^31 ns of it. -/
def stampExtend (ref stamp : Nat) : Nat :=
  let e := ref / 2 ^ 32 * 2 ^ 32 + stamp
  let e := if ref + 2 ^ 31 < e then e - 2 ^ 32 else e
  if e + 2 ^ 31 < ref then e + 2 ^ 32 else e

/-! Rim event taps (R372) -/

/-- A rising edge of rim event tap `i`; a sector that runs no logic drives none. -/
def Chip.rimEvent (c : Chip) (i : Nat) : Chip :=
  if c.sector (i % 12) < sectStarting then c
  else if c.on .TK_EVT_VALID i then c.set .TK_EVT_OVF i 1
  else ((c.set .TK_EVT_VALID i 1).set .TK_EVT_DOM i c.dom).set .TK_EVT_NS i c.stamp

end Sys2Proof.Machine
end

