-- ==== Sys2Proof/Machine/Access.lean ====
section
/-! DEFINITION. Who reaches what (R15, R123, R124, R308, R319, R323), access errors, and network accesses to design memory, service SRAM and the
vault (R155, R307, R311, R314, R325, R326). -/

namespace Sys2Proof.Machine

/-! Rights (R319, R323) -/

/-- Whether an initiator has secure rights: a core in secure state. -/
def initSecure : Init → Bool
  | .host _ => false
  | .core _ sec => sec

/-- Whether an initiator has service rights or more. Log 37 (DEDUCED). -/
def initService : Init → Bool
  | .host _ => false
  | .core k sec => sec || k.val < 4

/-- Whether an initiator reaches the blocks and the design memory of partition `p` (R123, R124, R323). -/
def Chip.reaches (c : Chip) (who : Init) (p : Nat) : Bool :=
  match who with
  | .host n => c.get .PTN_CFG_BIND p = n.val
  | .core k sec => sec || k.val < 4 || c.get .PTN_CFG_BIND p = 4

/-! Access errors (R15, R123, R307, R323) -/

/-- The block of access-error registers of an initiator: its port's, or the service complex's own. -/
def initGlb : Init → Nat
  | .host n => n.val
  | .core _ _ => 4

/-- Whether an initiator is a host that is lost and whose link is down (R131): a write of it that was still in flight is discarded without a trace. Log 124 (DEDUCED). -/
def Chip.hostGone (c : Chip) : Init → Bool
  | .host n => c.on .H_LOST n && !c.on .H_LINKUP n
  | .core _ _ => false

/-- Count and locate an access error in the global block of an initiator. -/
def Chip.accCount (c : Chip) (who : Init) (bar2 write : Bool) (off : Nat) : Chip :=
  let i := initGlb who
  let c := c.count .GLB_ACC_ERR_COUNT i 1
  if c.on .GLB_ACC_LOC_VALID i then c
  else
    (((c.set .GLB_ACC_LOC_VALID i 1).set .GLB_ACC_LOC_BAR2 i (b2n bar2)).set .GLB_ACC_LOC_WRITE i (b2n write)).set .GLB_ACC_LOC_OFFSET i off

/-- A register access under R15 that is not performed: counted, and answered as a non-existent register's; nothing is left of a write of a lost host (R131). -/
def Chip.accError (c : Chip) (who : Init) (write : Bool) (off : Nat) : Chip :=
  if write && c.hostGone who then c else (c.accCount who false write off).answer .netNoTarget 0xFFFFFFFF

/-- A register access that its initiator may not make (R123, R323). Log 88 (DEDUCED). -/
def Chip.denied (c : Chip) (who : Init) (write : Bool) (off : Nat) : Chip :=
  match who with
  | .host _ => c.accError who write off
  | .core k _ => c.coreDenied k

/-! Network accesses -/

/-- What a network access does: `add` tells an atomic add from an atomic swap. -/
inductive NetOp where
  | read (len : Nat)
  | write (data : List Byte)
  | atomic (len : Nat) (add : Bool) (value : Nat)
deriving DecidableEq, Repr

/-- The new value of a word of `n` bytes (R155, R325). -/
def atomicValue (n : Nat) (add : Bool) (value old : Nat) : Nat := (if add then old + value else value) % 2 ^ (8 * n)

/-- Bytes that an access covers. -/
def NetOp.len : NetOp → Nat
  | .read n => n
  | .write d => d.length
  | .atomic n _ _ => n

/-- An access to partition `p`'s design memory whose rights have been checked. -/
def designAccess (op : NetOp) (p x : Nat) (svc : Bool) (c : Chip) (m : Mem) : Hit :=
  match op with
  | .read n => netRead c m p x n svc
  | .write d => netWrite c m p x d svc
  | .atomic n add v => netAtomic c m p x n svc (atomicValue n add v)

/-- An access to service SRAM whose rights have been checked (R324, R325). -/
def sramAccess (op : NetOp) (x : Nat) (c : Chip) (m : Mem) : Hit :=
  match op with
  | .read n => sramRead n x n c m
  | .write d => sramWrite d.length x d c m
  | .atomic n add v =>
    if x % n ≠ 0 then ⟨.dmAlign, [], c, m⟩
    else
      let r := sramRead n x n c m
      let w := sramWrite n x (toBytes n (atomicValue n add v (ofBytes r.data))) r.chip r.mem
      ⟨r.status.join w.status, r.data, w.chip, w.mem⟩

/-- What the boot ROM has left at byte `x` of the vault (R395): nothing after a wipe. Log 99 (DEDUCED). -/
def Chip.vaultFill (c : Chip) (x : Nat) : Byte :=
  if (List.range 64).any fun s => c.on .H_VAULT_SLOT s then Config.vaultByte (c.get .H_NONCE 0) x else 0

/-- Bytes as the vault holds them, or as they are read from it: the memory keeps their difference from the boot ROM's fill. -/
def Chip.vaultMask (c : Chip) : Nat → List Byte → List Byte
  | _, [] => []
  | x, b :: bs => (b ^^^ c.vaultFill x) :: Chip.vaultMask c (x + 1) bs

/-- Bytes of the vault (R326, R395). -/
def vaultBytes (c : Chip) (m : Mem) (x n : Nat) : List Byte := c.vaultMask x (Memory.readN m.vault x n)

/-- The vault with bytes written. -/
def vaultPut (c : Chip) (m : Mem) (x : Nat) (d : List Byte) : Mem := { m with vault := Memory.writeN m.vault x (c.vaultMask x d) }

/-- An access to the vault whose rights have been checked and that meets no wipe. -/
def vaultAccess (op : NetOp) (x : Nat) (c : Chip) (m : Mem) : Hit :=
  match op with
  | .read n => ⟨.ok, vaultBytes c m x n, c, m⟩
  | .write d => ⟨.ok, [], c, vaultPut c m x d⟩
  | .atomic n add v =>
    if x % n ≠ 0 then ⟨.dmAlign, [], c, m⟩
    else ⟨.ok, vaultBytes c m x n, c, vaultPut c m x (toBytes n (atomicValue n add v (ofBytes (vaultBytes c m x n))))⟩

/-- Whether an initiator reaches a byte of service SRAM (R323, R389). Log 98 (DEDUCED). -/
def Chip.reachesBank (c : Chip) (who : Init) (x : Nat) : Bool :=
  let k := x / 0x200000
  !c.on .H_SRAM_BAD k &&
    match who with
    | .host _ => false
    | .core _ _ => if k < 2 then initSecure who else if 4 ≤ k && k < 7 then true else initService who

/-- Whether an initiator may make an access (R123, R323). -/
def Chip.permits (c : Chip) (who : Init) (t : Target) (n : Nat) : Bool :=
  match t with
  | .design p _ => c.reaches who p
  | .sram x => c.reachesBank who x.toNat && c.reachesBank who (x.toNat + n - 1) && x.toNat + n ≤ 2 ^ 24
  | .vault x => initSecure who && x.toNat + n ≤ 2 ^ 18

/-- The router of a target (R309). -/
def Chip.routerAt (c : Chip) : Target → Nat
  | .design p x => c.routerOf (c.place p x.toNat true)
  | _ => routerHub

/-- The first tag of an initiator, which has 1,024 (R312). -/
def initTags : Init → Nat
  | .host n => 0xA000 + n.val * 1024
  | .core k _ => coreTags k.val

/-- A tag that an initiator may use now. -/
def Chip.initTag (c : Chip) (who : Init) : Option Nat := c.tagIn (initTags who) 1024

/-- The bytes that a refused access returns: all ones for a core's read (R311, R323). -/
def NetOp.ones : NetOp → List Byte
  | .read n => List.replicate n 0xFF
  | _ => []

/-- A network access that takes place now: its status and data. Log 83 (DESIGN CHOICE). -/
def netAccess (who : Init) (t : Target) (op : NetOp) (c : Chip) (m : Mem) : Hit :=
  if !c.permits who t op.len then
    match who with
    | .host _ => ⟨.netDenied, [], c, m⟩
    | .core k _ => ⟨.netNoTarget, op.ones, c.count .SVC_ACC_ERR_COUNT k 1, m⟩
  else
    match t with
    | .design p x => designAccess op p x.toNat (initService who) c m
    | .sram x => sramAccess op x.toNat c m
    | .vault x => vaultAccess op x.toNat c m

/-- Answer the initiator of a network access. -/
def Hit.reply (h : Hit) : Chip × Mem := (h.chip.answer h.status (ofBytes h.data) h.data, h.mem)

/-- Whether a permitted access of an initiator would cross a failed die link (R401). -/
def Chip.netCut (c : Chip) (who : Init) (t : Target) (n : Nat) : Bool := c.permits who t n && c.cutOff routerHub (c.routerAt t)

/-! Exits from IDLE and WATCH on demand (R383) -/

/-- Power states. -/
def pwrOn : Nat := 0
def pwrIdle : Nat := 1
def pwrWatch : Nat := 2
def pwrSleep : Nat := 3
def pwrOff : Nat := 4
def Chip.power (c : Chip) : Nat := c.get .PWR_STATE_STATE 0

/-- A demand starts an exit to `goal` (1 ON, 2 IDLE) with WAKE cause `cause`, or turns one to IDLE into one to ON (R383). -/
def Chip.demandExit (c : Chip) (goal cause : Nat) : Chip :=
  let limit := if goal = 2 then 25 else if c.power = pwrWatch then 35 else 10
  if c.on .H_EXIT 0 then (if goal = 1 then c.set .H_EXIT 0 1 else c)
  else ((c.set .H_EXIT 0 goal).set .H_EXIT_CAUSE 0 cause).setDue .H_EXIT_DUE 0 (limit * Chip.us)

/-- Whether an access must wait for the exit from WATCH: its target lies on a compute die or in design memory. -/
def Chip.mustWake (c : Chip) (who : Init) (t : Target) (n : Nat) : Bool :=
  c.power = pwrWatch && c.permits who t n &&
    match t with
    | .design p x => routerDie (c.routerOf (c.place p x.toNat (initService who))) < 4
    | _ => false

/-! Accesses by hosts and cores (R131, R155, R312, R326, R327, R383) -/

/-- The record of an access that waits; `paced` tells that it goes through the core's guaranteed queue (R327). -/
def NetOp.deferred (who : Init) (t : Target) (paced : Bool) : NetOp → Deferred
  | .read n => .read who t n paced
  | .write d => .write who t d paced
  | .atomic n add v => .atomic who t n add v paced

/-- Whether an access changes memory. -/
def NetOp.writes : NetOp → Bool
  | .read _ => false
  | _ => true

/-- Whether an access returns data. -/
def NetOp.reads : NetOp → Bool
  | .write _ => false
  | _ => true

/-- Whether an initiator's guaranteed queue holds its 64 transactions (R327). -/
def Chip.pacedFull (c : Chip) (who : Init) : Bool :=
  64 ≤ (c.calls.filter fun k => match k.kind with | .access w _ _ paced => paced && initTags w = initTags who | _ => false).length

/-- Whether an access waits for the end of a wipe (R326). -/
def Chip.wipeWait (c : Chip) (who : Init) (t : Target) (n : Nat) : Bool :=
  match t with
  | .vault _ => c.on .H_WIPE 0 && c.permits who t n
  | _ => false

/-- A network access by a host or a core. It waits for the exit from WATCH, for the end of a wipe, or for a tag; behind a failed die link it stays in flight until its
timeout; otherwise it is performed and answered. -/
def netIssue (who : Init) (t : Target) (op : NetOp) (paced : Bool) (c : Chip) (m : Mem) : Chip × Mem :=
  let later := { c with waiting := c.waiting ++ [op.deferred who t paced] }
  if op.writes && c.hostGone who then (c, m)
  else if c.mustWake who t op.len then (later.demandExit 2 5, m)
  else if c.wipeWait who t op.len || (paced && c.pacedFull who) then (later, m)
  else
    match c.initTag who with
    | none => (later, m)
    | some g =>
      if c.netCut who t op.len then (c.launch g (.access who op.reads op.len paced) (c.routerAt t), m) else (netAccess who t op c m).reply

/-! BAR2 (R306, R307) -/

/-- The design address at offset `x` of port `n`'s BAR2. -/
def Chip.bar2Target (c : Chip) (n x : Nat) : Target :=
  .design (Fin.ofNat 16 (c.get .GLB_BAR2_SEL_PART n)) (BitVec.ofNat 40 (c.get .GLB_BAR2_SEL_WIN n * 2 ^ 36 + x))

/-- What one transaction of a BAR2 access gives its host (R307). After PART has ceased to be bound to the port, it is denied until GLB_BAR2_SEL is rewritten (R306). -/
def bar2Txn (n : Fin 4) (x : Nat) (op : NetOp) (c : Chip) (m : Mem) : Hit :=
  let h : Hit := if c.on .H_BAR2_OUT n.val then ⟨.netDenied, [], c, m⟩ else netAccess (.host n) (c.bar2Target n.val x) op c m
  match op with
  | .read k =>
    if h.status = .ok ∨ h.status = .dmUe then h
    else { h with data := List.replicate k 0xFF, chip := h.chip.accCount (.host n) true false x }
  | _ => if h.status = .ok then h else { h with chip := h.chip.accCount (.host n) true true x }

/-- Whether a transaction of a BAR2 access would cross a failed die link. -/
def Chip.bar2Cut (c : Chip) (n : Fin 4) (x len : Nat) : Bool := !c.on .H_BAR2_OUT n.val && c.netCut (.host n) (c.bar2Target n.val x) len

/-- Bytes from offset `x` to the next multiple of 256, at most `n`. -/
def upTo256 (x n : Nat) : Nat := min n (256 - x % 256)

/-- One transaction of a BAR2 access as it leaves: it waits for a tag, stays in flight behind a failed die link, where its part of the answer comes with its timeout, or is
performed. Log 83 (DESIGN CHOICE). -/
def bar2Piece (n : Fin 4) (x : Nat) (op : NetOp) (c : Chip) (m : Mem) : Hit :=
  match c.initTag (.host n) with
  | none =>
    let d := match op with
      | .write d => Deferred.bar2Write n x d
      | op => Deferred.bar2Read n x op.len
    ⟨.ok, [], { c with waiting := c.waiting ++ [d] }, m⟩
  | some g =>
    if c.bar2Cut n x op.len then ⟨.ok, [], c.launch g (.bar2 n op.reads x op.len) (c.routerAt (c.bar2Target n.val x)), m⟩ else bar2Txn n x op c m

/-- A BAR2 read, split at 256-byte boundaries; the status is the first that is not OK. Log 85 (DEDUCED). -/
def bar2Read (n : Fin 4) : Nat → Nat → Nat → Chip → Mem → Hit
  | 0, _, _, c, m => ⟨.ok, [], c, m⟩
  | f + 1, x, len, c, m =>
    if len = 0 then ⟨.ok, [], c, m⟩
    else
      let k := upTo256 x len
      let h := bar2Piece n x (.read k) c m
      let r := bar2Read n f (x + k) (len - k) h.chip h.mem
      { r with status := h.status.join r.status, data := h.data ++ r.data }

/-- A BAR2 write, split likewise. -/
def bar2Write (n : Fin 4) : Nat → Nat → List Byte → Chip → Mem → Hit
  | 0, _, _, c, m => ⟨.ok, [], c, m⟩
  | f + 1, x, d, c, m =>
    if d = [] then ⟨.ok, [], c, m⟩
    else
      let k := upTo256 x d.length
      let h := bar2Piece n x (.write (d.take k)) c m
      let r := bar2Write n f (x + k) (d.drop k) h.chip h.mem
      { r with status := h.status.join r.status }

/-- A BAR2 access by port `n` (R131, R307, R383): a read of `len` bytes, or a write. -/
def bar2Access (n : Fin 4) (x len : Nat) (data : Option (List Byte)) (c : Chip) (m : Mem) : Chip × Mem :=
  let wait := !c.on .H_BAR2_OUT n.val && c.mustWake (.host n) (c.bar2Target n.val x) len
  match data with
  | none =>
    if wait then ({ c with waiting := c.waiting ++ [Deferred.bar2Read n x len] }.demandExit 2 5, m) else (bar2Read n (len + 1) x len c m).reply
  | some d =>
    if c.hostGone (.host n) then (c, m)
    else if wait then ({ c with waiting := c.waiting ++ [Deferred.bar2Write n x d] }.demandExit 2 5, m) else (bar2Write n (d.length + 1) x d c m).reply

/-! What has waited, and timeouts (R314, R315, R326) -/

/-- An access that has waited is issued; a command goes on waiting. -/
def reissue (x : Chip × Mem) (d : Deferred) : Chip × Mem :=
  match d with
  | .read who t n paced => netIssue who t (.read n) paced x.1 x.2
  | .write who t d paced => netIssue who t (.write d) paced x.1 x.2
  | .atomic who t n add v paced => netIssue who t (.atomic n add v) paced x.1 x.2
  | .bar2Read n off len => bar2Access n off len none x.1 x.2
  | .bar2Write n off d => bar2Access n off 0 (some d) x.1 x.2
  | d => ({ x.1 with waiting := x.1.waiting ++ [d] }, x.2)

/-- What waits for a tag or for the end of a wipe is issued again, in order. -/
def resume (c : Chip) (m : Mem) : Chip × Mem := c.waiting.foldl reissue ({ c with waiting := [] }, m)

/-- The timeout of a call has passed: 40 microseconds for a host's reads (R314). -/
def Chip.callExpired (c : Chip) (k : Call) : Bool :=
  match k.kind with
  | .access (.host _) true _ _ | .bar2 _ true _ _ => k.since + 40 * Chip.us ≤ c.now
  | _ => c.netExpired k.since

/-- A call ends without a response: its initiator, if it still waits, receives NET_TIMEOUT; what a read returns with it is a free value but for BAR2 (R307, R314).
Log 181 (DEDUCED). -/
def Chip.callFails (c : Chip) (k : Call) : Chip :=
  let c := { c with calls := c.calls.erase k }.netTimedOut k.tag routerHub k.target
  if !k.live then c
  else
    match k.kind with
    | .access _ read n _ =>
      let (d, c) := if read then Chip.freshBytes n c else ([], c)
      c.answer .netTimeout (ofBytes d) d
    | .bar2 n read x len =>
      let d := if read then List.replicate len 0xFF else []
      (c.accCount (.host n) true (!read) x).answer .netTimeout (ofBytes d) d
    | .drain p => c.probeEvent .PRB_EVENT_WR_ERR 5 p
    | .post _ => c.answer .netTimeout

/-- NET_TIMEOUT for tag `g` (R314): of an access in flight, of a DMA transaction or of an agent's access. What waited for a tag goes on. -/
def netTimeoutAny (g : Nat) (c : Chip) (a : Arr) (m : Mem) : Chip × Arr × Mem :=
  match c.calls.find? fun k => k.tag = g with
  | some k =>
    if c.callExpired k then
      let x := resume (c.callFails k) m
      (x.1, a, x.2)
    else (c, a, m)
  | none =>
    let x := netTimeout g c a
    (x.1, x.2, m)

end Sys2Proof.Machine
end

