-- ==== Sys2Proof/Machine/Power.lean ====
section
/-! DEFINITION. Power states and their commands (R381 to R386), QUIESCE and hot removal (R390, R391), regulators (R378, R379), temperature
(R377), module resets and start-up (R387 to R389), life cycle, wipes and debug (R392 to R398). -/

namespace Sys2Proof.Machine

/-! Commands that wait for a power-state exit (R383) -/

/-- The command of register `r` that run `c` into `c'` was accepted: it took a sequence number and was not refused. Log 119 (DEDUCED). -/
def accepted (r : CmdReg) (i : Nat) (c c' : Chip) : Bool :=
  c'.get .CQ_SEQ (r.idx i) ≠ c.get .CQ_SEQ (r.idx i) && (c'.cmdPending r i || c'.get r.result.2.2.1 i ≠ refused)

/-- A START, PRIME, LOAD, MT_CMD or PTN_CMD: in IDLE and WATCH, if it would be accepted, it is, and takes effect once the module is back in ON. -/
def onDemand (r : CmdReg) (i code : Nat) (d : Deferred) (run : Chip → Arr → Mem → Chip × Arr × Mem) (c : Chip) (a : Arr) (m : Mem) :
    Chip × Arr × Mem :=
  let x := run c a m
  if (c.power = pwrIdle ∨ c.power = pwrWatch) ∧ accepted r i c x.1 then
    let c := c.accept r i code
    ({ c with waiting := c.waiting ++ [d] }.demandExit 1 6, a, m)
  else x

/-- Whether QUIESCE refuses a command that is written to register `r` now: one that nothing of a higher rank refuses, an undefined code or the writer's
permission (R390, R409). -/
def Chip.quiesced (c : Chip) (r : CmdReg) (i : Nat) (defined permitted : Bool) : Bool :=
  c.get .H_QUIESCE 0 = 1 && !c.cmdPending r i && defined && permitted

/-- During a QUIESCE new commands are refused (R390); the spec does not give the code. -/
def Chip.quiesceRefuse (c : Chip) (r : CmdReg) (i cmd : Nat) : Chip := let (v, c) := c.fresh 8; c.refuse r i cmd v

/-- A write of PMP_CMD, whatever the power state. -/
def pmpWrite (p code count : Nat) (svc : Bool) (c : Chip) (a : Arr) (m : Mem) : Chip × Arr × Mem :=
  let run := fun (c : Chip) a m => let x := pmpCmd p code count svc c a; (x.1, x.2, m)
  if code = 1 ∨ code = 4 then onDemand .pmp p code (.pmp p code count svc) run c a m else run c a m

/-- A write of PTN_CMD, whatever the power state. -/
def ptnWrite (p code : Nat) (svc : Bool) (c : Chip) (a : Arr) (m : Mem) : Chip × Arr × Mem :=
  let run := fun (c : Chip) a m => let x := ptnCmd p code svc c a; (x.1.rimEdges m, x.2, m)
  if c.quiesced .ptn p (1 ≤ code && code ≤ 3) (svc || code = 3) then (c.quiesceRefuse .ptn p code, a, m)
  else onDemand .ptn p code (.ptn p code svc) run c a m

/-- A write of LDR_CMD, whatever the power state. -/
def ldrWrite (p code : Nat) (svc : Bool) (c : Chip) (a : Arr) (m : Mem) : Chip × Arr × Mem :=
  if c.quiesced .ldr p (1 ≤ code && code ≤ 2) svc then (c.quiesceRefuse .ldr p code, a, m)
  else if code = 1 then onDemand .ldr p code (.ldr p code svc) (ldrCmd p code svc) c a m
  else ldrCmd p code svc c a m

/-- A UNIT that names a band of an unpopulated die is also an access error of the service complex (R22). -/
def Chip.mtIndex (c : Chip) (target unit : Nat) : Chip :=
  if target ≠ mtSram ∧ c.bands ≤ unit then c.accCount (.core 0 true) false true 0xE00100 else c

/-- A write of MT_CMD, whatever the power state. -/
def mtWrite (code target unit : Nat) (c : Chip) (a : Arr) (m : Mem) : Chip × Arr × Mem :=
  let run := fun (c : Chip) a m => (c.mtCmd code target unit, a, m)
  let c := c.mtIndex target unit
  if c.quiesced .mt 0 (1 ≤ code && code ≤ 2) true then (c.quiesceRefuse .mt 0 code, a, m)
  else onDemand .mt 0 code (.mt code target unit) run c a m

/-- Whether the waiting command of register `r` is still pending. -/
def Chip.stillWaits (c : Chip) (r : CmdReg) (i code : Nat) : Bool := c.cmdPending r i && c.get .CQ_CMD (r.idx i) = code

/-- Take back the acceptance of a waiting command, which is now written in ON. -/
def Chip.unaccept (c : Chip) (r : CmdReg) (i : Nat) : Chip :=
  (c.discard r i).set .CQ_SEQ (r.idx i) (c.get .CQ_SEQ (r.idx i) + 65535)

/-- A waiting command or access takes effect. -/
def runDeferred (x : Chip × Arr × Mem) (d : Deferred) : Chip × Arr × Mem :=
  let (c, a, m) := x
  match d with
  | .pmp p code count svc =>
    if c.stillWaits .pmp p code then let y := pmpCmd p code count svc (c.unaccept .pmp p) a; (y.1, y.2, m) else x
  | .ptn p code svc => if c.stillWaits .ptn p code then let y := ptnCmd p code svc (c.unaccept .ptn p) a; (y.1.rimEdges m, y.2, m) else x
  | .ldr p code svc => if c.stillWaits .ldr p code then ldrCmd p code svc (c.unaccept .ldr p) a m else x
  | .mt code target unit => if c.stillWaits .mt 0 code then ((c.unaccept .mt 0).mtCmd code target unit, a, m) else x
  | .read .. | .write .. | .atomic .. | .bar2Read .. | .bar2Write .. => let y := reissue (c, m) d; (y.1, a, y.2)

/-! Low-power states and the cores' trace (R347, R381) -/

/-- Every core that has not entered low-power state `st` already does, its packets flushed. -/
def restCores (st : Nat) (c : Chip) (m : Mem) : Chip × Mem :=
  (List.range 8).foldl (fun (x : Chip × Mem) k => if x.1.on .H_LP k then x else traceFlush k st x.1 x.2) (c, m)

/-- The cores that rest in state `st` wake. -/
def Chip.wakeCores (c : Chip) (st : Nat) : Chip := (List.range 8).foldl (fun c k => if c.get .H_LP k = st + 1 then c.wakeCore k else c) c

/-- The cores that rest in state `old` wake as the module leaves it; one that goes to IDLE lets every core enter that (R347, R381). -/
def coresExit (old new : Nat) (c : Chip) (m : Mem) : Chip × Mem :=
  if new = pwrIdle then restCores 1 (c.wakeCores old) m else (c.wakeCores old, m)

/-! QUIESCE (R390) -/

/-- A HALT for every pump that is not halted, empty or loading. -/
def quiesceHalt (c : Chip) (a : Arr) : Chip × Arr :=
  (List.range 16).foldl
    (fun (x : Chip × Arr) p =>
      let st := x.1.pumpState p
      if st = psEmpty ∨ st = psHalt ∨ st = psLoading then x else pmpCmd p 2 0 true x.1 x.2) (c, a)

/-- The procedure starts. Log 118 (DEDUCED). -/
def quiesceStart (c : Chip) (a : Arr) : Chip × Arr :=
  let c := (c.set .H_QUIESCE 0 1).setDue .H_Q_DUE 0 (c.get .PWR_CTL_QLIMIT 0 * Chip.us)
  let (c, a) := quiesceHalt c a
  ((List.range 32).foldl (fun c ch => c.dmaAbort ch []) c, a)

/-- Whether every pump has come to rest. -/
def Chip.pumpsRest (c : Chip) : Bool :=
  (List.range 16).all fun p => c.pumpState p = psEmpty || c.pumpState p = psHalt || c.pumpState p = psLoading

/-- No tag is in use and every pump rests: trace is flushed and the result is produced. -/
def quiesceComplete (c : Chip) (a : Arr) (m : Mem) : Chip × Mem :=
  if c.get .H_QUIESCE 0 = 1 && c.pumpsRest && tagsUsed c a = 0 then
    let (c, m) := flushAll c m
    (((c.set .H_QUIESCE 0 0).set .H_Q_DUE 0 0).finish .pwr 0 completed 0, m)
  else (c, m)

/-- QLIMIT has passed: pumps that have not halted receive a partition reset. -/
def quiesceLimit (c : Chip) (a : Arr) : Chip × Arr :=
  if c.get .H_QUIESCE 0 = 1 && c.due .H_Q_DUE 0 then
    (List.range 16).foldl (fun (x : Chip × Arr) p => if x.1.pumpState p = psHalt then x else partitionResetIf p x.1 x.2) (c.set .H_Q_DUE 0 0, a)
  else (c, a)

/-! PWR_CMD (R382, R385, R409) -/

/-- Refusal codes of PWR_RESULT. -/
def pwrBusy : Nat := 1
def pwrBadState : Nat := 2
def pwrBadCmd : Nat := 3
def pwrAvs : Nat := 4

/-- Whether IDLE and WATCH must wait: a pump runs, or a LOAD, MT_CMD or SETRATE is pending. -/
def Chip.idleBusy (c : Chip) : Bool :=
  (List.range 16).any (fun p => c.pumpState p ≠ psEmpty && c.pumpState p ≠ psHalt) || (List.range 16).any (fun p => c.loading p) ||
    c.cmdPending .mt 0 || c.on .PMP_RATE_CHANGING 0

/-- Whether SLEEP must wait. -/
def Chip.sleepBusy (c : Chip) : Bool :=
  (List.range 16).any (fun p => c.on .PTN_CFG_ACTIVE p) || (List.range 32).any (fun ch => c.on .DMA_CH_CTL_EN ch) || c.streaming

/-- IDLE. -/
def pwrCmdIdle (c : Chip) (m : Mem) : Chip × Mem :=
  if c.power ≠ pwrOn then (c.refuse .pwr 0 1 pwrBadState, m)
  else if c.idleBusy then (c.refuse .pwr 0 1 pwrBusy, m)
  else restCores 1 ((c.set .PWR_STATE_STATE 0 pwrIdle).acceptDone .pwr 0 1) m

/-- The first sample of WATCH is due INTERVAL milliseconds and 100 microseconds after its entry. -/
def Chip.watchEnter (c : Chip) : Chip :=
  ((c.set .PWR_STATE_STATE 0 pwrWatch).set .H_WATCH_CNT 0 0).setDue .H_WATCH_DUE 0 ((c.get .PWR_WATCH_CTL_INTERVAL 0 * 1000 + 100) * Chip.us)

/-- WATCH. -/
def pwrCmdWatch (c : Chip) (m : Mem) : Chip × Mem :=
  if c.power ≠ pwrOn ∧ c.power ≠ pwrIdle then (c.refuse .pwr 0 2 pwrBadState, m)
  else if c.idleBusy then (c.refuse .pwr 0 2 pwrBusy, m)
  else restCores 2 ((c.wakeCores 1).accept .pwr 0 2).watchEnter m

/-- A voltage request is not acknowledged (R378). -/
def Chip.avsFail (c : Chip) : Chip := (c.set .PWR_AVS_FAIL 0 1).raise 248

/-- The rails that SLEEP switches off, and 0.60 V on VDD_IOD (R385). -/
def Chip.railsDown (c : Chip) : Chip := (((c.toRail (.operation 0 false)).toRail (.operation 1 false)).toRail (.operation 2 false)).toRail (.voltage 1 600)

/-- The rails as a wake restores them, in the order of R387. -/
def Chip.railsUp (c : Chip) : Chip := (((c.toRail (.voltage 1 800)).toRail (.operation 2 true)).toRail (.operation 0 true)).toRail (.operation 1 true)

/-- Entry to SLEEP: every link goes down, which is a loss of its host, and the contents of the compute dies and stacks go (R381, R385, R386). Log 116 (DEDUCED). -/
def sleepEnter (c : Chip) (a : Arr) (m : Mem) : Chip × Arr × Mem :=
  let (c, m) := flushAll c m
  let (c, m) := restCores 3 ((c.wakeCores 1).accept .pwr 0 3) m
  let (c, a, m) := (List.range 4).foldl
    (fun (x : Chip × Arr × Mem) n => if x.1.portExists n then portHold n x.1 x.2.1 x.2.2 else x) (c.railsDown.set .PWR_STATE_STATE 0 pwrSleep, a, m)
  (c, { bridgeErr := a.bridgeErr }, { m with cistern := [], deep := [], cisErr := [], deepErr := [] })

/-- SLEEP; `ack` tells whether the regulators acknowledge the request on VDD_IOD (R379). -/
def pwrCmdSleep (ack : Bool) (c : Chip) (a : Arr) (m : Mem) : Chip × Arr × Mem :=
  if c.power ≠ pwrOn ∧ c.power ≠ pwrIdle then (c.refuse .pwr 0 3 pwrBadState, a, m)
  else if c.sleepBusy then (c.refuse .pwr 0 3 pwrBusy, a, m)
  else if !ack then (((c.toRail (.voltage 1 600)).toRail (.voltage 1 800)).avsFail.refuse .pwr 0 3 pwrAvs, a, m)
  else sleepEnter c a m

/-- ON. -/
def Chip.pwrCmdOn (c : Chip) : Chip :=
  if c.power ≠ pwrIdle then c.refuse .pwr 0 4 pwrBadState else ((c.set .PWR_STATE_STATE 0 pwrOn).wakeCores 1).acceptDone .pwr 0 4

/-- QUIESCE. -/
def pwrCmdQuiesce (c : Chip) (a : Arr) : Chip × Arr :=
  if c.power ≠ pwrOn ∧ c.power ≠ pwrIdle then (c.refuse .pwr 0 5 pwrBadState, a) else quiesceStart (c.accept .pwr 0 5) a

/-- A write of PWR_CMD (R93, R382). -/
def pwrCmd (code : Nat) (ack : Bool) (c : Chip) (a : Arr) (m : Mem) : Chip × Arr × Mem :=
  if c.cmdPending .pwr 0 then (c.cmdLost .pwr 0, a, m)
  else
    match code with
    | 1 => let x := pwrCmdIdle c m; (x.1, a, x.2)
    | 2 => let x := pwrCmdWatch c m; (x.1, a, x.2)
    | 3 => pwrCmdSleep ack c a m
    | 4 => (c.pwrCmdOn, a, m)
    | 5 => let x := pwrCmdQuiesce c a; (x.1, x.2, m)
    | _ => (c.refuse .pwr 0 code pwrBadCmd, a, m)

/-! Exits (R383, R384, R386, R391) -/

/-- A QUIESCE that PRESENT_N has asked for starts once the module is in ON or IDLE (R391). -/
def quiesceAsked (c : Chip) (a : Arr) : Chip × Arr :=
  if c.get .H_QUIESCE 0 = 2 then quiesceStart (c.accept .pwr 0 5) a else (c, a)

/-- An exit from IDLE or WATCH completes (R383): the WATCH result is produced, cores go on, and what waited takes effect. -/
def exitComplete (c : Chip) (a : Arr) (m : Mem) : Chip × Arr × Mem :=
  match c.get .H_EXIT 0 with
  | 0 => (c, a, m)
  | goal =>
    let old := c.power
    let c := ((c.set .H_EXIT 0 0).set .H_EXIT_DUE 0 0).set .PWR_STATE_STATE 0 (if goal = 1 then pwrOn else pwrIdle)
    let c := if old = pwrWatch then ((c.set .PWR_STATE_WAKE 0 (c.get .H_EXIT_CAUSE 0)).set .H_WATCH_DUE 0 0).finish .pwr 0 completed 0 else c
    let ws := c.waiting
    let (c, m) := coresExit old (if goal = 1 then pwrOn else pwrIdle) c m
    let (c, a, m) := ws.foldl runDeferred ({ c with waiting := [] }, a, m)
    let (c, a) := quiesceAsked c a
    (c, a, m)

/-- The WATCH vector of a sample whose raw levels are `v`: a slot with VALID = 0, and a pin whose bank is not PGOOD, read 0 (R384). -/
def Chip.watchVector (c : Chip) (v : Nat) : Nat :=
  (List.range 32).foldl
    (fun x k =>
      if c.on .PWR_WATCH_PIN_VALID k && c.on .IOB_BANK_STATUS_PGOOD (c.get .PWR_WATCH_PIN_BANK k) then x else setBits x k k 0) v

/-- The 96 bits of PWR_WATCH_VAL or PWR_WATCH_MASK. -/
def Chip.watchBits (c : Chip) (f : Fld) : Nat := c.get f 0 + c.get f 1 * 2 ^ 32 + c.get f 2 * 2 ^ 64

/-- A sample of the WATCH engine (R384). -/
def Chip.watchSample (c : Chip) (raw : Nat) : Chip :=
  if c.power = pwrWatch && c.due .H_WATCH_DUE 0 && !c.on .H_EXIT 0 then
    let v := c.watchVector raw
    let c := c.set .H_WATCH_DUE 0 (c.get .H_WATCH_DUE 0 + c.get .PWR_WATCH_CTL_INTERVAL 0 * 1000 * Chip.us)
    if Nat.land (Nat.xor v (c.watchBits .PWR_WATCH_VAL_BITS)) (c.watchBits .PWR_WATCH_MASK_BITS) = 0 then c.set .H_WATCH_CNT 0 0
    else
      let n := c.get .H_WATCH_CNT 0 + 1
      let c := c.set .H_WATCH_CNT 0 n
      if n = c.get .PWR_WATCH_CTL_COUNT 0 then
        ((List.range 3).foldl (fun c w => c.set .PWR_WATCH_LAST_BITS w (v / 2 ^ (32 * w))) c).demandExit 2 1
      else c
  else c

/-- A wake from SLEEP begins for `cause`; it takes at most 20 ms (R386). -/
def Chip.wakeBegin (c : Chip) (cause : Nat) : Chip :=
  if c.power = pwrSleep && !c.on .H_WAKE_CAUSE 0 then (c.set .H_WAKE_CAUSE 0 (cause + 1)).setDue .H_WAKE_DUE 0 (20000 * Chip.us) else c

/-- A filtered level on WAKE[n]. -/
def Chip.wakePin (c : Chip) (n level : Nat) : Chip :=
  if bitB (c.get .PWR_WAKE_CTL_EN 0) n && bit (c.get .PWR_WAKE_CTL_POL 0) n = level then c.wakeBegin 2 else c

/-- A START condition and a 7-bit address on the management bus. -/
def Chip.mgmtMatch (c : Chip) (addr : Nat) : Chip :=
  if c.on .PWR_WAKE_CTL_MGMT_EN 0 && c.get .PWR_WAKE_CTL_MGMT_ADDR 0 = addr then c.wakeBegin 3 else c

/-- The wake is complete: IDLE, and the SLEEP result (R386). -/
def wakeComplete (c : Chip) (a : Arr) (m : Mem) : Chip × Arr × Mem :=
  match (if c.power = pwrSleep then c.get .H_WAKE_CAUSE 0 else 0) with
  | 0 => (c, a, m)
  | w + 1 =>
    let c := (((c.railsUp.set .H_WAKE_CAUSE 0 0).set .H_WAKE_DUE 0 0).set .PWR_STATE_STATE 0 pwrIdle).set .PWR_STATE_WAKE 0 w
    let (c, m) := coresExit 3 pwrIdle (c.finish .pwr 0 completed 0) m
    let (c, a) := quiesceAsked c a
    (c, a, m)

/-! Regulators (R378 to R380) -/

/-- The voltage request of the SETRATE in progress is not acknowledged within TMO microseconds (R378, R379): the previous
target is written again. Log 117 (DEDUCED). -/
def Chip.avsTimeout (c : Chip) : Chip :=
  if c.on .PMP_RATE_CHANGING 0 then
    let p := c.get .H_RATE_PART 0
    let c := (((c.set .PMP_RATE_CHANGING 0 0).set .H_RATE_DUE 0 0).toRail (.voltage 0 (c.get .PWR_AVS_VDD_C 0))).avsFail
    if c.get .CQ_CMD (CmdReg.pmp.idx p) = 5 then c.finish .pmp p aborted 0 else c
  else c

/-! Temperature (R377, R406, R407) -/

/-- The thresholds that a temperature is at or above. -/
def Chip.thermFlags (c : Chip) (t : Nat) : Nat := b2n (c.get .PWR_CTL_WARN 0 ≤ t) + b2n (c.get .PWR_CTL_CRIT 0 ≤ t) * 2

/-- Die `d` (4 the I/O die) has reached `t` degrees, below the trip temperature. -/
def Chip.temperature (c : Chip) (d t : Nat) : Chip :=
  let old := c.get .H_THERM d
  let new := c.thermFlags t
  let c := (c.set .H_TEMP d t).set .H_THERM d new
  let c := if old = new then c else c.raise 249
  let c := if bitB new 1 && !bitB old 1 then c.logFault fltThermCrit 0 (d % 4 + b2n (d = 4) * 4 + t * 256) else c
  c.faultN

/-! Module resets (R17, R388) -/

/-- What a module reset leaves: the always-on registers, failed channels and failed links, which only a power cycle brings back (R158, R388, R401), and what is not a
register but the world around: pins, temperatures, fuses, flash. Log 123 (DEDUCED). -/
def resetKeeps : List Fld :=
  [.PWR_RST_CAUSE_TAMPER, .PWR_RST_CAUSE_LC, .PWR_RST_CAUSE_THERM, .PWR_RST_CAUSE_BROWNOUT, .PWR_RST_CAUSE_PIN, .PWR_RST_CAUSE_POR,
   .LC_STATE_REFUSED, .LC_STATE_PEND, .LC_STATE_STATE, .PWR_WAKE_CTL_MGMT_ADDR, .PWR_WAKE_CTL_MGMT_EN, .PWR_WAKE_CTL_POL, .PWR_WAKE_CTL_EN,
   .DMC_STACK_STATUS_CH_FAIL, .H_LINK_FAIL, .H_FW_GOOD, .H_TEMP, .H_PERST, .H_ABSENT, .H_NONCE]

/-- The registers after a module reset. An accepted life-cycle change has been programmed by then (R393); the nonce is fresh (R396). Log 122 (DEDUCED). -/
def Chip.moduleReset (c : Chip) : Chip :=
  let n : Chip :=
    { grade := c.grade, stepping := c.stepping, suffixN := c.suffixN, x16 := c.x16, lbSel := c.lbSel, now := c.now, free := c.free
      fld := c.fld.filter fun e => resetKeeps.any fun f => e.1 % 1024 = f.ctorIdx
      host := c.host, frames := c.frames, rails := c.rails }
  let n := if n.on .LC_STATE_PEND 0 then (n.set .LC_STATE_STATE 0 (n.get .LC_STATE_PEND 0)).set .LC_STATE_PEND 0 0 else n
  let n := (n.set .H_TK_AT 0 (c.now / tkPeriod)).bump .H_NONCE 0
  (List.range 5).foldl (fun n d => n.set .H_THERM d (n.thermFlags (n.get .H_TEMP d))) n

/-- A module reset of everything; memory contents are those of power-on. -/
def resetAll (cause : Chip → Chip) (c : Chip) : Chip × Arr × Mem := (cause c.moduleReset, {}, {})

/-- Power-on: the links between dies and the channels are good again, and RESET_N is low (R387). -/
def Chip.causePor (c : Chip) : Chip :=
  (((c.clearWhere .H_LINK_FAIL fun _ => true).clearWhere .DMC_STACK_STATUS_CH_FAIL fun _ => true).set .PWR_RST_CAUSE_POR 0 1).set .H_RST_N 0 1
/-- RESET_N clears the tamper latch (R394), and is low until start-up begins. -/
def Chip.causePin (c : Chip) : Chip := ((c.set .PWR_RST_CAUSE_PIN 0 1).set .PWR_RST_CAUSE_TAMPER 0 0).set .H_RST_N 0 1
def Chip.causeBrownout (c : Chip) : Chip := c.set .PWR_RST_CAUSE_BROWNOUT 0 1
def Chip.causeTherm (c : Chip) : Chip := c.set .PWR_RST_CAUSE_THERM 0 1
def Chip.causeLc (c : Chip) : Chip := c.set .PWR_RST_CAUSE_LC 0 1
/-- The rails are removed: OFF, and the tamper latch is clear (R387, R394). -/
def Chip.causeOff (c : Chip) : Chip := (c.set .PWR_STATE_STATE 0 pwrOff).set .PWR_RST_CAUSE_TAMPER 0 0

/-- Die `d` has reached `t` degrees: at 125 the module resets (R377). -/
def dieTemperature (d t : Nat) (c : Chip) (a : Arr) (m : Mem) : Chip × Arr × Mem :=
  if 125 ≤ t then resetAll Chip.causeTherm (c.set .H_TEMP d t) else (c.temperature d t, a, m)

/-- A rail below 90 % of nominal resets the module, while RESET_N is high (R387). -/
def brownOut (c : Chip) (a : Arr) (m : Mem) : Chip × Arr × Mem := if c.on .H_RST_N 0 then (c, a, m) else resetAll Chip.causeBrownout c

/-! Dedicated output pins (R263) -/

/-- The outputs among the dedicated pins. -/
inductive DedPin where
  | tickOut | ppsOut | xtrigOut (n : Fin 4) | loadErrN | faultN | mgmtScl | mgmtSda | pmbScl | pmbSda | avsClk | avsMdata | tdo | xspiClk | xspiCsN | xspiResetN
  | xspiD (n : Fin 8)
deriving DecidableEq, Repr

/-- What an output does: it drives a level, or it is released or of high impedance. -/
inductive PinDrive where
  | low | high | off
deriving DecidableEq, Repr

/-- An output while RESET_N is low. -/
def DedPin.inReset : DedPin → PinDrive
  | .tickOut | .ppsOut | .xtrigOut _ | .faultN | .avsClk | .xspiClk | .xspiResetN => .low
  | .avsMdata | .xspiCsN => .high
  | .loadErrN | .mgmtScl | .mgmtSda | .pmbScl | .pmbSda | .tdo | .xspiD _ => .off

/-- What an output does, where the model holds it: the asserted state of an active-low open-drain pin is low. The serial buses and TDO follow their protocols once RESET_N is
high, which the spec does not give bit by bit. Log 177 (DESIGN CHOICE). -/
def Chip.dedPin (c : Chip) (x : DedPin) : Option PinDrive :=
  let level := fun v : Bool => if v then PinDrive.high else .low
  if c.on .H_RST_N 0 then some x.inReset
  else
    match x with
    | .tickOut => some (level (c.on .H_TICK_OUT 0))
    | .ppsOut => some (level (c.on .H_PPS_OUT 0))
    | .xtrigOut n => some (level (c.on .H_XOUT n.val))
    | .loadErrN => some (if c.on .RIM_LD_STATUS_ERR 0 then .low else .off)
    | .faultN => some (if c.on .H_FAULT_N 0 then .low else .off)
    | _ => none

/-! Start-up (R389) -/

/-- Step 3: the failing banks and words of service SRAM. -/
def Chip.startBanks (c : Chip) (u : StartUp) : Chip :=
  (List.range 8).foldl (fun c k => c.set .H_SRAM_BAD k (bit u.sramBad.toNat k)) (c.mtFailures mtSram u.sramFails)

/-- Steps 4 and 5: the configuration record, the flash and the vault. In BLANK and SCRAPPED no slot is usable (R398). Log 48 (DEDUCED), 132 (DEDUCED). -/
def Chip.startBoot (c : Chip) (u : StartUp) : Chip :=
  let lc := c.get .LC_STATE_STATE 0
  let c := { c with x16 := u.recordOk && u.x16 }.set .H_FLASH_SIZE 0 u.flashSize.toNat
  if lc = 1 ∨ lc = 5 then c else (List.range 64).foldl (fun c s => c.set .H_VAULT_SLOT s (bit u.vault.toNat s)) c

/-! Step 6: the firmware pair (R362, R398) -/

/-- The firmware that a life-cycle state accepts; none in SCRAPPED. -/
def fwMaker (lc : Nat) : Option FwMaker := match lc with | 1 => some .provisioning | 2 | 3 => some .owner | 4 => some .rma | _ => none

/-- Whether the image of a slot verifies, as firmware that the life-cycle state accepts. -/
def fwGood (lc : Nat) : Option FwImage → Bool
  | none => false
  | some x => x.verifies && fwMaker lc = some x.maker

/-- The images of a pair of slots. -/
def fwPair (f : FwFlash) (pr : Bool × Bool) : Option FwImage × Option FwImage := (if pr.1 then f.secB else f.secA, if pr.2 then f.svcB else f.svcA)

/-- Whether both images of a pair verify. -/
def fwVerifies (lc : Nat) (f : FwFlash) (pr : Bool × Bool) : Bool := fwGood lc (fwPair f pr).1 && fwGood lc (fwPair f pr).2

/-- The two versions of a pair, 0 for an empty slot. -/
def fwVersions (f : FwFlash) (pr : Bool × Bool) : Word32 × Word32 :=
  (((fwPair f pr).1.map FwImage.version).getD 0, ((fwPair f pr).2.map FwImage.version).getD 0)

/-- Whether the manifest verifies and lists the versions of a pair. -/
def fwListed (f : FwFlash) (pr : Bool × Bool) : Bool := f.manifestOk && f.manifest.contains (fwVersions f pr)

/-- The first pair that a verified manifest lists, in its order, from whichever slots hold those versions and verify. -/
def fwManifest (lc : Nat) (f : FwFlash) : Option (Bool × Bool) :=
  if f.manifestOk then f.manifest.findSome? fun e => [(false, false), (false, true), (true, false), (true, true)].find? fun pr => fwVerifies lc f pr && fwVersions f pr = e
  else none

/-- Whether the preferred pair passes. -/
def fwPreferred (lc : Nat) (f : FwFlash) (pr : Bool × Bool) : Bool := fwVerifies lc f pr && fwListed f pr

/-- The pair that is booted: the preferred one, the last known-good one, or one of the manifest (R362). -/
def fwChoice (lc : Nat) (f : FwFlash) (lastGood : Option (Bool × Bool)) : Option (Bool × Bool) :=
  match f.preferred.filter (fwPreferred lc f), lastGood.filter (fwVerifies lc f) with
  | some pr, _ => some pr
  | none, some pr => some pr
  | none, none => fwManifest lc f

/-- The flags of the boot report: FW_PAIR_UNTESTED, FW_SIG and FALLBACK. Log 184 (DEDUCED). -/
def fwFlags (lc : Nat) (f : FwFlash) : Nat :=
  match f.preferred with
  | none => 4
  | some pr =>
    if fwPreferred lc f pr then 0
    else if fwVerifies lc f pr && f.manifestOk then 1 + 4
    else 2 + 4

/-- The last known-good pair: the one recorded since, or the configuration record's. -/
def Chip.lastGood (c : Chip) (u : StartUp) : Option (Bool × Bool) :=
  match c.get .H_FW_GOOD 0 with
  | 0 => if u.recordOk then u.fw.lastGood else none
  | v + 1 => some (bitB v 0, bitB v 1)

/-- What the boot ROM sees of the flash: no preferred pair where the record is invalid. -/
def startFw (u : StartUp) : FwFlash := { u.fw with preferred := if u.recordOk then u.fw.preferred else none }

/-- The pair that the boot ROM starts. -/
def Chip.bootPair (c : Chip) (u : StartUp) : Option (Bool × Bool) := fwChoice (c.get .LC_STATE_STATE 0) (startFw u) (c.lastGood u)

/-- Step 6: the firmware pair `pr` runs, and FAULT_N is released. A listed pair becomes the last known-good one; every port is ready at the end of start-up. -/
def Chip.startFirmware (c : Chip) (u : StartUp) (pr : Bool × Bool) : Chip :=
  let f := startFw u
  let slots := b2n pr.1 + b2n pr.2 * 2
  let c := (((c.set .H_FW_SEC 0 (fwVersions f pr).1.toNat).set .H_FW_SVC 0 (fwVersions f pr).2.toNat).set .H_FW_SLOTS 0 slots).set .H_FW_FLAGS 0
    (fwFlags (c.get .LC_STATE_STATE 0) f)
  let c := if fwListed f pr then c.set .H_FW_GOOD 0 (slots + 1) else c
  (c.set .FLT_SRC_BOOT 0 0).faultN

/-- Steps 8 and 9: VDD_C, the stacks, and the march tests of the bands. -/
def Chip.startDies (c : Chip) (u : StartUp) : Chip :=
  let c := (c.toRail (.voltage 0 800)).set .PWR_AVS_VDD_C 0 800
  let c := (List.range (2 * c.dies)).foldl (fun c k => c.set .DMC_STACK_STATUS_STATE k (if bit u.stackBad.toNat k = 1 then 3 else 2)) c
  (List.range 3).foldl (fun c t => c.mtFailures t ((u.bandFails.filter fun x => x.1 = t).map fun x => (x.2.1, x.2.2))) c

/-- Start-up after a module reset, with RESET_N high (R389). A fuse or PLL failure keeps the module in reset; a failing SRAM bank 0 or 1, no bootable pair, or SCRAPPED stops the
boot in ROM, with FAULT_N asserted. -/
def Chip.startUp (c : Chip) (u : StartUp) : Chip :=
  let c := c.set .H_RST_N 0 0
  if c.on .H_WARM 0 || c.power = pwrOff || !u.fusesOk || !u.pllsOk then c
  else
    let c := c.startBanks u
    if u.sramBad.toNat % 4 ≠ 0 then c
    else
      let c := c.startBoot u
      match c.bootPair u with
      | none => c
      | some pr => ((c.startFirmware u pr).startDies u).set .H_WARM 0 1

/-! Hot removal (R391) -/

/-- PRESENT_N has been high for 1 microsecond: the bank pins release, the ports are held, and QUIESCE starts. Log 121 (DESIGN CHOICE). -/
def presentDeassert (c : Chip) (a : Arr) (m : Mem) : Chip × Arr × Mem :=
  if c.on .H_ABSENT 0 then (c, a, m)
  else
    let c := (List.range 12).foldl Chip.pgoodFall (c.set .H_ABSENT 0 1)
    let (c, a, m) := (List.range 4).foldl (fun (x : Chip × Arr × Mem) n => if x.1.portExists n then portHold n x.1 x.2.1 x.2.2 else x) (c, a, m)
    if c.on .H_QUIESCE 0 || pwrSleep < c.power then (c, a, m)
    else
      let c := c.set .H_QUIESCE 0 2
      if c.power = pwrWatch then (c.demandExit 2 0, a, m)
      else if c.power = pwrSleep then (c.wakeBegin 0, a, m)
      else let (c, a) := quiesceAsked c a; (c, a, m)

/-- PRESENT_N has been low for 10 ms. -/
def Chip.presentAssert (c : Chip) : Chip := c.set .H_ABSENT 0 0

/-! Life cycle and vault (R392 to R395) -/

/-- A wipe of the vault and of channels 32 to 63 starts; it ends every debug authorisation, and the nonce is fresh (R394, R396). -/
def wipe (c : Chip) (m : Mem) : Chip × Mem :=
  let c := (((c.mbxWipe.clearWhere .H_VAULT_SLOT fun _ => true).set .DBG_STATUS_LEVEL 0 0).set .DBG_STATUS_PERM 0 0).bump .H_NONCE 0
  (c.set .H_WIPE 0 1, { m with vault := [] })

/-- The wipe is complete, and the accesses that have waited for it are performed (R326). Log 126 (DEDUCED). -/
def wipeDone (c : Chip) (m : Mem) : Chip × Mem := if c.on .H_WIPE 0 then resume ((c.set .H_WIPE 0 0).raise 251) m else (c, m)

/-- Tamper (R394). -/
def tamper (c : Chip) (m : Mem) : Chip × Mem :=
  let (c, m) := wipe c m
  (((c.set .PWR_RST_CAUSE_TAMPER 0 1).raise 250).wakeBegin 4, m)

/-- Whether the fuses may move to state `t` (R392, R393). -/
def Chip.lcAllowed (c : Chip) (t : Nat) : Bool :=
  let s := c.get .LC_STATE_STATE 0
  !c.on .LC_STATE_PEND 0 &&
    ((s = 1 && t = 2) || (s = 2 && t = 3) ||
     (s = 3 && t = 4 && c.get .DBG_STATUS_LEVEL 0 = 1 && bitB (c.get .DBG_STATUS_PERM 0) 3) || (s ≠ 5 && t = 5))

/-- A write of LC_CMD from secure state (R393): the same key word twice in a row asks for a change. Log 125 (DEDUCED). -/
def lcCmd (key : Nat) (c : Chip) (m : Mem) : Chip × Mem :=
  if c.get .H_LC_KEY 0 ≠ key + 1 then (c.set .H_LC_KEY 0 (key + 1), m)
  else
    let c := c.set .H_LC_KEY 0 0
    if 0x4C430000 ≤ key && key ≤ 0x4C430005 && c.lcAllowed (key - 0x4C430000) then
      let (c, m) := wipe c m
      ((c.set .LC_STATE_PEND 0 (key - 0x4C430000)).setDue .H_LC_DUE 0 (1000 * Chip.us), m)
    else (c.set .LC_STATE_REFUSED 0 1, m)

/-! Debug (R396 to R398) -/

/-- The nonce in force. -/
def Chip.nonce (c : Chip) : Nat := (Config.nonce (c.get .H_NONCE 0)).toNat

/-- Whether a certificate passes every check. -/
def Chip.certOk (c : Chip) (x : Cert) : Bool :=
  x.serial = Config.serial && x.lifeCycle.toNat = c.get .LC_STATE_STATE 0 && x.nonce.toNat = c.nonce && (x.klogrim || c.on .H_VAULT_SLOT 2) &&
    Config.certVerify (if x.klogrim then 64 else 2) x.serial x.lifeCycle.toNat x.nonce.toNat x.perm.toNat x.sig

/-- A certificate is presented. -/
def Chip.certificate (c : Chip) (x : Cert) : Chip :=
  if pwrSleep ≤ c.power then c
  else if c.certOk x then (c.set .DBG_STATUS_LEVEL 0 (if x.klogrim then 2 else 1)).set .DBG_STATUS_PERM 0 x.perm.toNat
  else ((c.set .DBG_STATUS_LEVEL 0 0).set .DBG_STATUS_PERM 0 0).set .DBG_STATUS_REJ 0 1

/-- Whether boundary scan is permitted, by the matrix of R398. Log 128 (DEDUCED). -/
def Chip.scanAllowed (c : Chip) : Bool :=
  match c.get .LC_STATE_STATE 0 with
  | 1 => true
  | 2 | 3 => c.get .DBG_STATUS_LEVEL 0 ≠ 1
  | 4 => true
  | _ => false

/-- The JTAG instructions, in the order of R397. Log 129 (PRESUMED). -/
inductive Jtag where
  | bypass | idcode | sample | extest | highz | clamp | extestPulse | extestTrain
deriving DecidableEq, Repr

/-- The IDCODE (R397). -/
def Chip.idcode (c : Chip) : Nat :=
  b2n c.isB0 * 2 ^ 28 + (match c.grade with | .vdx410 => 0x0410 | .vdx420 => 0x0420 | .vdx440 => 0x0440) * 2 ^ 12 + Config.jep106.toNat * 2 + 1

/-- BYPASS or IDCODE is put in force; its data register answers `v`. Nothing answers in OFF. -/
def Chip.jtagOpen (c : Chip) (j : Jtag) (v : Nat) : Chip := if c.power = pwrOff then c else (c.set .H_JTAG_IR 0 j.ctorIdx).answer .ok v

/-- A boundary-scan instruction: refused where the matrix does not permit it, and without an answer in SLEEP and OFF. In WATCH the module returns to
IDLE. The boundary register is loaded with `data`, and what it captured is a free value. -/
def Chip.jtagScan (c : Chip) (j : Jtag) (data : Nat) : Chip :=
  if pwrSleep ≤ c.power then c
  else if !c.scanAllowed then (c.set .DBG_STATUS_DENIED 0 1).answer .ok 0
  else
    let c := if c.power = pwrWatch then c.demandExit 2 5 else c
    let (v, c) := c.fresh 64
    ((c.set .H_JTAG_IR 0 j.ctorIdx).set .H_JTAG_BSR 0 data).answer .ok v

end Sys2Proof.Machine
end

