-- ==== Sys2Proof/Machine/RegTable.lean ====
section
/-! DEFINITION. The register map: every register of the spec's register tables with its block, its offset, its strides and
its fields, each field with its bits and its access type (R12). -/

namespace Sys2Proof.Machine

/-- The register blocks of the address maps (R304, R308, R322). -/
inductive Blk where
  | agp | cc | dma | dmc | eth | glb | ic | iob | lq | mbx
  | msix | noc | part | prb | rim | sch | svc | tk | trc
deriving DecidableEq, Repr

/-- The access types of R12. -/
inductive Acc where
  | rw | ro | wo | w1c | w1s | rc | rwl
deriving DecidableEq, Repr

/-- The registers, by the spec's names. -/
inductive Reg where
  | XCH_STATUS | XCH_LAT | XCH_REPAIR_CNT | XCH_ERR_LOC | XCH_EDGE_CNT | PMP_CTL
  | PMP_CMD | PMP_STATUS | PMP_SLEN | PMP_TDIV | PMP_HOLD_REQ | PMP_HOLD_CAUSE
  | PMP_HOLD_LIMIT | PMP_CYCLE | PMP_HOLD_PERIODS | PMP_OVR_CNT | PMP_TICK_MERGE | PMP_LAG_MAX
  | PMP_RATE | PMP_STOP_CAUSE | PMP_STOP_CYCLE | PMP_STOP_CODES | PMP_EVENT | PMP_EVENT_EN
  | PMP_RESULT | PMP_RESULT_CYC | PTN_CFG | PTN_CMD | PTN_RESULT | PTN_ENC_FAULT
  | PTN_LOSS | PTN_LOSS_CYC | DM_STATUS | DM_LATE_CNT | DM_LATE_MAX | DM_UNMAPPED_CNT
  | DM_ERR | DM_ERR_LOC | DM_MAP | DMC_STACK_CFG | DMC_STACK_STATUS | MT_CMD
  | MT_RESULT | MT_FAIL_CNT | MT_STATUS | MT_FAIL_LOC | LDR_CMD | LDR_PARAM
  | LDR_SRC | LDR_STATUS | LDR_RESULT | LDR_REFUSE | LDR_REFUSE_OFF | LDR_IMAGE_ID
  | LDR_LAT_PAD | LDR_CERT | PRB_CTL | PRB_CMD | PRB_RESULT | PRB_STATUS
  | PRB_BUF_BASE | PRB_BUF_LEN | PRB_DEPTH | PRB_RATE | PRB_MASK_CTL | PRB_EVENT
  | PRB_EVENT_EN | PRB_VIOL_CNT | PRB_VIOL_POS | PRB_VIOL_CYC | PRB_TRIG_CYC | PRB_TRIG_REC
  | PRB_TRIG_SRC | PRB_REC_CNT | PRB_SEQ_CTL | RIM_SECT_OWN | RIM_CLK_SEL | RIM_CLK_STATUS
  | RIM_RST_CTL | RIM_BUS_EVT | RIM_BUS_LOC | RIM_SCRUB_CTL | RIM_SCRUB_STATUS | RIM_SCRUB_CE_CNT
  | RIM_SCRUB_UE_LOC | ELB_CTL | ELB_STATUS | ELB_EVENT | ELB_LATE_CNT | RIM_ID
  | RIM_LD_CMD | RIM_LD_PARAM | RIM_LD_RESULT | RIM_LD_SRC | RIM_LD_STATUS | RIM_LD_ERR_LOC
  | RIM_SECT_STATE | IOB_BANK_CFG | IOB_BANK_STATUS | IOB_LOCK | IOB_PIN_CFG | AGP_OUT_LO
  | AGP_OUT_HI | AGP_OE_LO | AGP_OE_HI | AGP_IN | AGP_DENY_CNT | AGP_DENY_LOC
  | LQ_QUAD_CTL | LQ_QUAD_STATUS | LQ_LANE_CTL | LQ_LANE_TXEQ | LQ_LANE_STATUS | LQ_LANE_ERR
  | LQ_PRBS_CTL | LQ_PRBS_STATUS | LQ_PRBS_ERR | LQ_PRBS_BITS | LQ_DFE | ETH_CTL
  | ETH_STATUS | ETH_PTP_NEXT_SEC | ETH_PTP_NEXT_NS | ETH_TX_TS | DMA_PORT_STATUS | DMA_CH_CTL
  | DMA_CH_DESC_BASE | DMA_CH_CPL_BASE | DMA_CH_RING | DMA_CH_PI | DMA_CH_STATUS | GLB_ID
  | GLB_PORT | GLB_ACC_ERR | GLB_ACC_LOC | GLB_BAR2_SEL | GLB_LAT_SEL | GLB_LAT_VAL
  | GLB_LAT_CNT | NOC_RSV | NOC_TIMEOUT | NOC_TIMEOUT_CNT | NOC_LATE_CNT | NOC_STATUS
  | NOC_ERR_LOC | SVC_CTL | SVC_ACC_ERR | SVC_ENTRY | SCH_CTL | SCH_STATUS
  | SCH_SUMP | SCH_DROP_CNT | SCH_POST_VAL | SCH_POST | SCH_POST_RES | SCH_TAKE
  | SCH_DONE | SCH_TOKEN | SCH_TOKSRC | SCH_THR_CFG | IC_SRC_CFG | IC_ERR
  | TRC_CTL | TRC_BASE | TRC_LEN | TRC_WP | TRC_STATUS | TRC_LOST
  | TRC_SW | MBX_MSG | MBX_DOORBELL | MBX_STATUS | TK_INC | TK_NOW
  | TK_STEP | TK_JUMP_THR | TK_ALIGN | TK_PPS_CAP | TK_DSTATUS | TK_SEL
  | TK_SEL_TOL | TK_PPS_GLITCH | TK_CMP | TK_PPS_OUT | TK_EVT | PWR_STATE
  | PWR_CMD | PWR_RESULT | PWR_CTL | PWR_WAKE_CTL | PWR_WATCH_CTL | PWR_WATCH_PIN
  | PWR_AVS | PWR_RST_CAUSE | LC_STATE | LC_CMD | DBG_STATUS | PTN_DPAR_LOC
  | FLT_SRC | FLT_FN_EN | FLT_CTL | FLT_LOG_LOST | FLT_LOG | FLT_LOG_INFO
  | FLT_CNT | FLT_IREP_CNT | PRB_SEL | PRB_VAL | PRB_CND_CTL | PRB_TEMPLATE
  | PRB_MASK | IC_PEND_SET | IC_PEND_CLR | IC_EN_SET | IC_EN_CLR | IC_ACTIVE
  | IC_CLAIM | IC_COMPLETE | IC_THRESH | IC_RUNPRIO | ETH_RX_RING | ETH_TX_RING
  | ETH_RX_IDX | ETH_TX_IDX | PWR_WATCH_VAL | PWR_WATCH_MASK | PWR_WATCH_LAST | MSIX_ADDR_LO
  | MSIX_ADDR_HI | MSIX_DATA | MSIX_CTRL | MSIX_PBA | GLB_PORT_ACC_ERR | GLB_PORT_ACC_LOC
deriving DecidableEq, Repr

/-- One field of a register: bits `[hi:lo]`. A register that holds several copies of one field has `fc` of them, and this is copy `fi`. -/
structure FieldDef where
  fld : Fld
  hi : Nat
  lo : Nat
  acc : Acc
  fi : Nat := 0
  fc : Nat := 1
deriving DecidableEq, Repr

/-- One register: its offset in its block, its stride and number of copies (`count` groups of `count2`), whether it is 64 bits
wide (R16), whether it is banked per core (R349), and its fields. -/
structure RegDef where
  reg : Reg
  off : Nat
  stride : Nat := 0
  count : Nat := 1
  stride2 : Nat := 0
  count2 : Nat := 1
  wide : Bool := false
  banked : Bool := false
  fields : List FieldDef
deriving DecidableEq, Repr

def Reg.def_XCH_STATUS : RegDef :=
  { reg := .XCH_STATUS, off := 0x3000, fields := [⟨.XCH_STATUS_LOADED, 8, 8, .ro, 0, 1⟩, ⟨.XCH_STATUS_BRIDGES, 7, 4, .ro, 0, 1⟩, ⟨.XCH_STATUS_DIES, 3, 0, .ro, 0, 1⟩] }

def Reg.def_XCH_LAT : RegDef :=
  { reg := .XCH_LAT, off := 0x3004, fields := [⟨.XCH_LAT_DIE2DIE, 15, 12, .ro, 0, 1⟩, ⟨.XCH_LAT_DIE, 11, 8, .ro, 0, 1⟩, ⟨.XCH_LAT_BAND, 7, 4, .ro, 0, 1⟩, ⟨.XCH_LAT_TILE, 3, 0, .ro, 0, 1⟩] }

def Reg.def_XCH_REPAIR_CNT : RegDef :=
  { reg := .XCH_REPAIR_CNT, off := 0x3008, fields := [⟨.XCH_REPAIR_CNT_COUNT, 31, 0, .rc, 0, 1⟩] }

def Reg.def_XCH_ERR_LOC : RegDef :=
  { reg := .XCH_ERR_LOC, off := 0x300C, fields := [⟨.XCH_ERR_LOC_VALID, 31, 31, .w1c, 0, 1⟩, ⟨.XCH_ERR_LOC_LEVEL, 30, 29, .ro, 0, 1⟩, ⟨.XCH_ERR_LOC_SWITCH, 28, 20, .ro, 0, 1⟩, ⟨.XCH_ERR_LOC_AGENT, 19, 19, .ro, 0, 1⟩, ⟨.XCH_ERR_LOC_SECTION, 16, 12, .ro, 0, 1⟩, ⟨.XCH_ERR_LOC_ENTRY, 11, 0, .ro, 0, 1⟩] }

def Reg.def_XCH_EDGE_CNT : RegDef :=
  { reg := .XCH_EDGE_CNT, off := 0x3010, fields := [⟨.XCH_EDGE_CNT_COUNT, 31, 0, .rc, 0, 1⟩] }

def Reg.def_PMP_CTL : RegDef :=
  { reg := .PMP_CTL, off := 0x0, fields := [⟨.PMP_CTL_EDGE, 17, 17, .rw, 0, 1⟩, ⟨.PMP_CTL_TOUT, 16, 16, .rw, 0, 1⟩, ⟨.PMP_CTL_ELDEPTH, 13, 9, .rw, 0, 1⟩, ⟨.PMP_CTL_PSRC, 8, 4, .rw, 0, 1⟩, ⟨.PMP_CTL_OVR, 3, 2, .rw, 0, 1⟩, ⟨.PMP_CTL_MODE, 1, 0, .rw, 0, 1⟩] }

def Reg.def_PMP_CMD : RegDef :=
  { reg := .PMP_CMD, off := 0x4, fields := [⟨.PMP_CMD_CODE, 31, 28, .wo, 0, 1⟩, ⟨.PMP_CMD_COUNT, 15, 0, .wo, 0, 1⟩] }

def Reg.def_PMP_STATUS : RegDef :=
  { reg := .PMP_STATUS, off := 0x8, fields := [⟨.PMP_STATUS_LAG, 25, 21, .ro, 0, 1⟩, ⟨.PMP_STATUS_RPHASE, 20, 16, .ro, 0, 1⟩, ⟨.PMP_STATUS_CMD_PEND, 10, 10, .ro, 0, 1⟩, ⟨.PMP_STATUS_CMD_LOST, 9, 9, .w1c, 0, 1⟩, ⟨.PMP_STATUS_CFG_REJ, 8, 8, .w1c, 0, 1⟩, ⟨.PMP_STATUS_FAULT_OUT, 7, 7, .ro, 0, 1⟩, ⟨.PMP_STATUS_TICK_PEND, 6, 6, .ro, 0, 1⟩, ⟨.PMP_STATUS_STATE, 2, 0, .ro, 0, 1⟩] }

def Reg.def_PMP_SLEN : RegDef :=
  { reg := .PMP_SLEN, off := 0xC, fields := [⟨.PMP_SLEN_STEP_NOW, 28, 16, .ro, 0, 1⟩, ⟨.PMP_SLEN_S, 12, 0, .ro, 0, 1⟩] }

def Reg.def_PMP_TDIV : RegDef :=
  { reg := .PMP_TDIV, off := 0x10, fields := [⟨.PMP_TDIV_INT, 31, 16, .rw, 0, 1⟩, ⟨.PMP_TDIV_FRAC, 15, 0, .rw, 0, 1⟩] }

def Reg.def_PMP_HOLD_REQ : RegDef :=
  { reg := .PMP_HOLD_REQ, off := 0x14, fields := [⟨.PMP_HOLD_REQ_AGENT, 1, 1, .rw, 0, 1⟩, ⟨.PMP_HOLD_REQ_HOST, 0, 0, .rw, 0, 1⟩] }

def Reg.def_PMP_HOLD_CAUSE : RegDef :=
  { reg := .PMP_HOLD_CAUSE, off := 0x18, fields := [⟨.PMP_HOLD_CAUSE_SEEN, 21, 16, .w1c, 0, 1⟩, ⟨.PMP_HOLD_CAUSE_ACTIVE, 5, 0, .ro, 0, 1⟩] }

def Reg.def_PMP_HOLD_LIMIT : RegDef :=
  { reg := .PMP_HOLD_LIMIT, off := 0x1C, fields := [⟨.PMP_HOLD_LIMIT_LIMIT, 15, 0, .rw, 0, 1⟩] }

def Reg.def_PMP_CYCLE : RegDef :=
  { reg := .PMP_CYCLE, off := 0x20, wide := true, fields := [⟨.PMP_CYCLE_CYCLE, 63, 0, .ro, 0, 1⟩] }

def Reg.def_PMP_HOLD_PERIODS : RegDef :=
  { reg := .PMP_HOLD_PERIODS, off := 0x28, wide := true, fields := [⟨.PMP_HOLD_PERIODS_PERIODS, 63, 0, .ro, 0, 1⟩] }

def Reg.def_PMP_OVR_CNT : RegDef :=
  { reg := .PMP_OVR_CNT, off := 0x30, fields := [⟨.PMP_OVR_CNT_COUNT, 31, 0, .rc, 0, 1⟩] }

def Reg.def_PMP_TICK_MERGE : RegDef :=
  { reg := .PMP_TICK_MERGE, off := 0x34, fields := [⟨.PMP_TICK_MERGE_COUNT, 31, 0, .rc, 0, 1⟩] }

def Reg.def_PMP_LAG_MAX : RegDef :=
  { reg := .PMP_LAG_MAX, off := 0x38, fields := [⟨.PMP_LAG_MAX_MAX, 4, 0, .rc, 0, 1⟩] }

def Reg.def_PMP_RATE : RegDef :=
  { reg := .PMP_RATE, off := 0x3C, fields := [⟨.PMP_RATE_CHANGING, 1, 1, .ro, 0, 1⟩, ⟨.PMP_RATE_ECON, 0, 0, .ro, 0, 1⟩] }

def Reg.def_PMP_STOP_CAUSE : RegDef :=
  { reg := .PMP_STOP_CAUSE, off := 0x40, fields := [⟨.PMP_STOP_CAUSE_HOST_LOSS, 8, 8, .ro, 0, 1⟩, ⟨.PMP_STOP_CAUSE_REPAIR_FAIL, 7, 7, .ro, 0, 1⟩, ⟨.PMP_STOP_CAUSE_DATA_PARITY, 6, 6, .ro, 0, 1⟩, ⟨.PMP_STOP_CAUSE_HALT_CMD, 5, 5, .ro, 0, 1⟩, ⟨.PMP_STOP_CAUSE_STEP_DONE, 4, 4, .ro, 0, 1⟩, ⟨.PMP_STOP_CAUSE_LAG, 3, 3, .ro, 0, 1⟩, ⟨.PMP_STOP_CAUSE_OVERRUN, 2, 2, .ro, 0, 1⟩, ⟨.PMP_STOP_CAUSE_MASK, 1, 1, .ro, 0, 1⟩, ⟨.PMP_STOP_CAUSE_STOP, 0, 0, .ro, 0, 1⟩] }

def Reg.def_PMP_STOP_CYCLE : RegDef :=
  { reg := .PMP_STOP_CYCLE, off := 0x48, wide := true, fields := [⟨.PMP_STOP_CYCLE_CYCLE, 63, 0, .ro, 0, 1⟩] }

def Reg.def_PMP_STOP_CODES : RegDef :=
  { reg := .PMP_STOP_CODES, off := 0x50, wide := true, fields := [⟨.PMP_STOP_CODES_CODES, 63, 0, .ro, 0, 1⟩] }

def Reg.def_PMP_EVENT : RegDef :=
  { reg := .PMP_EVENT, off := 0x58, fields := [⟨.PMP_EVENT_RATE, 4, 4, .w1c, 0, 1⟩, ⟨.PMP_EVENT_HOLD_LONG, 3, 3, .w1c, 0, 1⟩, ⟨.PMP_EVENT_OVR, 2, 2, .w1c, 0, 1⟩, ⟨.PMP_EVENT_STOPPED, 1, 1, .w1c, 0, 1⟩, ⟨.PMP_EVENT_RESULT, 0, 0, .w1c, 0, 1⟩] }

def Reg.def_PMP_EVENT_EN : RegDef :=
  { reg := .PMP_EVENT_EN, off := 0x5C, fields := [⟨.PMP_EVENT_EN_EN, 4, 0, .rw, 0, 1⟩] }

def Reg.def_PMP_RESULT : RegDef :=
  { reg := .PMP_RESULT, off := 0x60, fields := [⟨.PMP_RESULT_READY, 31, 31, .ro, 0, 1⟩, ⟨.PMP_RESULT_CONSUMED, 30, 30, .ro, 0, 1⟩, ⟨.PMP_RESULT_OUTCOME, 29, 28, .ro, 0, 1⟩, ⟨.PMP_RESULT_CMD, 27, 24, .ro, 0, 1⟩, ⟨.PMP_RESULT_CODE, 23, 16, .ro, 0, 1⟩, ⟨.PMP_RESULT_SEQ, 15, 0, .ro, 0, 1⟩] }

def Reg.def_PMP_RESULT_CYC : RegDef :=
  { reg := .PMP_RESULT_CYC, off := 0x68, wide := true, fields := [⟨.PMP_RESULT_CYC_CYCLE, 63, 0, .ro, 0, 1⟩] }

def Reg.def_PTN_CFG : RegDef :=
  { reg := .PTN_CFG, off := 0x1000, fields := [⟨.PTN_CFG_ACTIVE, 31, 31, .ro, 0, 1⟩, ⟨.PTN_CFG_FALLBACK, 26, 26, .rw, 0, 1⟩, ⟨.PTN_CFG_LOSS, 25, 24, .rw, 0, 1⟩, ⟨.PTN_CFG_ALT, 22, 20, .rw, 0, 1⟩, ⟨.PTN_CFG_BIND, 18, 16, .rw, 0, 1⟩, ⟨.PTN_CFG_COUNT, 14, 8, .rw, 0, 1⟩, ⟨.PTN_CFG_FIRST, 5, 0, .rw, 0, 1⟩] }

def Reg.def_PTN_CMD : RegDef :=
  { reg := .PTN_CMD, off := 0x1004, fields := [⟨.PTN_CMD_CODE, 31, 28, .wo, 0, 1⟩] }

def Reg.def_PTN_RESULT : RegDef :=
  { reg := .PTN_RESULT, off := 0x1008, fields := [⟨.PTN_RESULT_READY, 31, 31, .ro, 0, 1⟩, ⟨.PTN_RESULT_CONSUMED, 30, 30, .ro, 0, 1⟩, ⟨.PTN_RESULT_OUTCOME, 29, 28, .ro, 0, 1⟩, ⟨.PTN_RESULT_CMD, 27, 24, .ro, 0, 1⟩, ⟨.PTN_RESULT_CODE, 23, 16, .ro, 0, 1⟩, ⟨.PTN_RESULT_SEQ, 15, 0, .ro, 0, 1⟩] }

def Reg.def_PTN_ENC_FAULT : RegDef :=
  { reg := .PTN_ENC_FAULT, off := 0x1010, fields := [⟨.PTN_ENC_FAULT_COUNT, 31, 0, .rc, 0, 1⟩] }

def Reg.def_PTN_LOSS : RegDef :=
  { reg := .PTN_LOSS, off := 0x1014, fields := [⟨.PTN_LOSS_PORT, 7, 5, .ro, 0, 1⟩, ⟨.PTN_LOSS_CFG_REJ, 4, 4, .w1c, 0, 1⟩, ⟨.PTN_LOSS_FALLBACK, 3, 3, .w1c, 0, 1⟩, ⟨.PTN_LOSS_REBOUND, 2, 2, .w1c, 0, 1⟩, ⟨.PTN_LOSS_CMD_LOST, 1, 1, .w1c, 0, 1⟩, ⟨.PTN_LOSS_LOST, 0, 0, .w1c, 0, 1⟩] }

def Reg.def_PTN_LOSS_CYC : RegDef :=
  { reg := .PTN_LOSS_CYC, off := 0x1018, wide := true, fields := [⟨.PTN_LOSS_CYC_CYCLE, 63, 0, .ro, 0, 1⟩] }

def Reg.def_DM_STATUS : RegDef :=
  { reg := .DM_STATUS, off := 0x2000, fields := [⟨.DM_STATUS_LD, 25, 16, .ro, 0, 1⟩, ⟨.DM_STATUS_LC_DEV, 7, 4, .ro, 0, 1⟩, ⟨.DM_STATUS_LC, 3, 0, .ro, 0, 1⟩] }

def Reg.def_DM_LATE_CNT : RegDef :=
  { reg := .DM_LATE_CNT, off := 0x2004, fields := [⟨.DM_LATE_CNT_COUNT, 31, 0, .rc, 0, 1⟩] }

def Reg.def_DM_LATE_MAX : RegDef :=
  { reg := .DM_LATE_MAX, off := 0x2008, fields := [⟨.DM_LATE_MAX_PERIODS, 31, 0, .rc, 0, 1⟩] }

def Reg.def_DM_UNMAPPED_CNT : RegDef :=
  { reg := .DM_UNMAPPED_CNT, off := 0x200C, fields := [⟨.DM_UNMAPPED_CNT_COUNT, 31, 0, .rc, 0, 1⟩] }

def Reg.def_DM_ERR : RegDef :=
  { reg := .DM_ERR, off := 0x2010, fields := [⟨.DM_ERR_CFG_REJ, 7, 7, .w1c, 0, 1⟩, ⟨.DM_ERR_MIRROR_USED, 6, 6, .w1c, 0, 1⟩, ⟨.DM_ERR_UNMAPPED, 5, 5, .w1c, 0, 1⟩, ⟨.DM_ERR_DEEP_UE, 4, 4, .w1c, 0, 1⟩, ⟨.DM_ERR_DEEP_CE, 3, 3, .w1c, 0, 1⟩, ⟨.DM_ERR_CIS_UE, 2, 2, .w1c, 0, 1⟩, ⟨.DM_ERR_CIS_CE, 1, 1, .w1c, 0, 1⟩] }

def Reg.def_DM_ERR_LOC : RegDef :=
  { reg := .DM_ERR_LOC, off := 0x2018, wide := true, fields := [⟨.DM_ERR_LOC_VALID, 63, 63, .w1c, 0, 1⟩, ⟨.DM_ERR_LOC_NET, 62, 62, .ro, 0, 1⟩, ⟨.DM_ERR_LOC_ADDR, 39, 0, .ro, 0, 1⟩] }

def Reg.def_DM_MAP : RegDef :=
  { reg := .DM_MAP, off := 0x2100, stride := 4, count := 192, fields := [⟨.DM_MAP_VALID, 31, 31, .rw, 0, 1⟩, ⟨.DM_MAP_STACK, 10, 8, .rw, 0, 1⟩, ⟨.DM_MAP_GRANULE, 4, 0, .rw, 0, 1⟩] }

def Reg.def_DMC_STACK_CFG : RegDef :=
  { reg := .DMC_STACK_CFG, off := 0x0, stride := 16, count := 8, fields := [⟨.DMC_STACK_CFG_MIRROR, 0, 0, .rw, 0, 1⟩] }

def Reg.def_DMC_STACK_STATUS : RegDef :=
  { reg := .DMC_STACK_STATUS, off := 0x4, stride := 16, count := 8, fields := [⟨.DMC_STACK_STATUS_STATE, 31, 30, .ro, 0, 1⟩, ⟨.DMC_STACK_STATUS_USED, 20, 16, .ro, 0, 1⟩, ⟨.DMC_STACK_STATUS_CH_FAIL, 15, 0, .ro, 0, 1⟩] }

def Reg.def_MT_CMD : RegDef :=
  { reg := .MT_CMD, off := 0x100, fields := [⟨.MT_CMD_CODE, 31, 28, .wo, 0, 1⟩, ⟨.MT_CMD_TARGET, 27, 26, .wo, 0, 1⟩, ⟨.MT_CMD_UNIT, 5, 0, .wo, 0, 1⟩] }

def Reg.def_MT_RESULT : RegDef :=
  { reg := .MT_RESULT, off := 0x104, fields := [⟨.MT_RESULT_READY, 31, 31, .ro, 0, 1⟩, ⟨.MT_RESULT_CONSUMED, 30, 30, .ro, 0, 1⟩, ⟨.MT_RESULT_OUTCOME, 29, 28, .ro, 0, 1⟩, ⟨.MT_RESULT_CMD, 27, 24, .ro, 0, 1⟩, ⟨.MT_RESULT_CODE, 23, 16, .ro, 0, 1⟩, ⟨.MT_RESULT_SEQ, 15, 0, .ro, 0, 1⟩] }

def Reg.def_MT_FAIL_CNT : RegDef :=
  { reg := .MT_FAIL_CNT, off := 0x108, fields := [⟨.MT_FAIL_CNT_COUNT, 31, 0, .rc, 0, 1⟩] }

def Reg.def_MT_STATUS : RegDef :=
  { reg := .MT_STATUS, off := 0x10C, fields := [⟨.MT_STATUS_CMD_LOST, 1, 1, .w1c, 0, 1⟩, ⟨.MT_STATUS_PEND, 0, 0, .ro, 0, 1⟩] }

def Reg.def_MT_FAIL_LOC : RegDef :=
  { reg := .MT_FAIL_LOC, off := 0x110, wide := true, fields := [⟨.MT_FAIL_LOC_VALID, 63, 63, .w1c, 0, 1⟩, ⟨.MT_FAIL_LOC_TARGET, 62, 61, .ro, 0, 1⟩, ⟨.MT_FAIL_LOC_UNIT, 60, 44, .ro, 0, 1⟩, ⟨.MT_FAIL_LOC_WORD, 43, 24, .ro, 0, 1⟩] }

def Reg.def_LDR_CMD : RegDef :=
  { reg := .LDR_CMD, off := 0x4000, fields := [⟨.LDR_CMD_CODE, 31, 28, .wo, 0, 1⟩] }

def Reg.def_LDR_PARAM : RegDef :=
  { reg := .LDR_PARAM, off := 0x4004, fields := [⟨.LDR_PARAM_REQ_CERT, 31, 31, .rw, 0, 1⟩, ⟨.LDR_PARAM_SRC, 26, 24, .rw, 0, 1⟩, ⟨.LDR_PARAM_DEEP_BASE, 7, 0, .rw, 0, 1⟩] }

def Reg.def_LDR_SRC : RegDef :=
  { reg := .LDR_SRC, off := 0x4008, wide := true, fields := [⟨.LDR_SRC_ADDR, 63, 0, .rw, 0, 1⟩] }

def Reg.def_LDR_STATUS : RegDef :=
  { reg := .LDR_STATUS, off := 0x4010, fields := [⟨.LDR_STATUS_CMD_LOST, 10, 10, .w1c, 0, 1⟩, ⟨.LDR_STATUS_CFG_REJ, 9, 9, .w1c, 0, 1⟩, ⟨.LDR_STATUS_PEND, 8, 8, .ro, 0, 1⟩, ⟨.LDR_STATUS_STEP, 4, 0, .ro, 0, 1⟩] }

def Reg.def_LDR_RESULT : RegDef :=
  { reg := .LDR_RESULT, off := 0x4014, fields := [⟨.LDR_RESULT_READY, 31, 31, .ro, 0, 1⟩, ⟨.LDR_RESULT_CONSUMED, 30, 30, .ro, 0, 1⟩, ⟨.LDR_RESULT_OUTCOME, 29, 28, .ro, 0, 1⟩, ⟨.LDR_RESULT_CMD, 27, 24, .ro, 0, 1⟩, ⟨.LDR_RESULT_CODE, 23, 16, .ro, 0, 1⟩, ⟨.LDR_RESULT_SEQ, 15, 0, .ro, 0, 1⟩] }

def Reg.def_LDR_REFUSE : RegDef :=
  { reg := .LDR_REFUSE, off := 0x4018, fields := [⟨.LDR_REFUSE_SECTION, 31, 16, .ro, 0, 1⟩, ⟨.LDR_REFUSE_SUB, 15, 8, .ro, 0, 1⟩] }

def Reg.def_LDR_REFUSE_OFF : RegDef :=
  { reg := .LDR_REFUSE_OFF, off := 0x4020, wide := true, fields := [⟨.LDR_REFUSE_OFF_OFFSET, 63, 0, .ro, 0, 1⟩] }

def Reg.def_LDR_IMAGE_ID : RegDef :=
  { reg := .LDR_IMAGE_ID, off := 0x4028, wide := true, fields := [⟨.LDR_IMAGE_ID_ID, 63, 0, .ro, 0, 1⟩] }

def Reg.def_LDR_LAT_PAD : RegDef :=
  { reg := .LDR_LAT_PAD, off := 0x4030, fields := [⟨.LDR_LAT_PAD_TRIG_LINK, 15, 8, .ro, 0, 1⟩, ⟨.LDR_LAT_PAD_CIS_RD, 7, 0, .ro, 0, 1⟩] }

def Reg.def_LDR_CERT : RegDef :=
  { reg := .LDR_CERT, off := 0x4034, fields := [⟨.LDR_CERT_CERT, 4, 0, .ro, 0, 1⟩] }

def Reg.def_PRB_CTL : RegDef :=
  { reg := .PRB_CTL, off := 0x0, fields := [⟨.PRB_CTL_XOUT_EN, 11, 8, .rw, 0, 1⟩, ⟨.PRB_CTL_DONE_STOP, 1, 1, .rw, 0, 1⟩, ⟨.PRB_CTL_RR_EN, 0, 0, .rw, 0, 1⟩] }

def Reg.def_PRB_CMD : RegDef :=
  { reg := .PRB_CMD, off := 0x4, fields := [⟨.PRB_CMD_CODE, 31, 28, .wo, 0, 1⟩] }

def Reg.def_PRB_RESULT : RegDef :=
  { reg := .PRB_RESULT, off := 0x8, fields := [⟨.PRB_RESULT_READY, 31, 31, .ro, 0, 1⟩, ⟨.PRB_RESULT_CONSUMED, 30, 30, .ro, 0, 1⟩, ⟨.PRB_RESULT_OUTCOME, 29, 28, .ro, 0, 1⟩, ⟨.PRB_RESULT_CMD, 27, 24, .ro, 0, 1⟩, ⟨.PRB_RESULT_CODE, 23, 16, .ro, 0, 1⟩, ⟨.PRB_RESULT_SEQ, 15, 0, .ro, 0, 1⟩] }

def Reg.def_PRB_STATUS : RegDef :=
  { reg := .PRB_STATUS, off := 0xC, fields := [⟨.PRB_STATUS_OCC, 28, 16, .ro, 0, 1⟩, ⟨.PRB_STATUS_RATE, 15, 12, .ro, 0, 1⟩, ⟨.PRB_STATUS_CMD_LOST, 11, 11, .w1c, 0, 1⟩, ⟨.PRB_STATUS_CFG_REJ, 10, 10, .w1c, 0, 1⟩, ⟨.PRB_STATUS_PEND, 9, 9, .ro, 0, 1⟩, ⟨.PRB_STATUS_FULL, 8, 8, .ro, 0, 1⟩, ⟨.PRB_STATUS_SEQ, 6, 4, .ro, 0, 1⟩, ⟨.PRB_STATUS_CAP, 1, 0, .ro, 0, 1⟩] }

def Reg.def_PRB_BUF_BASE : RegDef :=
  { reg := .PRB_BUF_BASE, off := 0x10, wide := true, fields := [⟨.PRB_BUF_BASE_BASE, 39, 6, .rw, 0, 1⟩] }

def Reg.def_PRB_BUF_LEN : RegDef :=
  { reg := .PRB_BUF_LEN, off := 0x18, fields := [⟨.PRB_BUF_LEN_LEN, 31, 0, .rw, 0, 1⟩] }

def Reg.def_PRB_DEPTH : RegDef :=
  { reg := .PRB_DEPTH, off := 0x1C, fields := [⟨.PRB_DEPTH_POST, 31, 16, .rw, 0, 1⟩, ⟨.PRB_DEPTH_PRE, 15, 0, .rw, 0, 1⟩] }

def Reg.def_PRB_RATE : RegDef :=
  { reg := .PRB_RATE, off := 0x20, fields := [⟨.PRB_RATE_RELAX, 31, 16, .rw, 0, 1⟩, ⟨.PRB_RATE_MIN, 3, 0, .rw, 0, 1⟩] }

def Reg.def_PRB_MASK_CTL : RegDef :=
  { reg := .PRB_MASK_CTL, off := 0x24, fields := [⟨.PRB_MASK_CTL_EN, 0, 0, .rw, 0, 1⟩] }

def Reg.def_PRB_EVENT : RegDef :=
  { reg := .PRB_EVENT, off := 0x28, fields := [⟨.PRB_EVENT_FULL, 7, 7, .w1c, 0, 1⟩, ⟨.PRB_EVENT_RATE_CHG, 6, 6, .w1c, 0, 1⟩, ⟨.PRB_EVENT_WR_ERR, 5, 5, .w1c, 0, 1⟩, ⟨.PRB_EVENT_IRQ, 4, 4, .w1c, 0, 1⟩, ⟨.PRB_EVENT_SEQ_STOP, 3, 3, .w1c, 0, 1⟩, ⟨.PRB_EVENT_VIOL, 2, 2, .w1c, 0, 1⟩, ⟨.PRB_EVENT_DONE, 1, 1, .w1c, 0, 1⟩, ⟨.PRB_EVENT_TRIGGERED, 0, 0, .w1c, 0, 1⟩] }

def Reg.def_PRB_EVENT_EN : RegDef :=
  { reg := .PRB_EVENT_EN, off := 0x2C, fields := [⟨.PRB_EVENT_EN_EN, 7, 0, .rw, 0, 1⟩] }

def Reg.def_PRB_VIOL_CNT : RegDef :=
  { reg := .PRB_VIOL_CNT, off := 0x30, fields := [⟨.PRB_VIOL_CNT_COUNT, 31, 0, .rc, 0, 1⟩] }

def Reg.def_PRB_VIOL_POS : RegDef :=
  { reg := .PRB_VIOL_POS, off := 0x34, fields := [⟨.PRB_VIOL_POS_VALID, 31, 31, .w1c, 0, 1⟩, ⟨.PRB_VIOL_POS_POS, 15, 0, .ro, 0, 1⟩] }

def Reg.def_PRB_VIOL_CYC : RegDef :=
  { reg := .PRB_VIOL_CYC, off := 0x38, wide := true, fields := [⟨.PRB_VIOL_CYC_CYCLE, 63, 0, .ro, 0, 1⟩] }

def Reg.def_PRB_TRIG_CYC : RegDef :=
  { reg := .PRB_TRIG_CYC, off := 0x40, wide := true, fields := [⟨.PRB_TRIG_CYC_CYCLE, 63, 0, .ro, 0, 1⟩] }

def Reg.def_PRB_TRIG_REC : RegDef :=
  { reg := .PRB_TRIG_REC, off := 0x48, fields := [⟨.PRB_TRIG_REC_REC_NO, 31, 0, .ro, 0, 1⟩] }

def Reg.def_PRB_TRIG_SRC : RegDef :=
  { reg := .PRB_TRIG_SRC, off := 0x4C, fields := [⟨.PRB_TRIG_SRC_FORCE, 1, 1, .ro, 0, 1⟩, ⟨.PRB_TRIG_SRC_SEQ, 0, 0, .ro, 0, 1⟩] }

def Reg.def_PRB_REC_CNT : RegDef :=
  { reg := .PRB_REC_CNT, off := 0x50, wide := true, fields := [⟨.PRB_REC_CNT_COUNT, 63, 0, .ro, 0, 1⟩] }

def Reg.def_PRB_SEQ_CTL : RegDef :=
  { reg := .PRB_SEQ_CTL, off := 0x100, stride := 4, count := 8, fields := [⟨.PRB_SEQ_CTL_ACT_XOUT, 15, 12, .rw, 0, 1⟩, ⟨.PRB_SEQ_CTL_ACT_IRQ, 11, 11, .rw, 0, 1⟩, ⟨.PRB_SEQ_CTL_ACT_LINE, 10, 10, .rw, 0, 1⟩, ⟨.PRB_SEQ_CTL_ACT_STOP, 9, 9, .rw, 0, 1⟩, ⟨.PRB_SEQ_CTL_ACT_TRIGGER, 8, 8, .rw, 0, 1⟩, ⟨.PRB_SEQ_CTL_NEXT_B, 6, 4, .rw, 0, 1⟩, ⟨.PRB_SEQ_CTL_NEXT_A, 2, 0, .rw, 0, 1⟩] }

def Reg.def_RIM_SECT_OWN : RegDef :=
  { reg := .RIM_SECT_OWN, off := 0x0, stride := 4, count := 12, fields := [⟨.RIM_SECT_OWN_EDGE, 31, 31, .w1c, 0, 1⟩, ⟨.RIM_SECT_OWN_CFG_REJ, 30, 30, .w1c, 0, 1⟩, ⟨.RIM_SECT_OWN_OWNER, 4, 0, .rw, 0, 1⟩] }

def Reg.def_RIM_CLK_SEL : RegDef :=
  { reg := .RIM_CLK_SEL, off := 0x40, stride := 4, count := 12, fields := [⟨.RIM_CLK_SEL_AUTO, 31, 31, .rw, 0, 1⟩, ⟨.RIM_CLK_SEL_ALT, 23, 16, .rw, 0, 1⟩, ⟨.RIM_CLK_SEL_SRC, 7, 0, .rw, 0, 1⟩] }

def Reg.def_RIM_CLK_STATUS : RegDef :=
  { reg := .RIM_CLK_STATUS, off := 0x70, fields := [⟨.RIM_CLK_STATUS_CFG_REJ, 31, 31, .w1c, 0, 1⟩, ⟨.RIM_CLK_STATUS_ON_ALT, 27, 16, .ro, 0, 1⟩, ⟨.RIM_CLK_STATUS_LOST, 11, 0, .w1c, 0, 1⟩] }

def Reg.def_RIM_RST_CTL : RegDef :=
  { reg := .RIM_RST_CTL, off := 0x80, stride := 4, count := 4, fields := [⟨.RIM_RST_CTL_SW_ASSERT, 31, 31, .rw, 0, 1⟩, ⟨.RIM_RST_CTL_SYNC, 15, 12, .rw, 0, 1⟩, ⟨.RIM_RST_CTL_BANK, 11, 8, .rw, 0, 1⟩, ⟨.RIM_RST_CTL_SRC, 1, 0, .rw, 0, 1⟩] }

def Reg.def_RIM_BUS_EVT : RegDef :=
  { reg := .RIM_BUS_EVT, off := 0xA0, fields := [⟨.RIM_BUS_EVT_BANK, 11, 0, .w1c, 0, 1⟩] }

def Reg.def_RIM_BUS_LOC : RegDef :=
  { reg := .RIM_BUS_LOC, off := 0xA4, fields := [⟨.RIM_BUS_LOC_VALID, 31, 31, .w1c, 0, 1⟩, ⟨.RIM_BUS_LOC_BANK, 11, 8, .ro, 0, 1⟩, ⟨.RIM_BUS_LOC_LINE, 5, 0, .ro, 0, 1⟩] }

def Reg.def_RIM_SCRUB_CTL : RegDef :=
  { reg := .RIM_SCRUB_CTL, off := 0xC0, fields := [⟨.RIM_SCRUB_CTL_LOCK, 31, 31, .w1s, 0, 1⟩, ⟨.RIM_SCRUB_CTL_UE_FAULT, 1, 1, .rwl, 0, 1⟩, ⟨.RIM_SCRUB_CTL_EN, 0, 0, .rwl, 0, 1⟩] }

def Reg.def_RIM_SCRUB_STATUS : RegDef :=
  { reg := .RIM_SCRUB_STATUS, off := 0xC4, fields := [⟨.RIM_SCRUB_STATUS_PASSES, 31, 24, .ro, 0, 1⟩, ⟨.RIM_SCRUB_STATUS_FRAME, 16, 0, .ro, 0, 1⟩] }

def Reg.def_RIM_SCRUB_CE_CNT : RegDef :=
  { reg := .RIM_SCRUB_CE_CNT, off := 0xC8, fields := [⟨.RIM_SCRUB_CE_CNT_COUNT, 31, 0, .rc, 0, 1⟩] }

def Reg.def_RIM_SCRUB_UE_LOC : RegDef :=
  { reg := .RIM_SCRUB_UE_LOC, off := 0xCC, fields := [⟨.RIM_SCRUB_UE_LOC_VALID, 31, 31, .w1c, 0, 1⟩, ⟨.RIM_SCRUB_UE_LOC_FRAME, 16, 0, .ro, 0, 1⟩] }

def Reg.def_ELB_CTL : RegDef :=
  { reg := .ELB_CTL, off := 0x5000, fields := [⟨.ELB_CTL_ODEPTH, 12, 8, .rw, 0, 1⟩, ⟨.ELB_CTL_ODLY, 4, 0, .rw, 0, 1⟩] }

def Reg.def_ELB_STATUS : RegDef :=
  { reg := .ELB_STATUS, off := 0x5004, fields := [⟨.ELB_STATUS_CFG_REJ, 31, 31, .w1c, 0, 1⟩, ⟨.ELB_STATUS_OUT_USED, 20, 16, .ro, 0, 1⟩, ⟨.ELB_STATUS_IN_USED, 12, 8, .ro, 0, 1⟩, ⟨.ELB_STATUS_FULL, 0, 0, .ro, 0, 1⟩] }

def Reg.def_ELB_EVENT : RegDef :=
  { reg := .ELB_EVENT, off := 0x5008, fields := [⟨.ELB_EVENT_FULL, 1, 1, .w1c, 0, 1⟩, ⟨.ELB_EVENT_OUT_LATE, 0, 0, .w1c, 0, 1⟩] }

def Reg.def_ELB_LATE_CNT : RegDef :=
  { reg := .ELB_LATE_CNT, off := 0x500C, fields := [⟨.ELB_LATE_CNT_COUNT, 31, 0, .rc, 0, 1⟩] }

def Reg.def_RIM_ID : RegDef :=
  { reg := .RIM_ID, off := 0x100, fields := [⟨.RIM_ID_ID, 31, 0, .ro, 0, 1⟩] }

def Reg.def_RIM_LD_CMD : RegDef :=
  { reg := .RIM_LD_CMD, off := 0x104, fields := [⟨.RIM_LD_CMD_CODE, 31, 28, .wo, 0, 1⟩, ⟨.RIM_LD_CMD_SECTOR, 3, 0, .wo, 0, 1⟩] }

def Reg.def_RIM_LD_PARAM : RegDef :=
  { reg := .RIM_LD_PARAM, off := 0x108, fields := [⟨.RIM_LD_PARAM_SRC, 26, 24, .rw, 0, 1⟩, ⟨.RIM_LD_PARAM_MAXLEN, 23, 0, .rw, 0, 1⟩] }

def Reg.def_RIM_LD_RESULT : RegDef :=
  { reg := .RIM_LD_RESULT, off := 0x10C, fields := [⟨.RIM_LD_RESULT_READY, 31, 31, .ro, 0, 1⟩, ⟨.RIM_LD_RESULT_CONSUMED, 30, 30, .ro, 0, 1⟩, ⟨.RIM_LD_RESULT_OUTCOME, 29, 28, .ro, 0, 1⟩, ⟨.RIM_LD_RESULT_CMD, 27, 24, .ro, 0, 1⟩, ⟨.RIM_LD_RESULT_CODE, 23, 16, .ro, 0, 1⟩, ⟨.RIM_LD_RESULT_SEQ, 15, 0, .ro, 0, 1⟩] }

def Reg.def_RIM_LD_SRC : RegDef :=
  { reg := .RIM_LD_SRC, off := 0x110, wide := true, fields := [⟨.RIM_LD_SRC_ADDR, 31, 0, .rw, 0, 1⟩] }

def Reg.def_RIM_LD_STATUS : RegDef :=
  { reg := .RIM_LD_STATUS, off := 0x118, fields := [⟨.RIM_LD_STATUS_ERR, 31, 31, .w1c, 0, 1⟩, ⟨.RIM_LD_STATUS_BUSY, 30, 30, .ro, 0, 1⟩, ⟨.RIM_LD_STATUS_ORIGIN, 29, 28, .ro, 0, 1⟩, ⟨.RIM_LD_STATUS_CMD_LOST, 27, 27, .w1c, 0, 1⟩, ⟨.RIM_LD_STATUS_PART, 19, 16, .ro, 0, 1⟩, ⟨.RIM_LD_STATUS_CODE, 7, 0, .ro, 0, 1⟩] }

def Reg.def_RIM_LD_ERR_LOC : RegDef :=
  { reg := .RIM_LD_ERR_LOC, off := 0x11C, fields := [⟨.RIM_LD_ERR_LOC_WORD, 31, 0, .ro, 0, 1⟩] }

def Reg.def_RIM_SECT_STATE : RegDef :=
  { reg := .RIM_SECT_STATE, off := 0x120, fields := (List.range 12).map (fun k => ⟨.RIM_SECT_STATE_STATE, 2 * k + 1, 2 * k, .ro, k, 12⟩) }

def Reg.def_IOB_BANK_CFG : RegDef :=
  { reg := .IOB_BANK_CFG, off := 0x0, fields := [⟨.IOB_BANK_CFG_LOCKED, 31, 31, .ro, 0, 1⟩, ⟨.IOB_BANK_CFG_VREF, 9, 8, .rwl, 0, 1⟩, ⟨.IOB_BANK_CFG_VCCIO, 2, 0, .rwl, 0, 1⟩] }

def Reg.def_IOB_BANK_STATUS : RegDef :=
  { reg := .IOB_BANK_STATUS, off := 0x4, fields := [⟨.IOB_BANK_STATUS_CFG_REJ, 31, 31, .w1c, 0, 1⟩, ⟨.IOB_BANK_STATUS_VMEAS, 23, 16, .ro, 0, 1⟩, ⟨.IOB_BANK_STATUS_STRAP, 5, 4, .ro, 0, 1⟩, ⟨.IOB_BANK_STATUS_SWITCHING, 2, 2, .ro, 0, 1⟩, ⟨.IOB_BANK_STATUS_VMISMATCH, 1, 1, .ro, 0, 1⟩, ⟨.IOB_BANK_STATUS_PGOOD, 0, 0, .ro, 0, 1⟩] }

def Reg.def_IOB_LOCK : RegDef :=
  { reg := .IOB_LOCK, off := 0x8, fields := [⟨.IOB_LOCK_KEY, 7, 0, .wo, 0, 1⟩] }

def Reg.def_IOB_PIN_CFG : RegDef :=
  { reg := .IOB_PIN_CFG, off := 0x100, stride := 4, count := 32, fields := [⟨.IOB_PIN_CFG_AGENT, 27, 26, .rwl, 0, 1⟩, ⟨.IOB_PIN_CFG_IDLE, 25, 24, .rwl, 0, 1⟩, ⟨.IOB_PIN_CFG_TERM, 21, 20, .rwl, 0, 1⟩, ⟨.IOB_PIN_CFG_PULL, 18, 16, .rwl, 0, 1⟩, ⟨.IOB_PIN_CFG_SLEW, 13, 12, .rwl, 0, 1⟩, ⟨.IOB_PIN_CFG_DRIVE, 9, 8, .rwl, 0, 1⟩, ⟨.IOB_PIN_CFG_STD, 7, 3, .rwl, 0, 1⟩, ⟨.IOB_PIN_CFG_FUNC, 2, 0, .rwl, 0, 1⟩] }

def Reg.def_AGP_OUT_LO : RegDef :=
  { reg := .AGP_OUT_LO, off := 0x0, stride := 32, count := 12, fields := [⟨.AGP_OUT_LO_MASK, 31, 16, .wo, 0, 1⟩, ⟨.AGP_OUT_LO_VAL, 15, 0, .rw, 0, 1⟩] }

def Reg.def_AGP_OUT_HI : RegDef :=
  { reg := .AGP_OUT_HI, off := 0x4, stride := 32, count := 12, fields := [⟨.AGP_OUT_HI_MASK, 31, 16, .wo, 0, 1⟩, ⟨.AGP_OUT_HI_VAL, 15, 0, .rw, 0, 1⟩] }

def Reg.def_AGP_OE_LO : RegDef :=
  { reg := .AGP_OE_LO, off := 0x8, stride := 32, count := 12, fields := [⟨.AGP_OE_LO_MASK, 31, 16, .wo, 0, 1⟩, ⟨.AGP_OE_LO_VAL, 15, 0, .rw, 0, 1⟩] }

def Reg.def_AGP_OE_HI : RegDef :=
  { reg := .AGP_OE_HI, off := 0xC, stride := 32, count := 12, fields := [⟨.AGP_OE_HI_MASK, 31, 16, .wo, 0, 1⟩, ⟨.AGP_OE_HI_VAL, 15, 0, .rw, 0, 1⟩] }

def Reg.def_AGP_IN : RegDef :=
  { reg := .AGP_IN, off := 0x10, stride := 32, count := 12, fields := [⟨.AGP_IN_PINS, 31, 0, .ro, 0, 1⟩] }

def Reg.def_AGP_DENY_CNT : RegDef :=
  { reg := .AGP_DENY_CNT, off := 0x180, fields := [⟨.AGP_DENY_CNT_COUNT, 31, 0, .rc, 0, 1⟩] }

def Reg.def_AGP_DENY_LOC : RegDef :=
  { reg := .AGP_DENY_LOC, off := 0x184, fields := [⟨.AGP_DENY_LOC_VALID, 31, 31, .w1c, 0, 1⟩, ⟨.AGP_DENY_LOC_CORE, 13, 12, .ro, 0, 1⟩, ⟨.AGP_DENY_LOC_BANK, 11, 8, .ro, 0, 1⟩, ⟨.AGP_DENY_LOC_PIN, 4, 0, .ro, 0, 1⟩] }

def Reg.def_LQ_QUAD_CTL : RegDef :=
  { reg := .LQ_QUAD_CTL, off := 0x0, fields := [⟨.LQ_QUAD_CTL_REVERT, 31, 31, .w1s, 0, 1⟩, ⟨.LQ_QUAD_CTL_CFG_REJ, 30, 30, .w1c, 0, 1⟩, ⟨.LQ_QUAD_CTL_FAIL_TIME, 26, 24, .rw, 0, 1⟩, ⟨.LQ_QUAD_CTL_PROTECT, 23, 20, .rw, 0, 1⟩, ⟨.LQ_QUAD_CTL_QSPARE, 17, 16, .rw, 0, 1⟩, ⟨.LQ_QUAD_CTL_PLLB, 15, 8, .rw, 0, 1⟩, ⟨.LQ_QUAD_CTL_PLLA, 7, 0, .rw, 0, 1⟩] }

def Reg.def_LQ_QUAD_STATUS : RegDef :=
  { reg := .LQ_QUAD_STATUS, off := 0x4, fields := [⟨.LQ_QUAD_STATUS_SPARE_USED, 8, 8, .ro, 0, 1⟩, ⟨.LQ_QUAD_STATUS_FAILED, 7, 4, .ro, 0, 1⟩, ⟨.LQ_QUAD_STATUS_PLLB_LOCK, 1, 1, .ro, 0, 1⟩, ⟨.LQ_QUAD_STATUS_PLLA_LOCK, 0, 0, .ro, 0, 1⟩] }

def Reg.def_LQ_LANE_CTL : RegDef :=
  { reg := .LQ_LANE_CTL, off := 0x100, stride := 64, count := 4, fields := [⟨.LQ_LANE_CTL_RCDIV, 12, 10, .rw, 0, 1⟩, ⟨.LQ_LANE_CTL_ALIGN, 9, 9, .rw, 0, 1⟩, ⟨.LQ_LANE_CTL_SCR, 8, 8, .rw, 0, 1⟩, ⟨.LQ_LANE_CTL_RXINV, 7, 7, .rw, 0, 1⟩, ⟨.LQ_LANE_CTL_TXINV, 6, 6, .rw, 0, 1⟩, ⟨.LQ_LANE_CTL_ENC, 5, 4, .rw, 0, 1⟩, ⟨.LQ_LANE_CTL_PLL, 1, 1, .rw, 0, 1⟩, ⟨.LQ_LANE_CTL_EN, 0, 0, .rw, 0, 1⟩] }

def Reg.def_LQ_LANE_TXEQ : RegDef :=
  { reg := .LQ_LANE_TXEQ, off := 0x104, stride := 64, count := 4, fields := [⟨.LQ_LANE_TXEQ_POST, 17, 12, .rw, 0, 1⟩, ⟨.LQ_LANE_TXEQ_MAIN, 11, 6, .rw, 0, 1⟩, ⟨.LQ_LANE_TXEQ_PRE, 5, 0, .rw, 0, 1⟩] }

def Reg.def_LQ_LANE_STATUS : RegDef :=
  { reg := .LQ_LANE_STATUS, off := 0x108, stride := 64, count := 4, fields := [⟨.LQ_LANE_STATUS_LOCK_LOST, 4, 4, .w1c, 0, 1⟩, ⟨.LQ_LANE_STATUS_LOCK, 3, 3, .ro, 0, 1⟩, ⟨.LQ_LANE_STATUS_ADAPTED, 2, 2, .ro, 0, 1⟩, ⟨.LQ_LANE_STATUS_SIGDET, 1, 1, .ro, 0, 1⟩] }

def Reg.def_LQ_LANE_ERR : RegDef :=
  { reg := .LQ_LANE_ERR, off := 0x10C, stride := 64, count := 4, fields := [⟨.LQ_LANE_ERR_COUNT, 31, 0, .rc, 0, 1⟩] }

def Reg.def_LQ_PRBS_CTL : RegDef :=
  { reg := .LQ_PRBS_CTL, off := 0x110, stride := 64, count := 4, fields := [⟨.LQ_PRBS_CTL_INJ, 16, 16, .w1s, 0, 1⟩, ⟨.LQ_PRBS_CTL_INJ_RATE, 15, 12, .rw, 0, 1⟩, ⟨.LQ_PRBS_CTL_INV, 11, 11, .rw, 0, 1⟩, ⟨.LQ_PRBS_CTL_PAT, 10, 8, .rw, 0, 1⟩, ⟨.LQ_PRBS_CTL_CHK_EN, 1, 1, .rw, 0, 1⟩, ⟨.LQ_PRBS_CTL_GEN_EN, 0, 0, .rw, 0, 1⟩] }

def Reg.def_LQ_PRBS_STATUS : RegDef :=
  { reg := .LQ_PRBS_STATUS, off := 0x114, stride := 64, count := 4, fields := [⟨.LQ_PRBS_STATUS_CHK_LOST, 1, 1, .w1c, 0, 1⟩, ⟨.LQ_PRBS_STATUS_CHK_LOCK, 0, 0, .ro, 0, 1⟩] }

def Reg.def_LQ_PRBS_ERR : RegDef :=
  { reg := .LQ_PRBS_ERR, off := 0x118, stride := 64, count := 4, fields := [⟨.LQ_PRBS_ERR_COUNT, 31, 0, .rc, 0, 1⟩] }

def Reg.def_LQ_PRBS_BITS : RegDef :=
  { reg := .LQ_PRBS_BITS, off := 0x120, stride := 64, count := 4, wide := true, fields := [⟨.LQ_PRBS_BITS_COUNT, 63, 0, .ro, 0, 1⟩] }

def Reg.def_LQ_DFE : RegDef :=
  { reg := .LQ_DFE, off := 0x128, stride := 64, count := 4, fields := [⟨.LQ_DFE_FREEZE, 31, 31, .rw, 0, 1⟩, ⟨.LQ_DFE_TAPSEL, 11, 8, .rw, 0, 1⟩, ⟨.LQ_DFE_VALUE, 7, 0, .ro, 0, 1⟩] }

def Reg.def_ETH_CTL : RegDef :=
  { reg := .ETH_CTL, off := 0x0, stride := 256, count := 2, fields := [⟨.ETH_CTL_FEC, 3, 3, .rw, 0, 1⟩, ⟨.ETH_CTL_MODE, 2, 1, .rw, 0, 1⟩, ⟨.ETH_CTL_EN, 0, 0, .rw, 0, 1⟩] }

def Reg.def_ETH_STATUS : RegDef :=
  { reg := .ETH_STATUS, off := 0x4, stride := 256, count := 2, fields := [⟨.ETH_STATUS_EPOCH_MISS, 3, 3, .w1c, 0, 1⟩, ⟨.ETH_STATUS_EPOCH_VALID, 2, 2, .ro, 0, 1⟩, ⟨.ETH_STATUS_TS_OVF, 1, 1, .w1c, 0, 1⟩, ⟨.ETH_STATUS_LINK, 0, 0, .ro, 0, 1⟩] }

def Reg.def_ETH_PTP_NEXT_SEC : RegDef :=
  { reg := .ETH_PTP_NEXT_SEC, off := 0x8, stride := 256, count := 2, wide := true, fields := [⟨.ETH_PTP_NEXT_SEC_SEC, 47, 0, .rw, 0, 1⟩] }

def Reg.def_ETH_PTP_NEXT_NS : RegDef :=
  { reg := .ETH_PTP_NEXT_NS, off := 0x10, stride := 256, count := 2, fields := [⟨.ETH_PTP_NEXT_NS_NS, 29, 0, .rw, 0, 1⟩] }

def Reg.def_ETH_TX_TS : RegDef :=
  { reg := .ETH_TX_TS, off := 0x18, stride := 256, count := 2, wide := true, fields := [⟨.ETH_TX_TS_VALID, 63, 63, .ro, 0, 1⟩, ⟨.ETH_TX_TS_MSGTYPE, 59, 56, .ro, 0, 1⟩, ⟨.ETH_TX_TS_SEQID, 55, 40, .ro, 0, 1⟩, ⟨.ETH_TX_TS_NS, 31, 0, .ro, 0, 1⟩] }

def Reg.def_DMA_PORT_STATUS : RegDef :=
  { reg := .DMA_PORT_STATUS, off := 0x0, fields := [⟨.DMA_PORT_STATUS_X16, 12, 12, .ro, 0, 1⟩, ⟨.DMA_PORT_STATUS_SPEED, 11, 8, .ro, 0, 1⟩, ⟨.DMA_PORT_STATUS_WIDTH, 4, 0, .ro, 0, 1⟩] }

def Reg.def_DMA_CH_CTL : RegDef :=
  { reg := .DMA_CH_CTL, off := 0x1000, stride := 256, count := 8, fields := [⟨.DMA_CH_CTL_ABORT, 1, 1, .w1s, 0, 1⟩, ⟨.DMA_CH_CTL_EN, 0, 0, .rw, 0, 1⟩] }

def Reg.def_DMA_CH_DESC_BASE : RegDef :=
  { reg := .DMA_CH_DESC_BASE, off := 0x1008, stride := 256, count := 8, wide := true, fields := [⟨.DMA_CH_DESC_BASE_ADDR, 63, 6, .rw, 0, 1⟩] }

def Reg.def_DMA_CH_CPL_BASE : RegDef :=
  { reg := .DMA_CH_CPL_BASE, off := 0x1010, stride := 256, count := 8, wide := true, fields := [⟨.DMA_CH_CPL_BASE_ADDR, 63, 6, .rw, 0, 1⟩] }

def Reg.def_DMA_CH_RING : RegDef :=
  { reg := .DMA_CH_RING, off := 0x1018, stride := 256, count := 8, fields := [⟨.DMA_CH_RING_LOG2, 4, 0, .rw, 0, 1⟩] }

def Reg.def_DMA_CH_PI : RegDef :=
  { reg := .DMA_CH_PI, off := 0x101C, stride := 256, count := 8, fields := [⟨.DMA_CH_PI_PI, 15, 0, .rw, 0, 1⟩] }

def Reg.def_DMA_CH_STATUS : RegDef :=
  { reg := .DMA_CH_STATUS, off := 0x1020, stride := 256, count := 8, fields := [⟨.DMA_CH_STATUS_CFG_REJ, 19, 19, .w1c, 0, 1⟩, ⟨.DMA_CH_STATUS_LOSS, 18, 18, .w1c, 0, 1⟩, ⟨.DMA_CH_STATUS_ERR, 17, 17, .w1c, 0, 1⟩, ⟨.DMA_CH_STATUS_BUSY, 16, 16, .ro, 0, 1⟩, ⟨.DMA_CH_STATUS_CI, 15, 0, .ro, 0, 1⟩] }

def Reg.def_GLB_ID : RegDef :=
  { reg := .GLB_ID, off := 0x0, fields := [⟨.GLB_ID_PART, 31, 20, .ro, 0, 1⟩, ⟨.GLB_ID_STEP, 19, 16, .ro, 0, 1⟩, ⟨.GLB_ID_DIES, 15, 12, .ro, 0, 1⟩, ⟨.GLB_ID_TEMP, 11, 8, .ro, 0, 1⟩] }

def Reg.def_GLB_PORT : RegDef :=
  { reg := .GLB_PORT, off := 0x4, fields := [⟨.GLB_PORT_X16, 8, 8, .ro, 0, 1⟩, ⟨.GLB_PORT_MASTER, 2, 0, .ro, 0, 1⟩] }

def Reg.def_GLB_ACC_ERR : RegDef :=
  { reg := .GLB_ACC_ERR, off := 0x8, fields := [⟨.GLB_ACC_ERR_COUNT, 31, 0, .rc, 0, 1⟩] }

def Reg.def_GLB_ACC_LOC : RegDef :=
  { reg := .GLB_ACC_LOC, off := 0x10, wide := true, fields := [⟨.GLB_ACC_LOC_VALID, 63, 63, .w1c, 0, 1⟩, ⟨.GLB_ACC_LOC_BAR2, 62, 62, .ro, 0, 1⟩, ⟨.GLB_ACC_LOC_WRITE, 61, 61, .ro, 0, 1⟩, ⟨.GLB_ACC_LOC_OFFSET, 47, 0, .ro, 0, 1⟩] }

def Reg.def_GLB_BAR2_SEL : RegDef :=
  { reg := .GLB_BAR2_SEL, off := 0x18, fields := [⟨.GLB_BAR2_SEL_CFG_REJ, 30, 30, .w1c, 0, 1⟩, ⟨.GLB_BAR2_SEL_WIN, 9, 8, .rw, 0, 1⟩, ⟨.GLB_BAR2_SEL_PART, 3, 0, .rw, 0, 1⟩] }

def Reg.def_GLB_LAT_SEL : RegDef :=
  { reg := .GLB_LAT_SEL, off := 0x20, fields := [⟨.GLB_LAT_SEL_UNIT, 7, 0, .rw, 0, 1⟩] }

def Reg.def_GLB_LAT_VAL : RegDef :=
  { reg := .GLB_LAT_VAL, off := 0x24, fields := [⟨.GLB_LAT_VAL_PRESENT, 31, 31, .ro, 0, 1⟩, ⟨.GLB_LAT_VAL_EXACT, 30, 30, .ro, 0, 1⟩, ⟨.GLB_LAT_VAL_LARGEST, 23, 16, .ro, 0, 1⟩, ⟨.GLB_LAT_VAL_DEFAULT, 15, 8, .ro, 0, 1⟩, ⟨.GLB_LAT_VAL_DEVICE, 7, 0, .ro, 0, 1⟩] }

def Reg.def_GLB_LAT_CNT : RegDef :=
  { reg := .GLB_LAT_CNT, off := 0x28, fields := [⟨.GLB_LAT_CNT_COUNT, 7, 0, .ro, 0, 1⟩] }

def Reg.def_NOC_RSV : RegDef :=
  { reg := .NOC_RSV, off := 0x0, stride := 4, count := 16, fields := [⟨.NOC_RSV_PACED, 21, 16, .rw, 0, 1⟩, ⟨.NOC_RSV_PROBE, 13, 8, .rw, 0, 1⟩, ⟨.NOC_RSV_DEEP, 5, 0, .rw, 0, 1⟩] }

def Reg.def_NOC_TIMEOUT : RegDef :=
  { reg := .NOC_TIMEOUT, off := 0x40, fields := [⟨.NOC_TIMEOUT_US, 15, 0, .rw, 0, 1⟩] }

def Reg.def_NOC_TIMEOUT_CNT : RegDef :=
  { reg := .NOC_TIMEOUT_CNT, off := 0x44, fields := [⟨.NOC_TIMEOUT_CNT_COUNT, 31, 0, .rc, 0, 1⟩] }

def Reg.def_NOC_LATE_CNT : RegDef :=
  { reg := .NOC_LATE_CNT, off := 0x48, fields := [⟨.NOC_LATE_CNT_COUNT, 31, 0, .rc, 0, 1⟩] }

def Reg.def_NOC_STATUS : RegDef :=
  { reg := .NOC_STATUS, off := 0x4C, fields := [⟨.NOC_STATUS_CFG_REJ, 31, 31, .w1c, 0, 1⟩, ⟨.NOC_STATUS_TAGS_HI, 22, 16, .ro, 0, 1⟩, ⟨.NOC_STATUS_TAGS_LO, 15, 6, .ro, 0, 1⟩, ⟨.NOC_STATUS_RSV_FREE, 5, 0, .ro, 0, 1⟩] }

def Reg.def_NOC_ERR_LOC : RegDef :=
  { reg := .NOC_ERR_LOC, off := 0x50, wide := true, fields := [⟨.NOC_ERR_LOC_VALID, 63, 63, .w1c, 0, 1⟩, ⟨.NOC_ERR_LOC_TAG, 47, 32, .ro, 0, 1⟩, ⟨.NOC_ERR_LOC_TARGET, 25, 16, .ro, 0, 1⟩, ⟨.NOC_ERR_LOC_SOURCE, 9, 0, .ro, 0, 1⟩] }

def Reg.def_SVC_CTL : RegDef :=
  { reg := .SVC_CTL, off := 0x0, fields := [⟨.SVC_CTL_ICINV, 2, 2, .w1s, 0, 1⟩, ⟨.SVC_CTL_RST, 1, 1, .w1s, 0, 1⟩, ⟨.SVC_CTL_RUN, 0, 0, .rw, 0, 1⟩] }

def Reg.def_SVC_ACC_ERR : RegDef :=
  { reg := .SVC_ACC_ERR, off := 0x4, fields := [⟨.SVC_ACC_ERR_COUNT, 31, 0, .rc, 0, 1⟩] }

def Reg.def_SVC_ENTRY : RegDef :=
  { reg := .SVC_ENTRY, off := 0x8, wide := true, fields := [⟨.SVC_ENTRY_ADDR, 47, 0, .rw, 0, 1⟩] }

def Reg.def_SCH_CTL : RegDef :=
  { reg := .SCH_CTL, off := 0x0, fields := [⟨.SCH_CTL_SUMP_EN, 31, 31, .rw, 0, 1⟩, ⟨.SCH_CTL_BPWAIT, 21, 16, .rw, 0, 1⟩] }

def Reg.def_SCH_STATUS : RegDef :=
  { reg := .SCH_STATUS, off := 0x4, fields := [⟨.SCH_STATUS_BP, 31, 31, .ro, 0, 1⟩, ⟨.SCH_STATUS_SEQ_ERR, 30, 30, .w1c, 0, 1⟩, ⟨.SCH_STATUS_CFG_REJ, 29, 29, .w1c, 0, 1⟩, ⟨.SCH_STATUS_MS_USED, 28, 16, .ro, 0, 1⟩, ⟨.SCH_STATUS_SUMP_USED, 15, 0, .ro, 0, 1⟩] }

def Reg.def_SCH_SUMP : RegDef :=
  { reg := .SCH_SUMP, off := 0x8, fields := [⟨.SCH_SUMP_LEN, 31, 20, .rw, 0, 1⟩, ⟨.SCH_SUMP_BASE, 19, 8, .rw, 0, 1⟩] }

def Reg.def_SCH_DROP_CNT : RegDef :=
  { reg := .SCH_DROP_CNT, off := 0xC, fields := [⟨.SCH_DROP_CNT_COUNT, 31, 0, .rc, 0, 1⟩] }

def Reg.def_SCH_POST_VAL : RegDef :=
  { reg := .SCH_POST_VAL, off := 0x100, wide := true, banked := true, fields := [⟨.SCH_POST_VAL_VALUE, 63, 0, .rw, 0, 1⟩] }

def Reg.def_SCH_POST : RegDef :=
  { reg := .SCH_POST, off := 0x108, banked := true, fields := [⟨.SCH_POST_INDEX, 12, 10, .wo, 0, 1⟩, ⟨.SCH_POST_THREAD, 9, 0, .wo, 0, 1⟩] }

def Reg.def_SCH_POST_RES : RegDef :=
  { reg := .SCH_POST_RES, off := 0x10C, banked := true, fields := [⟨.SCH_POST_RES_COUNT, 31, 16, .ro, 0, 1⟩, ⟨.SCH_POST_RES_OUTCOME, 1, 0, .ro, 0, 1⟩] }

def Reg.def_SCH_TAKE : RegDef :=
  { reg := .SCH_TAKE, off := 0x110, banked := true, fields := [⟨.SCH_TAKE_EMPTY, 31, 31, .ro, 0, 1⟩, ⟨.SCH_TAKE_BUSY, 30, 30, .ro, 0, 1⟩, ⟨.SCH_TAKE_PRIO, 14, 10, .ro, 0, 1⟩, ⟨.SCH_TAKE_THREAD, 9, 0, .ro, 0, 1⟩] }

def Reg.def_SCH_DONE : RegDef :=
  { reg := .SCH_DONE, off := 0x114, banked := true, fields := [⟨.SCH_DONE_THREAD, 9, 0, .wo, 0, 1⟩] }

def Reg.def_SCH_TOKEN : RegDef :=
  { reg := .SCH_TOKEN, off := 0x120, stride := 8, count := 8, wide := true, banked := true, fields := [⟨.SCH_TOKEN_VALUE, 63, 0, .ro, 0, 1⟩] }

def Reg.def_SCH_TOKSRC : RegDef :=
  { reg := .SCH_TOKSRC, off := 0x160, banked := true, fields := (List.range 8).map (fun k => ⟨.SCH_TOKSRC_SRC, 4 * k + 3, 4 * k, .ro, k, 8⟩) }

def Reg.def_SCH_THR_CFG : RegDef :=
  { reg := .SCH_THR_CFG, off := 0x1000, stride := 4, count := 1024, fields := [⟨.SCH_THR_CFG_EN, 31, 31, .rw, 0, 1⟩, ⟨.SCH_THR_CFG_STATE, 26, 24, .ro, 0, 1⟩, ⟨.SCH_THR_CFG_AFFINITY, 23, 16, .rw, 0, 1⟩, ⟨.SCH_THR_CFG_WAIT, 15, 8, .rw, 0, 1⟩, ⟨.SCH_THR_CFG_PRIO, 4, 0, .rw, 0, 1⟩] }

def Reg.def_IC_SRC_CFG : RegDef :=
  { reg := .IC_SRC_CFG, off := 0x0, stride := 4, count := 1024, fields := [⟨.IC_SRC_CFG_SECURE, 31, 31, .rw, 0, 1⟩, ⟨.IC_SRC_CFG_MODE, 30, 30, .rw, 0, 1⟩, ⟨.IC_SRC_CFG_PRIO, 29, 25, .rw, 0, 1⟩, ⟨.IC_SRC_CFG_TARGETS, 15, 0, .rw, 0, 1⟩] }

def Reg.def_IC_ERR : RegDef :=
  { reg := .IC_ERR, off := 0x3000, fields := [⟨.IC_ERR_COUNT, 31, 0, .rc, 0, 1⟩] }

def Reg.def_TRC_CTL : RegDef :=
  { reg := .TRC_CTL, off := 0x0, fields := [⟨.TRC_CTL_EN, 31, 31, .rw, 0, 1⟩, ⟨.TRC_CTL_STALL, 30, 30, .rw, 0, 1⟩, ⟨.TRC_CTL_LPWAIT, 29, 29, .rw, 0, 1⟩, ⟨.TRC_CTL_SINK, 28, 28, .rw, 0, 1⟩, ⟨.TRC_CTL_PORT, 27, 26, .rw, 0, 1⟩, ⟨.TRC_CTL_SRC_EN, 9, 0, .rw, 0, 1⟩] }

def Reg.def_TRC_BASE : RegDef :=
  { reg := .TRC_BASE, off := 0x8, wide := true, fields := [⟨.TRC_BASE_ADDR, 63, 4, .rw, 0, 1⟩] }

def Reg.def_TRC_LEN : RegDef :=
  { reg := .TRC_LEN, off := 0x10, fields := [⟨.TRC_LEN_LOG2, 4, 0, .rw, 0, 1⟩] }

def Reg.def_TRC_WP : RegDef :=
  { reg := .TRC_WP, off := 0x14, fields := [⟨.TRC_WP_WP, 23, 0, .ro, 0, 1⟩] }

def Reg.def_TRC_STATUS : RegDef :=
  { reg := .TRC_STATUS, off := 0x18, fields := [⟨.TRC_STATUS_CFG_REJ, 31, 31, .w1c, 0, 1⟩, ⟨.TRC_STATUS_SINK_LOST, 30, 30, .w1c, 0, 1⟩, ⟨.TRC_STATUS_WRAPPED, 29, 29, .w1c, 0, 1⟩, ⟨.TRC_STATUS_SEC_ALLOWED, 28, 28, .ro, 0, 1⟩, ⟨.TRC_STATUS_OCC, 8, 0, .ro, 0, 1⟩] }

def Reg.def_TRC_LOST : RegDef :=
  { reg := .TRC_LOST, off := 0x1C, fields := [⟨.TRC_LOST_COUNT, 31, 0, .rc, 0, 1⟩] }

def Reg.def_TRC_SW : RegDef :=
  { reg := .TRC_SW, off := 0x20, wide := true, banked := true, fields := [⟨.TRC_SW_VALUE, 63, 0, .wo, 0, 1⟩] }

def Reg.def_MBX_MSG : RegDef :=
  { reg := .MBX_MSG, off := 0x0, stride := 4, count := 16, fields := [⟨.MBX_MSG_DATA, 31, 0, .rw, 0, 1⟩] }

def Reg.def_MBX_DOORBELL : RegDef :=
  { reg := .MBX_DOORBELL, off := 0x40, fields := [⟨.MBX_DOORBELL_RING, 0, 0, .wo, 0, 1⟩] }

def Reg.def_MBX_STATUS : RegDef :=
  { reg := .MBX_STATUS, off := 0x44, fields := [⟨.MBX_STATUS_SEQ, 31, 16, .ro, 0, 1⟩, ⟨.MBX_STATUS_SRESET, 4, 4, .ro, 0, 1⟩, ⟨.MBX_STATUS_RRESET, 3, 3, .ro, 0, 1⟩, ⟨.MBX_STATUS_COLLISION, 2, 2, .w1c, 0, 1⟩, ⟨.MBX_STATUS_SNAP, 1, 1, .ro, 0, 1⟩, ⟨.MBX_STATUS_FULL, 0, 0, .ro, 0, 1⟩] }

def Reg.def_TK_INC : RegDef :=
  { reg := .TK_INC, off := 0x0, stride := 256, count := 2, wide := true, fields := [⟨.TK_INC_INT, 39, 32, .rw, 0, 1⟩, ⟨.TK_INC_FRAC, 31, 0, .rw, 0, 1⟩] }

def Reg.def_TK_NOW : RegDef :=
  { reg := .TK_NOW, off := 0x8, stride := 256, count := 2, wide := true, fields := [⟨.TK_NOW_WRAPS, 63, 32, .ro, 0, 1⟩, ⟨.TK_NOW_NS, 31, 0, .ro, 0, 1⟩] }

def Reg.def_TK_STEP : RegDef :=
  { reg := .TK_STEP, off := 0x10, stride := 256, count := 2, wide := true, fields := [⟨.TK_STEP_OVERRIDE, 63, 63, .wo, 0, 1⟩, ⟨.TK_STEP_DELTA, 31, 0, .wo, 0, 1⟩] }

def Reg.def_TK_JUMP_THR : RegDef :=
  { reg := .TK_JUMP_THR, off := 0x18, stride := 256, count := 2, fields := [⟨.TK_JUMP_THR_THR, 31, 0, .rw, 0, 1⟩] }

def Reg.def_TK_ALIGN : RegDef :=
  { reg := .TK_ALIGN, off := 0x20, stride := 256, count := 2, wide := true, fields := [⟨.TK_ALIGN_OVERRIDE, 63, 63, .rw, 0, 1⟩, ⟨.TK_ALIGN_ARM, 32, 32, .rw, 0, 1⟩, ⟨.TK_ALIGN_VALUE, 31, 0, .rw, 0, 1⟩] }

def Reg.def_TK_PPS_CAP : RegDef :=
  { reg := .TK_PPS_CAP, off := 0x28, stride := 256, count := 2, wide := true, fields := [⟨.TK_PPS_CAP_VALID, 63, 63, .w1c, 0, 1⟩, ⟨.TK_PPS_CAP_NS, 31, 0, .ro, 0, 1⟩] }

def Reg.def_TK_DSTATUS : RegDef :=
  { reg := .TK_DSTATUS, off := 0x30, stride := 256, count := 2, fields := [⟨.TK_DSTATUS_CFG_REJ, 4, 4, .w1c, 0, 1⟩, ⟨.TK_DSTATUS_ALIGN_REF, 3, 3, .w1c, 0, 1⟩, ⟨.TK_DSTATUS_ALIGN_DONE, 2, 2, .w1c, 0, 1⟩, ⟨.TK_DSTATUS_STEP_REF, 1, 1, .w1c, 0, 1⟩, ⟨.TK_DSTATUS_STEP_DONE, 0, 0, .w1c, 0, 1⟩] }

def Reg.def_TK_SEL : RegDef :=
  { reg := .TK_SEL, off := 0x200, fields := [⟨.TK_SEL_SW_DONE, 31, 31, .w1c, 0, 1⟩, ⟨.TK_SEL_SW_REF, 30, 30, .w1c, 0, 1⟩, ⟨.TK_SEL_SW_NOPPS, 29, 29, .w1c, 0, 1⟩, ⟨.TK_SEL_PEND, 16, 16, .ro, 0, 1⟩, ⟨.TK_SEL_REQ, 8, 8, .w1s, 0, 1⟩, ⟨.TK_SEL_DOM, 0, 0, .ro, 0, 1⟩] }

def Reg.def_TK_SEL_TOL : RegDef :=
  { reg := .TK_SEL_TOL, off := 0x204, fields := [⟨.TK_SEL_TOL_TOL, 31, 0, .rw, 0, 1⟩] }

def Reg.def_TK_PPS_GLITCH : RegDef :=
  { reg := .TK_PPS_GLITCH, off := 0x208, fields := [⟨.TK_PPS_GLITCH_COUNT, 31, 0, .rc, 0, 1⟩] }

def Reg.def_TK_CMP : RegDef :=
  { reg := .TK_CMP, off := 0x210, stride := 16, count := 2, wide := true, fields := [⟨.TK_CMP_ARM, 63, 63, .rw, 0, 1⟩, ⟨.TK_CMP_FIRED, 62, 62, .w1c, 0, 1⟩, ⟨.TK_CMP_DOM, 60, 60, .rw, 0, 1⟩, ⟨.TK_CMP_VALUE, 31, 0, .rw, 0, 1⟩] }

def Reg.def_TK_PPS_OUT : RegDef :=
  { reg := .TK_PPS_OUT, off := 0x240, wide := true, fields := [⟨.TK_PPS_OUT_EN, 63, 63, .rw, 0, 1⟩, ⟨.TK_PPS_OUT_DOM, 62, 62, .rw, 0, 1⟩, ⟨.TK_PPS_OUT_WIDTH, 47, 40, .rw, 0, 1⟩, ⟨.TK_PPS_OUT_NEXT, 31, 0, .rw, 0, 1⟩] }

def Reg.def_TK_EVT : RegDef :=
  { reg := .TK_EVT, off := 0x300, stride := 8, count := 16, wide := true, fields := [⟨.TK_EVT_VALID, 63, 63, .w1c, 0, 1⟩, ⟨.TK_EVT_OVF, 62, 62, .w1c, 0, 1⟩, ⟨.TK_EVT_DOM, 61, 61, .ro, 0, 1⟩, ⟨.TK_EVT_NS, 31, 0, .ro, 0, 1⟩] }

def Reg.def_PWR_STATE : RegDef :=
  { reg := .PWR_STATE, off := 0x400, fields := [⟨.PWR_STATE_CFG_REJ, 31, 31, .w1c, 0, 1⟩, ⟨.PWR_STATE_CMD_LOST, 30, 30, .w1c, 0, 1⟩, ⟨.PWR_STATE_WAKE, 11, 8, .ro, 0, 1⟩, ⟨.PWR_STATE_STATE, 2, 0, .ro, 0, 1⟩] }

def Reg.def_PWR_CMD : RegDef :=
  { reg := .PWR_CMD, off := 0x404, fields := [⟨.PWR_CMD_CODE, 31, 28, .wo, 0, 1⟩] }

def Reg.def_PWR_RESULT : RegDef :=
  { reg := .PWR_RESULT, off := 0x408, fields := [⟨.PWR_RESULT_READY, 31, 31, .ro, 0, 1⟩, ⟨.PWR_RESULT_CONSUMED, 30, 30, .ro, 0, 1⟩, ⟨.PWR_RESULT_OUTCOME, 29, 28, .ro, 0, 1⟩, ⟨.PWR_RESULT_CMD, 27, 24, .ro, 0, 1⟩, ⟨.PWR_RESULT_CODE, 23, 16, .ro, 0, 1⟩, ⟨.PWR_RESULT_SEQ, 15, 0, .ro, 0, 1⟩] }

def Reg.def_PWR_CTL : RegDef :=
  { reg := .PWR_CTL, off := 0x40C, fields := [⟨.PWR_CTL_QLIMIT, 31, 16, .rw, 0, 1⟩, ⟨.PWR_CTL_CRIT, 15, 8, .rw, 0, 1⟩, ⟨.PWR_CTL_WARN, 7, 0, .rw, 0, 1⟩] }

def Reg.def_PWR_WAKE_CTL : RegDef :=
  { reg := .PWR_WAKE_CTL, off := 0x410, fields := [⟨.PWR_WAKE_CTL_MGMT_ADDR, 22, 16, .rw, 0, 1⟩, ⟨.PWR_WAKE_CTL_MGMT_EN, 8, 8, .rw, 0, 1⟩, ⟨.PWR_WAKE_CTL_POL, 7, 4, .rw, 0, 1⟩, ⟨.PWR_WAKE_CTL_EN, 3, 0, .rw, 0, 1⟩] }

def Reg.def_PWR_WATCH_CTL : RegDef :=
  { reg := .PWR_WATCH_CTL, off := 0x414, fields := [⟨.PWR_WATCH_CTL_COUNT, 23, 16, .rw, 0, 1⟩, ⟨.PWR_WATCH_CTL_INTERVAL, 15, 0, .rw, 0, 1⟩] }

def Reg.def_PWR_WATCH_PIN : RegDef :=
  { reg := .PWR_WATCH_PIN, off := 0x420, stride := 4, count := 32, fields := [⟨.PWR_WATCH_PIN_VALID, 31, 31, .rw, 0, 1⟩, ⟨.PWR_WATCH_PIN_BANK, 8, 5, .rw, 0, 1⟩, ⟨.PWR_WATCH_PIN_PIN, 4, 0, .rw, 0, 1⟩] }

def Reg.def_PWR_AVS : RegDef :=
  { reg := .PWR_AVS, off := 0x4D0, fields := [⟨.PWR_AVS_FAIL, 31, 31, .w1c, 0, 1⟩, ⟨.PWR_AVS_TMO, 27, 16, .rw, 0, 1⟩, ⟨.PWR_AVS_VDD_C, 15, 0, .ro, 0, 1⟩] }

def Reg.def_PWR_RST_CAUSE : RegDef :=
  { reg := .PWR_RST_CAUSE, off := 0x4D4, fields := [⟨.PWR_RST_CAUSE_TAMPER, 5, 5, .ro, 0, 1⟩, ⟨.PWR_RST_CAUSE_LC, 4, 4, .w1c, 0, 1⟩, ⟨.PWR_RST_CAUSE_THERM, 3, 3, .w1c, 0, 1⟩, ⟨.PWR_RST_CAUSE_BROWNOUT, 2, 2, .w1c, 0, 1⟩, ⟨.PWR_RST_CAUSE_PIN, 1, 1, .w1c, 0, 1⟩, ⟨.PWR_RST_CAUSE_POR, 0, 0, .w1c, 0, 1⟩] }

def Reg.def_LC_STATE : RegDef :=
  { reg := .LC_STATE, off := 0x500, fields := [⟨.LC_STATE_REFUSED, 8, 8, .w1c, 0, 1⟩, ⟨.LC_STATE_PEND, 7, 4, .ro, 0, 1⟩, ⟨.LC_STATE_STATE, 3, 0, .ro, 0, 1⟩] }

def Reg.def_LC_CMD : RegDef :=
  { reg := .LC_CMD, off := 0x504, fields := [⟨.LC_CMD_KEY, 31, 0, .wo, 0, 1⟩] }

def Reg.def_DBG_STATUS : RegDef :=
  { reg := .DBG_STATUS, off := 0x510, wide := true, fields := [⟨.DBG_STATUS_NONCE, 63, 32, .ro, 0, 1⟩, ⟨.DBG_STATUS_DENIED, 9, 9, .w1c, 0, 1⟩, ⟨.DBG_STATUS_REJ, 8, 8, .w1c, 0, 1⟩, ⟨.DBG_STATUS_PERM, 7, 4, .ro, 0, 1⟩, ⟨.DBG_STATUS_LEVEL, 1, 0, .ro, 0, 1⟩] }

def Reg.def_PTN_DPAR_LOC : RegDef :=
  { reg := .PTN_DPAR_LOC, off := 0x100C, fields := [⟨.PTN_DPAR_LOC_VALID, 31, 31, .w1c, 0, 1⟩, ⟨.PTN_DPAR_LOC_BP, 28, 12, .ro, 0, 1⟩, ⟨.PTN_DPAR_LOC_SLOT, 11, 0, .ro, 0, 1⟩] }

def Reg.def_FLT_SRC : RegDef :=
  { reg := .FLT_SRC, off := 0x600, fields := [⟨.FLT_SRC_BOOT, 23, 23, .ro, 0, 1⟩, ⟨.FLT_SRC_SW, 22, 22, .ro, 0, 1⟩, ⟨.FLT_SRC_THERM, 21, 21, .ro, 0, 1⟩, ⟨.FLT_SRC_REPAIR, 17, 17, .w1c, 0, 1⟩, ⟨.FLT_SRC_MEM, 18, 18, .w1c, 0, 1⟩, ⟨.FLT_SRC_LINK, 19, 19, .w1c, 0, 1⟩, ⟨.FLT_SRC_SVC, 20, 20, .w1c, 0, 1⟩, ⟨.FLT_SRC_RIM, 16, 16, .ro, 0, 1⟩, ⟨.FLT_SRC_PUMP, 15, 0, .ro, 0, 1⟩] }

def Reg.def_FLT_FN_EN : RegDef :=
  { reg := .FLT_FN_EN, off := 0x604, fields := [⟨.FLT_FN_EN_EN, 22, 0, .rwl, 0, 1⟩] }

def Reg.def_FLT_CTL : RegDef :=
  { reg := .FLT_CTL, off := 0x608, fields := [⟨.FLT_CTL_LOCK, 31, 31, .w1s, 0, 1⟩, ⟨.FLT_CTL_CFG_REJ, 30, 30, .w1c, 0, 1⟩, ⟨.FLT_CTL_SW_ASSERT, 0, 0, .rw, 0, 1⟩] }

def Reg.def_FLT_LOG_LOST : RegDef :=
  { reg := .FLT_LOG_LOST, off := 0x60C, fields := [⟨.FLT_LOG_LOST_COUNT, 31, 0, .rc, 0, 1⟩] }

def Reg.def_FLT_LOG : RegDef :=
  { reg := .FLT_LOG, off := 0x610, wide := true, fields := [⟨.FLT_LOG_VALID, 63, 63, .ro, 0, 1⟩, ⟨.FLT_LOG_CODE, 47, 40, .ro, 0, 1⟩, ⟨.FLT_LOG_PART, 39, 36, .ro, 0, 1⟩, ⟨.FLT_LOG_DOM, 32, 32, .ro, 0, 1⟩, ⟨.FLT_LOG_TIME, 31, 0, .ro, 0, 1⟩] }

def Reg.def_FLT_LOG_INFO : RegDef :=
  { reg := .FLT_LOG_INFO, off := 0x618, wide := true, fields := [⟨.FLT_LOG_INFO_INFO, 63, 0, .ro, 0, 1⟩] }

def Reg.def_FLT_CNT : RegDef :=
  { reg := .FLT_CNT, off := 0x640, stride := 4, count := 8, fields := [⟨.FLT_CNT_COUNT, 31, 0, .rc, 0, 1⟩] }

def Reg.def_FLT_IREP_CNT : RegDef :=
  { reg := .FLT_IREP_CNT, off := 0x680, stride := 4, count := 16, fields := [⟨.FLT_IREP_CNT_COUNT, 31, 0, .rc, 0, 1⟩] }

def Reg.def_PRB_SEL : RegDef :=
  { reg := .PRB_SEL, off := 0x400, stride := 64, count := 16, stride2 := 4, count2 := 4, fields := [⟨.PRB_SEL_BITS, 31, 0, .rw, 0, 1⟩] }

def Reg.def_PRB_VAL : RegDef :=
  { reg := .PRB_VAL, off := 0x410, stride := 64, count := 16, stride2 := 4, count2 := 4, fields := [⟨.PRB_VAL_BITS, 31, 0, .rw, 0, 1⟩] }

def Reg.def_PRB_CND_CTL : RegDef :=
  { reg := .PRB_CND_CTL, off := 0x420, stride := 64, count := 16, fields := [⟨.PRB_CND_CTL_EN, 31, 31, .rw, 0, 1⟩, ⟨.PRB_CND_CTL_MODE, 30, 30, .rw, 0, 1⟩, ⟨.PRB_CND_CTL_COUNT, 15, 0, .rw, 0, 1⟩] }

def Reg.def_PRB_TEMPLATE : RegDef :=
  { reg := .PRB_TEMPLATE, off := 0x8000, stride := 4, count := 2048, fields := [⟨.PRB_TEMPLATE_BITS, 31, 0, .rw, 0, 1⟩] }

def Reg.def_PRB_MASK : RegDef :=
  { reg := .PRB_MASK, off := 0xA000, stride := 4, count := 2048, fields := [⟨.PRB_MASK_BITS, 31, 0, .rw, 0, 1⟩] }

def Reg.def_IC_PEND_SET : RegDef :=
  { reg := .IC_PEND_SET, off := 0x1000, stride := 4, count := 32, fields := (List.range 32).map (fun k => ⟨.IC_PEND_BIT, 1 * k + 0, 1 * k, .w1s, k, 32⟩) }

def Reg.def_IC_PEND_CLR : RegDef :=
  { reg := .IC_PEND_CLR, off := 0x1080, stride := 4, count := 32, fields := (List.range 32).map (fun k => ⟨.IC_PEND_BIT, 1 * k + 0, 1 * k, .w1c, k, 32⟩) }

def Reg.def_IC_EN_SET : RegDef :=
  { reg := .IC_EN_SET, off := 0x1100, stride := 4, count := 32, fields := (List.range 32).map (fun k => ⟨.IC_EN_BIT, 1 * k + 0, 1 * k, .w1s, k, 32⟩) }

def Reg.def_IC_EN_CLR : RegDef :=
  { reg := .IC_EN_CLR, off := 0x1180, stride := 4, count := 32, fields := (List.range 32).map (fun k => ⟨.IC_EN_BIT, 1 * k + 0, 1 * k, .w1c, k, 32⟩) }

def Reg.def_IC_ACTIVE : RegDef :=
  { reg := .IC_ACTIVE, off := 0x1200, stride := 4, count := 32, fields := (List.range 32).map (fun k => ⟨.IC_ACTIVE_BIT, 1 * k + 0, 1 * k, .ro, k, 32⟩) }

def Reg.def_IC_CLAIM : RegDef :=
  { reg := .IC_CLAIM, off := 0x2000, stride := 32, count := 16, fields := [⟨.IC_CLAIM_SOURCE, 9, 0, .ro, 0, 1⟩] }

def Reg.def_IC_COMPLETE : RegDef :=
  { reg := .IC_COMPLETE, off := 0x2004, stride := 32, count := 16, fields := [⟨.IC_COMPLETE_SOURCE, 9, 0, .wo, 0, 1⟩] }

def Reg.def_IC_THRESH : RegDef :=
  { reg := .IC_THRESH, off := 0x2008, stride := 32, count := 16, fields := [⟨.IC_THRESH_THRESH, 4, 0, .rw, 0, 1⟩] }

def Reg.def_IC_RUNPRIO : RegDef :=
  { reg := .IC_RUNPRIO, off := 0x200C, stride := 32, count := 16, fields := [⟨.IC_RUNPRIO_PRIO, 4, 0, .ro, 0, 1⟩] }

def Reg.def_ETH_RX_RING : RegDef :=
  { reg := .ETH_RX_RING, off := 0x40, stride := 256, count := 2, fields := [⟨.ETH_RX_RING_LOG2, 31, 28, .rw, 0, 1⟩, ⟨.ETH_RX_RING_OFFSET, 23, 6, .rw, 0, 1⟩] }

def Reg.def_ETH_TX_RING : RegDef :=
  { reg := .ETH_TX_RING, off := 0x44, stride := 256, count := 2, fields := [⟨.ETH_TX_RING_LOG2, 31, 28, .rw, 0, 1⟩, ⟨.ETH_TX_RING_OFFSET, 23, 6, .rw, 0, 1⟩] }

def Reg.def_ETH_RX_IDX : RegDef :=
  { reg := .ETH_RX_IDX, off := 0x48, stride := 256, count := 2, fields := [⟨.ETH_RX_IDX_DROP, 31, 24, .rc, 0, 1⟩, ⟨.ETH_RX_IDX_HW, 23, 12, .ro, 0, 1⟩, ⟨.ETH_RX_IDX_SW, 11, 0, .rw, 0, 1⟩] }

def Reg.def_ETH_TX_IDX : RegDef :=
  { reg := .ETH_TX_IDX, off := 0x4C, stride := 256, count := 2, fields := [⟨.ETH_TX_IDX_HW, 23, 12, .ro, 0, 1⟩, ⟨.ETH_TX_IDX_SW, 11, 0, .rw, 0, 1⟩] }

def Reg.def_PWR_WATCH_VAL : RegDef :=
  { reg := .PWR_WATCH_VAL, off := 0x4A0, stride := 4, count := 3, fields := [⟨.PWR_WATCH_VAL_BITS, 31, 0, .rw, 0, 1⟩] }

def Reg.def_PWR_WATCH_MASK : RegDef :=
  { reg := .PWR_WATCH_MASK, off := 0x4B0, stride := 4, count := 3, fields := [⟨.PWR_WATCH_MASK_BITS, 31, 0, .rw, 0, 1⟩] }

def Reg.def_PWR_WATCH_LAST : RegDef :=
  { reg := .PWR_WATCH_LAST, off := 0x4C0, stride := 4, count := 3, fields := [⟨.PWR_WATCH_LAST_BITS, 31, 0, .ro, 0, 1⟩] }

def Reg.def_MSIX_ADDR_LO : RegDef :=
  { reg := .MSIX_ADDR_LO, off := 0x0, stride := 16, count := 48, fields := [⟨.MSIX_ADDR_LO_ADDR, 31, 2, .rw, 0, 1⟩] }

def Reg.def_MSIX_ADDR_HI : RegDef :=
  { reg := .MSIX_ADDR_HI, off := 0x4, stride := 16, count := 48, fields := [⟨.MSIX_ADDR_HI_ADDR, 31, 0, .rw, 0, 1⟩] }

def Reg.def_MSIX_DATA : RegDef :=
  { reg := .MSIX_DATA, off := 0x8, stride := 16, count := 48, fields := [⟨.MSIX_DATA_DATA, 31, 0, .rw, 0, 1⟩] }

def Reg.def_MSIX_CTRL : RegDef :=
  { reg := .MSIX_CTRL, off := 0xC, stride := 16, count := 48, fields := [⟨.MSIX_CTRL_MASK, 0, 0, .rw, 0, 1⟩] }

def Reg.def_MSIX_PBA : RegDef :=
  { reg := .MSIX_PBA, off := 0x1000, stride := 4, count := 2, fields := (List.range 32).map (fun k => ⟨.MSIX_PBA_BIT, 1 * k + 0, 1 * k, .ro, k, 32⟩) }

def Reg.def_GLB_PORT_ACC_ERR : RegDef :=
  { reg := .GLB_PORT_ACC_ERR, off := 0x100, stride := 32, count := 4, fields := [⟨.GLB_ACC_ERR_COUNT, 31, 0, .ro, 0, 1⟩] }

def Reg.def_GLB_PORT_ACC_LOC : RegDef :=
  { reg := .GLB_PORT_ACC_LOC, off := 0x108, stride := 32, count := 4, wide := true, fields := [⟨.GLB_ACC_LOC_VALID, 63, 63, .ro, 0, 1⟩, ⟨.GLB_ACC_LOC_BAR2, 62, 62, .ro, 0, 1⟩, ⟨.GLB_ACC_LOC_WRITE, 61, 61, .ro, 0, 1⟩, ⟨.GLB_ACC_LOC_OFFSET, 47, 0, .ro, 0, 1⟩] }

/-- The registers of block `agp`. -/
def Blk.regs_agp : List RegDef :=
  [Reg.def_AGP_OUT_LO, Reg.def_AGP_OUT_HI, Reg.def_AGP_OE_LO, Reg.def_AGP_OE_HI, Reg.def_AGP_IN, Reg.def_AGP_DENY_CNT, Reg.def_AGP_DENY_LOC]

/-- The registers of block `cc`. -/
def Blk.regs_cc : List RegDef :=
  [Reg.def_SVC_CTL, Reg.def_SVC_ACC_ERR, Reg.def_SVC_ENTRY]

/-- The registers of block `dma`. -/
def Blk.regs_dma : List RegDef :=
  [Reg.def_DMA_PORT_STATUS, Reg.def_DMA_CH_CTL, Reg.def_DMA_CH_DESC_BASE, Reg.def_DMA_CH_CPL_BASE, Reg.def_DMA_CH_RING, Reg.def_DMA_CH_PI, Reg.def_DMA_CH_STATUS]

/-- The registers of block `dmc`. -/
def Blk.regs_dmc : List RegDef :=
  [Reg.def_DMC_STACK_CFG, Reg.def_DMC_STACK_STATUS, Reg.def_MT_CMD, Reg.def_MT_RESULT, Reg.def_MT_FAIL_CNT, Reg.def_MT_STATUS, Reg.def_MT_FAIL_LOC]

/-- The registers of block `eth`. -/
def Blk.regs_eth : List RegDef :=
  [Reg.def_ETH_CTL, Reg.def_ETH_STATUS, Reg.def_ETH_PTP_NEXT_SEC, Reg.def_ETH_PTP_NEXT_NS, Reg.def_ETH_TX_TS, Reg.def_ETH_RX_RING, Reg.def_ETH_TX_RING, Reg.def_ETH_RX_IDX, Reg.def_ETH_TX_IDX]

/-- The registers of block `glb`. -/
def Blk.regs_glb : List RegDef :=
  [Reg.def_GLB_ID, Reg.def_GLB_PORT, Reg.def_GLB_ACC_ERR, Reg.def_GLB_ACC_LOC, Reg.def_GLB_BAR2_SEL, Reg.def_GLB_LAT_SEL, Reg.def_GLB_LAT_VAL, Reg.def_GLB_LAT_CNT]

/-- The registers of block `ic`. -/
def Blk.regs_ic : List RegDef :=
  [Reg.def_IC_SRC_CFG, Reg.def_IC_ERR, Reg.def_IC_PEND_SET, Reg.def_IC_PEND_CLR, Reg.def_IC_EN_SET, Reg.def_IC_EN_CLR, Reg.def_IC_ACTIVE, Reg.def_IC_CLAIM, Reg.def_IC_COMPLETE, Reg.def_IC_THRESH, Reg.def_IC_RUNPRIO]

/-- The registers of block `iob`. -/
def Blk.regs_iob : List RegDef :=
  [Reg.def_IOB_BANK_CFG, Reg.def_IOB_BANK_STATUS, Reg.def_IOB_LOCK, Reg.def_IOB_PIN_CFG]

/-- The registers of block `lq`. -/
def Blk.regs_lq : List RegDef :=
  [Reg.def_LQ_QUAD_CTL, Reg.def_LQ_QUAD_STATUS, Reg.def_LQ_LANE_CTL, Reg.def_LQ_LANE_TXEQ, Reg.def_LQ_LANE_STATUS, Reg.def_LQ_LANE_ERR, Reg.def_LQ_PRBS_CTL, Reg.def_LQ_PRBS_STATUS, Reg.def_LQ_PRBS_ERR, Reg.def_LQ_PRBS_BITS, Reg.def_LQ_DFE]

/-- The registers of block `mbx`. -/
def Blk.regs_mbx : List RegDef :=
  [Reg.def_MBX_MSG, Reg.def_MBX_DOORBELL, Reg.def_MBX_STATUS]

/-- The registers of block `msix`. -/
def Blk.regs_msix : List RegDef :=
  [Reg.def_MSIX_ADDR_LO, Reg.def_MSIX_ADDR_HI, Reg.def_MSIX_DATA, Reg.def_MSIX_CTRL, Reg.def_MSIX_PBA]

/-- The registers of block `noc`. -/
def Blk.regs_noc : List RegDef :=
  [Reg.def_NOC_RSV, Reg.def_NOC_TIMEOUT, Reg.def_NOC_TIMEOUT_CNT, Reg.def_NOC_LATE_CNT, Reg.def_NOC_STATUS, Reg.def_NOC_ERR_LOC]

/-- The registers of block `part`. -/
def Blk.regs_part : List RegDef :=
  [Reg.def_XCH_STATUS, Reg.def_XCH_LAT, Reg.def_XCH_REPAIR_CNT, Reg.def_XCH_ERR_LOC, Reg.def_XCH_EDGE_CNT, Reg.def_PMP_CTL, Reg.def_PMP_CMD, Reg.def_PMP_STATUS, Reg.def_PMP_SLEN, Reg.def_PMP_TDIV, Reg.def_PMP_HOLD_REQ, Reg.def_PMP_HOLD_CAUSE] ++
  [Reg.def_PMP_HOLD_LIMIT, Reg.def_PMP_CYCLE, Reg.def_PMP_HOLD_PERIODS, Reg.def_PMP_OVR_CNT, Reg.def_PMP_TICK_MERGE, Reg.def_PMP_LAG_MAX, Reg.def_PMP_RATE, Reg.def_PMP_STOP_CAUSE, Reg.def_PMP_STOP_CYCLE, Reg.def_PMP_STOP_CODES, Reg.def_PMP_EVENT, Reg.def_PMP_EVENT_EN] ++
  [Reg.def_PMP_RESULT, Reg.def_PMP_RESULT_CYC, Reg.def_PTN_CFG, Reg.def_PTN_CMD, Reg.def_PTN_RESULT, Reg.def_PTN_ENC_FAULT, Reg.def_PTN_LOSS, Reg.def_PTN_LOSS_CYC, Reg.def_DM_STATUS, Reg.def_DM_LATE_CNT, Reg.def_DM_LATE_MAX, Reg.def_DM_UNMAPPED_CNT] ++
  [Reg.def_DM_ERR, Reg.def_DM_ERR_LOC, Reg.def_DM_MAP, Reg.def_LDR_CMD, Reg.def_LDR_PARAM, Reg.def_LDR_SRC, Reg.def_LDR_STATUS, Reg.def_LDR_RESULT, Reg.def_LDR_REFUSE, Reg.def_LDR_REFUSE_OFF, Reg.def_LDR_IMAGE_ID, Reg.def_LDR_LAT_PAD] ++
  [Reg.def_LDR_CERT, Reg.def_ELB_CTL, Reg.def_ELB_STATUS, Reg.def_ELB_EVENT, Reg.def_ELB_LATE_CNT, Reg.def_PTN_DPAR_LOC]

/-- The registers of block `prb`. -/
def Blk.regs_prb : List RegDef :=
  [Reg.def_PRB_CTL, Reg.def_PRB_CMD, Reg.def_PRB_RESULT, Reg.def_PRB_STATUS, Reg.def_PRB_BUF_BASE, Reg.def_PRB_BUF_LEN, Reg.def_PRB_DEPTH, Reg.def_PRB_RATE, Reg.def_PRB_MASK_CTL, Reg.def_PRB_EVENT, Reg.def_PRB_EVENT_EN, Reg.def_PRB_VIOL_CNT] ++
  [Reg.def_PRB_VIOL_POS, Reg.def_PRB_VIOL_CYC, Reg.def_PRB_TRIG_CYC, Reg.def_PRB_TRIG_REC, Reg.def_PRB_TRIG_SRC, Reg.def_PRB_REC_CNT, Reg.def_PRB_SEQ_CTL, Reg.def_PRB_SEL, Reg.def_PRB_VAL, Reg.def_PRB_CND_CTL, Reg.def_PRB_TEMPLATE, Reg.def_PRB_MASK]

/-- The registers of block `rim`. -/
def Blk.regs_rim : List RegDef :=
  [Reg.def_RIM_SECT_OWN, Reg.def_RIM_CLK_SEL, Reg.def_RIM_CLK_STATUS, Reg.def_RIM_RST_CTL, Reg.def_RIM_BUS_EVT, Reg.def_RIM_BUS_LOC, Reg.def_RIM_SCRUB_CTL, Reg.def_RIM_SCRUB_STATUS, Reg.def_RIM_SCRUB_CE_CNT, Reg.def_RIM_SCRUB_UE_LOC, Reg.def_RIM_ID, Reg.def_RIM_LD_CMD] ++
  [Reg.def_RIM_LD_PARAM, Reg.def_RIM_LD_RESULT, Reg.def_RIM_LD_SRC, Reg.def_RIM_LD_STATUS, Reg.def_RIM_LD_ERR_LOC, Reg.def_RIM_SECT_STATE]

/-- The registers of block `sch`. -/
def Blk.regs_sch : List RegDef :=
  [Reg.def_SCH_CTL, Reg.def_SCH_STATUS, Reg.def_SCH_SUMP, Reg.def_SCH_DROP_CNT, Reg.def_SCH_POST_VAL, Reg.def_SCH_POST, Reg.def_SCH_POST_RES, Reg.def_SCH_TAKE, Reg.def_SCH_DONE, Reg.def_SCH_TOKEN, Reg.def_SCH_TOKSRC, Reg.def_SCH_THR_CFG]

/-- The registers of block `svc`. -/
def Blk.regs_svc : List RegDef :=
  [Reg.def_PWR_STATE, Reg.def_PWR_CMD, Reg.def_PWR_RESULT, Reg.def_PWR_CTL, Reg.def_PWR_WAKE_CTL, Reg.def_PWR_WATCH_CTL, Reg.def_PWR_WATCH_PIN, Reg.def_PWR_AVS, Reg.def_PWR_RST_CAUSE, Reg.def_LC_STATE, Reg.def_LC_CMD, Reg.def_DBG_STATUS] ++
  [Reg.def_FLT_SRC, Reg.def_FLT_FN_EN, Reg.def_FLT_CTL, Reg.def_FLT_LOG_LOST, Reg.def_FLT_LOG, Reg.def_FLT_LOG_INFO, Reg.def_FLT_CNT, Reg.def_FLT_IREP_CNT, Reg.def_PWR_WATCH_VAL, Reg.def_PWR_WATCH_MASK, Reg.def_PWR_WATCH_LAST, Reg.def_GLB_PORT_ACC_ERR] ++
  [Reg.def_GLB_PORT_ACC_LOC]

/-- The registers of block `tk`. -/
def Blk.regs_tk : List RegDef :=
  [Reg.def_TK_INC, Reg.def_TK_NOW, Reg.def_TK_STEP, Reg.def_TK_JUMP_THR, Reg.def_TK_ALIGN, Reg.def_TK_PPS_CAP, Reg.def_TK_DSTATUS, Reg.def_TK_SEL, Reg.def_TK_SEL_TOL, Reg.def_TK_PPS_GLITCH, Reg.def_TK_CMP, Reg.def_TK_PPS_OUT] ++
  [Reg.def_TK_EVT]

/-- The registers of block `trc`. -/
def Blk.regs_trc : List RegDef :=
  [Reg.def_TRC_CTL, Reg.def_TRC_BASE, Reg.def_TRC_LEN, Reg.def_TRC_WP, Reg.def_TRC_STATUS, Reg.def_TRC_LOST, Reg.def_TRC_SW]

/-- The registers of a block. -/
def Blk.regs : Blk → List RegDef
  | .agp => Blk.regs_agp
  | .cc => Blk.regs_cc
  | .dma => Blk.regs_dma
  | .dmc => Blk.regs_dmc
  | .eth => Blk.regs_eth
  | .glb => Blk.regs_glb
  | .ic => Blk.regs_ic
  | .iob => Blk.regs_iob
  | .lq => Blk.regs_lq
  | .mbx => Blk.regs_mbx
  | .msix => Blk.regs_msix
  | .noc => Blk.regs_noc
  | .part => Blk.regs_part
  | .prb => Blk.regs_prb
  | .rim => Blk.regs_rim
  | .sch => Blk.regs_sch
  | .svc => Blk.regs_svc
  | .tk => Blk.regs_tk
  | .trc => Blk.regs_trc

end Sys2Proof.Machine
end

