-- ==== Sys2Proof/Machine/RegRead.lean ====
section
/-! DEFINITION. Reading registers (R12, R15, R16): the value that each field shows, and what a read does beyond showing it. -/

namespace Sys2Proof.Machine

/-! Fields that are computed -/

/-- Bit `d` for every die on which partition `p` owns a band (XCH_STATUS.DIES). -/
def Chip.ownedDies (c : Chip) (p : Nat) : Nat :=
  (List.range 4).foldl (fun v d => v + b2n ((List.range 16).any fun b => c.ownsBand p (16 * d + b)) * 2 ^ d) 0

/-- Bit `d` for every bridge d to d + 1 that partition `p` owns (XCH_STATUS.BRIDGES). -/
def Chip.ownedBridges (c : Chip) (p : Nat) : Nat :=
  (List.range 4).foldl (fun v d => v + b2n (c.bridgeOwner d = some p) * 2 ^ d) 0

/-- Whether the device table lists unit `u` (R183). -/
def latListed (u : Nat) : Bool := 1 ≤ u && u ≤ 7

/-- Slots per frame that the reservations of all partitions but `p` take (R317). -/
def Chip.reserved (c : Chip) (p : Nat) : Nat :=
  (((List.range 16).filter fun q => q ≠ p).map fun q => c.get .NOC_RSV_PACED q + c.get .NOC_RSV_PROBE q + c.get .NOC_RSV_DEEP q).sum

/-- Slots per frame still reservable (NOC_STATUS.RSV_FREE). -/
def Chip.rsvFree (c : Chip) : Nat := 56 - c.reserved 16

/-- The value that field `f` of instance `i` shows: what is stored, but for the fields that show other state. -/
def Chip.view (c : Chip) (a : Arr) (f : Fld) (i : Nat) : Nat :=
  match f with
  | .XCH_STATUS_BRIDGES => c.ownedBridges i
  | .XCH_STATUS_DIES => c.ownedDies i
  | .PMP_STATUS_RPHASE => c.rampPhase i
  | .PMP_STATUS_CMD_PEND => b2n (c.cmdPending .pmp i)
  | .PMP_HOLD_CAUSE_ACTIVE => causes c a i
  | .PMP_RATE_ECON => c.get .PMP_RATE_ECON 0
  | .PMP_RATE_CHANGING => c.get .PMP_RATE_CHANGING 0
  | .DM_STATUS_LC_DEV => c.latDevice 1
  | .DMC_STACK_STATUS_USED => c.stackUsed i
  | .MT_STATUS_PEND => b2n (c.cmdPending .mt 0)
  | .LDR_STATUS_PEND => b2n (c.loading i)
  | .PRB_STATUS_OCC => ceilDiv (c.occupancy i) 64
  | .PRB_STATUS_PEND => b2n (c.cmdPending .prb i)
  | .ELB_STATUS_OUT_USED => a.elUsed i
  | .ELB_STATUS_IN_USED => a.elInUsed c i
  | .ELB_STATUS_FULL => c.get .H_ELB_FULL i
  | .IOB_BANK_STATUS_SWITCHING => b2n (c.switching i)
  | .ETH_STATUS_LINK => b2n (c.ethLink i)
  | .ETH_TX_TS_VALID => bits (c.txTsTop i) 63 63
  | .ETH_TX_TS_MSGTYPE => bits (c.txTsTop i) 59 56
  | .ETH_TX_TS_SEQID => bits (c.txTsTop i) 55 40
  | .ETH_TX_TS_NS => bits (c.txTsTop i) 31 0
  | .DMA_PORT_STATUS_X16 => b2n c.x16
  | .DMA_CH_STATUS_BUSY => b2n (c.dmaBusy i)
  | .GLB_ID_PART => (match c.grade with | .vdx410 => 0x410 | .vdx420 => 0x420 | .vdx440 => 0x440)
  | .GLB_ID_STEP => b2n c.isB0
  | .GLB_ID_DIES => (match c.grade with | .vdx410 => 0x1 | .vdx420 => 0x3 | .vdx440 => 0xF)
  | .GLB_ID_TEMP => b2n c.suffixN
  | .GLB_PORT_X16 => b2n c.x16
  | .GLB_PORT_MASTER => i
  | .GLB_LAT_VAL_PRESENT => b2n (latListed (c.get .GLB_LAT_SEL_UNIT i))
  | .GLB_LAT_VAL_EXACT => b2n (latExact (c.get .GLB_LAT_SEL_UNIT i))
  | .GLB_LAT_VAL_LARGEST => latLargest (c.get .GLB_LAT_SEL_UNIT i)
  | .GLB_LAT_VAL_DEFAULT => latDefault (c.get .GLB_LAT_SEL_UNIT i)
  | .GLB_LAT_VAL_DEVICE => c.latDevice (c.get .GLB_LAT_SEL_UNIT i)
  | .NOC_STATUS_TAGS_HI => bits (tagsUsed c a) 16 10
  | .NOC_STATUS_TAGS_LO => bits (tagsUsed c a) 9 0
  | .NOC_STATUS_RSV_FREE => c.rsvFree
  | .SVC_CTL_RUN => c.runs i
  | .SVC_ENTRY_ADDR => c.entry i
  | .SCH_STATUS_BP => b2n (c.posts ≠ [])
  | .SCH_STATUS_MS_USED => c.tokens.length
  | .SCH_STATUS_SUMP_USED => c.sump.length
  | .IC_SRC_CFG_SECURE => b2n (c.icSecure i)
  | .IC_RUNPRIO_PRIO => c.icRunPrio i
  | .TRC_STATUS_SEC_ALLOWED => b2n c.secAllowed
  | .TRC_STATUS_OCC => c.trc.length
  | .DBG_STATUS_NONCE => c.nonce
  | .FLT_SRC_SW => c.get .FLT_CTL_SW_ASSERT 0
  | .FLT_SRC_THERM => b2n c.thermCrit
  | .FLT_SRC_RIM => bit c.fltSrc 16
  | .FLT_SRC_PUMP => c.fltPump
  | f => c.get f i

/-- The value of a register that holds instance `k` of its fields. Write-only and reserved bits read 0 (R12, R14). -/
def Chip.regValue (c : Chip) (a : Arr) (d : RegDef) (k : Nat) : Nat :=
  d.fields.foldl
    (fun v x => v + (if x.acc = .wo then 0 else c.view a x.fld (k * x.fc + x.fi) % 2 ^ (x.hi + 1 - x.lo)) * 2 ^ x.lo) 0

/-! What a read does -/

/-- Read-to-clear fields are cleared by a read (R12); PMP_LAG_MAX is set to the current LAG instead. -/
def Chip.readClear (c : Chip) (k : Nat) (x : FieldDef) : Chip :=
  if x.acc ≠ .rc then c
  else if x.fld = .PMP_LAG_MAX_MAX then c.set x.fld k (c.get .PMP_STATUS_LAG k)
  else c.set x.fld (k * x.fc + x.fi) 0

/-- The value of FLT_LOG for an entry (R407). -/
def FltEntry.word (e : FltEntry) : Nat := 2 ^ 63 + e.code % 256 * 2 ^ 40 + e.part % 16 * 2 ^ 36 + e.dom % 2 * 2 ^ 32 + e.time % 2 ^ 32

/-- Whether an entry names a partition (R407). -/
def FltEntry.named (e : FltEntry) : Bool := e.code ≤ fltDeepUe || e.code = fltBridgeUe || e.code = fltLinkFail

/-- The service firmware of cores 2 and 3, which has read an entry that names a partition, sends it to that partition's bound host as EVENT FAULT (R407). Log 183 (DEDUCED). -/
def Chip.fltTell (c : Chip) (who : Init) (e : FltEntry) : Chip :=
  let n := c.get .PTN_CFG_BIND e.part
  match who with
  | .core k _ => if (k.val = 2 || k.val = 3) && e.named && n < 4 && c.portExists n then c.utEventSend n 0x0003 (toBytes 8 e.word ++ toBytes 8 e.info) else c
  | .host _ => c

/-- The oldest entry of the fault log leaves it for FLT_LOG and FLT_LOG_INFO (R407): the value of FLT_LOG, 0 where the log is empty. Log 102 (DEDUCED). -/
def Chip.fltRead (c : Chip) (who : Init) : Nat × Chip :=
  match c.flt with
  | [] => (0, c)
  | e :: es =>
    (e.word, ({ c with flt := es }.set .FLT_LOG_INFO_INFO 0 e.info).fltTell who e)

/-- Read a register: its value, and the state the read leaves. `lo` tells that the low half is read. -/
def Chip.readReg (c : Chip) (a : Arr) (who : Init) (d : RegDef) (k : Nat) (lo : Bool) : Nat × Chip :=
  match d.reg with
  | .PMP_RESULT => c.readResult .pmp k
  | .PTN_RESULT => c.readResult .ptn k
  | .LDR_RESULT => c.readResult .ldr k
  | .PRB_RESULT => c.readResult .prb k
  | .MT_RESULT => c.readResult .mt k
  | .RIM_LD_RESULT => c.readResult .rimLd k
  | .PWR_RESULT => c.readResult .pwr k
  | .LQ_PRBS_ERR => c.prbsErrRead k
  | .LQ_DFE => c.readDfe k
  | .AGP_IN => c.agpIn k
  | .FLT_LOG => if lo then c.fltRead who else (0, c)
  | .ETH_TX_TS => (c.txTsTop k, if lo then c.txTsPop k else c)
  | .MBX_MSG => (match c.mbxEndOf who (k / 16) with | some e => c.mbxRead e (k / 16) (k % 16) | none => (0, c))
  | .SCH_TAKE => let c := c.coreTake k; (c.resp.value, c)
  | .IC_CLAIM => c.icClaim k
  | _ => (c.regValue a d k, d.fields.foldl (fun c x => c.readClear k x) c)

end Sys2Proof.Machine
end

