-- ==== Sys2Proof/Machine/RegWrite.lean ====
section
/-! DEFINITION. Writing registers: the access types of R12, and the write rule of every register that has one beyond them. -/

namespace Sys2Proof.Machine

/-- What a register write leaves: a register write may reach every part of the state through a command register. -/
abbrev All := Chip × Arr × Mem

/-! The access types (R12, R14) -/

/-- Write one field from the value `v` of its register by its access type. A lockable field is written by its owner's rule only. -/
def Chip.writeField (c : Chip) (k v : Nat) (x : FieldDef) : Chip :=
  let i := k * x.fc + x.fi
  let b := bits v x.hi x.lo
  match x.acc with
  | .rw => c.set x.fld i b
  | .w1c => c.set x.fld i (c.get x.fld i - Nat.land (c.get x.fld i) b)
  | .w1s => c.set x.fld i (Nat.lor (c.get x.fld i) b)
  | _ => c

/-- Write every field of a register by its access type. -/
def Chip.writeFields (c : Chip) (d : RegDef) (k v : Nat) : Chip := d.fields.foldl (fun c x => c.writeField k v x) c

/-- Write the fields where `ok`, else set the block's configuration-rejection bit and leave the register unchanged. -/
def Chip.writeIf (c : Chip) (ok : Bool) (d : RegDef) (k v : Nat) (rej : Fld) (i : Nat) : Chip :=
  if ok then c.writeFields d k v else c.set rej i 1

/-- Whether an initiator is a host. -/
def initHost : Init → Bool
  | .host _ => true
  | .core _ _ => false

/-- The core that an initiator is. -/
def initCore : Init → Nat
  | .host _ => 8
  | .core k _ => k.val

/-! Partition block -/

/-- Whether the pump of partition `p` is in EMPTY or HALT. -/
def Chip.pumpIdle (c : Chip) (p : Nat) : Bool := c.pumpState p = psEmpty || c.pumpState p = psHalt

/-- Whether PMP_CTL may take `v` (R116). -/
def pmpCtlOk (v : Nat) : Bool :=
  1 ≤ bits v 13 9 && bits v 13 9 ≤ 16 && bits v 8 4 ≤ 13 && bits v 3 2 ≠ 3

/-- A write of PMP_HOLD_REQ: a host leaves AGENT unchanged. -/
def Chip.writeHoldReq (c : Chip) (who : Init) (p v : Nat) : Chip :=
  let c := c.set .PMP_HOLD_REQ_HOST p (bit v 0)
  if initHost who then c else c.set .PMP_HOLD_REQ_AGENT p (bit v 1)

/-- Whether a binding code is defined. Log 36 (DEDUCED). -/
def bindOk (b : Nat) : Bool := b ≤ 4 || b = 7

/-- Whether PTN_CFG of partition `p` may take `v` (R122, PTN_CFG). Log 34 (DEDUCED), 35 (DEDUCED). -/
def Chip.ptnCfgOk (c : Chip) (p v : Nat) : Bool :=
  bindOk (bits v 18 16) && bindOk (bits v 22 20) && bits v 25 24 ≠ 3 && bits v 5 0 < c.bands &&
    (!c.on .PTN_CFG_ACTIVE p ||
      (bits v 5 0 = c.get .PTN_CFG_FIRST p && bits v 14 8 = c.get .PTN_CFG_COUNT p && (4 ≤ bits v 18 16 || c.portExists (bits v 18 16))))

/-- A write of PTN_CFG (R122, R124). A first band on an unpopulated die is also an access error (R22). -/
def Chip.writePtnCfg (c : Chip) (who : Init) (p v addr : Nat) : Chip :=
  if initHost who || !c.ptnCfgOk p v then
    let c := c.set .PTN_LOSS_CFG_REJ p 1
    if c.bands ≤ bits v 5 0 then c.accError who true addr else c
  else
    ((((((c.set .PTN_CFG_FIRST p (bits v 5 0)).set .PTN_CFG_COUNT p (bits v 14 8)).set .PTN_CFG_ALT p (bits v 22 20)).set
      .PTN_CFG_LOSS p (bits v 25 24)).set .PTN_CFG_FALLBACK p (bit v 26))).bindTo p (bits v 18 16)

/-- Whether DM_MAP entry `i` may map stack granule (`k`, `g`) (R129, R157, R160). -/
def Chip.dmMapFree (c : Chip) (i k g : Nat) : Bool :=
  g < (if c.mirrored k then stackGranules / 2 else stackGranules) &&
    !(c.instances .DM_MAP_VALID).any fun j => j ≠ i && c.get .DM_MAP_STACK j = k && c.get .DM_MAP_GRANULE j = g

/-- A write of DM_MAP entry `i` (partition * 192 + n). A stack on an unpopulated die is also an access error (R22). Log 33 (DEDUCED). -/
def Chip.writeDmMap (c : Chip) (who : Init) (d : RegDef) (i v addr : Nat) : Chip :=
  let p := i / 192
  if c.dies ≤ bits v 10 8 / 2 then (c.dmErr .DM_ERR_CFG_REJ p).accError who true addr
  else if initHost who || !c.pumpIdle p || (bitB v 31 && !c.dmMapFree i (bits v 10 8) (bits v 4 0)) then c.dmErr .DM_ERR_CFG_REJ p
  else c.writeFields d i v

/-- A write of LDR_PARAM or LDR_SRC (R196). -/
def Chip.writeLdr (c : Chip) (who : Init) (d : RegDef) (p v : Nat) : Chip :=
  c.writeIf (!initHost who && !c.loading p) d p v .LDR_STATUS_CFG_REJ p

/-- Whether ELB_CTL may take `v`. -/
def elbCtlOk (v : Nat) : Bool := 2 ≤ bits v 12 8 && bits v 12 8 ≤ 18 && 1 ≤ bits v 4 0 && bits v 4 0 ≤ 16

/-- A write to the partition block. `k` is the instance that the register holds. -/
def writePart (who : Init) (d : RegDef) (k v addr : Nat) (c : Chip) (a : Arr) (m : Mem) : All :=
  match d.reg with
  | .PMP_CMD => pmpWrite k (bits v 31 28) (bits v 15 0) (!initHost who) c a m
  | .PTN_CMD => ptnWrite k (bits v 31 28) (!initHost who) c a m
  | .LDR_CMD => ldrWrite k (bits v 31 28) (!initHost who) c a m
  | .PMP_CTL => (c.writeIf (c.pumpIdle k && pmpCtlOk v) d k v .PMP_STATUS_CFG_REJ k, a, m)
  | .PMP_TDIV => (c.writeIf (c.pumpIdle k && bits v 31 16 ≠ 0) d k v .PMP_STATUS_CFG_REJ k, a, m)
  | .PMP_HOLD_REQ => (c.writeHoldReq who k v, a, m)
  | .PTN_CFG => (c.writePtnCfg who k v addr, a, m)
  | .DM_MAP => (c.writeDmMap who d k v addr, a, m)
  | .LDR_PARAM => (c.writeLdr who d k v, a, m)
  | .LDR_SRC => (c.writeLdr who d k v, a, m)
  | .ELB_CTL => (c.writeIf (c.pumpIdle k && elbCtlOk v) d k v .ELB_STATUS_CFG_REJ k, a, m)
  | _ => (c.writeFields d k v, a, m)

/-! Probe block -/

/-- A write of PRB_CTL: a host leaves XOUT_EN unchanged (R213). -/
def Chip.writePrbCtl (c : Chip) (who : Init) (p v : Nat) : Chip :=
  let c := (c.set .PRB_CTL_DONE_STOP p (bit v 1)).set .PRB_CTL_RR_EN p (bit v 0)
  if initHost who then c else c.set .PRB_CTL_XOUT_EN p (bits v 11 8)

/-- Write a register of the probe block where capture is IDLE and the value has no reserved encoding. -/
def Chip.writePrbIdle (c : Chip) (ok : Bool) (d : RegDef) (p k v : Nat) : Chip :=
  c.writeIf (c.get .PRB_STATUS_CAP p = capIdle && ok) d k v .PRB_STATUS_CFG_REJ p

/-- The value that word `k` of SEL or VAL takes: bits 127 to 88 are written as 0 (R209). Log 51 (DEDUCED). -/
def cndWord (k v : Nat) : Nat := if k % 4 = 3 then 0 else if k % 4 = 2 then v % 2 ^ 24 else v

/-- A write to the probe block of partition `p`. -/
def Chip.writePrb (c : Chip) (who : Init) (d : RegDef) (p k v : Nat) : Chip :=
  match d.reg with
  | .PRB_CMD => c.prbCmd p (bits v 31 28)
  | .PRB_CTL => if c.get .PRB_STATUS_CAP p = capIdle then c.writePrbCtl who p v else c.set .PRB_STATUS_CFG_REJ p 1
  | .PRB_RATE => c.writePrbIdle (bits v 3 0 ≤ 8) d p k v
  | .PRB_CND_CTL => c.writePrbIdle (bits v 15 0 ≠ 0) d p k v
  | .PRB_BUF_BASE => c.writePrbIdle true d p k v
  | .PRB_BUF_LEN => c.writePrbIdle true d p k v
  | .PRB_DEPTH => c.writePrbIdle true d p k v
  | .PRB_SEQ_CTL => c.writePrbIdle true d p k v
  | .PRB_SEL => c.writePrbIdle true d p k (cndWord k v)
  | .PRB_VAL => c.writePrbIdle true d p k (cndWord k v)
  | .PRB_TEMPLATE => c.writeIf (!c.on .PRB_MASK_CTL_EN p) d k v .PRB_STATUS_CFG_REJ p
  | .PRB_MASK => c.writeIf (!c.on .PRB_MASK_CTL_EN p) d k v .PRB_STATUS_CFG_REJ p
  | _ => c.writeFields d k v

/-! Rim control block and I/O banks -/

/-- A write of RIM_SECT_OWN[k] (R219): OWNER changes only while the sector is EMPTY. Log 138 (DEDUCED). -/
def Chip.writeSectOwn (c : Chip) (d : RegDef) (k v : Nat) : Chip :=
  let o := bits v 4 0
  c.writeIf (o = c.get .RIM_SECT_OWN_OWNER k || (c.sector k = sectEmpty && (o ≤ ownerModule || o = ownerNone))) d k v .RIM_SECT_OWN_CFG_REJ k

/-- A write of RIM_CLK_SEL[t] (R226, R227). -/
def Chip.writeClkSel (c : Chip) (d : RegDef) (t v : Nat) : Chip :=
  if clockCodeOk t (bits v 7 0) && clockCodeOk t (bits v 23 16) then (c.writeFields d t v).clockSelected t
  else c.set .RIM_CLK_STATUS_CFG_REJ 0 1

/-- A write of RIM_RST_CTL[r] (R229): one with a reserved encoding is not performed. Log 137 (DEDUCED). -/
def writeRstCtl (d : RegDef) (r v : Nat) (c : Chip) (a : Arr) (m : Mem) : Chip :=
  if bits v 15 12 ≤ 11 && bits v 11 8 ≤ 11 then resetSelected r (c.writeFields d r v) a m else c

/-- A write of RIM_SCRUB_CTL (R13). -/
def Chip.writeScrubCtl (c : Chip) (v : Nat) : Chip :=
  let c := if c.on .RIM_SCRUB_CTL_LOCK 0 then c else (c.set .RIM_SCRUB_CTL_UE_FAULT 0 (bit v 1)).set .RIM_SCRUB_CTL_EN 0 (bit v 0)
  if bitB v 31 then c.set .RIM_SCRUB_CTL_LOCK 0 1 else c

/-- A write to the rim control block. -/
def writeRim (d : RegDef) (k v : Nat) (c : Chip) (a : Arr) (m : Mem) : Chip × Mem :=
  match d.reg with
  | .RIM_LD_CMD => rimLdCmd (bits v 31 28) (bits v 3 0) c m
  | .RIM_SECT_OWN => (c.writeSectOwn d k v, m)
  | .RIM_CLK_SEL => (c.writeClkSel d k v, m)
  | .RIM_RST_CTL => (writeRstCtl d k v c a m, m)
  | .RIM_BUS_EVT => (c.busEvtClear (bits v 11 0), m)
  | .RIM_SCRUB_CTL => (c.writeScrubCtl v, m)
  | _ => (c.writeFields d k v, m)

/-- A write to the block of I/O bank `b` (R268, R272, R276). Any write but one of IOB_LOCK ends a lock sequence. -/
def Chip.writeIob (c : Chip) (d : RegDef) (b k v : Nat) : Chip :=
  match d.reg with
  | .IOB_LOCK => c.iobLock b (bits v 7 0)
  | .IOB_BANK_CFG => (c.set .H_LOCK_SEQ b 0).writeBankCfg b v
  | .IOB_PIN_CFG => (c.set .H_LOCK_SEQ b 0).writePinCfg b (k % 32) v
  | _ => (c.set .H_LOCK_SEQ b 0).writeFields d k v

/-! Lanes, Ethernet, DMA, MSI-X -/

/-- A write to the block of lane quad `q` (R303). The registers of a lane that is lent to an Ethernet port are not written (R290). -/
def Chip.writeLq (c : Chip) (d : RegDef) (k v : Nat) : Chip :=
  match d.reg with
  | .LQ_QUAD_CTL => (c.writeQuadCtl k v).treesSwitch
  | .LQ_LANE_CTL => c.writeLaneCtl k v
  | .LQ_LANE_TXEQ => c.writeTxeq k v
  | .LQ_PRBS_CTL => c.writePrbsCtl k v
  | .LQ_DFE => c.writeDfe k v
  | .LQ_QUAD_STATUS => c.writeFields d k v
  | _ => if c.ethLane k then c else c.writeFields d k v

/-- A write to the service Ethernet block. -/
def Chip.writeEth (c : Chip) (d : RegDef) (k v : Nat) : Chip :=
  match d.reg with
  | .ETH_CTL => c.writeEthCtl k v
  | .ETH_PTP_NEXT_NS => c.epochArm k (bits v 29 0)
  | .ETH_RX_RING => c.writeEthRing .ETH_RX_RING_LOG2 .ETH_RX_RING_OFFSET k v
  | .ETH_TX_RING => c.writeEthRing .ETH_TX_RING_LOG2 .ETH_TX_RING_OFFSET k v
  | _ => c.writeFields d k v

/-- A write to the DMA block of a port; `k` is port * 8 + channel. -/
def Chip.writeDma (c : Chip) (d : RegDef) (k v : Nat) : Chip :=
  match d.reg with
  | .DMA_CH_CTL => c.writeDmaCtl k v
  | .DMA_CH_DESC_BASE => c.writeDmaBase .DMA_CH_DESC_BASE_ADDR k (bits v 63 6)
  | .DMA_CH_CPL_BASE => c.writeDmaBase .DMA_CH_CPL_BASE_ADDR k (bits v 63 6)
  | .DMA_CH_RING => c.writeDmaRing k v
  | .DMA_CH_PI => c.writeDmaPi k v
  | _ => c.writeFields d k v

/-- A write to the MSI-X table of a port; `k` is port * 48 + vector. An unmasked vector that is pending signals. Log 141 (PRESUMED). -/
def Chip.writeMsix (c : Chip) (d : RegDef) (k v : Nat) : Chip :=
  match d.reg with
  | .MSIX_CTRL => (c.writeFields d k v).msiUnmask (k / 48) (k % 48)
  | _ => c.writeFields d k v

/-! Global blocks, design-memory control, network control -/

/-- A write of GLB_BAR2_SEL by port `n` (R306). -/
def Chip.writeBar2Sel (c : Chip) (n v : Nat) : Chip :=
  if c.get .PTN_CFG_BIND (bits v 3 0) = n then
    let c := if bitB v 30 then c.set .GLB_BAR2_SEL_CFG_REJ n 0 else c
    ((c.set .GLB_BAR2_SEL_WIN n (bits v 9 8)).set .GLB_BAR2_SEL_PART n (bits v 3 0)).set .H_BAR2_OUT n 0
  else c.set .GLB_BAR2_SEL_CFG_REJ n 1

/-- A write to a global block. -/
def Chip.writeGlb (c : Chip) (d : RegDef) (k v : Nat) : Chip :=
  match d.reg with
  | .GLB_BAR2_SEL => c.writeBar2Sel k v
  | _ => c.writeFields d k v

/-- A write to the design-memory control block (R157, R162). -/
def writeDmc (d : RegDef) (k v : Nat) (c : Chip) (a : Arr) (m : Mem) : All :=
  match d.reg with
  | .MT_CMD => mtWrite (bits v 31 28) (bits v 27 26) (bits v 5 0) c a m
  | .DMC_STACK_CFG => (if c.stackUsed k = 0 then c.writeFields d k v else c, a, m)
  | _ => (c.writeFields d k v, a, m)

/-- A write to the network control block (R314, R317). Log 145 (DESIGN CHOICE). -/
def Chip.writeNoc (c : Chip) (d : RegDef) (k v : Nat) : Chip :=
  match d.reg with
  | .NOC_RSV => c.writeIf (c.reserved k + bits v 21 16 + bits v 13 8 + bits v 5 0 ≤ 56) d k v .NOC_STATUS_CFG_REJ 0
  | .NOC_TIMEOUT => c.writeIf (bits v 15 0 ≠ 0) d k v .NOC_STATUS_CFG_REJ 0
  | _ => c.writeFields d k v

/-! Scheduler, interrupt controller, trace, GPIO port, core control -/

/-- A write of SCH_CTL (R332, R349): from secure state. -/
def Chip.writeSchCtl (c : Chip) (who : Init) (d : RegDef) (v : Nat) : Chip :=
  (c.writeIf (initSecure who && bits v 21 16 ≠ 0) d 0 v .SCH_STATUS_CFG_REJ 0).schRefill.icSettle

/-- Whether a sump of `len` units of 4 KiB from unit `base` lies in banks 2 and 3 or in bank 7. -/
def sumpOk (base len : Nat) : Bool := (0x400 ≤ base && base + len ≤ 0x800) || (0xE00 ≤ base && base + len ≤ 0x1000)

/-- Whether a core may configure thread `t` (R328). Log 96 (DEDUCED). -/
def mayConfigure (who : Init) (t : Nat) : Bool :=
  match who with
  | .host _ => false
  | .core k sec => sec || (if k.val < 4 then thrGroup t = 1 else thrGroup t = 2)

/-- A write of SCH_THR_CFG[t] (R328). -/
def Chip.writeThrCfg (c : Chip) (who : Init) (d : RegDef) (t v : Nat) : Chip :=
  if mayConfigure who t then
    (((c.writeFields d t v).set .SCH_THR_CFG_AFFINITY t (Nat.land (bits v 23 16) (thrCores t))).thrConfigured t).schRefill.icSettle
  else c.set .SCH_STATUS_CFG_REJ 0 1

/-- A write to the scheduler block by core `k`. -/
def Chip.writeSch (c : Chip) (who : Init) (d : RegDef) (k v : Nat) : Chip :=
  match d.reg with
  | .SCH_CTL => c.writeSchCtl who d v
  | .SCH_SUMP => c.writeIf (initSecure who && c.sump = [] && sumpOk (bits v 19 8) (bits v 31 20)) d 0 v .SCH_STATUS_CFG_REJ 0
  | .SCH_POST => c.corePost k (bits v 9 0) (bits v 12 10)
  | .SCH_DONE => c.coreDone k (bits v 9 0)
  | .SCH_THR_CFG => c.writeThrCfg who d k v
  | _ => c.writeFields d k v

/-- A write of IC_SRC_CFG[s] (R338, R339). Log 97 (DEDUCED). -/
def Chip.writeSrcCfg (c : Chip) (who : Init) (d : RegDef) (s v : Nat) : Chip :=
  if s = 0 ∨ (c.icSecure s ∧ !initSecure who) then c
  else
    let c := c.writeFields d s v
    let c := if c.icSecure s && !bitB v 30 then c.set .IC_SRC_CFG_TARGETS s (Nat.land (bits v 15 0) 0x5555) else c
    c.icSettle

/-- Clear the bits of `mask` in word `w` of a set of source bits. -/
def Chip.icClear (c : Chip) (f : Fld) (w mask : Nat) : Chip :=
  ((List.range 32).filter fun i => bitB mask i).foldl (fun c i => c.set f (32 * w + i) 0) c

/-- Set the enable bits of `mask` in word `w`; source 0 does not exist. -/
def Chip.icEnable (c : Chip) (w mask : Nat) : Chip :=
  (((List.range 32).filter fun i => bitB mask i && 32 * w + i ≠ 0).foldl (fun c i => c.set .IC_EN_BIT (32 * w + i) 1) c).icSettle

/-- A write to the interrupt controller block. -/
def Chip.writeIc (c : Chip) (who : Init) (d : RegDef) (k v : Nat) : Chip :=
  match d.reg with
  | .IC_SRC_CFG => c.writeSrcCfg who d k v
  | .IC_PEND_SET => c.icPendSet k (bits v 31 0)
  | .IC_PEND_CLR => c.icClear .IC_PEND_BIT k v
  | .IC_EN_SET => c.icEnable k v
  | .IC_EN_CLR => c.icClear .IC_EN_BIT k v
  | .IC_COMPLETE => c.icComplete k (bits v 9 0)
  | _ => c.writeFields d k v

/-- Whether a trace sink and base are allowed together (R345). Log 100 (DESIGN CHOICE). -/
def trcSinkOk (sink base : Nat) : Bool :=
  sink = 1 || (0x100400000 ≤ base && base < 0x100800000) || (0x100E00000 ≤ base && base < 0x101000000)

/-- A write to the trace block by core `k` (R345). -/
def writeTrc (d : RegDef) (k v : Nat) (c : Chip) (m : Mem) : Chip × Mem :=
  match d.reg with
  | .TRC_SW => (c.coreTrace k v, m)
  | .TRC_CTL => (c.writeIf (trcSinkOk (bit v 28) (c.get .TRC_BASE_ADDR 0 * 16)) d 0 v .TRC_STATUS_CFG_REJ 0, m)
  | .TRC_BASE => (c.writeIf (trcSinkOk (c.get .TRC_CTL_SINK 0) (bits v 63 4 * 16)) d 0 v .TRC_STATUS_CFG_REJ 0, m)
  | .TRC_LEN => (c.writeIf (8 ≤ bits v 4 0 && bits v 4 0 ≤ 24) d 0 v .TRC_STATUS_CFG_REJ 0, m)
  | _ => (c.writeFields d k v, m)

/-- A write to the agents' GPIO block by core `core`; `k` is the bank. -/
def Chip.writeAgp (c : Chip) (core : Nat) (d : RegDef) (k v : Nat) : Chip :=
  match d.reg with
  | .AGP_OUT_LO => c.agpWrite core k .outLo v
  | .AGP_OUT_HI => c.agpWrite core k .outHi v
  | .AGP_OE_LO => c.agpWrite core k .oeLo v
  | .AGP_OE_HI => c.agpWrite core k .oeHi v
  | _ => c.writeFields d k v

/-- A write of SVC_CTL of core `k` (R321, R349): RUN from secure state only. Log 95 (DEDUCED). -/
def Chip.writeSvcCtl (c : Chip) (who : Init) (k v : Nat) : Chip :=
  let c := if initSecure who then c.setRuns k (bit v 0) else c
  let c := if bitB v 2 then c.icInvalidate k else c
  if bitB v 1 then c.coreReset k else c

/-- A write to the core control block of core `k`. -/
def Chip.writeCc (c : Chip) (who : Init) (d : RegDef) (k v : Nat) : Chip :=
  match d.reg with
  | .SVC_CTL => c.writeSvcCtl who k v
  | .SVC_ENTRY => if initSecure who then c.setEntry k (bits v 47 0) else c
  | _ => c.writeFields d k v

/-! Timekeeper -/

/-- A write of TK_PPS_OUT (R370): with WIDTH = 0 it is not performed, and with EN = 0 the pin falls. -/
def Chip.writePpsOut (c : Chip) (d : RegDef) (v : Nat) : Chip :=
  if bits v 47 40 = 0 then c
  else
    let c := c.writeFields d 0 v
    if bitB v 63 then c else (c.set .H_PPS_OUT 0 0).set .H_PPS_FALL 0 0

/-- A write to the timekeeper (R364, R366, R371). -/
def Chip.writeTk (c : Chip) (d : RegDef) (k v : Nat) : Chip :=
  match d.reg with
  | .TK_INC => c.writeIf (tkIncOk (bits v 39 0)) d k v .TK_DSTATUS_CFG_REJ k
  | .TK_STEP => c.tkStep k (bits v 31 0) (bitB v 63)
  | .TK_SEL => let c := c.writeField 0 v ⟨.TK_SEL_SW_DONE, 31, 31, .w1c, 0, 1⟩
               let c := c.writeField 0 v ⟨.TK_SEL_SW_REF, 30, 30, .w1c, 0, 1⟩
               let c := c.writeField 0 v ⟨.TK_SEL_SW_NOPPS, 29, 29, .w1c, 0, 1⟩
               if bitB v 8 then c.tkRequest else c
  | .TK_PPS_OUT => c.writePpsOut d v
  | _ => c.writeFields d k v

/-! Power, life cycle, debug, faults -/

/-- A write of PWR_CMD: whether a regulator acknowledges a SLEEP is a free value of the write. -/
def writePwrCmd (code : Nat) (c : Chip) (a : Arr) (m : Mem) : All :=
  let (ack, c) := c.fresh 1
  pwrCmd code (ack = 1) c a m

/-- The thresholds have changed: each die stands anew against them (R377). Log 131 (DEDUCED). -/
def Chip.thresholds (c : Chip) : Chip := (List.range 5).foldl (fun c d => c.set .H_THERM d (c.thermFlags (c.get .H_TEMP d))) c

/-- A write of FLT_FN_EN (R13, R408). -/
def Chip.writeFnEn (c : Chip) (who : Init) (v : Nat) : Chip :=
  if !initSecure who then c.set .FLT_CTL_CFG_REJ 0 1
  else if c.on .FLT_CTL_LOCK 0 then c
  else c.set .FLT_FN_EN_EN 0 (bits v 22 0)

/-- A write of FLT_CTL (R408): SW_ASSERT changes from secure state only. -/
def Chip.writeFltCtl (c : Chip) (who : Init) (d : RegDef) (v : Nat) : Chip :=
  c.writeIf (initSecure who || bit v 0 = c.get .FLT_CTL_SW_ASSERT 0) d 0 v .FLT_CTL_CFG_REJ 0

/-- A write to the service complex's global block from +0x0400 (R399, R408). -/
def writeSvc (who : Init) (d : RegDef) (k v : Nat) (c : Chip) (a : Arr) (m : Mem) : All :=
  match d.reg with
  | .PWR_CMD => writePwrCmd (bits v 31 28) c a m
  | .PWR_CTL => ((c.writeIf (bits v 31 16 ≠ 0) d 0 v .PWR_STATE_CFG_REJ 0).thresholds, a, m)
  | .PWR_WAKE_CTL => (c.writeIf (initSecure who) d 0 v .PWR_STATE_CFG_REJ 0, a, m)
  | .PWR_WATCH_CTL => (c.writeIf (bits v 23 16 ≠ 0 && bits v 15 0 ≠ 0) d 0 v .PWR_STATE_CFG_REJ 0, a, m)
  | .PWR_WATCH_PIN => (c.writeIf (bits v 8 5 ≤ 11) d k v .PWR_STATE_CFG_REJ 0, a, m)
  | .PWR_AVS => (c.writeIf (bits v 27 16 ≠ 0) d 0 v .PWR_STATE_CFG_REJ 0, a, m)
  | .LC_CMD => if initSecure who then let x := lcCmd v c m; (x.1, a, x.2) else (c.set .PWR_STATE_CFG_REJ 0 1, a, m)
  | .FLT_FN_EN => (c.writeFnEn who v, a, m)
  | .FLT_CTL => (c.writeFltCtl who d v, a, m)
  | .GLB_PORT_ACC_ERR => (c, a, m)
  | .GLB_PORT_ACC_LOC => (c, a, m)
  | _ => (c.writeFields d k v, a, m)

/-! Mailboxes -/

/-- A write to mailbox channel `n` from one of its ends (R351 to R353); `k` is n * 16 + word for MBX_MSG. A message word or a doorbell from the
receiver's end, or MBX_STATUS from the sender's, is an access that its initiator may not make. Log 103 (DEDUCED). -/
def Chip.writeMbx (c : Chip) (who : Init) (e : MbxEnd) (d : RegDef) (n k v addr : Nat) : Chip :=
  match d.reg, e with
  | .MBX_MSG, .sender => c.set .H_MBX_STAGE k v
  | .MBX_DOORBELL, .sender => c.mbxDoorbell n v
  | .MBX_STATUS, .receiver => c.writeFields d n v
  | _, _ => c.denied who true addr

/-! Every block -/

/-- FAULT_N follows a write that may have changed its contributions (R406). -/
def faultAfter (x : All) : All := (x.1.faultN, x.2.1, x.2.2)

/-- Perform a permitted write of a whole register: `i` is the block's instance, `k` the instance that the register holds, `addr` the address. -/
def writeReg (who : Init) (b : Blk) (d : RegDef) (i k v addr : Nat) (c : Chip) (a : Arr) (m : Mem) : All :=
  match b with
  | .part => faultAfter (writePart who d k v addr c a m)
  | .prb => (c.writePrb who d i k v, a, m)
  | .rim => let x := writeRim d k v c a m; (x.1.faultN, a, x.2)
  | .iob => (c.writeIob d i k v, a, m)
  | .lq => (c.writeLq d k v, a, m)
  | .eth => (c.writeEth d k v, a, m)
  | .dma => (c.writeDma d k v, a, m)
  | .msix => (c.writeMsix d k v, a, m)
  | .glb => (c.writeGlb d k v, a, m)
  | .dmc => writeDmc d k v c a m
  | .noc => (c.writeNoc d k v, a, m)
  | .sch => (c.writeSch who d k v, a, m)
  | .ic => (c.writeIc who d k v, a, m)
  | .trc => let x := writeTrc d k v c m; (x.1, a, x.2)
  | .agp => (c.writeAgp (initCore who) d k v, a, m)
  | .cc => (c.writeCc who d k v, a, m)
  | .tk => (c.writeTk d k v, a, m)
  | .svc => faultAfter (writeSvc who d k v c a m)
  | .mbx => match c.mbxEndOf who i with
    | some e => (c.writeMbx who e d i k v addr, a, m)
    | none => (c, a, m)

end Sys2Proof.Machine
end

