-- ==== Sys2Proof/Machine/Regs.lean ====
section
/-! DEFINITION. The register path: the maps of R304, R305, R308 and R322, who reaches what (R123, R323), access errors (R15), two-part access (R16), and
a register access as a whole. -/

namespace Sys2Proof.Machine

/-! Maps -/

/-- Where a register access lands: a block, its instance and an offset in it. -/
structure RegPlace where
  blk : Blk
  inst : Nat
  off : Nat
deriving DecidableEq, Repr

/-- The blocks that lie at one place in BAR0 and in the service map (R304, R308). -/
def sharedBlock (x : Nat) : Option RegPlace :=
  if 0x100000 ≤ x ∧ x < 0x104000 then some ⟨.mbx, (x - 0x100000) / 0x100, x % 0x100⟩
  else if 0x400000 ≤ x ∧ x < 0x500000 then some ⟨.part, (x - 0x400000) / 0x10000, x % 0x10000⟩
  else if 0x600000 ≤ x ∧ x < 0x700000 then some ⟨.prb, (x - 0x600000) / 0x10000, x % 0x10000⟩
  else if 0x800000 ≤ x ∧ x < 0x840000 then some ⟨.lq, (x - 0x800000) / 0x4000, x % 0x4000⟩
  else if 0xA00000 ≤ x ∧ x < 0xA01000 then some ⟨.rim, 0, x % 0x1000⟩
  else if 0xA10000 ≤ x ∧ x < 0xA1C000 then some ⟨.iob, (x - 0xA10000) / 0x1000, x % 0x1000⟩
  else if 0xC00000 ≤ x ∧ x < 0xC01000 then some ⟨.tk, 0, x % 0x1000⟩
  else none

/-- BAR0 of port `n` (R304). -/
def hostBlock (n x : Nat) : Option RegPlace :=
  if x < 0x1000 then some ⟨.glb, n, x⟩
  else if 0xD00000 ≤ x ∧ x < 0xD02000 then some ⟨.dma, n, x - 0xD00000⟩
  else if 0xD80000 ≤ x ∧ x < 0xD82000 then some ⟨.msix, n, x - 0xD80000⟩
  else sharedBlock x

/-- The service complex region (R322). -/
def serviceRegion (x : Nat) : Option RegPlace :=
  if 0x102000000 ≤ x ∧ x < 0x102010000 then some ⟨.sch, 0, x % 0x10000⟩
  else if 0x102010000 ≤ x ∧ x < 0x102020000 then some ⟨.ic, 0, x % 0x10000⟩
  else if 0x102020000 ≤ x ∧ x < 0x102021000 then some ⟨.trc, 0, x % 0x1000⟩
  else if 0x102030000 ≤ x ∧ x < 0x102031000 then some ⟨.agp, 0, x % 0x1000⟩
  else if 0x102040000 ≤ x ∧ x < 0x102041000 then some ⟨.eth, 0, x % 0x1000⟩
  else if 0x102050000 ≤ x ∧ x < 0x102058000 then some ⟨.cc, (x - 0x102050000) / 0x1000, x % 0x1000⟩
  else none

/-- The service map (R308); the complex's own global block holds no GLB_BAR2_SEL. -/
def coreBlock (x : Nat) : Option RegPlace :=
  if x < 0x1000 then
    (if 0x400 ≤ x ∨ (0x100 ≤ x ∧ x < 0x180) then some ⟨.svc, 0, x⟩ else if x = 0x18 then none else some ⟨.glb, 4, x⟩)
  else if 0xD00000 ≤ x ∧ x < 0xD40000 then some ⟨.dma, (x - 0xD00000) / 0x10000, x % 0x10000⟩
  else if 0xE00000 ≤ x ∧ x < 0xE01000 then some ⟨.dmc, 0, x % 0x1000⟩
  else if 0xF00000 ≤ x ∧ x < 0xF01000 then some ⟨.noc, 0, x % 0x1000⟩
  else if x < 0xD00000 then sharedBlock x
  else serviceRegion x

/-- Where an initiator's address leads. -/
def regPlace (who : Init) (x : Nat) : Option RegPlace :=
  match who with
  | .host n => hostBlock n.val x
  | .core _ _ => coreBlock x

/-- A register found at an offset: the register, the instance its fields have, and whether the offset is that of its high half. -/
structure RegHit where
  reg : RegDef
  k : Nat
  high : Bool
deriving DecidableEq, Repr

/-- Register `d` at offset `off` of instance `i` of its block, as core `core` sees it (R349: banked registers). -/
def RegDef.hit (d : RegDef) (core i off : Nat) : Option RegHit :=
  let r := off - d.off
  let g := if d.stride = 0 then 0 else r / d.stride
  let h := if d.stride2 = 0 then 0 else (r - g * d.stride) / d.stride2
  let z := r - g * d.stride - h * d.stride2
  if d.off ≤ off ∧ g < d.count ∧ h < d.count2 ∧ (z = 0 ∨ (d.wide ∧ z = 4)) then
    some ⟨d, ((if d.banked then core else i) * d.count + g) * d.count2 + h, z = 4⟩
  else none

/-- The register at a place. -/
def RegPlace.find (x : RegPlace) (core : Nat) : Option RegHit := x.blk.regs.findSome? fun d => d.hit core x.inst x.off

/-! Rights (R123, R276, R323, R336, R351) -/

/-- Whether a host may access a block, and, for a write, write it. -/
def Chip.hostMay (c : Chip) (n : Fin 4) (x : RegPlace) (write : Bool) : Bool :=
  match x.blk with
  | .part => c.reaches (.host n) x.inst
  | .prb => c.reaches (.host n) x.inst
  | .rim => !write
  | .iob => !write
  | .lq => !write
  | .tk => !write
  | .mbx => (c.mbxEndOf (.host n) x.inst).isSome
  | _ => true

/-- Whether a core may access a block. -/
def Chip.coreMay (c : Chip) (k : Fin 8) (sec : Bool) (x : RegPlace) : Bool :=
  match x.blk with
  | .part => c.reaches (.core k sec) x.inst
  | .prb => c.reaches (.core k sec) x.inst
  | .sch => true
  | .ic => true
  | .agp => !sec && 4 ≤ k.val
  | .cc => sec || (if k.val < 4 then 2 ≤ x.inst else x.inst = k.val)
  | .mbx => (c.mbxEndOf (.core k sec) x.inst).isSome
  | _ => sec || k.val < 4

/-- Whether an initiator may access a place. -/
def Chip.regMay (c : Chip) (who : Init) (x : RegPlace) (write : Bool) : Bool :=
  match who with
  | .host n => c.hostMay n x write && !(write && c.hostGone who)
  | .core k sec => c.coreMay k sec x

/-- Whether a core may reach a register of a target of the interrupt controller (R336). -/
def targetMay (who : Init) (r : Reg) (t : Nat) : Bool :=
  match who with
  | .host _ => true
  | .core k sec => if r = .IC_CLAIM ∨ r = .IC_COMPLETE then ownsTarget k.val sec t else true

/-! Two-part access (R16) -/

/-- The key of an initiator's latch and held half for the register at `base`. -/
def latchKey (who : Init) (base : Nat) : Nat := base * 16 + initNumber who

def Chip.setLatch (c : Chip) (k v : Nat) : Chip := { c with latch := NatMap.put 0 c.latch k (v + 1) }
def Chip.dropLatch (c : Chip) (k : Nat) : Chip := { c with latch := c.latch.erase k }
def Chip.hold (c : Chip) (k v : Nat) : Chip := { c with held := NatMap.put 0 c.held k (v + 1) }
def Chip.dropHold (c : Chip) (k : Nat) : Chip := { c with held := c.held.erase k }

/-- What is left unwritten of a register whose low half keeps its value: the stored fields with their values, no action bit. -/
def Chip.keepLow (c : Chip) (a : Arr) (d : RegDef) (k : Nat) : Nat :=
  (d.fields.foldl (fun v x => v + (if x.acc = .rw then c.view a x.fld (k * x.fc + x.fi) * 2 ^ x.lo else 0)) 0) % 2 ^ 32

/-! Accesses -/

/-- The low or the high 32 bits of a value. -/
def half (v : Nat) (high : Bool) : Nat := if high then bits v 63 32 else v % 2 ^ 32

/-- A 32-bit read of a register that is there. -/
def read32 (who : Init) (h : RegHit) (base : Nat) (c : Chip) (a : Arr) : Nat × Chip :=
  let key := latchKey who base
  if h.high then
    match NatMap.find 0 c.latch key with
    | 0 => let (v, c) := c.readReg a who h.reg h.k false; (half v true, c)
    | v + 1 => (v, c.dropLatch key)
  else
    let (v, c) := c.readReg a who h.reg h.k true
    (half v false, if h.reg.wide then c.setLatch key (half v true) else c)

/-- A 64-bit read of a 64-bit register. -/
def read64 (who : Init) (h : RegHit) (base : Nat) (c : Chip) (a : Arr) : Nat × Chip :=
  let key := latchKey who base
  ((c.dropLatch key).dropHold key).readReg a who h.reg h.k true

/-- A 32-bit write of a register that is there. A high half that follows a held low half completes it; one that does not writes the high half alone. -/
def write32 (who : Init) (x : RegPlace) (h : RegHit) (base v : Nat) (c : Chip) (a : Arr) (m : Mem) : All :=
  let key := latchKey who base
  if !h.reg.wide then writeReg who x.blk h.reg x.inst h.k (v % 2 ^ 32) base c a m
  else if h.high then
    let low := match NatMap.find 0 c.held key with | 0 => c.keepLow a h.reg h.k | w + 1 => w
    writeReg who x.blk h.reg x.inst h.k (low + v % 2 ^ 32 * 2 ^ 32) base (c.dropHold key) a m
  else (c.hold key (v % 2 ^ 32), a, m)

/-- A 64-bit write of a 64-bit register. Log 101 (DEDUCED). -/
def write64 (who : Init) (x : RegPlace) (h : RegHit) (base v : Nat) (c : Chip) (a : Arr) (m : Mem) : All :=
  let key := latchKey who base
  writeReg who x.blk h.reg x.inst h.k (v % 2 ^ 64) base ((c.dropLatch key).dropHold key) a m

/-- The register that an aligned access of `n` bytes reaches (R15): 32 bits, or 64 bits of a 64-bit register. Log 89 (DEDUCED). -/
def regAccess (who : Init) (x n : Nat) : Option (RegPlace × RegHit) :=
  match regPlace who x with
  | none => none
  | some p =>
    match p.find (initCore who) with
    | none => none
    | some h => if (n = 4 ∨ (n = 8 ∧ h.reg.wide ∧ !h.high)) ∧ x % n = 0 then some (p, h) else none

/-- The address of a register from that of its high or low half. -/
def RegHit.base (h : RegHit) (x : Nat) : Nat := if h.high then x - 4 else x

/-- A register read of `n` bytes at `x`. -/
def regRead (who : Init) (x n : Nat) (c : Chip) (a : Arr) : Chip :=
  match regPlace who x with
  | none => c.accError who false x
  | some p =>
    if !c.regMay who p false then c.denied who false x
    else
      match regAccess who x n with
      | none => c.accError who false x
      | some (_, h) =>
        if !targetMay who h.reg.reg h.k then c.denied who false x
        else
          let r := if n = 8 then read64 who h (h.base x) c a else read32 who h (h.base x) c a
          r.2.answer .ok r.1

/-- A register write of `n` bytes at `x`. That of SCH_POST ends with its post (R332). -/
def regWrite (who : Init) (x n v : Nat) (c : Chip) (a : Arr) (m : Mem) : All :=
  match regPlace who x with
  | none => (c.accError who true x, a, m)
  | some p =>
    if !c.regMay who p true then (c.denied who true x, a, m)
    else
      match regAccess who x n with
      | none => (c.accError who true x, a, m)
      | some (p, h) =>
        if !targetMay who h.reg.reg h.k then (c.denied who true x, a, m)
        else
          let c := if h.reg.reg = .SCH_POST then c else c.answer .ok
          if n = 8 then write64 who p h (h.base x) v c a m else write32 who p h (h.base x) v c a m

/-! Registers that have commands of their own -/

/-- The offset of register `r` of a block, for instance `i` of the register's own copies. -/
def RegDef.place (d : RegDef) (g : Nat) : Nat := d.off + g * d.stride

/-- The base of block `b`, instance `i`, in the map of an initiator. -/
def blockBase (who : Init) (b : Blk) (i : Nat) : Nat :=
  match b with
  | .mbx => 0x100000 + i * 0x100
  | .part => 0x400000 + i * 0x10000
  | .prb => 0x600000 + i * 0x10000
  | .lq => 0x800000 + i * 0x4000
  | .rim => 0xA00000
  | .iob => 0xA10000 + i * 0x1000
  | .tk => 0xC00000
  | .dma => if initHost who then 0xD00000 else 0xD00000 + i * 0x10000
  | .msix => 0xD80000
  | .dmc => 0xE00000
  | .noc => 0xF00000
  | .sch => 0x102000000
  | .ic => 0x102010000
  | .trc => 0x102020000
  | .agp => 0x102030000
  | .eth => 0x102040000
  | .cc => 0x102050000 + i * 0x1000
  | .glb => 0
  | .svc => 0

/-- The address of copy `g` of register `d` of instance `i` of block `b`. -/
def regAddr (who : Init) (b : Blk) (d : RegDef) (i g : Nat) : Nat := blockBase who b i + d.place g

end Sys2Proof.Machine
end

