-- ==== Sys2Proof/Machine/Uteus.lean ====
section
/-! DEFINITION. Uteus (R356 to R362): the messages that the service firmware takes from the hosts' mailbox channels, what it does for them, and what it
posts. -/

namespace Sys2Proof.Machine

/-! Message types and statuses (R359, R360) -/

def utHello : Nat := 0x0001
def utPartCreate : Nat := 0x0010
def utPartRelease : Nat := 0x0011
def utPartBind : Nat := 0x0012
def utDmMap : Nat := 0x0018
def utImageLoad : Nat := 0x0020
def utImageAbort : Nat := 0x0021
def utMarchTest : Nat := 0x0030
def utSymbolQuery : Nat := 0x0040
def utFwStatus : Nat := 0x0050
def utStepRate : Nat := 0x0060

/-- The version that introduced a type. -/
def utSince (typ : Nat) : Nat :=
  if typ = utPartBind ∨ typ = utMarchTest then 0x0101
  else if typ = utSymbolQuery then 0x0102
  else if typ = utFwStatus ∨ typ = utStepRate then 0x0103
  else 0x0100

def utOk : Nat := 0
def utNotNegotiated : Nat := 1
def utUnknownType : Nat := 2
def utBadLength : Nat := 3
def utBadFragment : Nat := 4
def utDenied : Nat := 5
def utBusy : Nat := 6
def utNoCommonVersion : Nat := 7
def utRefused : Nat := 8

/-- The firmware's own range of versions (R358). Log 106 (DESIGN CHOICE). -/
def fwMin : Nat := 0x0100
def fwMax : Nat := 0x0103

/-! Posting (R356, R357) -/

/-- The response to request `id` of type `typ` on pair `j` of port `n`. VER is 0 in HELLO. Log 107 (DEDUCED). -/
def Chip.utSend (c : Chip) (n j id typ status : Nat) (payload : List Byte) : Chip :=
  c.fwSend (c.utChannel n j + 1) (if typ = utHello then 0 else c.get .H_UT_VER n) typ id 2 status payload

/-- The firmware knows its answer to a request; it goes out in its turn (R357). -/
def Chip.utRespond (c : Chip) (n j id typ status : Nat) (payload : List Byte) : Chip :=
  { c with utWait := c.utWait ++ [⟨n, j, id, typ, 0, false, some (status, payload)⟩] }

/-- Post the queued messages whose channels are free, oldest first. -/
def Chip.fwPost (c : Chip) : Chip :=
  c.fwOut.foldl (fun (c : Chip) e => if c.on .MBX_STATUS_FULL e.1 then { c with fwOut := c.fwOut ++ [e] } else c.mbxPost e.1 e.2) { c with fwOut := [] }

/-- FW_RESTART on every port that still waits for it and whose event channel is free (R361). -/
def Chip.fwRestartPost (c : Chip) : Chip :=
  (List.range 4).foldl
    (fun (c : Chip) n =>
      if bitB (c.get .H_FW_DOWN 0) n && !c.on .MBX_STATUS_FULL (c.eventChannel n) && !c.fwOut.any (fun e => e.1 = c.eventChannel n) then
        (c.set .H_FW_DOWN 0 (c.get .H_FW_DOWN 0 - 2 ^ n)).utEventSend n 0x0002 []
      else c) c

/-! Taking (R361) -/

/-- The firmware takes the message on pair `j`'s even channel of port `n`: COLLISION is cleared, and told with the surviving ID. -/
def Chip.fwTake (c : Chip) (n j id : Nat) : Chip :=
  let ch := c.utChannel n j
  let c := c.set .H_UT_LAST n (c.now + 1)
  let c := if c.on .MBX_STATUS_FULL ch then (c.set .MBX_STATUS_FULL ch 0).mbxTaken ch else c
  if c.on .MBX_STATUS_COLLISION ch then (c.set .MBX_STATUS_COLLISION ch 0).utEventSend n 0x0001 (toBytes 2 id) else c

/-- Whether a request is outstanding on a pair: one that the firmware has not answered, or whose answer it has not posted. -/
def Chip.outstanding (c : Chip) (n j : Nat) : Bool :=
  c.utWait.any (fun w => w.port = n && w.pair = j) || c.fwOut.any fun e => e.1 = c.utChannel n j + 1

/-! What the firmware does: it acts as core 2, with service rights -/

/-- The firmware's core. -/
def fwCore : Init := .core 2 false

/-- The 4 bytes of a result register, which the firmware reads (R95). -/
def Chip.fwResult (c : Chip) (r : CmdReg) (i : Nat) : List Byte × Chip := let (v, c) := c.readResult r i; (toBytes 4 v, c)

/-- The command register and the instance whose result a type waits for. -/
def utResult (typ p : Nat) : CmdReg × Nat :=
  if typ = utPartCreate ∨ typ = utPartRelease then (.ptn, p)
  else if typ = utImageLoad ∨ typ = utImageAbort then (.ldr, p)
  else if typ = utMarchTest then (.mt, 0)
  else (.pmp, p)

/-- The 8 bytes of a register of a partition or of the design-memory control block. -/
def Chip.fwRead (c : Chip) (a : Arr) (d : RegDef) (k : Nat) : List Byte := toBytes (if d.wide then 8 else 4) (c.regValue a d k)

/-- What follows the result in a response (R359). -/
def Chip.utTail (c : Chip) (a : Arr) (typ p : Nat) : List Byte :=
  if typ = utImageLoad then c.fwRead a Reg.def_LDR_REFUSE p ++ c.fwRead a Reg.def_LDR_REFUSE_OFF p
  else if typ = utMarchTest then c.fwRead a Reg.def_MT_FAIL_CNT 0 ++ c.fwRead a Reg.def_MT_FAIL_LOC 0
  else []

/-- Answer a request whose command has produced its result. -/
def Chip.utAnswer (c : Chip) (a : Arr) (w : UtWait) : Chip :=
  let (r, i) := utResult w.typ w.part
  let refusal := c.get r.result.2.2.1 i = refused
  let (b, c) := c.fwResult r i
  c.utSend w.port w.pair w.id w.typ (if refusal then utRefused else utOk) (b ++ c.utTail a w.typ w.part)

/-- Whether a request can be answered: BUSY and a known answer at once, another once its command has a result; but in the order in which the port's requests have come (R357).
`c.utWait` holds the ones before it that are not answered yet. Log 104 (DEDUCED). -/
def Chip.utReady (c : Chip) (w : UtWait) : Bool :=
  !c.utWait.any (fun x => x.port = w.port) &&
    (w.busy || w.ready.isSome || (let (r, i) := utResult w.typ w.part; !c.cmdPending r i))

/-- The answer to a request that can be answered. -/
def Chip.utReply (c : Chip) (a : Arr) (w : UtWait) : Chip :=
  match w.ready with
  | some (status, payload) => c.utSend w.port w.pair w.id w.typ status payload
  | none => if w.busy then c.utSend w.port w.pair w.id w.typ utBusy [] else c.utAnswer a w

/-- Answer the requests that can be answered, oldest first. -/
def utServe (a : Arr) (c : Chip) : Chip :=
  c.utWait.foldl (fun (c : Chip) w => if c.utReady w then c.utReply a w else { c with utWait := c.utWait ++ [w] }) { c with utWait := [] }

/-- The firmware posts what it can. -/
def fwRun (a : Arr) (c : Chip) : Chip := ((utServe a c).fwRestartPost).fwPost

/-- Run the firmware after an action. -/
def fwAfter (x : All) : All := (fwRun x.2.1 x.1, x.2.1, x.2.2)

/-- Wait for the result of the command of a request. Log 108 (DEDUCED). -/
def Chip.utAwait (c : Chip) (n j id typ p : Nat) : Chip := { c with utWait := c.utWait ++ [⟨n, j, id, typ, p, false, none⟩] }

/-! Fragments (R356) -/

/-- What the firmware has of a request: all of it, fragments up to the next one's index, or an assembly that has ended with a status. -/
inductive UtFound where
  | whole | part (next : Nat) | bad (status : Nat)
deriving DecidableEq, Repr

/-- Whether a message of a request sets a reserved bit, or has a LEN that no message has. Log 182 (DEDUCED). -/
def utReserved (h : UtHead) : Bool := 2 ≤ h.flags.toNat || 52 < h.len.toNat || h.status.toNat ≠ 0 || h.spare

/-- The messages of a request, from index `i` on. -/
def utWalk : Nat → List UtHead → UtFound
  | i, [] => .part i
  | i, h :: hs =>
    if utReserved h then .bad utBadLength
    else if h.frag.toNat ≠ i || 63 < i then .bad utBadFragment
    else if bit h.flags.toNat 0 = 0 then .whole
    else utWalk (i + 1) hs

/-- The index at which a message of this type and ID goes on; a message of another request is out of order. A HELLO starts anew. -/
def Chip.utNext (c : Chip) (n j typ id : Nat) : Option Nat :=
  match (if typ = utHello then none else c.utAsm.find? fun x => x.port = n && x.pair = j) with
  | none => some 0
  | some x => if x.typ = typ ∧ x.id = id then some x.next else none

/-- Forget the assembly of a pair; a HELLO, those of its port (R358). -/
def Chip.utForget (c : Chip) (n j typ : Nat) : Chip :=
  { c with utAsm := c.utAsm.filter fun x => !(x.port = n && (x.pair = j || typ = utHello)) }

/-- The messages that have been taken, with those before them. -/
def Chip.utFind (c : Chip) (n j typ id : Nat) (heads : List UtHead) : UtFound :=
  match c.utNext n j typ id with
  | none => .bad utBadFragment
  | some i => utWalk i heads

/-- What becomes of messages that make no whole request: they are kept, or answered once. -/
def Chip.utPartial (c : Chip) (n j typ id : Nat) : UtFound → Chip
  | .whole => c
  | .part i => { c with utAsm := c.utAsm ++ [⟨n, j, typ, id, i⟩] }
  | .bad status => c.utRespond n j id typ status []

/-- Where a request goes: on a pair that carries requests, it is discarded where its take shows SRESET = 1, answered BUSY where one is outstanding,
NOT_NEGOTIATED before a HELLO, and UNKNOWN_TYPE where the negotiated version does not have it; else `act` handles it (R357 to R361). Log 104 (DEDUCED), 111 (DEDUCED). -/
def utRequest (n j id typ : Nat) (heads : List UtHead) (act : Chip → Arr → Mem → All) (c : Chip) (a : Arr) (m : Mem) : All :=
  if !c.portExists n || c.utPairs ≤ j + 1 || heads = [] then (c, a, m)
  else
    let sreset := c.on .MBX_STATUS_SRESET (c.utChannel n j)
    let found := c.utFind n j typ id heads
    let c := (c.fwTake n j id).utForget n j typ
    if sreset && typ ≠ utHello then fwAfter (c, a, m)
    else if found ≠ .whole then fwAfter (c.utPartial n j typ id found, a, m)
    else if c.outstanding n j then fwAfter ({ c with utWait := c.utWait ++ [⟨n, j, id, typ, 0, true, none⟩] }, a, m)
    else if typ ≠ utHello && c.get .H_UT_VER n = 0 then fwAfter (c.utRespond n j id typ utNotNegotiated [], a, m)
    else if typ ≠ utHello && c.get .H_UT_VER n < utSince typ then fwAfter (c.utRespond n j id typ utUnknownType [], a, m)
    else fwAfter (act c a m)

/-- A request that names partition `p`: DENIED where it is not bound to the port. -/
def utNaming (n j id typ p : Nat) (heads : List UtHead) (act : Chip → Arr → Mem → All) (c : Chip) (a : Arr) (m : Mem) : All :=
  utRequest n j id typ heads (fun c a m => if c.get .PTN_CFG_BIND p = n then act c a m else (c.utRespond n j id typ utDenied [], a, m)) c a m

/-! The boot report (R362) -/

def Chip.bootReport (c : Chip) : List Byte :=
  toBytes 4 (c.get .H_FW_SEC 0) ++ toBytes 4 (c.get .H_FW_SVC 0) ++ toBytes 1 (c.get .H_FW_SLOTS 0) ++ toBytes 1 (c.get .H_FW_FLAGS 0)

/-! Requests -/

/-- The KA_MS that the firmware accepts: what is asked, where that is allowed; what it makes of another value is free. -/
def Chip.utKeepalive (c : Chip) (ka : Nat) : Nat × Chip := if ka = 0 ∨ (100 ≤ ka ∧ ka ≤ 60000) then (ka, c) else c.fresh 16

/-- HELLO (R358). Log 105 (DEDUCED). -/
def utHelloAct (n j id lo hi ka : Nat) (c : Chip) (a : Arr) (m : Mem) : All :=
  let v := min hi fwMax
  if max lo fwMin ≤ v then
    let (ka, c) := c.utKeepalive ka
    let c := ((c.set .H_UT_VER n v).set .H_UT_KA n ka).hostBack n
    (c.utRespond n j id utHello utOk (toBytes 2 v ++ toBytes 2 fwMin ++ toBytes 2 fwMax ++ toBytes 2 ka ++ c.bootReport), a, m)
  else (c.utRespond n j id utHello utNoCommonVersion (toBytes 2 0 ++ toBytes 2 fwMin ++ toBytes 2 fwMax), a, m)

/-- A KEEPALIVE on the last pair's even channel (R357). -/
def utKeepaliveTake (n : Nat) (c : Chip) (a : Arr) (m : Mem) : All :=
  if c.portExists n then fwAfter (c.fwTake n (c.utPairs - 1) 0, a, m) else (c, a, m)

/-- No complete message for 2 × KA_MS (R358): the negotiation ends and the port is lost. -/
def keepaliveLapse (n : Nat) (c : Chip) (a : Arr) (m : Mem) : All :=
  let ka := c.get .H_UT_KA n
  if c.on .H_UT_VER n && ka ≠ 0 && c.get .H_UT_LAST n - 1 + 2 * ka * 1000 * Chip.us ≤ c.now then portLost n (c.set .H_UT_VER n 0) a m
  else (c, a, m)

/-- The value with which the firmware writes PTN_CFG for a new partition of port `n`. -/
def utCfgValue (n v : Nat) : Nat := setBits v 18 16 n

/-- PART_CREATE of partition `p`, which the firmware has chosen. A PTN_CFG value that is not taken leaves the request REFUSED. Log 109 (DEDUCED). -/
def utCreateAct (n j id p v : Nat) (c : Chip) (a : Arr) (m : Mem) : All :=
  if c.ptnCfgOk p (utCfgValue n v) || c.on .PTN_CFG_ACTIVE p then
    let c := if c.on .PTN_CFG_ACTIVE p then c else c.writePtnCfg fwCore p (utCfgValue n v) (regAddr fwCore .part Reg.def_PTN_CFG p 0)
    let x := ptnWrite p 1 true c a m
    (x.1.utAwait n j id utPartCreate p, x.2)
  else
    let c := c.set .PTN_LOSS_CFG_REJ p 1
    let (b, c) := c.fwResult .ptn p
    (c.utRespond n j id utPartCreate utRefused b, a, m)

/-- PART_RELEASE. -/
def utReleaseAct (n j id p : Nat) (c : Chip) (a : Arr) (m : Mem) : All :=
  let x := ptnWrite p 2 true c a m
  (x.1.utAwait n j id utPartRelease p, x.2)

/-- PART_BIND: PTN_CFG with BIND, LOSS, ALT and FALLBACK replaced. -/
def utBindAct (n j id p bind loss alt fallback : Nat) (c : Chip) (a : Arr) (m : Mem) : All :=
  let v := c.get .PTN_CFG_FIRST p + c.get .PTN_CFG_COUNT p * 2 ^ 8 + bind % 8 * 2 ^ 16 + alt % 8 * 2 ^ 20 + loss % 4 * 2 ^ 24 + fallback % 2 * 2 ^ 26
  let c := c.writePtnCfg fwCore p v (regAddr fwCore .part Reg.def_PTN_CFG p 0)
  (c.utRespond n j id utPartBind utOk (c.fwRead a Reg.def_PTN_CFG p), a, m)

/-- DM_MAP: entries from `first` on. Log 110 (DESIGN CHOICE). -/
def utMapAct (n j id p first : Nat) (vs : List Nat) (c : Chip) (a : Arr) (m : Mem) : All :=
  let c := (vs.zipIdx first).foldl
    (fun (c : Chip) e =>
      if e.2 < 192 then c.writeDmMap fwCore Reg.def_DM_MAP (p * 192 + e.2) e.1 (regAddr fwCore .part Reg.def_DM_MAP p e.2) else c) c
  (c.utRespond n j id utDmMap utOk (c.fwRead a Reg.def_DM_ERR p), a, m)

/-- IMAGE_LOAD. -/
def utLoadAct (n j id p param src : Nat) (c : Chip) (a : Arr) (m : Mem) : All :=
  let c := (c.writeLdr fwCore Reg.def_LDR_PARAM p param).writeLdr fwCore Reg.def_LDR_SRC p src
  let x := ldrWrite p 1 true c a m
  (x.1.utAwait n j id utImageLoad p, x.2)

/-- IMAGE_ABORT. -/
def utAbortAct (n j id p : Nat) (c : Chip) (a : Arr) (m : Mem) : All :=
  let x := ldrWrite p 2 true c a m
  (x.1.utAwait n j id utImageAbort p, x.2)

/-- MARCH_TEST. -/
def utMarchAct (n j id v : Nat) (c : Chip) (a : Arr) (m : Mem) : All :=
  let x := mtWrite (bits v 31 28) (bits v 27 26) (bits v 5 0) c a m
  (x.1.utAwait n j id utMarchTest 0, x.2)

/-- A symbol as the loader keeps it: DEEP_BASE × 2^30 is added to a design address below 0x30_0000_0000 (R179). -/
def symbolPlaced (deepBase : Nat) : Symbol → Symbol
  | .address a => if a.toNat < cisternBase then .address (BitVec.ofNat 40 (a.toNat + deepBase * 2 ^ 30)) else .address a
  | x => x

/-- The symbol entry of a name in the table of partition `p`'s image. -/
def Chip.symbol (c : Chip) (p : Nat) (name : List Byte) : List Byte :=
  if c.pumpState p = psEmpty then []
  else match c.syms.find? fun e => e.1 = p with
    | some (_, base :: table) => ((Config.symbolEntry table name).map fun x => Config.symbolBytes (symbolPlaced base.toNat x)).getD []
    | _ => []

/-- SYMBOL_QUERY. -/
def utSymbolAct (n j id p : Nat) (name : List Byte) (c : Chip) (a : Arr) (m : Mem) : All :=
  (c.utRespond n j id utSymbolQuery utOk (c.symbol p name), a, m)

/-- FW_STATUS. -/
def utStatusAct (n j id : Nat) (c : Chip) (a : Arr) (m : Mem) : All := (c.utRespond n j id utFwStatus utOk c.bootReport, a, m)

/-- Whether some active partition is bound to a host port other than `n`. -/
def Chip.otherHost (c : Chip) (n : Nat) : Bool :=
  (List.range 16).any fun p => c.on .PTN_CFG_ACTIVE p && c.get .PTN_CFG_BIND p < 4 && c.get .PTN_CFG_BIND p ≠ n

/-- STEP_RATE, by a SETRATE in the command register of partition `p`, which the firmware has chosen. -/
def utRateAct (n j id p rate : Nat) (c : Chip) (a : Arr) (m : Mem) : All :=
  if c.otherHost n then (c.utRespond n j id utStepRate utDenied [], a, m)
  else
    let x := pmpWrite p 5 (rate % 2) true c a m
    (x.1.utAwait n j id utStepRate p, x.2)

end Sys2Proof.Machine
end

