-- ==== Sys2Proof/Machine/Tick.lean ====
section
/-! DEFINITION. One step-clock period of the whole module, which is what a step does while no command waits; and the trigger pulses that arrive
in it (R211 to R213). -/

namespace Sys2Proof.Machine

/-! Trigger pulses -/

/-- The number under which a master counts (R212): the service complex also has the unbound partitions. -/
def Chip.masterOf (c : Chip) (p : Nat) : Nat := if c.get .PTN_CFG_BIND p = 7 then 4 else c.get .PTN_CFG_BIND p

/-- A pulse on line `q` reaches partition `p`: it sets the latch where both have one master (R212). Log 55 (DEDUCED). -/
def Chip.lineLatch (c : Chip) (q p : Nat) : Chip :=
  if c.masterOf p = c.masterOf q then c.set .H_LATCH_L p (orBit (c.get .H_LATCH_L p) q) else c

/-- The pulses from `q` to `p` whose period of arrival has ended set the latch, which the next evaluation reads (R208, R212); with none, nothing happens. -/
def Chip.lineArrival (c : Chip) (q p : Nat) : Chip :=
  let hit := fun (x : LinePulse) => x.q = q && x.p = p && x.due < c.period
  if c.lines.any hit then { c with lines := c.lines.filter fun x => !hit x }.lineLatch q p else c

/-- Every pulse whose period of arrival has ended sets its latch. -/
def Chip.linesArrive (c : Chip) : Chip :=
  (c.lines.filter fun x => x.due < c.period).foldl (fun c x => c.lineLatch x.q x.p) { c with lines := c.lines.filter fun x => c.period ≤ x.due }

/-- XTRIG_OUT[n] rises where a rise of it is due from a partition whose XOUT_EN permits it then, and stays high for 20 ns (R213). Log 176 (DEDUCED). -/
def Chip.xoutRise (c : Chip) (n : Nat) : Chip :=
  let hit := fun (x : Nat) => x / 2 ^ 64 % 4 = n && x % 2 ^ 64 ≤ c.period
  let drives := fun (x : Nat) => hit x && bitB (c.get .PRB_CTL_XOUT_EN (x / 2 ^ 66)) n
  let d := { c with xrise := c.xrise.filter fun x => !hit x }
  if c.xrise.any drives then (d.set .H_XOUT n 1).setDue .H_XOUT_FALL n 96 else d

/-- XTRIG_OUT[n] falls 20 ns after its last rise (R213). -/
def Chip.xoutEnd (c : Chip) (n : Nat) : Chip :=
  if c.due .H_XOUT_FALL n then (c.set .H_XOUT n 0).set .H_XOUT_FALL n 0 else c

/-- A synchronised rising edge of XTRIG_IN[n] sets its latch in every partition; whether a pulse of less than 4 ns does is a free value (R211). Log 54 (DEDUCED). -/
def Chip.xtrigIn (c : Chip) (n : Nat) (short : Bool) : Chip :=
  let (seen, c) := if short then c.fresh 1 else (1, c)
  if seen = 1 then (List.range 16).foldl (fun c p => c.set .H_LATCH_X p (orBit (c.get .H_LATCH_X p) n)) c else c

/-! One period -/

/-- The partitions' part of a period, in the order of their numbers. Log 16 (DESIGN CHOICE). -/
def partsPeriod (x : All) : All := (List.range 16).foldl (fun x p => partPeriod p x.1 x.2.1 x.2.2) x

/-- The rises and falls of XTRIG_OUT in a period. -/
def Chip.pulsesPeriod (c : Chip) : Chip := (List.range 4).foldl (fun c n => (c.xoutRise n).xoutEnd n) c

/-- The timing clock's part of a period (R26: its ticks are 6 units apart, a period has 3 or 4). -/
def Chip.timePeriod (c : Chip) : Chip := ((Chip.timingTicks 2 c).ppsFall).tkNoPps

/-- The service complex's part of a period: posts, one trace packet, the ends of cache invalidations. -/
def servicePeriod (c : Chip) (m : Mem) : Chip × Mem :=
  let (c, m) := trcDrain (c.schRefill.postDrop.icSettle) m
  ((List.range 8).foldl (fun c k => c.set .SVC_CTL_ICINV k 0) c, m)

/-- With no partition selected, TICK_OUT is low (R102). -/
def Chip.tickOutIdle (c : Chip) : Chip := if c.toutPart = none then c.set .H_TICK_OUT 0 0 else c

/-- An exit from IDLE or WATCH has reached the latest time of its completion (R383). -/
def exitPeriod (x : All) : All := if x.1.due .H_EXIT_DUE 0 then exitComplete x.1 x.2.1 x.2.2 else x

/-- A wake from SLEEP has reached the latest time of its completion (R386). -/
def wakePeriod (x : All) : All := if x.1.due .H_WAKE_DUE 0 then wakeComplete x.1 x.2.1 x.2.2 else x

/-- The firmware starts a partition of the configuration record whose load is complete (R389, step 12). -/
def bootStart (x : All) (p : Nat) : All :=
  let (c, a, m) := x
  if !c.on .H_BOOT_START p || c.cmdPending .ldr p then x
  else if c.get .LDR_RESULT_OUTCOME p = completed then pmpWrite p 1 0 true (c.set .H_BOOT_START p 0) a m
  else (c.set .H_BOOT_START p 0, a, m)

/-- Every partition that waits to be started so. -/
def bootStarts (x : All) : All := (List.range 16).foldl bootStart x

/-- The fabric's part of a period: in SLEEP and OFF it stands still (R381). -/
def fabricRun (c : Chip) (a : Arr) (m : Mem) : Chip := if c.timing then fabricPeriod c a m else c

/-- Time goes on by one period. -/
def Chip.advance (c : Chip) : Chip := { c with now := c.now + c.unitsPerPeriod, period := c.period + 1 }

/-- The start of the period that comes: start ramps that have ended by now are over (R96), and the dividers and the edges sampled
four periods ago give the ticks of this period (R99, R100). Log 13 (DEDUCED). -/
def periodStart (c : Chip) (a : Arr) : Chip × Arr :=
  (List.range 16).foldl (fun x p => let y := rampComplete p x.1 x.2; let z := dividerTick p y.1 y.2; edgeTicks p z.1 z.2) (c, a)

/-- One step-clock period. Log 2 (DESIGN CHOICE). -/
def tick (c : Chip) (a : Arr) (m : Mem) : All :=
  let c := c.linesArrive.rateChangeComplete
  let a := tapsStep c a
  let c := fabricRun c a m
  let (c, a, m) := partsPeriod (c, a, m)
  let (c, a, m) := imageStream c a m
  let c := c.tickOutIdle.pulsesPeriod.timePeriod
  let (c, m) := servicePeriod c m
  let (c, a, m) := bootStarts (wakePeriod (exitPeriod (c, a, m)))
  let (c, a) := periodStart (fwRun a c).faultN.advance.pinClock a
  (c, a, m)

end Sys2Proof.Machine
end

