-- ==== Sys2Proof/Machine/Rows.lean ====
section
/-! DEFINITION. What the meanings of the commands share: acting on a part of the state, and command registers written by name. -/

namespace Sys2Proof.Machine

/-! Acting on a part of the state: what is not named is unchanged -/

/-- The state in which an initiator's access takes effect: a core has gone on executing until then, which the trace and the core's secure state show (R320, R342 to R347). -/
def State.seen (s : State) (who : Init) : State := { s with chip := (initSeen who s.chip s.mem).1, mem := (initSeen who s.chip s.mem).2 }

def State.onChip (s : State) (f : Chip → Chip) : State := { s with chip := f s.chip }

def State.onArr (s : State) (f : Chip → Arr → Chip × Arr) : State :=
  { s with chip := (f s.chip s.arr).1, arr := (f s.chip s.arr).2 }

def State.onMem (s : State) (f : Chip → Mem → Chip × Mem) : State :=
  { s with chip := (f s.chip s.mem).1, mem := (f s.chip s.mem).2 }

def State.onAll (s : State) (f : Chip → Arr → Mem → All) : State :=
  { s with chip := (f s.chip s.arr s.mem).1, arr := (f s.chip s.arr s.mem).2.1, mem := (f s.chip s.arr s.mem).2.2 }

/-! Writes of one register -/

/-- A write of the register at offset `off` of block `b`, instance `i`, whose effect is `act`: performed where the initiator may make it, else
turned away as R123 and R323 say. -/
def byRegister (who : Init) (b : Blk) (i off : Nat) (act : Chip → Arr → Mem → All) (c : Chip) (a : Arr) (m : Mem) : All :=
  if c.regMay who ⟨b, i, off⟩ true then act (c.answer .ok) a m else (c.denied who true (blockBase who b i + off), a, m)

/-- A write of a register of port `n`'s DMA block: a host reaches its own port's block only. -/
def byDma (who : Init) (n off : Nat) (act : Chip → Chip) (c : Chip) : Chip :=
  match who with
  | .host k => if k.val = n && !c.hostGone who then act (c.answer .ok) else c.accError who true off
  | .core k sec => if sec || k.val < 4 then act (c.answer .ok) else c.denied (.core k sec) true (0xD00000 + n * 0x10000 + off)

/-! Accesses by address: a register, or, in the service map, a byte of memory (R308, R322) -/

/-- The memory at a service address: a service SRAM bank, the vault, or a design address, directly or through the guaranteed alias (R327). -/
def memTarget (x : Nat) : Option Target :=
  if 0x100000000 ≤ x ∧ x < 0x101000000 then some (.sram (BitVec.ofNat 24 x))
  else if 0x101000000 ≤ x ∧ x < 0x101040000 then some (.vault (BitVec.ofNat 18 x))
  else if 0x100000000000 ≤ x ∧ x < 0x140000000000 then some (.design (Fin.ofNat 16 (x / 2 ^ 38)) (BitVec.ofNat 40 (x % 2 ^ 38)))
  else if 0x200000000000 ≤ x ∧ x < 0x240000000000 then some (.design (Fin.ofNat 16 (x / 2 ^ 38)) (BitVec.ofNat 40 (x % 2 ^ 38)))
  else none

/-- Whether a service address lies in the guaranteed alias (R308, R327). -/
def isAlias (x : Nat) : Bool := 0x200000000000 ≤ x && x < 0x240000000000

/-- The memory that an initiator's address leads to: a host's BAR0 holds none. -/
def mapTarget (who : Init) (x : Nat) : Option Target := if initHost who then none else memTarget x

/-- A write of `n` bytes at an address. -/
def mapWrite (who : Init) (x n v : Nat) (c : Chip) (a : Arr) (m : Mem) : All :=
  match mapTarget who x with
  | some t => let y := netIssue who t (.write (toBytes n v)) (isAlias x) c m; (y.1, a, y.2)
  | none => regWrite who x n v c a m

/-- A read of `n` bytes at an address. -/
def mapRead (who : Init) (x n : Nat) (c : Chip) (a : Arr) (m : Mem) : All :=
  match mapTarget who x with
  | some t => let y := netIssue who t (.read n) (isAlias x) c m; (y.1, a, y.2)
  | none => (regRead who x n c a, a, m)

/-- The address of a result register. -/
def resultAddr : ResultReg → Nat
  | .pmp p => 0x400060 + p.val * 0x10000
  | .ptn p => 0x401008 + p.val * 0x10000
  | .ldr p => 0x404014 + p.val * 0x10000
  | .prb p => 0x600008 + p.val * 0x10000
  | .mt => 0xE00104
  | .rimLd => 0xA0010C
  | .pwr => 0x408

/-- A read of a result register (R95). -/
def resultRead (who : Init) (r : ResultReg) (c : Chip) (a : Arr) : Chip := regRead who (resultAddr r) 4 c a

/-- The AGP data registers as commands name them. -/
def gpioReg : GpioReg → AgpReg
  | .outLo => .outLo
  | .outHi => .outHi
  | .oeLo => .oeLo
  | .oeHi => .oeHi

def gpioOffset : GpioReg → Nat
  | .outLo => 0x0
  | .outHi => 0x4
  | .oeLo => 0x8
  | .oeHi => 0xC

/-! Events -/

/-- TICK_IN rises or falls: the partitions that it paces sample the edge that they select (R100). -/
def Chip.tickPin (c : Chip) (rising : Bool) : Chip :=
  (List.range 16).foldl (fun c p => if c.get .PMP_CTL_PSRC p = 1 && c.tickInEdge p rising then c.sampleEdge p 1 else c) c

/-- What can give a tick (R99, R100, R226): the divider, an edge of TICK_IN, or an edge of a clock source, which reaches the pump through the trees that pass it. -/
def tickFrom (src : TickSource) (rising : Bool) (c : Chip) (a : Arr) (m : Mem) : All :=
  match src with
  | .divider p => let x := dividerTick p.val c a; (x.1, x.2, m)
  | .pin => (c.tickPin rising, a, m)
  | .clock code => (clockEdge code.toNat rising c a m, a, m)

/-- RELEASE completes; sectors left with taps of bands that changed hands show it (R127, R220). -/
def releaseDone (p : Nat) (c : Chip) (a : Arr) (m : Mem) : All :=
  let x := releaseComplete p c a m
  (x.1.rimEdges x.2.2, x.2.1, x.2.2)

/-- A staged record drains; in WATCH the module first returns to IDLE (R206, R383). Log 120 (DEDUCED). -/
def recordDrainAwake (p n : Nat) (c : Chip) (m : Mem) : Chip × Mem :=
  if c.power = pwrWatch ∧ c.recs.any (fun r => r.part = p) then (c.demandExit 2 5, m) else recordDrain p n c m

/-- A channel executes a descriptor; in WATCH the module first returns to IDLE (R300, R383). -/
def dmaDescriptorAwake (ch : Nat) (d : List Byte) (count : Nat) (data : List Byte) (c : Chip) (m : Mem) : Chip × Mem :=
  if c.power = pwrWatch ∧ c.on .DMA_CH_CTL_EN ch then (c.demandExit 2 5, m) else dmaDescriptor ch d count data c m

/-- The firmware posts an EVENT message to port `n` (R361). -/
def utEventPost (n code : Nat) (data : List Byte) (c : Chip) (a : Arr) (m : Mem) : All :=
  if c.portExists n then fwAfter (c.utEventSend n code data, a, m) else (c, a, m)

/-- A command, or an access to the compute side, demands the exit from a power state (R383): to ON, or from WATCH to IDLE. -/
def Chip.demand (c : Chip) (command : Bool) : Chip :=
  if c.power = pwrWatch ∨ (c.power = pwrIdle ∧ command) then (if command then c.demandExit 1 6 else c.demandExit 2 5) else c

/-- Step 11 of start-up: the module's own sectors, and the load of their stream from flash (R389). -/
def bootStream (u : StartUp) (c : Chip) (m : Mem) : Chip × Mem :=
  let c := (List.range 12).foldl (fun c k => if bit u.sectors.toNat k = 1 then c.writeSectOwn Reg.def_RIM_SECT_OWN k ownerModule else c) c
  match u.stream with
  | none => (c, m)
  | some x => rimLdCmd 1 0 ((c.set .RIM_LD_PARAM_SRC 0 0).set .RIM_LD_SRC_ADDR 0 x.toNat) m

/-- Step 12: a partition that the record names is created and its load from flash begins; it is started once the load is complete (R389). -/
def bootPart (x : All) (b : BootPart) : All :=
  let (c, a, m) := x
  let p := b.p.val
  let c := c.writePtnCfg fwCore p b.cfg.toNat (regAddr fwCore .part Reg.def_PTN_CFG p 0)
  let (c, a, m) := ptnWrite p 1 true c a m
  let c := (b.map.zipIdx).foldl
    (fun (c : Chip) e => c.writeDmMap fwCore Reg.def_DM_MAP (p * 192 + e.2) e.1.toNat (regAddr fwCore .part Reg.def_DM_MAP p e.2)) c
  let c := (c.writeLdr fwCore Reg.def_LDR_PARAM p b.param.toNat).writeLdr fwCore Reg.def_LDR_SRC p b.src.toNat
  let (c, a, m) := ldrWrite p 1 true c a m
  (c.set .H_BOOT_START p 1, a, m)

/-- Start-up as a whole (R389). Log 185 (DEDUCED). -/
def startUpAll (u : StartUp) (c : Chip) (a : Arr) (m : Mem) : All :=
  let warm := c.on .H_WARM 0
  let c := c.startUp u
  if warm || !c.on .H_WARM 0 || !u.recordOk then (c, a, m)
  else
    let x := bootStream u c m
    u.parts.foldl bootPart (x.1, a, x.2)

/-- The reset of an accepted life-cycle change, 1 ms after it (R393). -/
def lifeCycleReset (c : Chip) (a : Arr) (m : Mem) : All := if c.due .H_LC_DUE 0 then resetAll Chip.causeLc c else (c, a, m)

end Sys2Proof.Machine
end

