-- ==== Sys2Proof/Machine/BooleanProcessor.lean ====
section
/-! DEFINITION. The commands of the Boolean processors (R48 to R57): one BP executes its word of the current step. -/

namespace Sys2Proof.Machine

/-- NOP (R49). A BP executes NOP: its slot is unchanged, it drives 0 on its lane, and it sends and probes nothing. -/
def execNop (bp : Fin 131072) (s : State) : Host.Outcome State Fault Refusal :=
  .next (s.onArr (bpCommand .nop bp.val))

/-- EVAL (R50). A BP evaluates its truth table, writes the result into slot s, drives it on its lane, and sends it when SND = 1. -/
def execEval (bp : Fin 131072) (s : State) : Host.Outcome State Fault Refusal :=
  .next (s.onArr (bpCommand .eval bp.val))

/-- EVALC (R51). A BP evaluates a three-input function and writes slot s only when D = 1, and always publishes the slot's value after the step. -/
def execEvalc (bp : Fin 131072) (s : State) : Host.Outcome State Fault Refusal :=
  .next (s.onArr (bpCommand .evalc bp.val))

/-- MPUT (R52). A BP hands its result to a gather input of one of its tile's memory port agents. -/
def execMput (bp : Fin 131072) (s : State) : Host.Outcome State Fault Refusal :=
  .next (s.onArr (bpCommand .mput bp.val))

/-- STOP (R53). A BP whose result is 1 requests a stop at the end of the cycle and records its stop code in the stop mask. -/
def execStop (bp : Fin 131072) (s : State) : Host.Outcome State Fault Refusal :=
  .next (s.onArr (bpCommand .stop bp.val))

/-- TRIG (R54). A BP whose result is 1 sets one of the partition's 64 trigger condition bits for the cycle. -/
def execTrig (bp : Fin 131072) (s : State) : Host.Outcome State Fault Refusal :=
  .next (s.onArr (bpCommand .trig bp.val))

/-- OUT (R55). A BP writes its result into one rim output bit of its tile. -/
def execOut (bp : Fin 131072) (s : State) : Host.Outcome State Fault Refusal :=
  .next (s.onArr (bpCommand .out bp.val))

/-- XEV (R56). A BP places its result on an exchange out-port without writing a slot. -/
def execXev (bp : Fin 131072) (s : State) : Host.Outcome State Fault Refusal :=
  .next (s.onArr (bpCommand .xev bp.val))

/-- UNDEFINED_OPCODE (R57). An executed opcode from 0x8 to 0xF behaves as NOP and increments the encoding-fault counter. -/
def execUndefinedOpcode (bp : Fin 131072) (s : State) : Host.Outcome State Fault Refusal :=
  .next (s.onArr (bpCommand .undefinedOp bp.val))

end Sys2Proof.Machine
end

