-- ==== Sys2Proof/Machine/CoreCommands.lean ====
section
/-! DEFINITION. Service cores and their trace (R321, R342, R347, R349). -/

namespace Sys2Proof.Machine

/-- ICINV (R321). A 1 written to SVC_CTL.ICINV invalidates a core's instruction cache. -/
def execIcinv (k : Fin 8) (sec : Bool) (target : Fin 8) (s : State) : Host.Outcome State Fault Refusal :=
  .next ((s.seen (.core k sec)).onAll (byRegister (Init.core k sec) .cc target.val 0x0 fun c a m => (c.icInvalidate target.val, a, m)))

/-- CORE_RESET (R349). A 1 written to SVC_CTL.RST resets a core, which restarts at SVC_ENTRY. -/
def execCoreReset (k : Fin 8) (sec : Bool) (target : Fin 8) (s : State) : Host.Outcome State Fault Refusal :=
  .next ((s.seen (.core k sec)).onAll (byRegister (Init.core k sec) .cc target.val 0x0 fun c a m => (c.coreReset target.val, a, m)))

/-- TRC_SW (R342). A write to TRC_SW forms a SOFTWARE trace packet. -/
def execTrcSw (k : Fin 8) (sec : Bool) (value : Word64) (s : State) : Host.Outcome State Fault Refusal :=
  .next ((s.seen (.core k sec)).onAll (byRegister (Init.core k sec) .trc 0 0x20 fun c a m => (c.coreTrace k.val value.toNat, a, m)))

/-- TRACE_FLUSH (R347). A core's trace packets are flushed before LP_ENTER is written when it enters a low-power state. -/
def execTraceFlush (k : Fin 8) (st : Fin 4) (s : State) : Host.Outcome State Fault Refusal :=
  .next (s.onMem (traceFlush k.val st.val))

/-- FLUSH_INCOMPLETE (R347). A flush not done within 100 µs discards the core's remaining packets. -/
def execFlushIncomplete (k : Fin 8) (st : Fin 4) (s : State) : Host.Outcome State Fault Refusal :=
  .next (s.onChip fun c => c.flushIncomplete k.val st.val)

end Sys2Proof.Machine
end

