-- ==== Sys2Proof/Machine/DmaCommands.lean ====
section
/-! DEFINITION. DMA channels (R297 to R301). -/

namespace Sys2Proof.Machine

/-- DMA_CH_PI (R297). Advancing DMA_CH_PI hands new descriptors to the channel. -/
def execDmaChPi (who : Init) (n : Fin 4) (ch : Fin 8) (pi : BitVec 16) (s : State) : Host.Outcome State Fault Refusal :=
  .next ((s.seen who).onChip (byDma who n.val (0x101C + ch.val * 0x100) fun c => c.writeDmaPi (n.val * 8 + ch.val) pi.toNat))

/-- DESCRIPTOR (R300). A channel executes a descriptor, split into 256-byte transactions. -/
def execDescriptor (n : Fin 4) (ch : Fin 8) (desc : List Byte) (count : BitVec 16) (data : List Byte) (s : State) : Host.Outcome State Fault Refusal :=
  .next (s.onMem (dmaDescriptorAwake (n.val * 8 + ch.val) desc count.toNat data))

/-- DESCRIPTOR_COMPLETE (R299). When all a descriptor's writes have completed, its completion record is written, and a failure stops the
channel. -/
def execDescriptorComplete (n : Fin 4) (ch : Fin 8) (rest : List (List Byte)) (s : State) : Host.Outcome State Fault Refusal :=
  .next (s.onChip fun c => c.descriptorComplete (n.val * 8 + ch.val) rest)

/-- DMA_ABORT (R301). A 1 written to DMA_CH_CTL.ABORT stops the channel, and the remaining descriptors receive ABORTED. -/
def execDmaAbort (who : Init) (n : Fin 4) (ch : Fin 8) (rest : List (List Byte)) (s : State) : Host.Outcome State Fault Refusal :=
  .next ((s.seen who).onChip (byDma who n.val (0x1000 + ch.val * 0x100) fun c => c.dmaAbort (n.val * 8 + ch.val) rest))

end Sys2Proof.Machine
end

