-- ==== Sys2Proof/Machine/EthernetCommands.lean ====
section
/-! DEFINITION. The service Ethernet ports (R291, R292, R348). -/

namespace Sys2Proof.Machine

/-- FRAME_RECEIVE (R348). A received Ethernet frame is written into an owned receive descriptor with its stamp, or is dropped. -/
def execFrameReceive (p : Fin 2) (frame : List Byte) (fcsOk : Bool) (s : State) : Host.Outcome State Fault Refusal :=
  .next (s.onMem (frameReceive p.val frame fcsOk))

/-- FRAME_TRANSMIT (R348). An owned transmit descriptor is sent, with one-step or two-step PTP stamping. -/
def execFrameTransmit (p : Fin 2) (s : State) : Host.Outcome State Fault Refusal :=
  .next (s.onMem (frameTransmit p.val))

/-- EPOCH_ARM (R292). A write of ETH_PTP_NEXT_NS arms the next wrap's epoch. -/
def execEpochArm (k : Fin 8) (sec : Bool) (p : Fin 2) (ns : BitVec 30) (s : State) : Host.Outcome State Fault Refusal :=
  .next ((s.seen (.core k sec)).onAll (byRegister (Init.core k sec) .eth 0 (0x10 + p.val * 0x100) fun c a m => (c.epochArm p.val ns.toNat, a, m)))

/-- TX_TS_READ (R291). A read of the low half of ETH_TX_TS removes a stamp from the two-step FIFO. -/
def execTxTsRead (k : Fin 8) (sec : Bool) (p : Fin 2) (s : State) : Host.Outcome State Fault Refusal :=
  .next ((s.seen (.core k sec)).onChip fun c => regRead (Init.core k sec) (regAddr (Init.core k sec) .eth Reg.def_ETH_TX_TS 0 p.val) 4 c s.arr)

end Sys2Proof.Machine
end

