-- ==== Sys2Proof/Machine/FaultCommands.lean ====
section
/-! DEFINITION. The fault log (R407). -/

namespace Sys2Proof.Machine

/-- FLT_LOG_READ (R407). A read of the low half of FLT_LOG removes the oldest entry and latches its detail. -/
def execFltLogRead (k : Fin 8) (sec : Bool) (s : State) : Host.Outcome State Fault Refusal :=
  .next ((s.seen (.core k sec)).onChip fun c => regRead (Init.core k sec) 0x610 4 c s.arr)

end Sys2Proof.Machine
end

