-- ==== Sys2Proof/Machine/InterruptCommands.lean ====
section
/-! DEFINITION. The interrupt controller (R334 to R337). -/

namespace Sys2Proof.Machine

/-- SOURCE_EVENT (R334). An interrupt source event sets pending, and the source is presented to one target or posted as a token. -/
def execSourceEvent (source : BitVec 10) (s : State) : Host.Outcome State Fault Refusal :=
  .next (s.onChip fun c => c.sourceEvent source.toNat)

/-- IC_PEND_SET (R334). Writing 1 to IC_PEND_SET sets a source's pending bit. -/
def execIcPendSet (k : Fin 8) (sec : Bool) (w : Fin 32) (mask : Word32) (s : State) : Host.Outcome State Fault Refusal :=
  .next ((s.seen (.core k sec)).onChip fun c => (c.answer .ok).icPendSet w.val mask.toNat)

/-- IC_CLAIM (R336). A read of IC_CLAIM returns the highest presented source, sets it active and clears its pending bit. -/
def execIcClaim (k : Fin 8) (sec : Bool) (t : Fin 16) (s : State) : Host.Outcome State Fault Refusal :=
  .next ((s.seen (.core k sec)).onChip fun c => c.coreClaim k.val sec t.val)

/-- IC_COMPLETE (R337). A write of IC_COMPLETE clears an active source, or increments IC_ERR. -/
def execIcComplete (k : Fin 8) (sec : Bool) (t : Fin 16) (source : BitVec 10) (s : State) : Host.Outcome State Fault Refusal :=
  .next ((s.seen (.core k sec)).onChip fun c => c.coreComplete k.val sec t.val source.toNat)

end Sys2Proof.Machine
end

