-- ==== Sys2Proof/Machine/LaneCommands.lean ====
section
/-! DEFINITION. Serial lanes (R278 to R289). -/

namespace Sys2Proof.Machine

/-- BLOCK_LOCK (R281). Line bits of a 64b/66b lane: 64 valid headers at the candidate position lock it. -/
def execBlockLock (lane : Fin 64) (bits : List Bool) (s : State) : Host.Outcome State Fault Refusal :=
  .next (s.onChip fun c => c.blockLock lane.val bits)

/-- LOCK_LOSS (R281). Line bits of a locked lane: 16 invalid headers in a window, or 4 invalid groups in 8b/10b, lose lock or alignment. -/
def execLockLoss (lane : Fin 64) (bits : List Bool) (s : State) : Host.Outcome State Fault Refusal :=
  .next (s.onChip fun c => c.lockLoss lane.val bits)

/-- COMMA_ALIGN (R282). Line bits of an 8b/10b lane: its receiver aligns on a comma pattern. -/
def execCommaAlign (lane : Fin 64) (bits : List Bool) (s : State) : Host.Outcome State Fault Refusal :=
  .next (s.onChip fun c => c.commaBits lane.val bits)

/-- ADAPTATION_COMPLETE (R283). Initial equaliser adaptation completes and sets ADAPTED, after which hunting begins. -/
def execAdaptationComplete (q : Fin 16) (l : Fin 4) (s : State) : Host.Outcome State Fault Refusal :=
  .next (s.onChip fun c => c.adapted (q.val * 4 + l.val))

/-- PRBS_CHECKER_LOCK (R285). Line bits of a lane, in either encoding or raw (R279): the PRBS checker locks after 64 matching bits and unlocks after 64 errors in 1,024 bits. -/
def execPrbsCheckerLock (q : Fin 16) (l : Fin 4) (line : List Bool) (first : Nat) (n : Nat) (s : State) : Host.Outcome State Fault Refusal :=
  .next (s.onChip fun c => c.laneReceive (q.val * 4 + l.val) ((line.drop first).take n))

/-- PRBS_ERR_READ (R285). A read of LQ_PRBS_ERR latches LQ_PRBS_BITS and restarts both counts. -/
def execPrbsErrRead (who : Init) (q : Fin 16) (l : Fin 4) (s : State) : Host.Outcome State Fault Refusal :=
  .next ((s.seen who).onChip fun c => regRead who (regAddr who .lq Reg.def_LQ_PRBS_ERR q.val l.val) 4 c s.arr)

/-- INJ (R286). A 1 written to INJ inverts one bit of the next generated word. -/
def execInj (who : Init) (q : Fin 16) (l : Fin 4) (s : State) : Host.Outcome State Fault Refusal :=
  .next ((s.seen who).onAll (byRegister who .lq q.val (0x110 + l.val * 0x40) fun c a m => (c.writePrbsCtl (q.val * 4 + l.val) (c.regValue a Reg.def_LQ_PRBS_CTL (q.val * 4 + l.val) + (1 - c.get .LQ_PRBS_CTL_INJ (q.val * 4 + l.val)) * 2 ^ 16), a, m)))

/-- LANE_FAILURE (R288). A protected lane whose signal detect falls, or whose lock stays lost for FAIL_TIME, fails over to the spare. -/
def execLaneFailure (q : Fin 16) (l : Fin 4) (s : State) : Host.Outcome State Fault Refusal :=
  .next (s.onChip fun c => (c.laneFail (q.val * 4 + l.val)).treesSwitch)

/-- REVERT (R289). A 1 written to REVERT returns the port to its own lane and clears SPARE_USED and FAILED. -/
def execRevert (who : Init) (q : Fin 16) (s : State) : Host.Outcome State Fault Refusal :=
  .next ((s.seen who).onAll (byRegister who .lq q.val 0x0 fun c a m => ((c.laneRevert q.val).treesSwitch, a, m)))

/-- SIGNAL_DETECT (R283). A lane's signal detect rises or falls, which starts or stops adaptation and makes a raw-mode lane locked or unlocked. -/
def execSignalDetect (q : Fin 16) (l : Fin 4) (up : Bool) (s : State) : Host.Outcome State Fault Refusal :=
  .next (s.onChip fun c => c.signalDetect (q.val * 4 + l.val) up)

/-- PLL_LOCK (R278). A quad's PLL A or B locks after it is configured and sets PLLA_LOCK or PLLB_LOCK. -/
def execPllLock (q : Fin 16) (b : Bool) (s : State) : Host.Outcome State Fault Refusal :=
  .next (s.onChip fun c => c.pllLock q.val b)

end Sys2Proof.Machine
end

