-- ==== Sys2Proof/Machine/LoaderCommands.lean ====
section
/-! DEFINITION. The image loader (R189 to R194, R242). -/

namespace Sys2Proof.Machine

/-- LDR_LOAD (R189). LDR_CMD LOAD starts an image load, which is checked and written step by step from its source. -/
def execLdrLoad (who : Init) (p : Fin 16) (s : State) : Host.Outcome State Fault Refusal :=
  .next ((s.seen who).onAll (byRegister who .part p.val 0x4000 fun c a m => ldrWrite p.val 1 (!initHost who) c a m))

/-- LDR_ABORT (R194). LDR_CMD ABORT aborts a pending LOAD, with the clearing of R192, or is refused. -/
def execLdrAbort (who : Init) (p : Fin 16) (s : State) : Host.Outcome State Fault Refusal :=
  .next ((s.seen who).onAll (byRegister who .part p.val 0x4000 fun c a m => ldrWrite p.val 2 (!initHost who) c a m))

/-- IMAGE_SOURCE_READ (R190). Image bytes arrive from host memory or the xSPI flash, or a source read fails with IMG_SOURCE. -/
def execImageSourceRead (p : Fin 16) (bytes : Option (List Byte)) (s : State) : Host.Outcome State Fault Refusal :=
  .next (s.onAll (sourceRead p.val bytes))

/-- RIM_SECTION_HANDOFF (R242). The image loader hands its RIM section to the rim loader once the rim loader is free. -/
def execRimSectionHandoff (p : Fin 16) (s : State) : Host.Outcome State Fault Refusal :=
  .next (s.onAll (rimHandoff p.val))

end Sys2Proof.Machine
end

