-- ==== Sys2Proof/Machine/MailboxCommands.lean ====
section
/-! DEFINITION. Mailbox channels (R352, R353). -/

namespace Sys2Proof.Machine

/-- DOORBELL (R352). MBX_DOORBELL with RING = 1 commits the staged message into the channel. -/
def execDoorbell (who : Init) (n : Fin 64) (s : State) : Host.Outcome State Fault Refusal :=
  .next ((s.seen who).onAll (regWrite who (regAddr who .mbx Reg.def_MBX_DOORBELL n.val 0) 4 1))

/-- SNAPSHOT (R353). The receiver's read of MBX_MSG word 0 latches the whole message and SEQ. -/
def execSnapshot (who : Init) (n : Fin 64) (s : State) : Host.Outcome State Fault Refusal :=
  .next ((s.seen who).onChip fun c => regRead who (regAddr who .mbx Reg.def_MBX_MSG n.val 0) 4 c s.arr)

/-- TAKE (R353). The receiver's read of word 15 during a snapshot takes the message unless it has been replaced. -/
def execTake (who : Init) (n : Fin 64) (s : State) : Host.Outcome State Fault Refusal :=
  .next ((s.seen who).onChip fun c => regRead who (regAddr who .mbx Reg.def_MBX_MSG n.val 15) 4 c s.arr)

end Sys2Proof.Machine
end

