-- ==== Sys2Proof/Machine/MemoryAgent.lean ====
section
/-! DEFINITION. The commands of the memory port agents (R142, R147). -/

namespace Sys2Proof.Machine

/-- CREAD (R142). An agent entry issues a cistern read of a word of its own tile's cistern, performed in the agent's slot. -/
def execCread (tile : Fin 512) (agent : Fin 4) (s : State) : Host.Outcome State Fault Refusal :=
  .next (s.onAll (agentCommand issCread (tile.val * 4 + agent.val)))

/-- CWRITE (R142). An agent entry issues a cistern write of WDATA to a word of its own tile's cistern. -/
def execCwrite (tile : Fin 512) (agent : Fin 4) (s : State) : Host.Outcome State Fault Refusal :=
  .next (s.onAll (agentCommand issCwrite (tile.val * 4 + agent.val)))

/-- DREAD (R142). An agent entry issues a deep-memory read, which returns after LD executed steps. -/
def execDread (tile : Fin 512) (agent : Fin 4) (s : State) : Host.Outcome State Fault Refusal :=
  .next (s.onAll (agentCommand issDread (tile.val * 4 + agent.val)))

/-- DWRITE (R142). An agent entry issues a deep-memory write of WDATA, which is acknowledged by its return step. -/
def execDwrite (tile : Fin 512) (agent : Fin 4) (s : State) : Host.Outcome State Fault Refusal :=
  .next (s.onAll (agentCommand issDwrite (tile.val * 4 + agent.val)))

/-- DEEP_RETURN_ARRIVAL (R147). Deep read data or a write acknowledgement arrives in the agent's return queue and clears any MEM_LATE it caused. -/
def execDeepReturnArrival (tile : Fin 512) (agent : Fin 4) (place : Fin 16) (s : State) : Host.Outcome State Fault Refusal :=
  .next (s.onArr fun c a => (c, deepReturn (tile.val * 4 + agent.val) place.val c a))

end Sys2Proof.Machine
end

