-- ==== Sys2Proof/Machine/NetworkCommands.lean ====
section
/-! DEFINITION. Design memory and the network (R155 to R163, R306 to R314, R401). -/

namespace Sys2Proof.Machine

/-- NETWORK_READ (R155). A host, core or DMA read of design memory is performed in a network slot or completes with an error status. -/
def execNetworkRead (who : Init) (target : Target) (len : Fin 257) (s : State) : Host.Outcome State Fault Refusal :=
  .next ((s.seen who).onMem (netIssue who target (.read len.val) false))

/-- NETWORK_WRITE (R155). A host, core or DMA write of design memory is performed, merged when partial, or completes with an error status. -/
def execNetworkWrite (who : Init) (target : Target) (data : List Byte) (s : State) : Host.Outcome State Fault Refusal :=
  .next ((s.seen who).onMem (netIssue who target (.write data) false))

/-- ATOMIC_ADD (R155). An atomic add on a cistern or service SRAM word is performed within one slot and returns the old value. -/
def execAtomicAdd (who : Init) (target : Target) (wide : Bool) (value : Word64) (s : State) : Host.Outcome State Fault Refusal :=
  .next ((s.seen who).onMem (netIssue who target (.atomic (if wide then 8 else 4) true value.toNat) false))

/-- ATOMIC_SWAP (R155). An atomic swap on a cistern or service SRAM word is performed within one slot and returns the old value. -/
def execAtomicSwap (who : Init) (target : Target) (wide : Bool) (value : Word64) (s : State) : Host.Outcome State Fault Refusal :=
  .next ((s.seen who).onMem (netIssue who target (.atomic (if wide then 8 else 4) false value.toNat) false))

/-- CHANNEL_COMMAND_TIMEOUT (R400). A deep-memory channel command that exceeds 4 µs fails the channel. -/
def execChannelCommandTimeout (stack : Fin 8) (ch : Fin 16) (s : State) : Host.Outcome State Fault Refusal :=
  .next (s.onArr (channelLost stack.val ch.val))

/-- DESTRUCTIVE_TEST (R162). MT_CMD starts a destructive March C− test of a band's stores or a service SRAM bank. -/
def execDestructiveTest (k : Fin 8) (sec : Bool) (target : Fin 4) (unit : Fin 64) (s : State) : Host.Outcome State Fault Refusal :=
  .next ((s.seen (.core k sec)).onAll (byRegister (Init.core k sec) .dmc 0 0x100 fun c a m => mtWrite 1 target.val unit.val c a m))

/-- PRESERVING_TEST (R162). MT_CMD starts a March C− test that saves and restores each word. -/
def execPreservingTest (k : Fin 8) (sec : Bool) (target : Fin 4) (unit : Fin 64) (s : State) : Host.Outcome State Fault Refusal :=
  .next ((s.seen (.core k sec)).onAll (byRegister (Init.core k sec) .dmc 0 0x100 fun c a m => mtWrite 2 target.val unit.val c a m))

/-- MARCH_TEST_COMPLETE (R163). A march test ends and produces MT_RESULT, with failures counted and the first one located. -/
def execMarchTestComplete (fails : List (BitVec 17 × BitVec 20)) (s : State) : Host.Outcome State Fault Refusal :=
  .next (s.onAll (mtComplete (fails.map fun e => (e.1.toNat, e.2.toNat))))

/-- BAR2_ACCESS (R307). A host BAR2 access is split into network transactions, and its PCIe response follows their statuses. -/
def execBar2Access (n : Fin 4) (off : BitVec 36) (len : Fin 4097) (data : Option (List Byte)) (s : State) : Host.Outcome State Fault Refusal :=
  .next (s.onMem (bar2Access n off.toNat len.val data))

/-- BAR2_SEL_WRITE (R306). A write to GLB_BAR2_SEL is performed only when PART is bound to the writing port. -/
def execBar2SelWrite (n : Fin 4) (part : BitVec 4) (win : BitVec 2) (s : State) : Host.Outcome State Fault Refusal :=
  .next (s.onChip fun c => if c.hostGone (.host n) then c else (c.answer .ok).writeBar2Sel n.val (part.toNat + win.toNat * 2 ^ 8))

/-- TRANSACTION_COMPLETION (R311). A response ends a network transaction with one status and frees its tag, or is discarded for a generation
mismatch. -/
def execTransactionCompletion (tag : BitVec 16) (gen : BitVec 4) (retries : BitVec 3) (s : State) : Host.Outcome State Fault Refusal :=
  .next (s.onArr (txnComplete tag.toNat gen.toNat retries.toNat))

/-- NET_TIMEOUT (R314). A transaction without a response after the timeout is given a synthesised NET_TIMEOUT completion. -/
def execNetTimeout (tag : BitVec 16) (s : State) : Host.Outcome State Fault Refusal :=
  .next (s.onAll (netTimeoutAny tag.toNat))

/-- LINK_FAIL (R401). Eight consecutive retries fail a die link, and every partition on that die is reset. -/
def execLinkFail (die : Fin 4) (s : State) : Host.Outcome State Fault Refusal :=
  .next (s.onArr (linkFail die.val))

end Sys2Proof.Machine
end

