-- ==== Sys2Proof/Machine/PartitionCommands.lean ====
section
/-! DEFINITION. Partitions: PTN_CMD, priming, rebinding, and repairs of their stores (R126 to R133, R154, R403, R404). -/

namespace Sys2Proof.Machine

/-- CREATE (R126). PTN_CMD CREATE claims a run of bands, sets owner tags and makes the partition active. -/
def execCreate (who : Init) (p : Fin 16) (s : State) : Host.Outcome State Fault Refusal :=
  .next ((s.seen who).onAll (byRegister who .part p.val 0x1004 fun c a m => faultAfter (ptnWrite p.val 1 (!initHost who) c a m)))

/-- RELEASE (R126). PTN_CMD RELEASE starts clearing the partition's stores and returns its bands. -/
def execRelease (who : Init) (p : Fin 16) (s : State) : Host.Outcome State Fault Refusal :=
  .next ((s.seen who).onAll (byRegister who .part p.val 0x1004 fun c a m => faultAfter (ptnWrite p.val 2 (!initHost who) c a m)))

/-- RELEASE_CLEAR_COMPLETE (R127). When clearing ends, the partition's registers return to reset values, ACTIVE becomes 0 and the RELEASE result
is produced. -/
def execReleaseClearComplete (p : Fin 16) (s : State) : Host.Outcome State Fault Refusal :=
  .next (s.onAll (releaseDone p.val))

/-- RESET (R128). PTN_CMD RESET stops the pump at once, drops holds and pending commands, and re-primes the partition from the golden copy. -/
def execReset (who : Init) (p : Fin 16) (s : State) : Host.Outcome State Fault Refusal :=
  .next ((s.seen who).onAll (byRegister who .part p.val 0x1004 fun c a m => faultAfter (ptnWrite p.val 3 (!initHost who) c a m)))

/-- PRIMING_COMPLETE (R154). Once every awaited deep access has ended, priming completes and the pump enters HALT with cycle number 0. -/
def execPrimingComplete (p : Fin 16) (s : State) : Host.Outcome State Fault Refusal :=
  .next (s.onChip fun c => primingDone p.val c s.arr)

/-- REBIND (R133). A partition with LOSS = REBIND moves to ALT at the arbitration point, or takes its FALLBACK policy when ALT is unavailable. -/
def execRebind (p : Fin 16) (s : State) : Host.Outcome State Fault Refusal :=
  .next (s.onChip fun c => c.rebind p.val)

/-- GOLDEN_ENTRY_WRITE (R403). The golden entry arrives, is written and checked again, and REPAIR clears when the check passes. -/
def execGoldenEntryWrite (p : Fin 16) (s : State) : Host.Outcome State Fault Refusal :=
  .next (s.onArr fun c a => goldenWrite p.val c a s.mem)

/-- REPAIR_FAIL (R404). A failed golden read or second check, or 20 µs without an outcome, fails the repair and resets or stops the partition. -/
def execRepairFail (p : Fin 16) (reason : Fin 4) (s : State) : Host.Outcome State Fault Refusal :=
  .next (s.onArr (repairFail p.val reason.val))

end Sys2Proof.Machine
end

