-- ==== Sys2Proof/Machine/PinCommands.lean ====
section
/-! DEFINITION. Pins, banks and the agents' GPIO (R265 to R272). -/

namespace Sys2Proof.Machine

/-- PIN_FUNCTION_CHANGE (R270). A change of FUNC or STD is taken at the next pin-clock edge, and the pad goes idle. -/
def execPinFunctionChange (b : Fin 12) (n : Fin 32) (s : State) : Host.Outcome State Fault Refusal :=
  .next (s.onChip fun c => c.pinChange (b.val * 32 + n.val))

/-- PIN_SWITCH_COMPLETE (R270). Two pin-clock periods after the change, the new source drives the pad. -/
def execPinSwitchComplete (b : Fin 12) (n : Fin 32) (s : State) : Host.Outcome State Fault Refusal :=
  .next (s.onChip fun c => c.pinSwitched (b.val * 32 + n.val))

/-- IOB_LOCK (R272). The key sequence 0xA5 then 0x5A written to IOB_LOCK locks the bank's configuration. -/
def execIobLock (who : Init) (b : Fin 12) (key : BitVec 8) (s : State) : Host.Outcome State Fault Refusal :=
  .next ((s.seen who).onAll (byRegister who .iob b.val 0x8 fun c a m => (c.iobLock b.val key.toNat, a, m)))

/-- AGP_WRITE (R271). A masked write to AGP_OUT or AGP_OE changes only the bits of pins owned by the writing core, and denied bits are counted. -/
def execAgpWrite (k : Fin 8) (sec : Bool) (b : Fin 12) (reg : GpioReg) (value : Word32) (s : State) : Host.Outcome State Fault Refusal :=
  .next ((s.seen (.core k sec)).onAll (byRegister (Init.core k sec) .agp 0 (b.val * 0x20 + gpioOffset reg) fun c a m => (c.agpWrite k.val b.val (gpioReg reg) value.toNat, a, m)))

/-- PGOOD_RISE (R267). A bank supply reaching 1.0 V samples BSTRAP, and its pins stay in the power-off state for 100 µs. -/
def execPgoodRise (b : Fin 12) (strap : Fin 4) (s : State) : Host.Outcome State Fault Refusal :=
  .next (s.onChip fun c => c.pgoodRise b.val strap.val)

/-- PGOOD_SETTLE (R267). 100 µs after PGOOD rises, the bank's pins take the state of R265. -/
def execPgoodSettle (b : Fin 12) (s : State) : Host.Outcome State Fault Refusal :=
  .next (s.onChip fun c => c.pgoodSettle b.val)

/-- PGOOD_FALL (R267). A bank supply falling below 1.0 V puts its pins at once into the power-off state, and its inputs read 0. -/
def execPgoodFall (b : Fin 12) (s : State) : Host.Outcome State Fault Refusal :=
  .next (s.onChip fun c => c.pgoodFall b.val)

/-- VCCIO_MEASUREMENT (R265). Every 100 µs VMEAS is updated, and a change of VMISMATCH changes the bank's pin state and raises source 227 + b. -/
def execVccioMeasurement (b : Fin 12) (v : BitVec 8) (s : State) : Host.Outcome State Fault Refusal :=
  .next (s.onChip fun c => c.vMeasure b.val v.toNat)

end Sys2Proof.Machine
end

