-- ==== Sys2Proof/Machine/PortCommands.lean ====
section
/-! DEFINITION. Host ports: links and resets (R130, R295). -/

namespace Sys2Proof.Machine

/-- PERST_N_ASSERT (R295). PERST_N[n] resets port n's link, configuration, MSI-X and DMA state, and is a host loss. -/
def execPerstAssert (n : Fin 4) (s : State) : Host.Outcome State Fault Refusal :=
  .next (s.onAll (perstAssert n.val))

/-- PERST_N_DEASSERT (R295). Port n retrains once PERST_N[n] deasserts. -/
def execPerstDeassert (n : Fin 4) (s : State) : Host.Outcome State Fault Refusal :=
  .next (s.onChip fun c => c.perstDeassert n.val)

/-- LINK_DOWN (R295). A port's link leaves the active state and resets the port and its DMA items. -/
def execLinkDown (n : Fin 4) (s : State) : Host.Outcome State Fault Refusal :=
  .next (s.onChip fun c => c.linkDown n.val)

/-- LINK_RETURN_TIMEOUT (R130). A link that has not returned within 1 ms makes the port a lost host. -/
def execLinkReturnTimeout (n : Fin 4) (s : State) : Host.Outcome State Fault Refusal :=
  .next (s.onAll (linkTimeout n.val))

/-- SURPRISE_REMOVAL (R130). A surprise removal reported by hot plug makes the port a lost host. -/
def execSurpriseRemoval (n : Fin 4) (s : State) : Host.Outcome State Fault Refusal :=
  .next (s.onAll (surpriseRemoval n.val))

/-- FUNCTION_LEVEL_RESET (R295). A function-level reset of port n resets its MSI-X state and DMA channels and keeps the link. -/
def execFunctionLevelReset (n : Fin 4) (s : State) : Host.Outcome State Fault Refusal :=
  .next (s.onChip fun c => c.functionReset n.val)

/-- LINK_RETURN (R295). A PCIe port's link trains to the active state, after PERST_N deasserts or after a link-down that ends within 1 ms, and
raises source 164 + n. -/
def execLinkReturn (n : Fin 4) (speed : Fin 7) (width : Fin 17) (s : State) : Host.Outcome State Fault Refusal :=
  .next (s.onChip fun c => c.linkReturn n.val speed.val width.val)

end Sys2Proof.Machine
end

