-- ==== Sys2Proof/Machine/PowerCommands.lean ====
section
/-! DEFINITION. Power states, quiesce, wake, regulators and temperature (R377 to R390). -/

namespace Sys2Proof.Machine

/-- AVS_TIMEOUT (R378). An unacknowledged voltage request restores the previous target, sets PWR_AVS.FAIL and raises source 248. -/
def execAvsTimeout (s : State) : Host.Outcome State Fault Refusal :=
  .next (s.onChip fun c => c.avsTimeout)

/-- IDLE (R382). PWR_CMD IDLE gates the array clocks. -/
def execIdle (k : Fin 8) (sec : Bool) (s : State) : Host.Outcome State Fault Refusal :=
  .next ((s.seen (.core k sec)).onAll (byRegister (Init.core k sec) .svc 0 0x404 fun c a m => pwrCmd 1 true c a m))

/-- WATCH (R382). PWR_CMD WATCH puts the dies in retention and starts sampling the watch vector. -/
def execWatch (k : Fin 8) (sec : Bool) (s : State) : Host.Outcome State Fault Refusal :=
  .next ((s.seen (.core k sec)).onAll (byRegister (Init.core k sec) .svc 0 0x404 fun c a m => pwrCmd 2 true c a m))

/-- SLEEP (R385). PWR_CMD SLEEP turns off the compute and HBM rails and keeps only the always-on domain. -/
def execSleep (k : Fin 8) (sec : Bool) (ack : Bool) (s : State) : Host.Outcome State Fault Refusal :=
  .next ((s.seen (.core k sec)).onAll (byRegister (Init.core k sec) .svc 0 0x404 fun c a m => pwrCmd 3 ack c a m))

/-- ON (R382). PWR_CMD ON returns the module from IDLE to ON. -/
def execOn (k : Fin 8) (sec : Bool) (s : State) : Host.Outcome State Fault Refusal :=
  .next ((s.seen (.core k sec)).onAll (byRegister (Init.core k sec) .svc 0 0x404 fun c a m => pwrCmd 4 true c a m))

/-- QUIESCE (R390). PWR_CMD QUIESCE halts pumps, aborts DMA and winds down every item in flight. -/
def execQuiesce (k : Fin 8) (sec : Bool) (s : State) : Host.Outcome State Fault Refusal :=
  .next ((s.seen (.core k sec)).onAll (byRegister (Init.core k sec) .svc 0 0x404 fun c a m => pwrCmd 5 true c a m))

/-- QUIESCE_COMPLETE (R390). When no tags are in use, QUIESCE produces COMPLETED. -/
def execQuiesceComplete (s : State) : Host.Outcome State Fault Refusal :=
  .next (s.onMem fun c m => quiesceComplete c s.arr m)

/-- QUIESCE_PUMP_LIMIT (R390). A pump not halted within QLIMIT receives a partition reset. -/
def execQuiescePumpLimit (s : State) : Host.Outcome State Fault Refusal :=
  .next (s.onArr quiesceLimit)

/-- DEMAND_EXIT (R383). A command or a compute-side access in IDLE or WATCH returns the module to ON or IDLE. -/
def execDemandExit (command : Bool) (s : State) : Host.Outcome State Fault Refusal :=
  .next (s.onChip fun c => c.demand command)

/-- WATCH_SAMPLE (R384). Every INTERVAL the WATCH engine samples the vector, and COUNT mismatches return the module to IDLE. -/
def execWatchSample (raw : BitVec 96) (s : State) : Host.Outcome State Fault Refusal :=
  .next (s.onChip fun c => c.watchSample raw.toNat)

/-- WAKE_PIN (R386). An enabled WAKE level wakes the module from SLEEP. -/
def execWakePin (n : Fin 4) (level : Bool) (s : State) : Host.Outcome State Fault Refusal :=
  .next (s.onChip fun c => c.wakePin n.val (b2n level))

/-- MGMT_ADDRESS_MATCH (R386). A matching MGMT address wakes the module from SLEEP. -/
def execMgmtAddressMatch (addr : BitVec 7) (s : State) : Host.Outcome State Fault Refusal :=
  .next (s.onChip fun c => c.mgmtMatch addr.toNat)

/-- WAKE_COMPLETE (R386). Wake restores the rails, retrains and enters IDLE, and the command result is produced. -/
def execWakeComplete (s : State) : Host.Outcome State Fault Refusal :=
  .next (s.onAll wakeComplete)

/-- THRESHOLD_CROSSING (R377). A die temperature crossing WARN or CRIT raises source 249. -/
def execThresholdCrossing (die : Fin 5) (temp : BitVec 8) (s : State) : Host.Outcome State Fault Refusal :=
  .next (s.onAll (dieTemperature die.val temp.toNat))

/-- PMB_ALERT_N (R380). A low level on PMB_ALERT_N raises source 247. -/
def execPmbAlert (s : State) : Host.Outcome State Fault Refusal :=
  .next (s.onChip fun c => c.raise 247)

/-- POWER_STATE_EXIT_COMPLETE (R383). A demand exit from IDLE or WATCH completes when the step clock runs or IDLE is reached, and the waiting
command or access then takes effect. -/
def execPowerStateExitComplete (s : State) : Host.Outcome State Fault Refusal :=
  .next (s.onAll exitComplete)

end Sys2Proof.Machine
end

