-- ==== Sys2Proof/Machine/ProbeCommands.lean ====
section
/-! DEFINITION. Probes, triggers and capture (R206 to R216). -/

namespace Sys2Proof.Machine

/-- ARM (R216). PRB_CMD ARM validates the buffer and enters PRE, placing the sequencer in state 0. -/
def execArm (who : Init) (p : Fin 16) (s : State) : Host.Outcome State Fault Refusal :=
  .next ((s.seen who).onAll (byRegister who .prb p.val 0x4 fun c a m => (c.prbCmd p.val 1, a, m)))

/-- DISARM (R216). PRB_CMD DISARM stops evaluation and waits for formed records to complete. -/
def execDisarm (who : Init) (p : Fin 16) (s : State) : Host.Outcome State Fault Refusal :=
  .next ((s.seen who).onAll (byRegister who .prb p.val 0x4 fun c a m => (c.prbCmd p.val 2, a, m)))

/-- DISARM_COMPLETE (R216). When every formed record has completed, capture enters IDLE and the DISARM result is produced. -/
def execDisarmComplete (p : Fin 16) (s : State) : Host.Outcome State Fault Refusal :=
  .next (s.onChip fun c => c.disarmComplete p.val)

/-- FORCE (R216). PRB_CMD FORCE sets the FORCE sequencer input so that the trigger follows. -/
def execForce (who : Init) (p : Fin 16) (s : State) : Host.Outcome State Fault Refusal :=
  .next ((s.seen who).onAll (byRegister who .prb p.val 0x4 fun c a m => (c.prbCmd p.val 3, a, m)))

/-- RECORD_DRAIN (R206). A staged record drains into deep memory at the probe bandwidth, frees staging room and may clear PROBE_FULL. -/
def execRecordDrain (p : Fin 16) (n : BitVec 16) (s : State) : Host.Outcome State Fault Refusal :=
  .next (s.onMem (recordDrainAwake p.val n.toNat))

/-- RATE_FALL (R206). After RELAX cycles with low occupancy, the rate exponent falls by 1. -/
def execRateFall (p : Fin 16) (s : State) : Host.Outcome State Fault Refusal :=
  .next (s.onChip fun c => c.rateFall p.val)

/-- XTRIG_IN_EDGE (R211). A synchronised XTRIG_IN rising edge sets latch n in every partition. -/
def execXtrigInEdge (n : Fin 4) (short : Bool) (s : State) : Host.Outcome State Fault Refusal :=
  .next (s.onChip fun c => c.xtrigIn n.val short)

/-- TRIGGER_LINE_ARRIVAL (R212). A trigger-line pulse sets the latch in a partition bound to the same master TL periods after the evaluation. -/
def execTriggerLineArrival (q : Fin 16) (p : Fin 16) (s : State) : Host.Outcome State Fault Refusal :=
  .next (s.onChip fun c => c.lineArrival q.val p.val)

/-- XTRIG_OUT_PULSE_END (R213). XTRIG_OUT[n] falls 20 ns after its last rise. -/
def execXtrigOutPulseEnd (n : Fin 4) (s : State) : Host.Outcome State Fault Refusal :=
  .next (s.onChip fun c => c.xoutEnd n.val)

/-- XTRIG_OUT_RISE (R213). XTRIG_OUT[n] rises 8 step-clock periods after an evaluation whose actions pulse it. -/
def execXtrigOutRise (n : Fin 4) (s : State) : Host.Outcome State Fault Refusal :=
  .next (s.onChip fun c => c.xoutRise n.val)

end Sys2Proof.Machine
end

