-- ==== Sys2Proof/Machine/PumpCommands.lean ====
section
/-! DEFINITION. The pump: ticks, holds, PMP_CMD and its ramps and rate changes (R92 to R113). -/

namespace Sys2Proof.Machine

/-- TICK (R99). A tick from the divider, TICK_IN or a rim clock tree is accepted, counted as an overrun, merged or discarded, according to the
pump's state and policy. -/
def execTick (src : TickSource) (rising : Bool) (s : State) : Host.Outcome State Fault Refusal :=
  .next (s.onAll (tickFrom src rising))

/-- ELASTIC_LATE_RELEASE (R236). An output entry not released in time is released three periods after its cycle ends, and OUT_LATE is set. -/
def execElasticLateRelease (p : Fin 16) (s : State) : Host.Outcome State Fault Refusal :=
  .next (s.onArr (elLateRelease p.val))

/-- HOLD_RELEASE (R109). The held step executes in the sixth period after the last recorded cause clears. -/
def execHoldRelease (p : Fin 16) (s : State) : Host.Outcome State Fault Refusal :=
  .next (s.onArr (holdRelease p.val))

/-- HOLD_LONG (R112). A hold that outlasts PMP_HOLD_LIMIT sets PMP_EVENT.HOLD_LONG. -/
def execHoldLong (p : Fin 16) (s : State) : Host.Outcome State Fault Refusal :=
  .next (s.onChip fun c => Chip.holdLong c p.val)

/-- START (R92). PMP_CMD START moves a halted pump into RAMP, or is refused. -/
def execStart (who : Init) (p : Fin 16) (s : State) : Host.Outcome State Fault Refusal :=
  .next ((s.seen who).onAll (byRegister who .part p.val 0x4 fun c a m => faultAfter (pmpWrite p.val 1 0 (!initHost who) c a m)))

/-- HALT (R92). PMP_CMD HALT stops the partition at the end of the current cycle or at once between cycles, or aborts a pending START or STEP. -/
def execHalt (who : Init) (p : Fin 16) (s : State) : Host.Outcome State Fault Refusal :=
  .next ((s.seen who).onAll (byRegister who .part p.val 0x4 fun c a m => faultAfter (pmpWrite p.val 2 0 (!initHost who) c a m)))

/-- STEP (R92). PMP_CMD STEP executes COUNT cycles back to back and returns to WAIT. -/
def execStep (who : Init) (p : Fin 16) (count : BitVec 16) (s : State) : Host.Outcome State Fault Refusal :=
  .next ((s.seen who).onAll (byRegister who .part p.val 0x4 fun c a m => faultAfter (pmpWrite p.val 3 count.toNat (!initHost who) c a m)))

/-- PRIME (R92). PMP_CMD PRIME reloads priming, clears exchange registers and sets the cycle number to 0. -/
def execPrime (who : Init) (p : Fin 16) (s : State) : Host.Outcome State Fault Refusal :=
  .next ((s.seen who).onAll (byRegister who .part p.val 0x4 fun c a m => faultAfter (pmpWrite p.val 4 0 (!initHost who) c a m)))

/-- SETRATE (R113). PMP_CMD SETRATE from the service complex requests a change of the module step rate. -/
def execSetrate (who : Init) (p : Fin 16) (econ : Bool) (s : State) : Host.Outcome State Fault Refusal :=
  .next ((s.seen who).onAll (byRegister who .part p.val 0x4 fun c a m => faultAfter (pmpWrite p.val 5 (b2n econ) (!initHost who) c a m)))

/-- RAMP_COMPLETE (R96). After 32 µs the start ramp ends, and the pump enters RUN or WAIT and the START result is produced. -/
def execRampComplete (p : Fin 16) (s : State) : Host.Outcome State Fault Refusal :=
  .next (s.onArr (rampComplete p.val))

/-- RATE_CHANGE_COMPLETE (R113). After 200 µs the new step rate runs, PMP_RATE changes and the SETRATE result is produced. -/
def execRateChangeComplete (s : State) : Host.Outcome State Fault Refusal :=
  .next (s.onChip fun c => c.rateChangeComplete)

/-- FETCH_WHILE_NOT_RUNNING (R111). In RAMP, WAIT and HOLD, instruction fetch and checking continue each period, and an uncorrectable word found
there starts a repair. -/
def execFetchWhileNotRunning (p : Fin 16) (w : BitVec 12) (s : State) : Host.Outcome State Fault Refusal :=
  .next (s.onArr (fetchWhile p.val w.toNat))

/-- RAMP_HOLD_DECISION (R108). In each of the last six periods of RAMP, the pump samples hold requests and decides whether step 0 to 5 of the
first cycle is held. -/
def execRampHoldDecision (p : Fin 16) (j : Fin 6) (s : State) : Host.Outcome State Fault Refusal :=
  .next (s.onChip fun c => rampDecision p.val j.val c s.arr)

end Sys2Proof.Machine
end

