-- ==== Sys2Proof/Machine/Registers.lean ====
section
/-! DEFINITION. Register accesses (R12 to R16, R95). -/

namespace Sys2Proof.Machine

/-- REGISTER_WRITE (R12). A write to a register field that has no row of its own takes effect according to the field's access type, lock,
reserved-bit and configuration-rejection rules. -/
def execRegisterWrite (who : Init) (addr : BitVec 48) (size : Fin 4) (value : Word64) (s : State) : Host.Outcome State Fault Refusal :=
  .next ((s.seen who).onAll (mapWrite who addr.toNat (2 ^ size.val) value.toNat))

/-- RC_READ (R12). A read of a read-to-clear field returns its value and then clears it, unless a hardware set arrives in the same clock. -/
def execRcRead (who : Init) (addr : BitVec 48) (size : Fin 4) (s : State) : Host.Outcome State Fault Refusal :=
  .next ((s.seen who).onAll (mapRead who addr.toNat (2 ^ size.val)))

/-- LOW_HALF_READ (R16). A 32-bit read of the low half of a 64-bit register returns that half and latches the high half for the same initiator. -/
def execLowHalfRead (who : Init) (addr : BitVec 48) (s : State) : Host.Outcome State Fault Refusal :=
  .next ((s.seen who).onAll (mapRead who addr.toNat 4))

/-- HIGH_HALF_READ (R16). A 32-bit read of the high half of a 64-bit register returns the initiator's latched value and consumes it, or returns
the current high half when nothing is latched. -/
def execHighHalfRead (who : Init) (addr : BitVec 48) (s : State) : Host.Outcome State Fault Refusal :=
  .next ((s.seen who).onAll (mapRead who addr.toNat 4))

/-- LOW_HALF_WRITE (R16). A 32-bit write of the low half of a 64-bit register is held for the initiator until the high half is written. -/
def execLowHalfWrite (who : Init) (addr : BitVec 48) (value : Word32) (s : State) : Host.Outcome State Fault Refusal :=
  .next ((s.seen who).onAll (mapWrite who addr.toNat 4 value.toNat))

/-- HIGH_HALF_WRITE (R16). A 32-bit write of the high half of a 64-bit register applies both halves in one clock, or only the high half when no
low half is held. -/
def execHighHalfWrite (who : Init) (addr : BitVec 48) (value : Word32) (s : State) : Host.Outcome State Fault Refusal :=
  .next ((s.seen who).onAll (mapWrite who addr.toNat 4 value.toNat))

/-- RESULT_READ (R95). A read of a result register returns the result, sets CONSUMED on the first read while READY, and latches PMP_RESULT_CYC. -/
def execResultRead (who : Init) (r : ResultReg) (s : State) : Host.Outcome State Fault Refusal :=
  .next ((s.seen who).onChip fun c => resultRead who r c s.arr)

end Sys2Proof.Machine
end

