-- ==== Sys2Proof/Machine/ResetCommands.lean ====
section
/-! DEFINITION. Module resets, start-up and hot removal (R377, R387 to R393). -/

namespace Sys2Proof.Machine

/-- THERMAL_TRIP (R377). A junction at 125 °C causes a module reset. -/
def execThermalTrip (s : State) : Host.Outcome State Fault Refusal :=
  .next (s.onAll fun c _ _ => resetAll Chip.causeTherm c)

/-- POWER_ON (R388). Power-on resets the whole module. -/
def execPowerOn (s : State) : Host.Outcome State Fault Refusal :=
  .next (s.onAll fun c _ _ => resetAll Chip.causePor c)

/-- RESET_N (R388). RESET_N asserts and resets the whole module. -/
def execResetN (s : State) : Host.Outcome State Fault Refusal :=
  .next (s.onAll fun c _ _ => resetAll Chip.causePin c)

/-- BROWN_OUT (R387). A rail below 90 % of nominal while RESET_N is high causes a module reset. -/
def execBrownOut (s : State) : Host.Outcome State Fault Refusal :=
  .next (s.onAll brownOut)

/-- START_UP (R389). After RESET_N deasserts, start-up runs fuses, PLLs, tests, boot, training and loads in order. -/
def execStartUp (u : StartUp) (s : State) : Host.Outcome State Fault Refusal :=
  .next (s.onAll (startUpAll u))

/-- PRESENT_N_DEASSERT (R391). PRESENT_N high for 1 µs releases the bank pins, holds the ports in reset and starts QUIESCE. -/
def execPresentDeassert (s : State) : Host.Outcome State Fault Refusal :=
  .next (s.onAll presentDeassert)

/-- PRESENT_N_ASSERT (R391). PRESENT_N low for 10 ms is taken as asserted. -/
def execPresentAssert (s : State) : Host.Outcome State Fault Refusal :=
  .next (s.onChip fun c => c.presentAssert)

/-- LIFE_CYCLE_RESET (R393). 1 ms after an accepted life-cycle change, the module resets. -/
def execLifeCycleReset (s : State) : Host.Outcome State Fault Refusal :=
  .next (s.onAll lifeCycleReset)

/-- POWER_REMOVAL (R387). The rails are removed, and the module enters OFF, losing its configuration and clearing the tamper latch. -/
def execPowerRemoval (s : State) : Host.Outcome State Fault Refusal :=
  .next (s.onAll fun c _ _ => resetAll Chip.causeOff c)

end Sys2Proof.Machine
end

