-- ==== Sys2Proof/Machine/RimCommands.lean ====
section
/-! DEFINITION. The rim fabric and the rim loader's commands (R225 to R255). -/

namespace Sys2Proof.Machine

/-- BUS_CONTENTION (R225). Overlapping drivers on a bank bus line for more than 200 ps are disabled, and the event is recorded. -/
def execBusContention (bank : Fin 12) (line : Fin 64) (drivers : List (Fin 64)) (ps : BitVec 16) (s : State) : Host.Outcome State Fault Refusal :=
  .next (s.onAll fun c a m => (contention bank.val line.val (drivers.map Fin.val) ps.toNat c a m, a, m))

/-- BUS_EVT_CLEAR (R225). A 1 written to a RIM_BUS_EVT bank bit clears it and re-enables that bank's disabled drivers. -/
def execBusEvtClear (who : Init) (mask : BitVec 12) (s : State) : Host.Outcome State Fault Refusal :=
  .next ((s.seen who).onAll (byRegister who .rim 0 0xA0 fun c a m => (c.busEvtClear mask.toNat, a, m)))

/-- CLOCK_SOURCE_LOSS (R227). A clock-tree source with no rising edge for 10.24 µs is marked lost, and the tree switches to ALT or is held low. -/
def execClockSourceLoss (tree : Fin 12) (s : State) : Host.Outcome State Fault Refusal :=
  .next (s.onChip fun c => c.clockLoss tree.val)

/-- SCRUB_FRAME (R238). Every 20 ns the scrubber reads the next frame, rewrites correctable words and records uncorrectable ones. -/
def execScrubFrame (data : List (Fin 16 × Fin 64)) (check : List (Fin 16 × Fin 8)) (s : State) : Host.Outcome State Fault Refusal :=
  .next (s.onMem (scrubFrame (flippedBits data check)))

/-- RIM_LD_LOAD (R242). RIM_LD_CMD LOAD starts a stream from the xSPI flash or the shared load bus. -/
def execRimLdLoad (who : Init) (s : State) : Host.Outcome State Fault Refusal :=
  .next ((s.seen who).onAll (byRegister who .rim 0 0x104 fun c a m => let x := rimLdCmd 1 0 c m; (x.1, a, x.2)))

/-- RIM_LD_ABORT (R250). RIM_LD_CMD ABORT aborts a pending rim load and clears the sectors in LOADING. -/
def execRimLdAbort (who : Init) (s : State) : Host.Outcome State Fault Refusal :=
  .next ((s.seen who).onAll (byRegister who .rim 0 0x104 fun c a m => let x := rimLdCmd 2 0 c m; (x.1, a, x.2)))

/-- CLEAR (R255). RIM_LD_CMD CLEAR removes a sector's configuration and returns it to EMPTY. -/
def execClear (who : Init) (sector : Fin 16) (s : State) : Host.Outcome State Fault Refusal :=
  .next ((s.seen who).onAll (byRegister who .rim 0 0x104 fun c a m => let x := rimLdCmd 3 sector.val c m; (x.1, a, x.2)))

/-- CLEAR_COMPLETE (R255). The cleared sector reaches EMPTY within 200 µs. -/
def execClearComplete (s : State) : Host.Outcome State Fault Refusal :=
  .next (s.onMem rimCleared)

/-- SECTOR_STARTUP_COMPLETE (R253). After 20 ns in STARTING, a sector releases its start-up reset and enters RUNNING. -/
def execSectorStartupComplete (sector : Fin 12) (s : State) : Host.Outcome State Fault Refusal :=
  .next (s.onChip fun c => c.sectorRun sector.val)

/-- RESET_TREE_CHANGE (R229). A rim reset tree's selected source, pin IOB<BANK>_2 or a reset-driver cell, asserts at once or deasserts at the
second rising edge of tree SYNC. -/
def execResetTreeChange (tree : Fin 4) (asserted : Bool) (s : State) : Host.Outcome State Fault Refusal :=
  .next (s.onAll fun c a m => (resetTreeChange tree.val asserted c a m, a, m))

end Sys2Proof.Machine
end

