-- ==== Sys2Proof/Machine/RimStream.lean ====
section
/-! DEFINITION. The words of a rim configuration stream (R242 to R250). -/

namespace Sys2Proof.Machine

/-- Words of the xSPI flash and of the load bus reach the rim loader only while it takes a stream from there (R242, R244). -/
def State.onStream (s : State) (f : Chip → Mem → Chip × Mem) : State :=
  s.onMem fun c m => if c.get .RIM_LD_STATUS_ORIGIN 0 = 2 then (c, m) else f c m

/-- SYNC_WORD (R245). The first stream word must be the sync word, which sets the select mask to 0xFF. -/
def execSyncWord (w : Word32) (s : State) : Host.Outcome State Fault Refusal :=
  .next (s.onStream (streamSync w.toNat))

/-- STREAM_NOP (R245). A NOP command word in a stream does nothing. -/
def execStreamNop (op : BitVec 8) (arg : BitVec 24) (s : State) : Host.Outcome State Fault Refusal :=
  .next (s.onStream (streamNop op.toNat arg.toNat))

/-- DEVID (R245). The stream's expected ID is compared with RIM_ID. -/
def execDevid (arg : BitVec 24) (id : Word32) (s : State) : Host.Outcome State Fault Refusal :=
  .next (s.onStream (streamDevid arg.toNat [id.toNat]))

/-- SELECT (R246). SELECT sets which load-bus devices act on the following words. -/
def execSelect (arg : BitVec 24) (s : State) : Host.Outcome State Fault Refusal :=
  .next (s.onStream (streamSelect arg.toNat))

/-- SECTOR (R245). SECTOR checks ownership, clears a sector, moves it to LOADING and sets the frame pointer. -/
def execSector (arg : BitVec 24) (s : State) : Host.Outcome State Fault Refusal :=
  .next (s.onStream (streamSector arg.toNat))

/-- FADDR (R245). FADDR sets the frame pointer within the current sector. -/
def execFaddr (arg : BitVec 24) (s : State) : Host.Outcome State Fault Refusal :=
  .next (s.onStream (streamFaddr arg.toNat))

/-- WRITE (R245). WRITE writes n frames, each checked under R248 before it is written. -/
def execWrite (arg : BitVec 24) (data : List Word32) (s : State) : Host.Outcome State Fault Refusal :=
  .next (s.onStream (streamWrite arg.toNat (data.map BitVec.toNat)))

/-- REPEAT (R245). REPEAT writes the last written frame into the next n frames. -/
def execRepeatFrames (arg : BitVec 24) (s : State) : Host.Outcome State Fault Refusal :=
  .next (s.onStream (streamRepeat arg.toNat))

/-- END (R245). END checks the stream CRC and moves every sector in LOADING to STARTING. -/
def execEndStream (arg : BitVec 24) (crc : Word32) (s : State) : Host.Outcome State Fault Refusal :=
  .next (s.onStream (streamEnd arg.toNat [crc.toNat]))

/-- LOAD_BUS_TIMEOUT (R242). No LB_CLK rising edge for 100 µs ends a load-bus stream. -/
def execLoadBusTimeout (s : State) : Host.Outcome State Fault Refusal :=
  .next (s.onMem loadBusTimeout)

end Sys2Proof.Machine
end

