-- ==== Sys2Proof/Machine/SchedulerCommands.lean ====
section
/-! DEFINITION. The hardware scheduler (R329 to R332). -/

namespace Sys2Proof.Machine

/-- SCH_POST (R329). A post places a token in the matching store or the sump, or waits, and may make a thread READY. -/
def execSchPost (k : Fin 8) (sec : Bool) (thread : BitVec 10) (index : BitVec 3) (s : State) : Host.Outcome State Fault Refusal :=
  .next ((s.seen (.core k sec)).onChip fun c => c.corePost k.val thread.toNat index.toNat)

/-- SUMP_REFILL (R332). Sumped tokens move back into the matching store in post order as space frees. -/
def execSumpRefill (s : State) : Host.Outcome State Fault Refusal :=
  .next (s.onChip fun c => c.schRefill.icSettle)

/-- POST_DROP (R332). A post still waiting after BPWAIT is dropped and counted. -/
def execPostDrop (s : State) : Host.Outcome State Fault Refusal :=
  .next (s.onChip fun c => c.postDrop.icSettle)

/-- SCH_TAKE (R330). A read of SCH_TAKE moves the slotted thread to RUNNING and delivers its tokens. -/
def execSchTake (k : Fin 8) (sec : Bool) (s : State) : Host.Outcome State Fault Refusal :=
  .next ((s.seen (.core k sec)).onChip fun c => c.coreTake k.val)

/-- SCH_DONE (R331). A write of SCH_DONE returns the running thread to WAIT, or sets SEQ_ERR. -/
def execSchDone (k : Fin 8) (sec : Bool) (thread : BitVec 10) (s : State) : Host.Outcome State Fault Refusal :=
  .next ((s.seen (.core k sec)).onChip fun c => c.coreDone k.val thread.toNat)

end Sys2Proof.Machine
end

