-- ==== Sys2Proof/Machine/SecurityCommands.lean ====
section
/-! DEFINITION. Life cycle, tamper, debug certificates and JTAG (R393 to R397). -/

namespace Sys2Proof.Machine

/-- LC_CMD (R393). A key word written twice to LC_CMD accepts a life-cycle change, which wipes the vault and programs the fuses. -/
def execLcCmd (k : Fin 8) (sec : Bool) (key : Word32) (s : State) : Host.Outcome State Fault Refusal :=
  .next ((s.seen (.core k sec)).onAll (byRegister (Init.core k sec) .svc 0 0x504 fun c a m => writeSvc (Init.core k sec) Reg.def_LC_CMD 0 key.toNat c a m))

/-- TAMPER (R394). TAMPER_N or a sensor wipes the vault, sets the latch, raises source 250 and wakes the module. -/
def execTamper (s : State) : Host.Outcome State Fault Refusal :=
  .next (s.onMem tamper)

/-- WIPE_COMPLETE (R394). A vault wipe completes within 10 µs and raises source 251. -/
def execWipeComplete (s : State) : Host.Outcome State Fault Refusal :=
  .next (s.onMem wipeDone)

/-- DBG_CERT (R396). A debug certificate is checked and sets the authorisation level, or is rejected. -/
def execDbgCert (cert : Cert) (s : State) : Host.Outcome State Fault Refusal :=
  .next (s.onChip fun c => c.certificate cert)

/-- BYPASS (R397). The JTAG instruction BYPASS. -/
def execBypass (s : State) : Host.Outcome State Fault Refusal :=
  .next (s.onChip fun c => c.jtagOpen .bypass 0)

/-- IDCODE (R397). The JTAG instruction IDCODE returns the stepping, part and JEP106 code. -/
def execIdcode (s : State) : Host.Outcome State Fault Refusal :=
  .next (s.onChip fun c => c.jtagOpen .idcode c.idcode)

/-- SAMPLE_PRELOAD (R397). The JTAG instruction SAMPLE/PRELOAD. -/
def execSamplePreload (data : Word64) (s : State) : Host.Outcome State Fault Refusal :=
  .next (s.onChip fun c => c.jtagScan .sample data.toNat)

/-- EXTEST (R397). The JTAG instruction EXTEST. -/
def execExtest (data : Word64) (s : State) : Host.Outcome State Fault Refusal :=
  .next (s.onChip fun c => c.jtagScan .extest data.toNat)

/-- HIGHZ (R397). The JTAG instruction HIGHZ. -/
def execHighz (data : Word64) (s : State) : Host.Outcome State Fault Refusal :=
  .next (s.onChip fun c => c.jtagScan .highz data.toNat)

/-- CLAMP (R397). The JTAG instruction CLAMP. -/
def execClamp (data : Word64) (s : State) : Host.Outcome State Fault Refusal :=
  .next (s.onChip fun c => c.jtagScan .clamp data.toNat)

/-- EXTEST_PULSE (R397). The IEEE 1149.6 instruction EXTEST_PULSE on the lanes. -/
def execExtestPulse (data : Word64) (s : State) : Host.Outcome State Fault Refusal :=
  .next (s.onChip fun c => c.jtagScan .extestPulse data.toNat)

/-- EXTEST_TRAIN (R397). The IEEE 1149.6 instruction EXTEST_TRAIN on the lanes. -/
def execExtestTrain (data : Word64) (s : State) : Host.Outcome State Fault Refusal :=
  .next (s.onChip fun c => c.jtagScan .extestTrain data.toNat)

end Sys2Proof.Machine
end

