-- ==== Sys2Proof/Machine/TimeCommands.lean ====
section
/-! DEFINITION. The timekeeper (R363 to R373). -/

namespace Sys2Proof.Machine

/-- WRAP (R363). A carry out of a domain's NS counter increments WRAPS and updates the Ethernet epoch. -/
def execWrap (d : Fin 2) (s : State) : Host.Outcome State Fault Refusal :=
  .next (s.onChip fun c => c.wrapTick d.val)

/-- TK_STEP (R366). A write of TK_STEP requests a step, which is refused above the jump threshold or applied at the next tick. -/
def execTkStep (k : Fin 8) (sec : Bool) (d : Fin 2) (delta : Word32) (override : Bool) (s : State) : Host.Outcome State Fault Refusal :=
  .next ((s.seen (.core k sec)).onAll (byRegister (Init.core k sec) .tk 0 (0x10 + d.val * 0x100) fun c a m => (c.tkStep d.val delta.toNat override, a, m)))

/-- PPS_IN_EDGE (R369). An accepted PPS_IN edge captures both domains and performs armed alignments and domain switches. -/
def execPpsInEdge (long : Bool) (s : State) : Host.Outcome State Fault Refusal :=
  .next (s.onChip fun c => c.ppsIn long)

/-- REQ (R371). A 1 written to TK_SEL.REQ requests a switch of the time-stamp domain at the next PPS edge. -/
def execReq (k : Fin 8) (sec : Bool) (s : State) : Host.Outcome State Fault Refusal :=
  .next ((s.seen (.core k sec)).onAll (byRegister (Init.core k sec) .tk 0 0x200 fun c a m => (c.tkRequest, a, m)))

/-- SW_NOPPS (R371). A switch request with no accepted edge within 2 s lapses. -/
def execSwNopps (s : State) : Host.Outcome State Fault Refusal :=
  .next (s.onChip fun c => c.tkNoPps)

/-- PPS_OUT_RISE (R370). PPS_OUT rises when the followed domain crosses NEXT, and NEXT advances. -/
def execPpsOutRise (s : State) : Host.Outcome State Fault Refusal :=
  .next (s.onChip fun c => c.ppsRiseEvent)

/-- PPS_OUT_FALL (R370). PPS_OUT falls after WIDTH milliseconds. -/
def execPpsOutFall (s : State) : Host.Outcome State Fault Refusal :=
  .next (s.onChip fun c => c.ppsFall)

/-- COMPARE_FIRE (R373). A compare fires when its domain passes VALUE, feeds the sequencer and raises its source. -/
def execCompareFire (i : Fin 2) (s : State) : Host.Outcome State Fault Refusal :=
  .next (s.onChip fun c => c.compareEvent i.val)

/-- RIM_EVENT_TAP (R372). A rising edge on rim event tap i is stamped into TK_EVT[i], or is discarded with OVF. -/
def execRimEventTap (i : Fin 16) (s : State) : Host.Outcome State Fault Refusal :=
  .next (s.onChip fun c => c.rimEvent i.val)

end Sys2Proof.Machine
end

