-- ==== Sys2Proof/Machine/UteusCommands.lean ====
section
/-! DEFINITION. Uteus messages (R357 to R361). -/

namespace Sys2Proof.Machine

/-- HELLO (R358). HELLO negotiates the Uteus version and the keepalive period. -/
def execHello (n : Fin 4) (pair : Fin 8) (m : UtFraming) (lo : BitVec 16) (hi : BitVec 16) (ka : BitVec 16) (s : State) : Host.Outcome State Fault Refusal :=
  .next (s.onAll (utRequest n.val pair.val m.id.toNat utHello m.heads (utHelloAct n.val pair.val m.id.toNat lo.toNat hi.toNat ka.toNat)))

/-- KEEPALIVE (R357). A KEEPALIVE message keeps the port's negotiation alive and receives no response. -/
def execKeepalive (n : Fin 4) (s : State) : Host.Outcome State Fault Refusal :=
  .next (s.onAll (utKeepaliveTake n.val))

/-- KEEPALIVE_LAPSE (R358). No complete message for 2 × KA_MS ends negotiation, and the port counts as lost. -/
def execKeepaliveLapse (n : Fin 4) (s : State) : Host.Outcome State Fault Refusal :=
  .next (s.onAll (keepaliveLapse n.val))

/-- PART_CREATE (R359). A Uteus request asks the firmware to create a partition bound to the requesting port. -/
def execPartCreate (n : Fin 4) (pair : Fin 8) (m : UtFraming) (p : Fin 16) (cfg : Word32) (s : State) : Host.Outcome State Fault Refusal :=
  .next (s.onAll (utRequest n.val pair.val m.id.toNat utPartCreate m.heads (utCreateAct n.val pair.val m.id.toNat p.val cfg.toNat)))

/-- PART_RELEASE (R359). A Uteus request asks the firmware to release a partition. -/
def execPartRelease (n : Fin 4) (pair : Fin 8) (m : UtFraming) (p : Fin 16) (s : State) : Host.Outcome State Fault Refusal :=
  .next (s.onAll (utNaming n.val pair.val m.id.toNat utPartRelease p.val m.heads (utReleaseAct n.val pair.val m.id.toNat p.val)))

/-- PART_BIND (R359). A Uteus request asks the firmware to change a partition's binding and loss policy. -/
def execPartBind (n : Fin 4) (pair : Fin 8) (m : UtFraming) (p : Fin 16) (bind : BitVec 3) (loss : BitVec 2) (alt : BitVec 3) (fallback : Bool) (s : State) : Host.Outcome State Fault Refusal :=
  .next (s.onAll (utNaming n.val pair.val m.id.toNat utPartBind p.val m.heads (utBindAct n.val pair.val m.id.toNat p.val bind.toNat loss.toNat alt.toNat (b2n fallback))))

/-- DM_MAP (R359). A Uteus request asks the firmware to write DM_MAP entries. -/
def execDmMap (n : Fin 4) (pair : Fin 8) (m : UtFraming) (p : Fin 16) (first : BitVec 8) (vals : List Word32) (s : State) : Host.Outcome State Fault Refusal :=
  .next (s.onAll (utNaming n.val pair.val m.id.toNat utDmMap p.val m.heads (utMapAct n.val pair.val m.id.toNat p.val first.toNat (vals.map BitVec.toNat))))

/-- IMAGE_LOAD (R359). A Uteus request asks the firmware to load an image and is answered with the load result. -/
def execImageLoad (n : Fin 4) (pair : Fin 8) (m : UtFraming) (p : Fin 16) (param : Word32) (src : Word64) (s : State) : Host.Outcome State Fault Refusal :=
  .next (s.onAll (utNaming n.val pair.val m.id.toNat utImageLoad p.val m.heads (utLoadAct n.val pair.val m.id.toNat p.val param.toNat src.toNat)))

/-- IMAGE_ABORT (R359). A Uteus request asks the firmware to abort a load. -/
def execImageAbort (n : Fin 4) (pair : Fin 8) (m : UtFraming) (p : Fin 16) (s : State) : Host.Outcome State Fault Refusal :=
  .next (s.onAll (utNaming n.val pair.val m.id.toNat utImageAbort p.val m.heads (utAbortAct n.val pair.val m.id.toNat p.val)))

/-- MARCH_TEST (R359). A Uteus request asks the firmware to run a march test. -/
def execMarchTest (n : Fin 4) (pair : Fin 8) (m : UtFraming) (v : Word32) (s : State) : Host.Outcome State Fault Refusal :=
  .next (s.onAll (utRequest n.val pair.val m.id.toNat utMarchTest m.heads (utMarchAct n.val pair.val m.id.toNat v.toNat)))

/-- SYMBOL_QUERY (R359). A Uteus request returns a symbol entry. -/
def execSymbolQuery (n : Fin 4) (pair : Fin 8) (m : UtFraming) (p : Fin 16) (name : List Byte) (s : State) : Host.Outcome State Fault Refusal :=
  .next (s.onAll (utNaming n.val pair.val m.id.toNat utSymbolQuery p.val m.heads (utSymbolAct n.val pair.val m.id.toNat p.val name)))

/-- FW_STATUS (R359). A Uteus request returns the boot report. -/
def execFwStatus (n : Fin 4) (pair : Fin 8) (m : UtFraming) (s : State) : Host.Outcome State Fault Refusal :=
  .next (s.onAll (utRequest n.val pair.val m.id.toNat utFwStatus m.heads (utStatusAct n.val pair.val m.id.toNat)))

/-- STEP_RATE (R359). A Uteus request asks the firmware to perform SETRATE. -/
def execStepRate (n : Fin 4) (pair : Fin 8) (m : UtFraming) (p : Fin 16) (econ : Bool) (s : State) : Host.Outcome State Fault Refusal :=
  .next (s.onAll (utRequest n.val pair.val m.id.toNat utStepRate m.heads (utRateAct n.val pair.val m.id.toNat p.val (b2n econ))))

/-- EVENT (R361). The firmware posts an EVENT message, such as REQ_COLLISION, FW_RESTART or FAULT, to a host. -/
def execEvent (n : Fin 4) (code : BitVec 16) (data : List Byte) (s : State) : Host.Outcome State Fault Refusal :=
  .next (s.onAll (utEventPost n.val code.toNat data))

end Sys2Proof.Machine
end

