-- ==== Sys2Proof/Machine/Dispatch.lean ====
section
/-! DEFINITION. The meaning of each command: one direct call for each constructor of Instr. -/

namespace Sys2Proof.Machine

def exec (i : Instr) (s : State) : Host.Outcome State Fault Refusal :=
  match i with
  | .registerWrite who addr size value => Sys2Proof.Machine.execRegisterWrite who addr size value s
  | .rcRead who addr size => Sys2Proof.Machine.execRcRead who addr size s
  | .lowHalfRead who addr => Sys2Proof.Machine.execLowHalfRead who addr s
  | .highHalfRead who addr => Sys2Proof.Machine.execHighHalfRead who addr s
  | .lowHalfWrite who addr value => Sys2Proof.Machine.execLowHalfWrite who addr value s
  | .highHalfWrite who addr value => Sys2Proof.Machine.execHighHalfWrite who addr value s
  | .nop bp => Sys2Proof.Machine.execNop bp s
  | .eval bp => Sys2Proof.Machine.execEval bp s
  | .evalc bp => Sys2Proof.Machine.execEvalc bp s
  | .mput bp => Sys2Proof.Machine.execMput bp s
  | .stop bp => Sys2Proof.Machine.execStop bp s
  | .trig bp => Sys2Proof.Machine.execTrig bp s
  | .out bp => Sys2Proof.Machine.execOut bp s
  | .xev bp => Sys2Proof.Machine.execXev bp s
  | .undefinedOpcode bp => Sys2Proof.Machine.execUndefinedOpcode bp s
  | .cread tile agent => Sys2Proof.Machine.execCread tile agent s
  | .cwrite tile agent => Sys2Proof.Machine.execCwrite tile agent s
  | .dread tile agent => Sys2Proof.Machine.execDread tile agent s
  | .dwrite tile agent => Sys2Proof.Machine.execDwrite tile agent s
  | .tick src rising => Sys2Proof.Machine.execTick src rising s
  | .elasticLateRelease p => Sys2Proof.Machine.execElasticLateRelease p s
  | .holdRelease p => Sys2Proof.Machine.execHoldRelease p s
  | .holdLong p => Sys2Proof.Machine.execHoldLong p s
  | .start who p => Sys2Proof.Machine.execStart who p s
  | .halt who p => Sys2Proof.Machine.execHalt who p s
  | .step who p count => Sys2Proof.Machine.execStep who p count s
  | .prime who p => Sys2Proof.Machine.execPrime who p s
  | .setrate who p econ => Sys2Proof.Machine.execSetrate who p econ s
  | .rampComplete p => Sys2Proof.Machine.execRampComplete p s
  | .rateChangeComplete => Sys2Proof.Machine.execRateChangeComplete s
  | .avsTimeout => Sys2Proof.Machine.execAvsTimeout s
  | .resultRead who r => Sys2Proof.Machine.execResultRead who r s
  | .create who p => Sys2Proof.Machine.execCreate who p s
  | .release who p => Sys2Proof.Machine.execRelease who p s
  | .releaseClearComplete p => Sys2Proof.Machine.execReleaseClearComplete p s
  | .reset who p => Sys2Proof.Machine.execReset who p s
  | .primingComplete p => Sys2Proof.Machine.execPrimingComplete p s
  | .rebind p => Sys2Proof.Machine.execRebind p s
  | .deepReturnArrival tile agent place => Sys2Proof.Machine.execDeepReturnArrival tile agent place s
  | .networkRead who target len => Sys2Proof.Machine.execNetworkRead who target len s
  | .networkWrite who target data => Sys2Proof.Machine.execNetworkWrite who target data s
  | .atomicAdd who target wide value => Sys2Proof.Machine.execAtomicAdd who target wide value s
  | .atomicSwap who target wide value => Sys2Proof.Machine.execAtomicSwap who target wide value s
  | .channelCommandTimeout stack ch => Sys2Proof.Machine.execChannelCommandTimeout stack ch s
  | .destructiveTest k sec target unit => Sys2Proof.Machine.execDestructiveTest k sec target unit s
  | .preservingTest k sec target unit => Sys2Proof.Machine.execPreservingTest k sec target unit s
  | .marchTestComplete fails => Sys2Proof.Machine.execMarchTestComplete fails s
  | .ldrLoad who p => Sys2Proof.Machine.execLdrLoad who p s
  | .ldrAbort who p => Sys2Proof.Machine.execLdrAbort who p s
  | .imageSourceRead p bytes => Sys2Proof.Machine.execImageSourceRead p bytes s
  | .rimSectionHandoff p => Sys2Proof.Machine.execRimSectionHandoff p s
  | .arm who p => Sys2Proof.Machine.execArm who p s
  | .disarm who p => Sys2Proof.Machine.execDisarm who p s
  | .disarmComplete p => Sys2Proof.Machine.execDisarmComplete p s
  | .force who p => Sys2Proof.Machine.execForce who p s
  | .recordDrain p n => Sys2Proof.Machine.execRecordDrain p n s
  | .rateFall p => Sys2Proof.Machine.execRateFall p s
  | .xtrigInEdge n short => Sys2Proof.Machine.execXtrigInEdge n short s
  | .triggerLineArrival q p => Sys2Proof.Machine.execTriggerLineArrival q p s
  | .xtrigOutPulseEnd n => Sys2Proof.Machine.execXtrigOutPulseEnd n s
  | .busContention bank line drivers ps => Sys2Proof.Machine.execBusContention bank line drivers ps s
  | .busEvtClear who mask => Sys2Proof.Machine.execBusEvtClear who mask s
  | .clockSourceLoss tree => Sys2Proof.Machine.execClockSourceLoss tree s
  | .scrubFrame data check => Sys2Proof.Machine.execScrubFrame data check s
  | .rimLdLoad who => Sys2Proof.Machine.execRimLdLoad who s
  | .rimLdAbort who => Sys2Proof.Machine.execRimLdAbort who s
  | .clear who sector => Sys2Proof.Machine.execClear who sector s
  | .clearComplete => Sys2Proof.Machine.execClearComplete s
  | .syncWord w => Sys2Proof.Machine.execSyncWord w s
  | .streamNop op arg => Sys2Proof.Machine.execStreamNop op arg s
  | .devid arg id => Sys2Proof.Machine.execDevid arg id s
  | .select arg => Sys2Proof.Machine.execSelect arg s
  | .sector arg => Sys2Proof.Machine.execSector arg s
  | .faddr arg => Sys2Proof.Machine.execFaddr arg s
  | .write arg data => Sys2Proof.Machine.execWrite arg data s
  | .repeatFrames arg => Sys2Proof.Machine.execRepeatFrames arg s
  | .endStream arg crc => Sys2Proof.Machine.execEndStream arg crc s
  | .loadBusTimeout => Sys2Proof.Machine.execLoadBusTimeout s
  | .sectorStartupComplete sector => Sys2Proof.Machine.execSectorStartupComplete sector s
  | .pinFunctionChange b n => Sys2Proof.Machine.execPinFunctionChange b n s
  | .pinSwitchComplete b n => Sys2Proof.Machine.execPinSwitchComplete b n s
  | .iobLock who b key => Sys2Proof.Machine.execIobLock who b key s
  | .agpWrite k sec b reg value => Sys2Proof.Machine.execAgpWrite k sec b reg value s
  | .pgoodRise b strap => Sys2Proof.Machine.execPgoodRise b strap s
  | .pgoodSettle b => Sys2Proof.Machine.execPgoodSettle b s
  | .pgoodFall b => Sys2Proof.Machine.execPgoodFall b s
  | .blockLock lane bits => Sys2Proof.Machine.execBlockLock lane bits s
  | .lockLoss lane bits => Sys2Proof.Machine.execLockLoss lane bits s
  | .commaAlign lane bits => Sys2Proof.Machine.execCommaAlign lane bits s
  | .adaptationComplete q l => Sys2Proof.Machine.execAdaptationComplete q l s
  | .prbsCheckerLock q l line first n => Sys2Proof.Machine.execPrbsCheckerLock q l line first n s
  | .prbsErrRead who q l => Sys2Proof.Machine.execPrbsErrRead who q l s
  | .inj who q l => Sys2Proof.Machine.execInj who q l s
  | .laneFailure q l => Sys2Proof.Machine.execLaneFailure q l s
  | .revert who q => Sys2Proof.Machine.execRevert who q s
  | .frameReceive p frame fcsOk => Sys2Proof.Machine.execFrameReceive p frame fcsOk s
  | .frameTransmit p => Sys2Proof.Machine.execFrameTransmit p s
  | .epochArm k sec p ns => Sys2Proof.Machine.execEpochArm k sec p ns s
  | .txTsRead k sec p => Sys2Proof.Machine.execTxTsRead k sec p s
  | .perstAssert n => Sys2Proof.Machine.execPerstAssert n s
  | .perstDeassert n => Sys2Proof.Machine.execPerstDeassert n s
  | .linkDown n => Sys2Proof.Machine.execLinkDown n s
  | .linkReturnTimeout n => Sys2Proof.Machine.execLinkReturnTimeout n s
  | .surpriseRemoval n => Sys2Proof.Machine.execSurpriseRemoval n s
  | .functionLevelReset n => Sys2Proof.Machine.execFunctionLevelReset n s
  | .dmaChPi who n ch pi => Sys2Proof.Machine.execDmaChPi who n ch pi s
  | .descriptor n ch desc count data => Sys2Proof.Machine.execDescriptor n ch desc count data s
  | .descriptorComplete n ch rest => Sys2Proof.Machine.execDescriptorComplete n ch rest s
  | .dmaAbort who n ch rest => Sys2Proof.Machine.execDmaAbort who n ch rest s
  | .bar2Access n off len data => Sys2Proof.Machine.execBar2Access n off len data s
  | .bar2SelWrite n part win => Sys2Proof.Machine.execBar2SelWrite n part win s
  | .transactionCompletion tag gen retries => Sys2Proof.Machine.execTransactionCompletion tag gen retries s
  | .netTimeout tag => Sys2Proof.Machine.execNetTimeout tag s
  | .linkFail die => Sys2Proof.Machine.execLinkFail die s
  | .schPost k sec thread index => Sys2Proof.Machine.execSchPost k sec thread index s
  | .sumpRefill => Sys2Proof.Machine.execSumpRefill s
  | .postDrop => Sys2Proof.Machine.execPostDrop s
  | .schTake k sec => Sys2Proof.Machine.execSchTake k sec s
  | .schDone k sec thread => Sys2Proof.Machine.execSchDone k sec thread s
  | .sourceEvent source => Sys2Proof.Machine.execSourceEvent source s
  | .icPendSet k sec w mask => Sys2Proof.Machine.execIcPendSet k sec w mask s
  | .icClaim k sec t => Sys2Proof.Machine.execIcClaim k sec t s
  | .icComplete k sec t source => Sys2Proof.Machine.execIcComplete k sec t source s
  | .icinv k sec target => Sys2Proof.Machine.execIcinv k sec target s
  | .coreReset k sec target => Sys2Proof.Machine.execCoreReset k sec target s
  | .trcSw k sec value => Sys2Proof.Machine.execTrcSw k sec value s
  | .traceFlush k st => Sys2Proof.Machine.execTraceFlush k st s
  | .flushIncomplete k st => Sys2Proof.Machine.execFlushIncomplete k st s
  | .doorbell who n => Sys2Proof.Machine.execDoorbell who n s
  | .snapshot who n => Sys2Proof.Machine.execSnapshot who n s
  | .take who n => Sys2Proof.Machine.execTake who n s
  | .hello n pair m lo hi ka => Sys2Proof.Machine.execHello n pair m lo hi ka s
  | .keepalive n => Sys2Proof.Machine.execKeepalive n s
  | .keepaliveLapse n => Sys2Proof.Machine.execKeepaliveLapse n s
  | .partCreate n pair m p cfg => Sys2Proof.Machine.execPartCreate n pair m p cfg s
  | .partRelease n pair m p => Sys2Proof.Machine.execPartRelease n pair m p s
  | .partBind n pair m p bind loss alt fallback => Sys2Proof.Machine.execPartBind n pair m p bind loss alt fallback s
  | .dmMap n pair m p first vals => Sys2Proof.Machine.execDmMap n pair m p first vals s
  | .imageLoad n pair m p param src => Sys2Proof.Machine.execImageLoad n pair m p param src s
  | .imageAbort n pair m p => Sys2Proof.Machine.execImageAbort n pair m p s
  | .marchTest n pair m v => Sys2Proof.Machine.execMarchTest n pair m v s
  | .symbolQuery n pair m p name => Sys2Proof.Machine.execSymbolQuery n pair m p name s
  | .fwStatus n pair m => Sys2Proof.Machine.execFwStatus n pair m s
  | .stepRate n pair m p econ => Sys2Proof.Machine.execStepRate n pair m p econ s
  | .event n code data => Sys2Proof.Machine.execEvent n code data s
  | .wrap d => Sys2Proof.Machine.execWrap d s
  | .tkStep k sec d delta override => Sys2Proof.Machine.execTkStep k sec d delta override s
  | .ppsInEdge long => Sys2Proof.Machine.execPpsInEdge long s
  | .req k sec => Sys2Proof.Machine.execReq k sec s
  | .swNopps => Sys2Proof.Machine.execSwNopps s
  | .ppsOutRise => Sys2Proof.Machine.execPpsOutRise s
  | .ppsOutFall => Sys2Proof.Machine.execPpsOutFall s
  | .compareFire n => Sys2Proof.Machine.execCompareFire n s
  | .rimEventTap n => Sys2Proof.Machine.execRimEventTap n s
  | .idle k sec => Sys2Proof.Machine.execIdle k sec s
  | .watch k sec => Sys2Proof.Machine.execWatch k sec s
  | .sleep k sec ack => Sys2Proof.Machine.execSleep k sec ack s
  | .on k sec => Sys2Proof.Machine.execOn k sec s
  | .quiesce k sec => Sys2Proof.Machine.execQuiesce k sec s
  | .quiesceComplete => Sys2Proof.Machine.execQuiesceComplete s
  | .quiescePumpLimit => Sys2Proof.Machine.execQuiescePumpLimit s
  | .demandExit command => Sys2Proof.Machine.execDemandExit command s
  | .watchSample raw => Sys2Proof.Machine.execWatchSample raw s
  | .wakePin n level => Sys2Proof.Machine.execWakePin n level s
  | .mgmtAddressMatch addr => Sys2Proof.Machine.execMgmtAddressMatch addr s
  | .wakeComplete => Sys2Proof.Machine.execWakeComplete s
  | .thresholdCrossing die temp => Sys2Proof.Machine.execThresholdCrossing die temp s
  | .thermalTrip => Sys2Proof.Machine.execThermalTrip s
  | .powerOn => Sys2Proof.Machine.execPowerOn s
  | .resetN => Sys2Proof.Machine.execResetN s
  | .brownOut => Sys2Proof.Machine.execBrownOut s
  | .startUp u => Sys2Proof.Machine.execStartUp u s
  | .pmbAlert => Sys2Proof.Machine.execPmbAlert s
  | .presentDeassert => Sys2Proof.Machine.execPresentDeassert s
  | .presentAssert => Sys2Proof.Machine.execPresentAssert s
  | .lcCmd k sec key => Sys2Proof.Machine.execLcCmd k sec key s
  | .lifeCycleReset => Sys2Proof.Machine.execLifeCycleReset s
  | .tamper => Sys2Proof.Machine.execTamper s
  | .wipeComplete => Sys2Proof.Machine.execWipeComplete s
  | .dbgCert cert => Sys2Proof.Machine.execDbgCert cert s
  | .bypass => Sys2Proof.Machine.execBypass s
  | .idcode => Sys2Proof.Machine.execIdcode s
  | .samplePreload data => Sys2Proof.Machine.execSamplePreload data s
  | .extest data => Sys2Proof.Machine.execExtest data s
  | .highz data => Sys2Proof.Machine.execHighz data s
  | .clamp data => Sys2Proof.Machine.execClamp data s
  | .extestPulse data => Sys2Proof.Machine.execExtestPulse data s
  | .extestTrain data => Sys2Proof.Machine.execExtestTrain data s
  | .goldenEntryWrite p => Sys2Proof.Machine.execGoldenEntryWrite p s
  | .repairFail p reason => Sys2Proof.Machine.execRepairFail p reason s
  | .fltLogRead k sec => Sys2Proof.Machine.execFltLogRead k sec s
  | .fetchWhileNotRunning p w => Sys2Proof.Machine.execFetchWhileNotRunning p w s
  | .rampHoldDecision p j => Sys2Proof.Machine.execRampHoldDecision p j s
  | .xtrigOutRise n => Sys2Proof.Machine.execXtrigOutRise n s
  | .vccioMeasurement b v => Sys2Proof.Machine.execVccioMeasurement b v s
  | .resetTreeChange tree asserted => Sys2Proof.Machine.execResetTreeChange tree asserted s
  | .signalDetect q l up => Sys2Proof.Machine.execSignalDetect q l up s
  | .pllLock q b => Sys2Proof.Machine.execPllLock q b s
  | .linkReturn n speed width => Sys2Proof.Machine.execLinkReturn n speed width s
  | .powerStateExitComplete => Sys2Proof.Machine.execPowerStateExitComplete s
  | .powerRemoval => Sys2Proof.Machine.execPowerRemoval s

end Sys2Proof.Machine
end

