-- ==== Sys2Proof/Safety.lean ====
section
/-! DEFINITION. What counts as a sound state and a safe step, which layers of the state a command may reach, and the conditions in whose terms the
statements are made. -/

namespace Sys2Proof

/-- A state is sound where every memory of the module is in its canonical form. -/
def Machine.State.Sound (s : Machine.State) : Prop := s.mem.wf = true

/-- The layers of the state that a command may change. -/
inductive Reach where
  | chip | array | memory | all
deriving DecidableEq, Repr

/-- The layers that an access of an initiator may change where the access itself changes registers alone: a core's own trace may enter the ring in service SRAM before
it (R344, R345). -/
def Init.reach : Init → Reach
  | .host _ => .chip
  | .core _ _ => .memory

/-- The layers that each command may change: `chip` the registers, control and queues alone, `array` those and the array, `memory` those and the memories. -/
def Instr.reach : Instr → Reach
  | .holdLong _ | .rateChangeComplete | .avsTimeout | .primingComplete _ | .rebind _ | .disarmComplete _ | .rateFall _ | .xtrigInEdge _ _
  | .triggerLineArrival _ _ | .xtrigOutPulseEnd _ | .busContention _ _ _ _ | .clockSourceLoss _ | .sectorStartupComplete _ | .pinFunctionChange _ _
  | .pinSwitchComplete _ _ | .pgoodRise _ _ | .pgoodSettle _ | .pgoodFall _ | .blockLock _ _ | .lockLoss _ _ | .commaAlign _ _
  | .adaptationComplete _ _ | .prbsCheckerLock _ _ _ _ _ | .laneFailure _ _ | .perstDeassert _ | .linkDown _ | .functionLevelReset _
  | .descriptorComplete _ _ _ | .bar2SelWrite _ _ _ | .sumpRefill | .postDrop | .sourceEvent _ | .flushIncomplete _ _ | .wrap _ | .ppsInEdge _
  | .swNopps | .ppsOutRise | .ppsOutFall | .compareFire _ | .rimEventTap _ | .demandExit _ | .watchSample _ | .wakePin _ _ | .mgmtAddressMatch _
  | .pmbAlert | .presentAssert | .dbgCert _ | .bypass | .idcode | .samplePreload _ | .extest _ | .highz _
  | .clamp _ | .extestPulse _ | .extestTrain _ | .rampHoldDecision _ _ | .xtrigOutRise _ | .vccioMeasurement _ _ | .resetTreeChange _ _
  | .signalDetect _ _ _ | .pllLock _ _ | .linkReturn _ _ _ => .chip
  | .nop _ | .eval _ | .evalc _ | .mput _ | .stop _ | .trig _ | .out _ | .xev _ | .undefinedOpcode _ | .tick _ _ | .elasticLateRelease _
  | .holdRelease _ | .rampComplete _ | .deepReturnArrival _ _ _ | .channelCommandTimeout _ _ | .transactionCompletion _ _ _ | .linkFail _
  | .quiescePumpLimit | .goldenEntryWrite _ | .repairFail _ _ | .fetchWhileNotRunning _ _ => .array
  | .networkRead _ _ _ | .networkWrite _ _ _ | .atomicAdd _ _ _ _ | .atomicSwap _ _ _ _ | .recordDrain _ _ | .scrubFrame _ _ | .clearComplete
  | .syncWord _ | .streamNop _ _ | .devid _ _ | .select _ | .sector _ | .faddr _ | .write _ _ | .repeatFrames _ | .endStream _ _ | .loadBusTimeout
  | .frameReceive _ _ _ | .frameTransmit _ | .txTsRead _ _ _ | .descriptor _ _ _ _ _ | .bar2Access _ _ _ _ | .schPost _ _ _ _ | .schTake _ _
  | .schDone _ _ _ | .icPendSet _ _ _ _ | .icClaim _ _ _ | .icComplete _ _ _ _ | .traceFlush _ _ | .quiesceComplete | .tamper | .wipeComplete
  | .fltLogRead _ _ => .memory
  | .registerWrite _ _ _ _ | .rcRead _ _ _ | .lowHalfRead _ _ | .highHalfRead _ _ | .lowHalfWrite _ _ _ | .highHalfWrite _ _ _ | .cread _ _
  | .cwrite _ _ | .dread _ _ | .dwrite _ _ | .start _ _ | .halt _ _ | .step _ _ _ | .prime _ _ | .setrate _ _ _ | .create _ _ | .release _ _
  | .releaseClearComplete _ | .reset _ _ | .destructiveTest _ _ _ _ | .preservingTest _ _ _ _ | .marchTestComplete _ | .ldrLoad _ _ | .ldrAbort _ _
  | .imageSourceRead _ _ | .rimSectionHandoff _ | .arm _ _ | .disarm _ _ | .force _ _ | .busEvtClear _ _ | .rimLdLoad _ | .rimLdAbort _ | .clear _ _
  | .iobLock _ _ _ | .agpWrite _ _ _ _ _ | .inj _ _ _ | .revert _ _ | .epochArm _ _ _ _ | .perstAssert _ | .linkReturnTimeout _ | .surpriseRemoval _
  | .netTimeout _ | .icinv _ _ _ | .coreReset _ _ _ | .trcSw _ _ _ | .doorbell _ _ | .hello _ _ _ _ _ _ | .keepalive _ | .keepaliveLapse _
  | .partCreate _ _ _ _ _ | .partRelease _ _ _ _ | .partBind _ _ _ _ _ _ _ _ | .dmMap _ _ _ _ _ _ | .imageLoad _ _ _ _ _ _
  | .imageAbort _ _ _ _ | .marchTest _ _ _ _ | .symbolQuery _ _ _ _ _ | .fwStatus _ _ _ | .stepRate _ _ _ _ _ | .event _ _ _
  | .tkStep _ _ _ _ _ | .req _ _ | .idle _ _ | .watch _ _ | .sleep _ _ _ | .on _ _ | .quiesce _ _ | .wakeComplete | .thermalTrip | .powerOn | .resetN
  | .brownOut | .presentDeassert | .lcCmd _ _ _ | .lifeCycleReset | .powerStateExitComplete | .powerRemoval | .thresholdCrossing _ _
  | .startUp _ => .all
  | .resultRead who _ | .prbsErrRead who _ _ | .dmaChPi who _ _ _ | .dmaAbort who _ _ _ | .snapshot who _ | .take who _ => who.reach

/-- `exec` answers a next state for command `i` in state `s`, and `Q` holds of it. -/
def Does (i : Instr) (s : Machine.State) (Q : Machine.State → Prop) : Prop := ∃ t, Machine.exec i s = .next t ∧ Q t

namespace Machine

/-- The fields that a signal may change: raising an interrupt source, posting its token, an MSI-X pending bit, the fault log's loss count and FAULT_N with the
contributions that its standing causes set again. -/
def Fld.signal : Fld → Bool
  | .IC_PEND_BIT | .IC_ACTIVE_BIT | .SCH_POST_RES_OUTCOME | .H_SUMP_LO | .H_SUMP_HI | .SCH_THR_CFG_STATE | .SCH_ORDER | .SCH_NEXT_ORDER
  | .SCH_SLOT | .MSIX_PBA_BIT | .FLT_LOG_LOST_COUNT | .FLT_SRC_LINK | .FLT_SRC_MEM | .H_FAULT_N => true
  | _ => false

/-- Every field but the signals and those listed, each with its instance, is unchanged. -/
def Keeps (c d : Chip) (ws : List (Fld × Nat)) : Prop := ∀ g j, g.signal = false → (g, j) ∉ ws → d.get g j = c.get g j

/-- Every field but those listed, each with its instance, is unchanged. -/
def KeepsAll (c d : Chip) (ws : List (Fld × Nat)) : Prop := ∀ g j, (g, j) ∉ ws → d.get g j = c.get g j

/-- BP `b` of partition `p` is about to execute the word `w` fetched for the step (R40, R79), which has opcode `op`. -/
structure BpRuns (op : BpOp) (b p w : Nat) (s : State) : Prop where
  owner : s.chip.bpOwner b = some p
  run : s.chip.pumpState p = psRun
  fresh : s.chip.on .H_STEP_DONE b = false
  word : NatMap.find 0 s.arr.fword (b * 4096 + s.chip.stepNow p) = w
  kind : Word.kind w = op

/-- The registers once BP `b` has begun word `w`: its part of the step is marked done and its reserved operand codes are counted (R47). -/
def bpBegun (b p w : Nat) (c : Chip) : Chip := (c.set .H_STEP_DONE b 1).encFault p (reservedCount w)

/-- The four operands of word `w` read as `va` to `vd`, with no parity failure and no repair of a copy. -/
structure OperandsRead (c : Chip) (a : Arr) (p b st w va vb vc vd : Nat) : Prop where
  opa : source c a p b st (Word.opa w) = (va, c, a)
  opb : source c a p b st (Word.opb w) = (vb, c, a)
  opc : source c a p b st (Word.opc w) = (vc, c, a)
  opd : source c a p b st (Word.opd w) = (vd, c, a)

/-- What a BP publishes (R33): its value on its lane, on its out-port where it sends, and at its probe position where it is tapped. -/
structure Published (a a' : Arr) (p b st w v : Nat) (send : Bool) : Prop where
  drives : a'.drives = (b, v) :: a.drives
  sends : a'.sends = if send then (b / 32 * 64 + Word.port w, v) :: a.sends else a.sends
  probe : ∀ k, NatMap.find 0 a'.pvec k =
    if Word.prb w = 1 ∧ 0 < NatMap.find 0 a.pmap (b * 4096 + st) ∧ k = p * 65536 + (NatMap.find 0 a.pmap (b * 4096 + st) - 1) then v
    else NatMap.find 0 a.pvec k

/-- Agent `g` of partition `p` is about to issue the access `kind` that its entry of the current step holds (R143), and no other agent of the partition has an
entry at that step. -/
structure AgentIssues (kind g p : Nat) (s : State) : Prop where
  owner : s.chip.tileOwner (g / 4) = some p
  run : s.chip.pumpState p = psRun
  entry : entryIssue (s.arr.entry (.agent (g / 4) (g % 4)) (s.chip.stepNow p)) = kind
  fresh : s.chip.on .H_STEP_DONE (agentDone g) = false
  alone : agentsAt p (s.chip.stepNow p) s.chip s.arr = [g]

/-- The stream in progress takes `n` more words as commands: it comes over the load bus or from the flash, is past its sync word and
within its source's limit, and this device acts on it (R242, R245, R246). -/
structure StreamReads (n : Nat) (c : Chip) : Prop where
  busy : c.streaming = true
  synced : c.get .H_RS_STATE 0 = 2
  selected : c.selected = true
  outside : c.get .RIM_LD_STATUS_ORIGIN 0 ≠ 2
  room : c.get .RIM_LD_STATUS_ORIGIN 0 = 1 ∨ c.get .H_RS_WORD 0 + n ≤ min c.streamLimit c.flashWords

/-- Port `n` may send a request on pair `j`, and the firmware can answer it at once: nothing is outstanding, both of the pair's channels are in order, and the response channel is
free (R357 to R361). -/
structure UtFree (c : Chip) (n j : Nat) : Prop where
  port : c.portExists n = true
  pair : j + 1 < c.utPairs
  live : c.get .MBX_STATUS_SRESET (c.utChannel n j) = 0
  whole : c.get .MBX_STATUS_COLLISION (c.utChannel n j) = 0
  idle : c.utWait = []
  sent : c.fwOut = []
  up : c.get .H_FW_DOWN 0 = 0
  room : c.get .MBX_STATUS_FULL (c.utChannel n j + 1) = 0

/-- Channel `ch` holds the one message of these fields, and the firmware has nothing left to post (R356, R357). -/
def UtPosted (d : Chip) (ch ver typ id flags status : Nat) (payload : List Byte) : Prop :=
  d.fwOut = [] ∧ d.get .MBX_STATUS_FULL ch = 1 ∧ ∀ w, w < 16 → d.get .MBX_MSG_DATA (ch * 16 + w) = (utWords ver typ id flags 0 status payload).getD w 0

/-- Pair `j` of port `n` has its request taken and the response to it posted. -/
def UtAnswered (c d : Chip) (n j ver id typ status : Nat) (payload : List Byte) : Prop :=
  d.get .MBX_STATUS_FULL (c.utChannel n j) = 0 ∧ d.utWait = [] ∧ UtPosted d (c.utChannel n j + 1) ver typ id 2 status payload

/-- Pair `j` of port `n` has its request taken, and its response waits for the result of a command for partition `p`. -/
def UtAwaits (c d : Chip) (n j id typ p : Nat) : Prop :=
  d.get .MBX_STATUS_FULL (c.utChannel n j) = 0 ∧ d.utWait = [⟨n, j, id, typ, p, false, none⟩] ∧ d.fwOut = [] ∧ d.get .MBX_STATUS_FULL (c.utChannel n j + 1) = 0

/-- Pair `j` of port `n` has the messages `heads` of request `id` of type `typ`, which make the whole of it (R356). -/
structure UtWhole (c : Chip) (n j typ id : Nat) (heads : List UtHead) : Prop where
  some : heads ≠ []
  whole : c.utFind n j typ id heads = .whole

/-- No source in token mode is eligible: the interrupt controller posts nothing (R339). -/
def Chip.icQuiet (c : Chip) : Prop := ∀ x, (c.icEligible x && c.on .IC_SRC_CFG_MODE x) = false

end Machine

end Sys2Proof
end

