-- ==== Sys2Proof/Certificates/Slice0/Obligations.lean ====
section
/-! DEFINITION. The statements for the provers. -/

open Sys2Proof Sys2Proof.Machine

/-! The module as a whole -/

/-- A step runs the command at the front of the queue, on the state with the queue's rest (the fixed order of the queue is the model's: log entry 1). -/
def Obligations.StepRunsFrontCommand : Prop :=
  ∀ (i : Instr) (rest : List Instr) (s : State), s.pending = i :: rest → step s = exec i { s with pending := rest }

/-- With no command waiting a step is one period of the step clock, and the queue stays empty (the model's choice: log entry 2). -/
def Obligations.IdleStepIsOnePeriod : Prop :=
  ∀ s : State, s.pending = [] →
    step s = .next { pending := [], chip := (tick s.chip s.arr s.mem).1, arr := (tick s.chip s.arr s.mem).2.1, mem := (tick s.chip s.arr s.mem).2.2 }

/-- No command faults or is refused, and none touches the queue. -/
def Obligations.EveryCommandCompletes : Prop :=
  ∀ (i : Instr) (s : State), Does i s fun t => t.pending = s.pending

/-- What a command cannot reach: one of reach `chip` leaves the array and the memories, one of reach `array` the memories, one of reach `memory` the array. -/
def Obligations.CommandsKeepToTheirLayers : Prop :=
  ∀ (i : Instr) (s t : State), exec i s = .next t →
    (i.reach = .chip → t.arr = s.arr ∧ t.mem = s.mem) ∧ (i.reach = .array → t.mem = s.mem) ∧ (i.reach = .memory → t.arr = s.arr)

/-- Every step, of any command and of an idle period, keeps every memory in its canonical form: addresses strictly rising and no blank byte listed. -/
def Obligations.StepKeepsMemoriesSound : Prop :=
  ∀ s t : State, s.Sound → step s = .next t → t.Sound

/-! The word code (R38, R39) and slot parity (R65) -/

/-- A stored word as R38 builds it passes its check; any single wrong bit of it is corrected, and any two wrong bits are uncorrectable (R39). -/
def Obligations.WordCheckCorrectsOneDetectsTwo : Prop :=
  ∀ d : Nat, d < 2 ^ 80 →
    checkWord (encodeWord d) = .good ∧
    (∀ i, i < 88 → checkWord (Nat.xor (encodeWord d) (2 ^ i)) = .corrected (encodeWord d)) ∧
    (∀ i j, i < 88 → j < 88 → i ≠ j → checkWord (Nat.xor (Nat.xor (encodeWord d) (2 ^ i)) (2 ^ j)) = .bad)

/-- A slot write stores its bit, leaves every other slot alone, and keeps the parity standing of every word: a word that passes still passes, one that
fails still fails (R65: the parity bit changes by the written bit only). -/
def Obligations.SlotWriteKeepsParity : Prop :=
  ∀ (slots par : NatMap) (b k v : Nat), v < 2 → NatMap.find 0 slots (b * 4096 + k) < 2 →
    (∀ j, NatMap.find 0 (writeSlot1 slots par b k v).1 j = if j = b * 4096 + k then v else NatMap.find 0 slots j) ∧
    (∀ w, parityOk (writeSlot1 slots par b k v).1 (writeSlot1 slots par b k v).2 w = parityOk slots par w)

/-! Boolean processors (R33, R41 to R58) -/

/-- EVAL: the truth-table bit that its four operands select goes into slot s (in mirrored mode in both arrays), onto the lane, and, where it is so
configured, out of the port and into the probe vector; nothing else of the array changes. -/
def Obligations.EvalStoresTruthTable : Prop :=
  ∀ (bp : Fin 131072) (p w va vb vc vd : Nat) (s : State), BpRuns .eval bp.val p w s →
    OperandsRead (bpBegun bp.val p w s.chip) s.arr p bp.val (s.chip.stepNow p) w va vb vc vd →
    Does (.eval bp) s fun t =>
      t.chip = bpBegun bp.val p w s.chip ∧ t.mem = s.mem ∧ t.pending = s.pending ∧
      (∀ k, NatMap.find 0 t.arr.slotA k =
        if k = bp.val * 4096 + s.chip.stepNow p then bit (Word.tt w) (8 * vd + 4 * vc + 2 * vb + va) else NatMap.find 0 s.arr.slotA k) ∧
      (∀ k, NatMap.find 0 t.arr.slotB k =
        if s.chip.on .H_DS_MIRROR p ∧ k = bp.val * 4096 + s.chip.stepNow p then bit (Word.tt w) (8 * vd + 4 * vc + 2 * vb + va)
        else NatMap.find 0 s.arr.slotB k) ∧
      Published s.arr t.arr p bp.val (s.chip.stepNow p) w (bit (Word.tt w) (8 * vd + 4 * vc + 2 * vb + va)) (Word.snd w = 1) ∧
      { t.arr with slotA := s.arr.slotA, parA := s.arr.parA, slotB := s.arr.slotB, parB := s.arr.parB, drives := s.arr.drives,
                   sends := s.arr.sends, pvec := s.arr.pvec } = s.arr

/-- EVALC with D = 1 writes the three-input function of A, B and C into slot s; with D = 0 no slot changes; either way it publishes the value that the slot
then has. -/
def Obligations.EvalcWritesOnlyWhenEnabled : Prop :=
  ∀ (bp : Fin 131072) (p w va vb vc vd : Nat) (s : State), BpRuns .evalc bp.val p w s →
    OperandsRead (bpBegun bp.val p w s.chip) s.arr p bp.val (s.chip.stepNow p) w va vb vc vd →
    (vd = 1 → Does (.evalc bp) s fun t =>
      t.chip = bpBegun bp.val p w s.chip ∧ t.mem = s.mem ∧
      (∀ k, NatMap.find 0 t.arr.slotA k =
        if k = bp.val * 4096 + s.chip.stepNow p then bit (Word.tt w) (4 * vc + 2 * vb + va) else NatMap.find 0 s.arr.slotA k) ∧
      Published s.arr t.arr p bp.val (s.chip.stepNow p) w (bit (Word.tt w) (4 * vc + 2 * vb + va)) (Word.snd w = 1)) ∧
    (∀ old, vd = 0 → readSlot (bpBegun bp.val p w s.chip) s.arr p bp.val (s.chip.stepNow p) = (old, bpBegun bp.val p w s.chip, s.arr) →
      Does (.evalc bp) s fun t =>
        t.chip = bpBegun bp.val p w s.chip ∧ t.mem = s.mem ∧
        Published s.arr t.arr p bp.val (s.chip.stepNow p) w old (Word.snd w = 1) ∧
        { t.arr with drives := s.arr.drives, sends := s.arr.sends, pvec := s.arr.pvec } = s.arr)

/-- MPUT, STOP, TRIG, OUT and XEV write no slot. Each publishes its value, XEV always on its port; beside that MPUT hands it to gather input PORT of its tile's
agents, OUT to rim output bit PORT of its tile, STOP with value 1 requests a stop with code PORT, and TRIG with value 1 sets trigger condition PORT.
NOP changes nothing but the count of its reserved operand codes; an undefined opcode does as NOP does and is counted as well. -/
def Obligations.OtherOpcodesWriteNoSlot : Prop :=
  ∀ (bp : Fin 131072) (p w va vb vc vd : Nat) (s : State),
    (∀ op : BpOp, BpRuns op bp.val p w s → OperandsRead (bpBegun bp.val p w s.chip) s.arr p bp.val (s.chip.stepNow p) w va vb vc vd →
      let v := bit (Word.tt w) (8 * vd + 4 * vc + 2 * vb + va)
      let c := bpBegun bp.val p w s.chip
      let rest := fun (a : Arr) => { a with drives := s.arr.drives, sends := s.arr.sends, pvec := s.arr.pvec }
      (op = .mput → Does (.mput bp) s fun t => t.chip = c ∧ t.mem = s.mem ∧
        Published s.arr t.arr p bp.val (s.chip.stepNow p) w v (Word.snd w = 1) ∧
        rest t.arr = { s.arr with gathers := ((bp.val / 256 * 4 + Word.port w / 16) * 16 + Word.port w % 16, v) :: s.arr.gathers }) ∧
      (op = .stop → Does (.stop bp) s fun t => t.mem = s.mem ∧ rest t.arr = s.arr ∧
        Published s.arr t.arr p bp.val (s.chip.stepNow p) w v (Word.snd w = 1) ∧
        t.chip = if v = 1 then (c.set .H_STOP_PEND p (orBit (c.get .H_STOP_PEND p) 0)).set .H_STOP_CODES p (orBit (c.get .H_STOP_CODES p) (Word.port w)) else c) ∧
      (op = .trig → Does (.trig bp) s fun t => t.mem = s.mem ∧ rest t.arr = s.arr ∧
        Published s.arr t.arr p bp.val (s.chip.stepNow p) w v (Word.snd w = 1) ∧
        t.chip = if v = 1 then c.set .H_TRIG p (orBit (c.get .H_TRIG p) (Word.port w)) else c) ∧
      (op = .out → Does (.out bp) s fun t => t.chip = c ∧ t.mem = s.mem ∧
        Published s.arr t.arr p bp.val (s.chip.stepNow p) w v (Word.snd w = 1) ∧
        rest t.arr = { s.arr with outs := (bp.val / 256 * 64 + Word.port w, v) :: s.arr.outs }) ∧
      (op = .xev → Does (.xev bp) s fun t => t.chip = c ∧ t.mem = s.mem ∧ rest t.arr = s.arr ∧
        Published s.arr t.arr p bp.val (s.chip.stepNow p) w v true)) ∧
    (BpRuns .nop bp.val p w s → exec (.nop bp) s = .next { s with chip := bpBegun bp.val p w s.chip }) ∧
    (BpRuns .undefinedOp bp.val p w s →
      exec (.undefinedOpcode bp) s = .next { s with chip := (bpBegun bp.val p w s.chip).count .PTN_ENC_FAULT_COUNT p 1 })

/-- A read of a slot whose word fails parity, in a store that is not mirrored, delivers the stored bit and marks the partition to stop with DATA_PARITY at
the end of the cycle; the first such read since VALID was cleared is located (R65). -/
def Obligations.SlotParityFailureStopsPartition : Prop :=
  ∀ (c : Chip) (a : Arr) (p b k : Nat), c.on .H_DS_MIRROR p = false → parityOk a.slotA a.parA ((b * 4096 + k) / 8) = false →
    p < 16 → b < 131072 → k < 4096 →
    (readSlot c a p b k).1 = NatMap.find 0 a.slotA (b * 4096 + k) ∧ (readSlot c a p b k).2.2 = a ∧
    bitB ((readSlot c a p b k).2.1.get .H_STOP_PEND p) 6 = true ∧
    (readSlot c a p b k).2.1.get .PTN_DPAR_LOC_VALID p ≠ 0 ∧
    (c.get .PTN_DPAR_LOC_VALID p = 0 →
      (readSlot c a p b k).2.1.get .PTN_DPAR_LOC_BP p = b ∧ (readSlot c a p b k).2.1.get .PTN_DPAR_LOC_SLOT p = k) ∧
    (c.get .PTN_DPAR_LOC_VALID p ≠ 0 →
      (readSlot c a p b k).2.1.get .PTN_DPAR_LOC_BP p = c.get .PTN_DPAR_LOC_BP p ∧
      (readSlot c a p b k).2.1.get .PTN_DPAR_LOC_SLOT p = c.get .PTN_DPAR_LOC_SLOT p)

/-! Memory port agents (R142 to R148) -/

/-- The agents of a partition that have an entry at a step issue in it in their slot order, each once, whichever of their accesses is named. CREAD takes the 8 bytes of the addressed word of its own tile's cistern, which it leaves alone, and CWRITE puts WDATA there and changes no other byte;
either awaits its return LC executed steps later. -/
def Obligations.CisternAccessesOfAgents : Prop :=
  ∀ (tile : Fin 512) (agent : Fin 4) (p : Nat) (s : State),
    let g := tile.val * 4 + agent.val
    (s.chip.tileOwner (g / 4) = some p → s.chip.pumpState p = psRun →
      let st := s.chip.stepNow p
      let all := (agentsAt p st s.chip s.arr).foldl (fun x k => agentIssue p st k x.1 x.2.1 x.2.2) (s.chip, s.arr, s.mem)
      let kind := entryIssue (s.arr.entry (.agent tile agent) st)
      let next := Host.Outcome.next { s with chip := all.1, arr := all.2.1, mem := all.2.2 }
      (kind = issCread → exec (.cread tile agent) s = next) ∧ (kind = issCwrite → exec (.cwrite tile agent) s = next) ∧
      (kind = issDread → exec (.dread tile agent) s = next) ∧ (kind = issDwrite → exec (.dwrite tile agent) s = next)) ∧
    let x := tile.val * 0x80000 + NatMap.find 0 s.arr.addr g % 65536 * 8
    (AgentIssues issCread g p s → Does (.cread tile agent) s fun t =>
      t.arr = { s.arr with accs := s.arr.accs ++ [{ agent := g, kind := issCread, left := s.chip.get .DM_STATUS_LC p, data := ofBytes (Memory.readN s.mem.cistern x 8), arrived := true, since := s.chip.now }] } ∧
      { t.mem with cisErr := s.mem.cisErr } = s.mem) ∧
    (AgentIssues issCwrite g p s → Does (.cwrite tile agent) s fun t =>
      t.arr = { s.arr with accs := s.arr.accs ++ [{ agent := g, kind := issCwrite, left := s.chip.get .DM_STATUS_LC p, arrived := true, since := s.chip.now }] } ∧
      t.chip = s.chip.set .H_STEP_DONE (agentDone g) 1 ∧
      (∀ y, Memory.read t.mem.cistern y =
        if x ≤ y ∧ y < x + 8 then (toBytes 8 (NatMap.find 0 s.arr.wdata g)).getD (y - x) 0 else Memory.read s.mem.cistern y) ∧
      t.mem.deep = s.mem.deep ∧ t.mem.sram = s.mem.sram ∧ t.mem.vault = s.mem.vault ∧ t.mem.rim = s.mem.rim)

/-- DREAD and DWRITE of a mapped address whose channel has not failed: the read takes the 8 bytes as they stand; the write merges WDATA where its 32-byte
unit is free of uncorrectable errors, and changes no other byte; either awaits its return LD executed steps later, in the lowest free place of the
agent's queue. The response of a deep access that arrives (R147) marks its place in the return queue arrived and leaves every other access alone. -/
def Obligations.DeepAccessesOfAgents : Prop :=
  ∀ (tile : Fin 512) (agent : Fin 4) (p st gr off : Nat) (s : State),
    let g := tile.val * 4 + agent.val
    let c := s.chip.set .H_STEP_DONE (agentDone g) 1
    (NatMap.find 0 s.arr.addr g * 8 < cisternBase →
    c.place p (NatMap.find 0 s.arr.addr g * 8) false = .deep st gr off → c.deepDead st off = false →
    c.cutOff (g / 4) (c.routerDeep st off) = false →
    (AgentIssues issDread g p s → Does (.dread tile agent) s fun t =>
      t.arr = { s.arr with accs := s.arr.accs ++ [{ agent := g, kind := issDread, place := s.arr.freePlace g, left := s.chip.get .DM_STATUS_LD p, data := ofBytes (Memory.readN s.mem.deep (deepKey st gr off) 8), since := s.chip.now, target := c.routerDeep st off, deepCh := c.deepChannel st off }] } ∧
      { t.mem with deepErr := s.mem.deepErr } = s.mem) ∧
    (AgentIssues issDwrite g p s → NatMap.find 0 s.mem.deepErr (deepKey st gr off / 32) = 0 → Does (.dwrite tile agent) s fun t =>
      t.arr = { s.arr with accs := s.arr.accs ++ [{ agent := g, kind := issDwrite, place := s.arr.freePlace g, left := s.chip.get .DM_STATUS_LD p, since := s.chip.now, target := c.routerDeep st off, deepCh := c.deepChannel st off }] } ∧
      t.chip = c ∧
      (∀ y, Memory.read t.mem.deep y =
        if deepKey st gr off ≤ y ∧ y < deepKey st gr off + 8 then (toBytes 8 (NatMap.find 0 s.arr.wdata g)).getD (y - deepKey st gr off) 0
        else Memory.read s.mem.deep y) ∧
      t.mem.cistern = s.mem.cistern ∧ t.mem.sram = s.mem.sram ∧ t.mem.vault = s.mem.vault ∧ t.mem.rim = s.mem.rim)) ∧
    (∀ (place : Fin 16) (x : Access), s.arr.accs.find? (fun y => y.agent = g && 3 ≤ y.kind && y.place = place.val && !y.arrived) = some x →
      s.chip.cutOff tile.val x.target = false → (∀ y ∈ s.arr.accs, y.live = true) →
      exec (.deepReturnArrival tile agent place) s = .next { s with arr := { s.arr with accs := s.arr.accs.map fun y =>
        if y.agent = g ∧ 3 ≤ y.kind ∧ y.place = place.val then { y with arrived := true } else y } })

/-! Registers (R12 to R16, R123, R304) -/

/-- What a write does to a field by its access type (R12): RW takes the bits, W1C clears where 1 is written, W1S sets where 1 is written, and RO, RC and WO fields
and every field of another name or instance keep their values. -/
def Obligations.AccessTypesOfFields : Prop :=
  ∀ (c : Chip) (k v : Nat) (x : FieldDef), c.get x.fld (k * x.fc + x.fi) < 2 ^ x.fld.width → 0 < x.fld.width →
    let i := k * x.fc + x.fi
    let b := bits v x.hi x.lo
    (x.acc = .rw → (c.writeField k v x).get x.fld i = b % 2 ^ x.fld.width) ∧
    (x.acc = .w1c → (c.writeField k v x).get x.fld i = c.get x.fld i - Nat.land (c.get x.fld i) b) ∧
    (x.acc = .w1s → (c.writeField k v x).get x.fld i = Nat.lor (c.get x.fld i) b % 2 ^ x.fld.width) ∧
    (x.acc = .ro ∨ x.acc = .rc ∨ x.acc = .wo → c.writeField k v x = c) ∧
    (∀ g j, ¬(g = x.fld ∧ j = i) → (c.writeField k v x).get g j = c.get g j)

/-- Three writes as the register tables have them. A host selects a unit in its GLB_LAT_SEL. A host writes the hold limit of a partition bound to its port; one of
another port is turned away, counted and located. A core with service rights writes NOC_TIMEOUT, and a value of 0 sets CFG_REJ and leaves the register. Of a write of a
host that is lost, whose link is down, nothing is left (R131). -/
def Obligations.RegisterWritesByName : Prop :=
  ∀ (n : Fin 4) (p : Fin 16) (k : Fin 8) (sec : Bool) (x : BitVec 48) (size : Fin 4) (v : Word64) (s : State), v.toNat < 2 ^ 32 →
    (s.chip.hostGone (.host n) = true → exec (.registerWrite (.host n) x size v) s = .next s) ∧
    (s.chip.hostGone (.host n) = false →
      (exec (.registerWrite (.host n) 0x20#48 2 v) s = .next { s with chip := (s.chip.answer .ok).set .GLB_LAT_SEL_UNIT n (bits v.toNat 7 0) }) ∧
      (s.chip.get .PTN_CFG_BIND p = n.val → Does (.registerWrite (.host n) (BitVec.ofNat 48 (0x40001C + p.val * 0x10000)) 2 v) s fun t =>
        t.chip.resp.status = .ok ∧ t.chip.get .PMP_HOLD_LIMIT_LIMIT p = bits v.toNat 15 0 ∧ t.arr = s.arr ∧ t.mem = s.mem ∧
        Keeps s.chip t.chip [(.PMP_HOLD_LIMIT_LIMIT, p.val)]) ∧
      (s.chip.get .PTN_CFG_BIND p ≠ n.val → Does (.registerWrite (.host n) (BitVec.ofNat 48 (0x40001C + p.val * 0x10000)) 2 v) s fun t =>
        t.chip = s.chip.accError (.host n) true (0x40001C + p.val * 0x10000) ∧ t.arr = s.arr ∧ t.mem = s.mem)) ∧
    (k.val < 4 ∨ sec = true →
      let u := s.seen (.core k sec)
      Does (.registerWrite (.core k sec) 0xF00040#48 2 v) s fun t =>
        t.arr = u.arr ∧ t.mem = u.mem ∧
        t.chip = if bits v.toNat 15 0 = 0 then (u.chip.answer .ok).set .NOC_STATUS_CFG_REJ 0 1
          else (u.chip.answer .ok).set .NOC_TIMEOUT_US 0 (bits v.toNat 15 0))

/-- Two-part accesses (R16). The low half of PMP_CYCLE latches the high half for its initiator; the high half answers the latched value and consumes it, and with nothing latched the current one. The low half
of a stopped channel's DMA_CH_DESC_BASE is held for its initiator and changes no register; the high half then writes both halves at once. -/
def Obligations.TwoPartAccesses : Prop :=
  (∀ (n : Fin 4) (p : Fin 16) (s : State), s.chip.get .PTN_CFG_BIND p = n.val → s.chip.get .PMP_CYCLE_CYCLE p < 2 ^ 64 →
    let lo := BitVec.ofNat 48 (0x400020 + p.val * 0x10000)
    let hi := BitVec.ofNat 48 (0x400024 + p.val * 0x10000)
    let key := latchKey (.host n) (0x400020 + p.val * 0x10000)
    (Does (.lowHalfRead (.host n) lo) s fun t =>
      t.chip.resp = { status := .ok, value := s.chip.get .PMP_CYCLE_CYCLE p % 2 ^ 32 } ∧
      NatMap.find 0 t.chip.latch key = s.chip.get .PMP_CYCLE_CYCLE p / 2 ^ 32 + 1 ∧
      t.chip.fld = s.chip.fld ∧ t.arr = s.arr ∧ t.mem = s.mem) ∧
    (∀ v, NatMap.find 0 s.chip.latch key = v + 1 → Does (.highHalfRead (.host n) hi) s fun t =>
      t.chip.resp = { status := .ok, value := v } ∧ NatMap.find 0 t.chip.latch key = 0 ∧ t.chip.fld = s.chip.fld ∧ t.arr = s.arr ∧ t.mem = s.mem) ∧
    (NatMap.find 0 s.chip.latch key = 0 → Does (.highHalfRead (.host n) hi) s fun t =>
      t.chip.resp = { status := .ok, value := s.chip.get .PMP_CYCLE_CYCLE p / 2 ^ 32 } ∧
      t.chip.fld = s.chip.fld ∧ t.chip.latch = s.chip.latch ∧ t.arr = s.arr ∧ t.mem = s.mem)) ∧
  (∀ (n : Fin 4) (ch : Fin 8) (lo hi : Word32) (s : State), s.chip.get .DMA_CH_CTL_EN (n.val * 8 + ch.val) = 0 → s.chip.hostGone (.host n) = false →
    let x := 0xD01008 + ch.val * 0x100
    let key := latchKey (.host n) x
    (Does (.lowHalfWrite (.host n) (BitVec.ofNat 48 x) lo) s fun t =>
      t.chip.resp.status = .ok ∧ NatMap.find 0 t.chip.held key = lo.toNat + 1 ∧ t.chip.fld = s.chip.fld ∧ t.arr = s.arr ∧ t.mem = s.mem) ∧
    (NatMap.find 0 s.chip.held key = lo.toNat + 1 → Does (.highHalfWrite (.host n) (BitVec.ofNat 48 (x + 4)) hi) s fun t =>
      t.chip.get .DMA_CH_DESC_BASE_ADDR (n.val * 8 + ch.val) = (lo.toNat + hi.toNat * 2 ^ 32) / 2 ^ 6 ∧
      NatMap.find 0 t.chip.held key = 0 ∧
      KeepsAll s.chip t.chip [(.DMA_CH_DESC_BASE_ADDR, n.val * 8 + ch.val)] ∧ t.arr = s.arr ∧ t.mem = s.mem))

/-- Reads that do more than show a value. A read of a read-to-clear counter answers it and leaves it 0 (R12). A read of PMP_RESULT answers every field of the result, sets CONSUMED where READY is 1 and shows in
PMP_RESULT_CYC the cycle of the result (R95). A read of the low half of FLT_LOG answers the oldest entry, takes it off the log, latches its high half and shows its
detail; with the log empty it answers 0 (R407). Nothing else changes. -/
def Obligations.ReadsWithEffects : Prop :=
  (∀ (n : Fin 4) (p : Fin 16) (s : State), s.chip.get .PTN_CFG_BIND p = n.val → s.chip.get .PMP_OVR_CNT_COUNT p < 2 ^ 32 →
    exec (.rcRead (.host n) (BitVec.ofNat 48 (0x400030 + p.val * 0x10000)) 2) s =
      .next { s with chip := (s.chip.set .PMP_OVR_CNT_COUNT p 0).answer .ok (s.chip.get .PMP_OVR_CNT_COUNT p) }) ∧
  (∀ (n : Fin 4) (p : Fin 16) (s : State), s.chip.get .PTN_CFG_BIND p = n.val →
    Does (.resultRead (.host n) (.pmp p)) s fun t =>
      t.chip.resp.status = .ok ∧
      t.chip.resp.value = s.chip.get .PMP_RESULT_READY p * 2 ^ 31 + s.chip.get .PMP_RESULT_CONSUMED p * 2 ^ 30 + s.chip.get .PMP_RESULT_OUTCOME p * 2 ^ 28 +
        s.chip.get .PMP_RESULT_CMD p * 2 ^ 24 + s.chip.get .PMP_RESULT_CODE p * 2 ^ 16 + s.chip.get .PMP_RESULT_SEQ p ∧
      t.chip.get .PMP_RESULT_CONSUMED p = (if s.chip.get .PMP_RESULT_READY p = 0 then s.chip.get .PMP_RESULT_CONSUMED p else 1) ∧
      t.chip.get .PMP_RESULT_CYC_CYCLE p = s.chip.get .H_RES_CYC p % 2 ^ 64 ∧
      KeepsAll s.chip t.chip [(.PMP_RESULT_CONSUMED, p.val), (.PMP_RESULT_CYC_CYCLE, p.val)] ∧
      t.arr = s.arr ∧ t.mem = s.mem) ∧
  (∀ (k : Fin 8) (sec : Bool) (s₀ : State),
    let s := s₀.seen (.core k sec)
    s.chip.regMay (Init.core k sec) ⟨.svc, 0, 0x610⟩ false = true →
    (∀ e es, s.chip.flt = e :: es → Does (.fltLogRead k sec) s₀ fun t =>
      t.chip.flt = es ∧ t.chip.resp.status = .ok ∧ t.chip.resp.value = e.time % 2 ^ 32 ∧ t.chip.get .FLT_LOG_INFO_INFO 0 = e.info % 2 ^ 64 ∧
      NatMap.find 0 t.chip.latch (latchKey (Init.core k sec) (blockBase (Init.core k sec) .svc 0 + 0x610)) = 2 ^ 31 + e.code % 256 * 2 ^ 8 + e.part % 16 * 2 ^ 4 + e.dom % 2 + 1 ∧
      KeepsAll s.chip t.chip [(.FLT_LOG_INFO_INFO, 0)] ∧ t.arr = s.arr ∧ t.mem = s.mem) ∧
    (s.chip.flt = [] → Does (.fltLogRead k sec) s₀ fun t =>
      t.chip.flt = [] ∧ t.chip.resp.status = .ok ∧ t.chip.resp.value = 0 ∧ t.chip.fld = s.chip.fld ∧ t.arr = s.arr ∧ t.mem = s.mem))

/-! Pumps (R90 to R117) -/

/-- An accepted START enters RAMP for 32 microseconds and is pending; stop causes and stop codes clear, and STRETCH's pending tick and the LAG too. One that may not start
is refused and changes nothing but the result: NO_IMAGE in EMPTY and LOADING, CMD_STATE outside HALT, in mode HALT and under a march test,
PACE_TOO_FAST where the divider is shorter than the schedule, STEP_RATE_BUSY during a change of the rate, in that order. -/
def Obligations.StartEntersRampOrIsRefused : Prop :=
  ∀ (who : Init) (p : Fin 16) (s₀ : State),
    let s := s₀.seen who
    s.chip.regMay who ⟨.part, p, 0x4⟩ true = true → s.chip.power = pwrOn →
    s.chip.cmdPending .pmp p = false →
    let st := s.chip.pumpState p
    let code := if st = psEmpty ∨ st = psLoading then 1 else if st ≠ psHalt ∨ s.chip.mode p = modeHalt ∨ s.chip.underTest p = true then 2
      else if s.chip.mode p = modePaced ∧ s.chip.get .PMP_CTL_PSRC p = 0 ∧ s.chip.get .PMP_TDIV_INT p < s.chip.get .PMP_SLEN_S p then 3
      else if s.chip.on .PMP_RATE_CHANGING 0 = true then 4 else 0
    (code = 0 → Does (.start who p) s₀ fun t =>
      t.chip.resp.status = .ok ∧ t.chip.pumpState p = psRamp ∧ t.chip.cmdPending .pmp p = true ∧ t.chip.get .CQ_CMD (CmdReg.pmp.idx p) = 1 ∧
      t.chip.get .H_RAMP_END p = s.chip.now + 32 * Chip.us + 1 ∧ t.chip.get .PMP_RESULT_READY p = 0 ∧
      (∀ f ∈ [Fld.PMP_STOP_CAUSE_STOP, .PMP_STOP_CAUSE_MASK, .PMP_STOP_CAUSE_OVERRUN, .PMP_STOP_CAUSE_LAG, .PMP_STOP_CAUSE_HALT_CMD, .PMP_STOP_CAUSE_DATA_PARITY,
        .PMP_STOP_CAUSE_REPAIR_FAIL, .PMP_STOP_CAUSE_HOST_LOSS, .PMP_STOP_CODES_CODES, .PMP_STATUS_LAG, .PMP_STATUS_TICK_PEND], t.chip.get f p = 0) ∧
      t.mem = s.mem ∧ t.arr.istore = s.arr.istore ∧ t.arr.slotA = s.arr.slotA ∧ t.arr.xreg = s.arr.xreg) ∧
    (code ≠ 0 → Does (.start who p) s₀ fun t =>
      t.chip.pumpState p = s.chip.pumpState p ∧ t.chip.cmdPending .pmp p = false ∧ t.chip.get .PMP_RESULT_READY p = 1 ∧
      t.chip.get .PMP_RESULT_OUTCOME p = refused ∧ t.chip.get .PMP_RESULT_CMD p = 1 ∧ t.chip.get .PMP_RESULT_CODE p = code ∧
      t.arr = s.arr ∧ t.mem = s.mem)

/-- HALT of a running or held partition is pending and takes effect at the end of the cycle; of one that waits it stops it at once, with HALT_CMD recorded and the result
COMPLETED; of a START in RAMP it aborts that START (R92, R412). -/
def Obligations.HaltStopsPump : Prop :=
  ∀ (who : Init) (p : Fin 16) (s₀ : State),
    let s := s₀.seen who
    s.chip.regMay who ⟨.part, p, 0x4⟩ true = true →
    (s.chip.cmdPending .pmp p = false → s.chip.pumpState p = psRun ∨ s.chip.pumpState p = psHold → Does (.halt who p) s₀ fun t =>
      t.chip.pumpState p = s.chip.pumpState p ∧ t.chip.cmdPending .pmp p = true ∧ bitB (t.chip.get .H_STOP_PEND p) 5 = true ∧ t.arr = s.arr ∧ t.mem = s.mem) ∧
    (s.chip.cmdPending .pmp p = false → s.chip.pumpState p = psWait → Does (.halt who p) s₀ fun t =>
      t.chip.pumpState p = psHalt ∧ t.chip.cmdPending .pmp p = false ∧ t.chip.get .PMP_STOP_CAUSE_HALT_CMD p = 1 ∧
      t.chip.get .PMP_STOP_CYCLE_CYCLE p = s.chip.lastCycle p ∧ t.chip.get .PMP_RESULT_READY p = 1 ∧ t.chip.get .PMP_RESULT_OUTCOME p = completed ∧
      t.chip.get .PMP_RESULT_CMD p = 2 ∧ t.chip.get .PMP_EVENT_STOPPED p = 1 ∧ t.arr = s.arr ∧ t.mem = s.mem) ∧
    (s.chip.cmdPending .pmp p = true → s.chip.get .CQ_CMD (CmdReg.pmp.idx p) = 1 → s.chip.pumpState p = psRamp → Does (.halt who p) s₀ fun t =>
      t.chip.pumpState p = psHalt ∧ t.chip.cmdPending .pmp p = false ∧ t.chip.get .PMP_RESULT_OUTCOME p = aborted ∧ t.chip.get .PMP_RESULT_CMD p = 1 ∧
      t.arr = s.arr ∧ t.mem = s.mem)

/-- A cycle begins on a STEP of a partition that waits in STEP mode, and on a tick in PACED mode: step 0, in RUN where no hold is recorded for it, with the captures of the cycle before kept as the
previous ones and what has arrived for step 0 loaded. A STEP keeps COUNT and is pending. A tick during a cycle under STRETCH is an overrun that is counted and kept, and a divider that gave it stops. In
modes other than PACED a tick of the divider only counts. An edge of TICK_IN that a partition has selected is sampled, and its tick comes in the fourth period after it; edges of a clock source change
neither the array nor the memories (R92, R98, R100, R101, R104, R143, R231). -/
def Obligations.CyclesBeginOnStepAndTick : Prop :=
  ∀ (who : Init) (p : Fin 16) (rising : Bool) (code : BitVec 8) (count : BitVec 16) (s₀ : State),
    let s := s₀.seen who
    let begun := fun (t : State) => t.chip.pumpState p = psRun ∧ t.chip.stepNow p = 0 ∧ t.mem = s.mem ∧
      t.arr.accs = (loadReturns p s.chip s.arr).accs ∧ t.arr.rdata = (loadReturns p s.chip s.arr).rdata ∧
      (∀ k, s.chip.tileOwner (k / 256) = some p.val → s.arr.capCur.sorted = true → NatMap.find 0 s.arr.capCur k < 2 →
        NatMap.find 0 t.arr.capPrev k = NatMap.find 0 s.arr.capCur k) ∧
      { t.arr with accs := s.arr.accs, rdata := s.arr.rdata, capPrev := s.arr.capPrev, capCur := s.arr.capCur } = s.arr
    (s.chip.regMay who ⟨.part, p, 0x4⟩ true = true → s.chip.cmdPending .pmp p = false → s.chip.pumpState p = psWait → s.chip.mode p = modeStep → count ≠ 0 →
      s.chip.holdMark p 0 = 0 → s.chip.reps = [] → Does (.step who p count) s₀ fun t =>
        begun t ∧ t.chip.cmdPending .pmp p = true ∧ t.chip.get .CQ_COUNT (CmdReg.pmp.idx p) = count.toNat) ∧
    (s.chip.divDue p = true → s.chip.mode p = modePaced → s.chip.elastic p = false → s.chip.pumpState p = psWait →
      s.chip.holdMark p 0 = 0 → s.chip.reps = [] → Does (.tick (.divider p) rising) s begun) ∧
    (s.chip.divDue p = true → s.chip.mode p = modePaced → s.chip.get .PMP_CTL_OVR p = ovrStretch →
      s.chip.pumpState p = psRun ∨ s.chip.pumpState p = psHold → s.chip.on .PMP_STATUS_TICK_PEND p = false → Does (.tick (.divider p) rising) s fun t =>
        t.chip.get .PMP_OVR_CNT_COUNT p = satAdd (2 ^ 32 - 1) (s.chip.get .PMP_OVR_CNT_COUNT p) 1 ∧ t.chip.get .PMP_STATUS_TICK_PEND p = 1 ∧
        t.chip.get .PMP_EVENT_OVR p = 1 ∧ t.chip.get .H_DIV_ON p = 0 ∧
        Keeps s.chip t.chip [(.PMP_OVR_CNT_COUNT, p.val), (.PMP_STATUS_TICK_PEND, p.val), (.PMP_EVENT_OVR, p.val), (.H_DIV_ON, p.val), (.H_DIV_J, p.val)] ∧
        t.arr = s.arr ∧ t.mem = s.mem) ∧
    (s.chip.divDue p = true → s.chip.mode p ≠ modePaced → exec (.tick (.divider p) rising) s = .next { s with chip := s.chip.bump .H_DIV_J p }) ∧
    (s.chip.divDue p = false → exec (.tick (.divider p) rising) s = .next s) ∧
    (Does (.tick .pin rising) s fun t => t.chip.fld = s.chip.fld ∧ t.arr = s.arr ∧ t.mem = s.mem ∧
      ∀ e, e ∈ t.chip.edges ↔ e ∈ s.chip.edges ∨ ∃ q, q < 16 ∧ s.chip.get .PMP_CTL_PSRC q = 1 ∧ rising ≠ s.chip.on .PMP_CTL_EDGE q ∧ e = (q, 1, s.chip.period + 4)) ∧
    (Does (.tick (.clock code) rising) s fun t => t.arr = s.arr ∧ t.mem = s.mem) ∧
    (∀ (c : Chip) (a : Arr) (src due : Nat), c.edges = [(p.val, src, due)] →
      (c.period < due → edgeTicks p c a = (c, a)) ∧ (due ≤ c.period → edgeTicks p c a = externalTick p src { c with edges := [] } a))

/-- PRIME of a halted partition that is not under test: the cycle number is 0, the command is pending, every slot of the partition has its golden value, its lane histories and
exchange registers read 0, and no other partition's slots change (R63, R84, R92, R117). -/
def Obligations.PrimeRestoresGoldenState : Prop :=
  ∀ (who : Init) (p : Fin 16) (s₀ : State),
    let s := s₀.seen who
    s.chip.regMay who ⟨.part, p, 0x4⟩ true = true → s.chip.power = pwrOn →
    s.chip.cmdPending .pmp p = false → s.chip.pumpState p = psHalt → s.chip.underTest p = false → s.arr.gslot.sorted = true →
    Does (.prime who p) s₀ fun t =>
      t.chip.pumpState p = psHalt ∧ t.chip.cmdPending .pmp p = true ∧ t.chip.get .PMP_CYCLE_CYCLE p = 0 ∧ t.mem = s.mem ∧
      t.arr.istore = s.arr.istore ∧ t.arr.sched = s.arr.sched ∧ t.arr.gslot = s.arr.gslot ∧
      (∀ b k, k < 4096 → NatMap.find 0 t.arr.slotA (b * 4096 + k) =
        if s.chip.ownsBand p (b / 2048) then NatMap.find 0 s.arr.gslot (b * 4096 + k) else NatMap.find 0 s.arr.slotA (b * 4096 + k)) ∧
      (∀ b, s.chip.ownsBand p (b / 2048) = true → NatMap.find 0 t.arr.lane1 b = 0 ∧ NatMap.find 0 t.arr.lane2 b = 0) ∧
      (∀ k, s.chip.xOwner k = some p.val → NatMap.find 0 t.arr.xreg k = 0)

/-- SETRATE by the service complex with every pump at rest is pending for 200 microseconds; then the new rate runs, RATE is set in every partition block and the result is COMPLETED. A further
SETRATE meanwhile, through any PMP_CMD, is refused with STEP_RATE_BUSY and alters nothing of the change. A
voltage request that is not acknowledged ends it with ABORTED, PWR_AVS.FAIL set and the rate unchanged (R113, R378). -/
def Obligations.RateChanges : Prop :=
  ∀ (who : Init) (p : Fin 16) (econ : Bool) (s₀ : State),
    let s := s₀.seen who
    (s.chip.regMay who ⟨.part, p, 0x4⟩ true = true → initHost who = false → s.chip.cmdPending .pmp p = false → s.chip.on .PMP_RATE_CHANGING 0 = false →
      (∀ q, q < 16 → s.chip.pumpState q = psEmpty ∨ s.chip.pumpState q = psHalt) → Does (.setrate who p econ) s₀ fun t =>
        t.chip.cmdPending .pmp p = true ∧ t.chip.get .PMP_RATE_CHANGING 0 = 1 ∧ t.chip.get .PMP_RATE_ECON 0 = s.chip.get .PMP_RATE_ECON 0 ∧
        t.chip.get .H_RATE_NEW 0 = b2n econ ∧ t.chip.get .H_RATE_PART 0 = p.val ∧ t.chip.get .H_RATE_DUE 0 = s.chip.now + 200 * Chip.us + 1 ∧
        t.arr = s.arr ∧ t.mem = s.mem) ∧
    (s.chip.get .PMP_RATE_CHANGING 0 = 1 → s.chip.due .H_RATE_DUE 0 = true → s.chip.get .H_RATE_PART 0 = p.val → s.chip.get .H_RATE_NEW 0 < 2 →
      s.chip.cmdPending .pmp p = true → s.chip.get .CQ_CMD (CmdReg.pmp.idx p) = 5 → Does .rateChangeComplete s fun t =>
        t.chip.get .PMP_RATE_CHANGING 0 = 0 ∧ t.chip.get .PMP_RATE_ECON 0 = s.chip.get .H_RATE_NEW 0 ∧ (∀ q, q < 16 → t.chip.get .PMP_EVENT_RATE q = 1) ∧
        t.chip.cmdPending .pmp p = false ∧ t.chip.get .PMP_RESULT_READY p = 1 ∧ t.chip.get .PMP_RESULT_OUTCOME p = completed ∧ t.arr = s.arr ∧ t.mem = s.mem) ∧
    (s.chip.regMay who ⟨.part, p, 0x4⟩ true = true → initHost who = false → s.chip.get .PMP_RATE_CHANGING 0 = 1 →
      s.chip.cmdPending .pmp p = false ∨ s.chip.get .CQ_CMD (CmdReg.pmp.idx p) = 5 → Does (.setrate who p econ) s₀ fun t =>
        t.chip.get .PMP_RESULT_READY p = 1 ∧ t.chip.get .PMP_RESULT_OUTCOME p = refused ∧ t.chip.get .PMP_RESULT_CODE p = 4 ∧
        t.chip.cmdPending .pmp p = s.chip.cmdPending .pmp p ∧ t.chip.get .PMP_RATE_CHANGING 0 = 1 ∧ t.chip.get .H_RATE_NEW 0 = s.chip.get .H_RATE_NEW 0 ∧
        t.chip.get .H_RATE_DUE 0 = s.chip.get .H_RATE_DUE 0 ∧ t.arr = s.arr ∧ t.mem = s.mem) ∧
    (s.chip.get .PMP_RATE_CHANGING 0 = 1 → s.chip.get .H_RATE_PART 0 = p.val → s.chip.cmdPending .pmp p = true → s.chip.get .CQ_CMD (CmdReg.pmp.idx p) = 5 →
      Does .avsTimeout s fun t =>
        t.chip.get .PMP_RATE_CHANGING 0 = 0 ∧ t.chip.get .PMP_RATE_ECON 0 = s.chip.get .PMP_RATE_ECON 0 ∧ t.chip.get .PWR_AVS_FAIL 0 = 1 ∧
        t.chip.cmdPending .pmp p = false ∧ t.chip.get .PMP_RESULT_READY p = 1 ∧ t.chip.get .PMP_RESULT_OUTCOME p = aborted ∧ t.arr = s.arr ∧ t.mem = s.mem)

/-- RAMP ends in RUN at step 0 for FREE, where no hold is recorded for step 0, and in WAIT for PACED and STEP, with the divider started where it paces; a pending START completes. In
RAMP the decision for step j is taken in the (6 - j)th period before its end. In WAIT the words and entries of a step are fetched and checked (R96, R98, R99,
R108, R111). -/
def Obligations.RampRunsAndEnds : Prop :=
  ∀ (p : Fin 16) (j : Fin 6) (w : BitVec 12) (s : State),
    (s.chip.pumpState p = psRamp → s.chip.due .H_RAMP_END p = true → s.chip.reps = [] → s.chip.cmdPending .pmp p = true →
      (s.chip.mode p = modeFree → s.chip.holdMark p 0 = 0 → Does (.rampComplete p) s fun t =>
        t.chip.pumpState p = psRun ∧ t.chip.stepNow p = 0 ∧ t.chip.cmdPending .pmp p = false ∧ t.chip.get .PMP_RESULT_OUTCOME p = completed ∧
        t.chip.get .PMP_RESULT_READY p = 1 ∧ t.mem = s.mem) ∧
      (s.chip.mode p ≠ modeFree → Does (.rampComplete p) s fun t =>
        t.chip.pumpState p = psWait ∧ t.chip.cmdPending .pmp p = false ∧ t.chip.get .PMP_RESULT_OUTCOME p = completed ∧ t.chip.get .PMP_RESULT_READY p = 1 ∧
        (s.chip.mode p = modePaced ∧ s.chip.get .PMP_CTL_PSRC p = 0 → t.chip.get .H_DIV_ON p = 1 ∧ t.chip.get .H_DIV_START p = s.chip.period) ∧
        t.arr = s.arr ∧ t.mem = s.mem)) ∧
    (s.chip.pumpState p = psRamp → s.chip.rampLeft p + j.val = 6 → j.val < s.chip.slen p → Does (.rampHoldDecision p j) s fun t =>
      t.chip.holdMark p j = (if j.val = 0 then causes s.chip s.arr p else causes s.chip s.arr p - bit (causes s.chip s.arr p) 2 * 4) % 64 ∧
      t.arr = s.arr ∧ t.mem = s.mem) ∧
    (s.chip.pumpState p = psWait → w.toNat < s.chip.slen p →
      exec (.fetchWhileNotRunning p w) s =
        .next { s with chip := (checkStep (s.chip.readAhead p w.toNat) p w.toNat s.chip s.arr).1, arr := (checkStep (s.chip.readAhead p w.toNat) p w.toNat s.chip s.arr).2 })

/-- The check of a word (R39, R40, R403), `ahead` as it was fetched for its step, otherwise as it stands in the store: a good word changes nothing; a correctable one is written back corrected, stands
corrected for its step, and is counted; an uncorrectable one asserts REPAIR, once. The fetch of a step takes every word of the partition's processors as it stands in the store, and nothing of another
partition or step (R40). -/
def Obligations.FetchChecksWords : Prop :=
  (∀ (ahead : Bool) (p st b : Nat) (c : Chip) (a : Arr),
    let read := NatMap.find 0 (if ahead then a.fword else a.istore) (b * 4096 + st)
    (checkWord read = .good → checkBp ahead p st c a b = (c, a)) ∧
    (∀ w, checkWord read = .corrected w →
      (checkBp ahead p st c a b).1 = c.count .FLT_CNT_COUNT 0 1 ∧
      (∀ k, NatMap.find 0 (checkBp ahead p st c a b).2.istore k = if k = b * 4096 + st then w else NatMap.find 0 a.istore k) ∧
      (∀ k, NatMap.find 0 (checkBp ahead p st c a b).2.fword k = if ahead = true ∧ k = b * 4096 + st then w else NatMap.find 0 a.fword k) ∧
      { (checkBp ahead p st c a b).2 with istore := a.istore, fword := a.fword } = a) ∧
    (checkWord read = .bad →
      (checkBp ahead p st c a b).2 = a ∧ (checkBp ahead p st c a b).1.repairing false (b * 4096 + st) = true ∧
      (checkBp ahead p st c a b).1.fld = c.fld ∧ (c.repairing false (b * 4096 + st) = true → checkBp ahead p st c a b = (c, a)))) ∧
  (∀ (p st : Nat) (c : Chip) (a : Arr), a.istore.sorted = true → ∀ k,
    NatMap.find 0 (readStep p st c a).fword k =
      if k % 4096 = st ∧ c.ownsBand p (k / 4096 / 2048) = true then NatMap.find 0 a.istore k else NatMap.find 0 a.fword k)

/-- A held step executes once its recorded causes have been clear for the release delay; before that nothing happens. A hold that outlasts PMP_HOLD_LIMIT sets HOLD_LONG. A late output
entry of the elastic buffer leaves and sets OUT_LATE (R109, R112, R236). -/
def Obligations.HoldsEnd : Prop :=
  ∀ (p : Fin 16) (s : State),
    (s.chip.pumpState p = psHold → holdReady s.chip s.arr p (s.chip.holdMark p (s.chip.stepNow p)) s.chip.period = true → Does (.holdRelease p) s fun t =>
      t.chip.pumpState p = psRun ∧ t.chip.stepNow p = s.chip.stepNow p ∧ t.mem = s.mem) ∧
    (holdReady s.chip s.arr p (s.chip.holdMark p (s.chip.stepNow p)) s.chip.period = false → exec (.holdRelease p) s = .next s) ∧
    (s.chip.pumpState p = psHold → s.chip.get .PMP_HOLD_LIMIT_LIMIT p ≠ 0 → s.chip.on .H_HOLD_LONG_SET p = false →
      s.chip.get .PMP_HOLD_LIMIT_LIMIT p * Chip.us < (s.chip.period + 1 - s.chip.get .H_HOLD_START p) * s.chip.unitsPerPeriod → Does (.holdLong p) s fun t =>
        t.chip.get .PMP_EVENT_HOLD_LONG p = 1 ∧ Keeps s.chip t.chip [(.PMP_EVENT_HOLD_LONG, p.val), (.H_HOLD_LONG_SET, p.val)] ∧ t.arr = s.arr ∧ t.mem = s.mem) ∧
    (∀ e, s.arr.elOut.find? (fun e => e.part = p.val && e.due ≠ 0 && e.due ≤ s.chip.period + 1) = some e → Does (.elasticLateRelease p) s fun t =>
      t.arr.elOut = s.arr.elOut.erase e ∧ t.chip.get .ELB_EVENT_OUT_LATE p = 1 ∧
      t.chip.get .ELB_LATE_CNT_COUNT p = satAdd (2 ^ 32 - 1) (s.chip.get .ELB_LATE_CNT_COUNT p) 1 ∧ t.mem = s.mem)

/-! Partitions (R119 to R135, R154, R403, R404) -/

/-- CREATE by the service complex of a free, populated run of bands makes the partition active in EMPTY, with the result COMPLETED; from a host, on an active partition, with bands outside the module
or with bands of another partition it is refused, in that order (R119, R126). -/
def Obligations.CreateClaimsBands : Prop :=
  ∀ (who : Init) (p : Fin 16) (s₀ : State),
    let s := s₀.seen who
    s.chip.regMay who ⟨.part, p, 0x1004⟩ true = true → s.chip.power = pwrOn → s.chip.cmdPending .ptn p = false →
    s.chip.get .H_QUIESCE 0 = 0 →
    let n := s.chip.get .PTN_CFG_COUNT p
    let b := s.chip.get .PTN_CFG_BIND p
    let code := if initHost who then 1 else if s.chip.on .PTN_CFG_ACTIVE p then 2 else if n = 0 ∨ s.chip.bands < s.chip.get .PTN_CFG_FIRST p + n then 3
      else if s.chip.overlaps p then 4 else if b < 4 ∧ s.chip.portExists b = false then 5 else 0
    (code = 0 → Does (.create who p) s₀ fun t =>
      t.chip.get .PTN_CFG_ACTIVE p = 1 ∧ t.chip.pumpState p = psEmpty ∧ t.chip.get .PTN_RESULT_READY p = 1 ∧ t.chip.get .PTN_RESULT_OUTCOME p = completed ∧
      t.chip.get .PTN_RESULT_CMD p = 1 ∧ t.arr = s.arr ∧ t.mem = s.mem) ∧
    (code ≠ 0 → Does (.create who p) s₀ fun t =>
      t.chip.get .PTN_CFG_ACTIVE p = s.chip.get .PTN_CFG_ACTIVE p ∧ t.chip.get .PTN_RESULT_READY p = 1 ∧ t.chip.get .PTN_RESULT_OUTCOME p = refused ∧
      t.chip.get .PTN_RESULT_CODE p = code ∧ t.arr = s.arr ∧ t.mem = s.mem)

/-- RELEASE of a halted or empty partition is pending while its memories clear; when clearing ends the partition is inactive, its configuration is 0, the result is COMPLETED, its stores read 0, it has no staged record and no entry of an elastic buffer, and every byte of its
cisterns and of its mapped granules reads 0, while bytes of deep memory outside those granules and of cisterns outside its bands keep their values
(R126, R127). -/
def Obligations.ReleaseClearsPartition : Prop :=
  ∀ (who : Init) (p : Fin 16) (s₀ : State),
    let s := s₀.seen who
    (s.chip.regMay who ⟨.part, p, 0x1004⟩ true = true → initHost who = false → s.chip.power = pwrOn → s.chip.cmdPending .ptn p = false → s.chip.get .H_QUIESCE 0 = 0 →
      s.chip.on .PTN_CFG_ACTIVE p = true → s.chip.pumpState p = psEmpty ∨ s.chip.pumpState p = psHalt → Does (.release who p) s₀ fun t =>
        t.chip.cmdPending .ptn p = true ∧ t.chip.get .CQ_CMD (CmdReg.ptn.idx p) = 2 ∧ t.chip.get .PTN_CFG_ACTIVE p = s.chip.get .PTN_CFG_ACTIVE p ∧
        t.arr = s.arr ∧ t.mem = s.mem) ∧
    (s.chip.cmdPending .ptn p = true → s.chip.get .CQ_CMD (CmdReg.ptn.idx p) = 2 → Does (.releaseClearComplete p) s fun t =>
      t.chip.get .PTN_CFG_ACTIVE p = 0 ∧ t.chip.get .PTN_CFG_COUNT p = 0 ∧ t.chip.get .PTN_CFG_BIND p = Fld.reset .PTN_CFG_BIND ∧ t.chip.pumpState p = psEmpty ∧
      t.chip.cmdPending .ptn p = false ∧ t.chip.get .PTN_RESULT_READY p = 1 ∧ t.chip.get .PTN_RESULT_OUTCOME p = completed ∧
      (∀ r ∈ t.chip.recs, r.part ≠ p.val) ∧ (∀ e ∈ t.arr.elIn, e.1 ≠ p.val) ∧ (∀ e ∈ t.arr.elOut, e.part ≠ p.val) ∧
      (∀ k, s.chip.ownsBand p (k / 4096 / 2048) = true →
        NatMap.find 0 t.arr.istore k = 0 ∧ NatMap.find 0 t.arr.slotA k = 0 ∧ NatMap.find 0 t.arr.gword k = 0) ∧
      (∀ x, Memory.read t.mem.cistern x =
        if s.chip.get .PTN_CFG_FIRST p * 8 * 0x80000 ≤ x ∧ x < (s.chip.get .PTN_CFG_FIRST p + s.chip.get .PTN_CFG_COUNT p) * 8 * 0x80000 then 0
        else Memory.read s.mem.cistern x) ∧
      (∀ x, Memory.read t.mem.deep x =
        if ∃ n, n < 192 ∧ s.chip.on .DM_MAP_VALID (p * 192 + n) = true ∧
          deepKey (s.chip.get .DM_MAP_STACK (p * 192 + n)) (s.chip.get .DM_MAP_GRANULE (p * 192 + n)) 0 ≤ x ∧
          x < deepKey (s.chip.get .DM_MAP_STACK (p * 192 + n)) (s.chip.get .DM_MAP_GRANULE (p * 192 + n)) 0 + 2 ^ 30 then 0
        else Memory.read s.mem.deep x) ∧
      t.mem.sram = s.mem.sram ∧ t.mem.vault = s.mem.vault)

/-- RESET of a partition in RUN, WAIT, HOLD, RAMP or HALT stops it at once and primes it, in LOADING, with the command pending; in EMPTY it completes without effect. When
priming ends the pump is in HALT with cycle number 0 and the result is COMPLETED; so does a PRIME's once its records have completed; a deep access that is still awaited keeps
priming from completing (R126, R128, R154). -/
def Obligations.PartitionResetPrimes : Prop :=
  ∀ (who : Init) (p : Fin 16) (s₀ : State),
    let s := s₀.seen who
    (s.chip.regMay who ⟨.part, p, 0x1004⟩ true = true → s.chip.power = pwrOn → s.chip.cmdPending .ptn p = false → s.chip.get .H_QUIESCE 0 = 0 →
      s.chip.on .PTN_CFG_ACTIVE p = true →
      (s.chip.pumpState p ≠ psLoading → s.chip.pumpState p ≠ psEmpty → Does (.reset who p) s₀ fun t =>
        t.chip.pumpState p = psLoading ∧ t.chip.cmdPending .ptn p = true ∧ t.chip.cmdPending .pmp p = false ∧ t.chip.get .PMP_CYCLE_CYCLE p = 0 ∧
        t.chip.get .PMP_CTL_MODE p = Fld.reset .PMP_CTL_MODE ∧ t.chip.get .PMP_SLEN_S p = s.chip.get .PMP_SLEN_S p ∧
        t.arr.istore = s.arr.istore ∧ t.arr.sched = s.arr.sched ∧ t.mem = s.mem) ∧
      (s.chip.pumpState p = psEmpty → Does (.reset who p) s₀ fun t =>
        t.chip.pumpState p = psEmpty ∧ t.chip.get .PTN_RESULT_READY p = 1 ∧ t.chip.get .PTN_RESULT_OUTCOME p = completed ∧ t.arr = s.arr ∧ t.mem = s.mem)) ∧
    (s.chip.deepAwaited s.arr p = false → s.chip.get .H_PRIMING p = 3 → s.chip.cmdPending .ptn p = true → s.chip.get .CQ_CMD (CmdReg.ptn.idx p) = 3 →
      Does (.primingComplete p) s fun t =>
      t.chip.pumpState p = psHalt ∧ t.chip.cmdPending .ptn p = false ∧ t.chip.get .PTN_RESULT_READY p = 1 ∧ t.chip.get .PTN_RESULT_OUTCOME p = completed ∧
      t.chip.get .PMP_CYCLE_CYCLE p = s.chip.get .PMP_CYCLE_CYCLE p ∧ t.arr = s.arr ∧ t.mem = s.mem) ∧
    (s.chip.deepAwaited s.arr p = false → s.chip.get .H_PRIMING p = 2 → s.chip.recordsDone p = true → s.chip.cmdPending .pmp p = true →
      Does (.primingComplete p) s fun t =>
        t.chip.pumpState p = s.chip.pumpState p ∧ t.chip.cmdPending .pmp p = false ∧ t.chip.get .PMP_RESULT_READY p = 1 ∧ t.chip.get .PMP_RESULT_OUTCOME p = completed ∧
        t.arr = s.arr ∧ t.mem = s.mem) ∧
    (s.chip.deepAwaited s.arr p = true → exec (.primingComplete p) s = .next s)

/-- At its arbitration point a partition whose ALT names the service complex, or a connected port that exists, is not lost and is not the lost one, is bound to it, with REBOUND set; otherwise FALLBACK
is set, and without the FALLBACK policy a running or held partition is to stop at the end of its cycle, and one that waits stops at once with HOST_LOSS (R132, R133). -/
def Obligations.RebindMovesToAlternate : Prop :=
  ∀ (p : Fin 16) (n : Nat) (s : State), s.chip.get .H_REBIND p = n + 1 →
    let alt := s.chip.get .PTN_CFG_ALT p
    let there := alt = 4 ∨ (alt < 4 ∧ alt ≠ n ∧ s.chip.on .H_LOST alt = false ∧ s.chip.portExists alt = true ∧ s.chip.on .H_LINKUP alt = true)
    let fallen := fun (t : State) => t.chip.get .PTN_LOSS_FALLBACK p = 1 ∧ t.chip.get .H_REBIND p = 0 ∧ t.chip.get .PTN_CFG_BIND p = s.chip.get .PTN_CFG_BIND p ∧
      t.arr = s.arr ∧ t.mem = s.mem
    (there → Does (.rebind p) s fun t =>
      t.chip.get .PTN_CFG_BIND p = alt ∧ t.chip.get .PTN_LOSS_REBOUND p = 1 ∧
      Keeps s.chip t.chip [(.PTN_CFG_BIND, p.val), (.PTN_LOSS_REBOUND, p.val), (.H_REBIND, p.val), (.H_BAR2_OUT, s.chip.get .PTN_CFG_BIND p)] ∧
      t.arr = s.arr ∧ t.mem = s.mem) ∧
    (¬there → s.chip.on .PTN_CFG_FALLBACK p = true → Does (.rebind p) s fun t =>
      fallen t ∧ KeepsAll s.chip t.chip [(.PTN_LOSS_FALLBACK, p.val), (.H_REBIND, p.val)]) ∧
    (¬there → s.chip.on .PTN_CFG_FALLBACK p = false → s.chip.pumpState p = psRun ∨ s.chip.pumpState p = psHold → Does (.rebind p) s fun t =>
      fallen t ∧ t.chip.pumpState p = s.chip.pumpState p ∧ bitB (t.chip.get .H_STOP_PEND p) 8 = true) ∧
    (¬there → s.chip.on .PTN_CFG_FALLBACK p = false → s.chip.pumpState p = psWait → Does (.rebind p) s fun t =>
      fallen t ∧ t.chip.pumpState p = psHalt ∧ t.chip.get .PMP_STOP_CAUSE_HOST_LOSS p = 1)

/-- With the channels of its golden granules alive and no unit of them uncorrectable, the golden word of a repair goes into the store and stands for its step, and, where it passes its check, the repair
is counted and REPAIR clears. With every one of those channels failed the golden read fails, and so the repair. A repair that fails in HALT records REPAIR_FAIL and
contributes to FLT_SRC.REPAIR; one that fails in RUN resets the partition as well (R403, R404). -/
def Obligations.RepairsEnd : Prop :=
  ∀ (p : Fin 16) (r : Repair) (reason : Fin 4) (s : State), s.chip.reps = [r] → r.part = p.val →
    let failed := fun (t : State) => t.chip.reps = [] ∧ t.chip.get .PMP_STOP_CAUSE_REPAIR_FAIL p = 1 ∧ t.chip.get .FLT_SRC_REPAIR 0 = 1 ∧ t.mem = s.mem
    (r.sched = false → checkWord (NatMap.find 0 s.arr.gword r.key) ≠ .bad → s.chip.pumpState p ≠ psRamp →
      (∀ x ∈ s.chip.goldenPlaces p, ∀ i, i < 16 → s.chip.deepDead x.1 (i * 256) = false) → s.chip.goldenBad s.mem p = false → Does (.goldenEntryWrite p) s fun t =>
      t.chip.reps = [] ∧ t.chip.get .FLT_IREP_CNT_COUNT p = satAdd (2 ^ 32 - 1) (s.chip.get .FLT_IREP_CNT_COUNT p) 1 ∧
      (∀ k, NatMap.find 0 t.arr.istore k = if k = r.key then NatMap.find 0 s.arr.gword r.key else NatMap.find 0 s.arr.istore k) ∧
      (∀ k, NatMap.find 0 t.arr.fword k = if k = r.key then NatMap.find 0 s.arr.gword r.key else NatMap.find 0 s.arr.fword k) ∧
      { t.arr with istore := s.arr.istore, fword := s.arr.fword } = s.arr ∧ t.mem = s.mem) ∧
    (s.chip.pumpState p = psHalt → s.chip.goldenPlaces p ≠ [] → (∀ x ∈ s.chip.goldenPlaces p, ∀ i, i < 16 → s.chip.deepDead x.1 (i * 256) = true) →
      Does (.goldenEntryWrite p) s fun t => failed t ∧ t.chip.pumpState p = psHalt ∧ t.arr = s.arr) ∧
    (s.chip.pumpState p = psHalt → reason.val ≠ 3 ∨ r.since + 20 * Chip.us ≤ s.chip.now → Does (.repairFail p reason) s fun t =>
      failed t ∧ t.chip.pumpState p = psHalt ∧ t.arr = s.arr) ∧
    (s.chip.pumpState p = psRun → reason.val ≠ 3 ∨ r.since + 20 * Chip.us ≤ s.chip.now → Does (.repairFail p reason) s fun t =>
      failed t ∧ t.chip.pumpState p = psLoading)

/-! The network and design memory (R123, R155, R158, R162, R163, R306, R307, R311, R314, R401) -/

/-- An access to a cistern word that its initiator reaches and that holds no error, with a tag free: a read answers its bytes and changes nothing else; a write puts its bytes
there and changes no other byte; an atomic answers the old value and writes the sum, or the given value. With no tag free the access waits for one, and behind a failed die link it stays in flight under
its tag. -/
def Obligations.NetworkAccessesOfCisterns : Prop :=
  ∀ (who : Init) (p : Fin 16) (x : BitVec 40) (y : Nat) (s₀ : State),
    let s := s₀.seen who
    s.chip.reaches who p = true → s.chip.power ≠ pwrWatch → s.chip.hostGone who = false → s.chip.place p x.toNat (initService who) = .cistern y →
    let old := fun (n : Nat) => Memory.readN s.mem.cistern y n
    let puts := fun (d : List Byte) (t : State) =>
      (∀ z, Memory.read t.mem.cistern z = if y ≤ z ∧ z < y + d.length then d.getD (z - y) 0 else Memory.read s.mem.cistern z) ∧
      t.mem.deep = s.mem.deep ∧ t.mem.sram = s.mem.sram ∧ t.mem.vault = s.mem.vault ∧ t.mem.rim = s.mem.rim ∧ t.arr = s.arr
    ((s.chip.initTag who).isSome = true → s.chip.cutOff routerHub (y / 0x80000) = false → NatMap.find 0 s.mem.cisErr (y / 8) = 0 →
      (∀ n : Fin 257, x.toNat % 8 + n.val ≤ 8 →
        exec (.networkRead who (.design p x) n) s₀ = .next { s with chip := s.chip.answer .ok (ofBytes (old n.val)) (old n.val) }) ∧
      (∀ d : List Byte, x.toNat % 8 + d.length ≤ 8 → Does (.networkWrite who (.design p x) d) s₀ fun t => t.chip = s.chip.answer .ok ∧ puts d t) ∧
      (∀ (wide : Bool) (v : Word64), x.toNat % (if wide then 8 else 4) = 0 →
        let n := if wide then 8 else 4
        (Does (.atomicAdd who (.design p x) wide v) s₀ fun t =>
          t.chip = s.chip.answer .ok (ofBytes (old n)) (old n) ∧ puts (toBytes n ((ofBytes (old n) + v.toNat) % 2 ^ (8 * n))) t) ∧
        (Does (.atomicSwap who (.design p x) wide v) s₀ fun t =>
          t.chip = s.chip.answer .ok (ofBytes (old n)) (old n) ∧ puts (toBytes n (v.toNat % 2 ^ (8 * n))) t))) ∧
    (s.chip.initTag who = none → ∀ n : Fin 257,
      exec (.networkRead who (.design p x) n) s₀ = .next { s with chip := { s.chip with waiting := s.chip.waiting ++ [.read who (.design p x) n false] } }) ∧
    (∀ g, s.chip.initTag who = some g → s.chip.cutOff routerHub (s.chip.routerAt (.design p x)) = true → ∀ n : Fin 257,
      exec (.networkRead who (.design p x) n) s₀ = .next { s with chip := { s.chip with
        calls := s.chip.calls ++ [⟨g, .access who true n false, s.chip.now, s.chip.routerAt (.design p x), true⟩] } })

/-- A host that reaches for service memory, or for a partition that is not bound to its port, is answered NET_DENIED and changes nothing, whatever the access. A core without
service rights that reaches for a secure bank is answered NET_NO_TARGET, a read with all ones, and counted. An atomic on deep memory is answered DM_NO_ATOMIC and changes nothing. -/
def Obligations.NetworkRefusesWhatItsRightsForbid : Prop :=
  ∀ (s₀ : State) (n : Fin 257) (d : List Byte) (wide : Bool) (v : Word64),
    (∀ (k : Fin 4) (t : Target), (∀ p x, t = .design p x → s₀.chip.get .PTN_CFG_BIND p ≠ k.val) → (s₀.chip.initTag (.host k)).isSome = true →
      s₀.chip.hostGone (.host k) = false →
      exec (.networkRead (.host k) t n) s₀ = .next { s₀ with chip := s₀.chip.answer .netDenied } ∧
      exec (.networkWrite (.host k) t d) s₀ = .next { s₀ with chip := s₀.chip.answer .netDenied } ∧
      exec (.atomicAdd (.host k) t wide v) s₀ = .next { s₀ with chip := s₀.chip.answer .netDenied } ∧
      exec (.atomicSwap (.host k) t wide v) s₀ = .next { s₀ with chip := s₀.chip.answer .netDenied }) ∧
    (∀ (k : Fin 8) (x : BitVec 24),
      let s := s₀.seen (.core k false)
      x.toNat < 0x400000 → (s.chip.initTag (.core k false)).isSome = true →
      (Does (.networkRead (.core k false) (.sram x) n) s₀ fun t => t.arr = s.arr ∧ t.mem = s.mem ∧ t.chip.resp.status = .netNoTarget ∧
        t.chip.resp.data = List.replicate n.val 0xFF ∧
        t.chip.get .SVC_ACC_ERR_COUNT k = satAdd (2 ^ 32 - 1) (s.chip.get .SVC_ACC_ERR_COUNT k) 1 ∧ KeepsAll s.chip t.chip [(.SVC_ACC_ERR_COUNT, k.val)]) ∧
      (Does (.networkWrite (.core k false) (.sram x) d) s₀ fun t => t.arr = s.arr ∧ t.mem = s.mem ∧ t.chip.resp = ⟨.netNoTarget, 0, []⟩)) ∧
    (∀ (who : Init) (p : Fin 16) (x : BitVec 40),
      let s := s₀.seen who
      s.chip.reaches who p = true → s.chip.power ≠ pwrWatch → x.toNat < cisternBase → (s.chip.initTag who).isSome = true → s.chip.hostGone who = false →
      x.toNat % 256 + (if wide then 8 else 4) ≤ 256 → s.chip.cutOff routerHub (s.chip.routerAt (.design p x)) = false →
      exec (.atomicAdd who (.design p x) wide v) s₀ = .next { s with chip := s.chip.answer .dmNoAtomic } ∧
      exec (.atomicSwap who (.design p x) wide v) s₀ = .next { s with chip := s.chip.answer .dmNoAtomic })

/-- BAR2 shows its host one window of the selected partition. A selection is performed where PART is bound to the writing port, else CFG_REJ is set and the selection stays.
An access within 256 bytes to a cistern word is answered as the network answers; one to a partition of another port, or to one that has ceased to be bound since the selection was written, returns all
ones or is discarded, and is counted. -/
def Obligations.Bar2AccessesAndSelection : Prop :=
  ∀ (n : Fin 4) (part : BitVec 4) (win : BitVec 2) (off : BitVec 36) (s : State), s.chip.hostGone (.host n) = false →
    (s.chip.get .PTN_CFG_BIND part.toNat = n.val → exec (.bar2SelWrite n part win) s =
      .next { s with chip := (((s.chip.answer .ok).set .GLB_BAR2_SEL_WIN n win.toNat).set .GLB_BAR2_SEL_PART n part.toNat).set .H_BAR2_OUT n 0 }) ∧
    (s.chip.get .PTN_CFG_BIND part.toNat ≠ n.val → exec (.bar2SelWrite n part win) s =
      .next { s with chip := (s.chip.answer .ok).set .GLB_BAR2_SEL_CFG_REJ n 1 }) ∧
    (s.chip.get .GLB_BAR2_SEL_PART n < 16 → s.chip.get .PTN_CFG_BIND (s.chip.get .GLB_BAR2_SEL_PART n) = n.val → s.chip.on .H_BAR2_OUT n = false →
      s.chip.power ≠ pwrWatch → (s.chip.initTag (.host n)).isSome = true →
      ∀ y, s.chip.place (s.chip.get .GLB_BAR2_SEL_PART n) ((s.chip.get .GLB_BAR2_SEL_WIN n * 2 ^ 36 + off.toNat) % 2 ^ 40) false = .cistern y →
        s.chip.cutOff routerHub (y / 0x80000) = false → NatMap.find 0 s.mem.cisErr (y / 8) = 0 →
        (∀ len : Fin 4097, 0 < len.val → off.toNat % 8 + len.val ≤ 8 → exec (.bar2Access n off len none) s =
          .next { s with chip := s.chip.answer .ok (ofBytes (Memory.readN s.mem.cistern y len)) (Memory.readN s.mem.cistern y len) }) ∧
        (∀ (d : List Byte) (len : Fin 4097), d ≠ [] → len.val = d.length → off.toNat % 8 + d.length ≤ 8 → Does (.bar2Access n off len (some d)) s fun t =>
          t.chip = s.chip.answer .ok ∧ t.arr = s.arr ∧
          (∀ z, Memory.read t.mem.cistern z = if y ≤ z ∧ z < y + d.length then d.getD (z - y) 0 else Memory.read s.mem.cistern z))) ∧
    (s.chip.get .GLB_BAR2_SEL_PART n < 16 → s.chip.get .PTN_CFG_BIND (s.chip.get .GLB_BAR2_SEL_PART n) ≠ n.val ∨ s.chip.on .H_BAR2_OUT n = true →
      (s.chip.initTag (.host n)).isSome = true →
      (∀ len : Fin 4097, 0 < len.val → off.toNat % 256 + len.val ≤ 256 → Does (.bar2Access n off len none) s fun t =>
        t.chip.resp.status = .netDenied ∧ t.chip.resp.data = List.replicate len.val 0xFF ∧
        t.chip.get .GLB_ACC_ERR_COUNT n = satAdd (2 ^ 32 - 1) (s.chip.get .GLB_ACC_ERR_COUNT n) 1 ∧ t.arr = s.arr ∧ t.mem = s.mem) ∧
      (∀ (d : List Byte) (len : Fin 4097), d ≠ [] → off.toNat % 256 + d.length ≤ 256 → Does (.bar2Access n off len (some d)) s fun t =>
        t.chip.resp.status = .netDenied ∧ t.chip.get .GLB_ACC_ERR_COUNT n = satAdd (2 ^ 32 - 1) (s.chip.get .GLB_ACC_ERR_COUNT n) 1 ∧
        t.arr = s.arr ∧ t.mem = s.mem))

/-- A response of the tag's generation ends its DMA transaction: its bytes count for the descriptor, its data go to the host and its tag is free. One of another generation is
counted and discarded. A transaction without a response for NOC_TIMEOUT ends with NET_TIMEOUT, counted, and its tag's generation advances; the initiator of a write in flight is
answered so. Eight
consecutive retries fail a die link: every running partition on the die is reset. -/
def Obligations.TransactionsEnd : Prop :=
  ∀ (tag : BitVec 16) (gen : BitVec 4) (die : Fin 4) (s : State) (x : Txn) (y : DmaItem),
    (s.chip.txns.find? (fun t => t.tag = tag.toNat) = some x → x.live = true → s.chip.dmaItem x.chan = some y →
      (s.chip.get .H_TAG_GEN tag.toNat = gen.toNat → s.chip.cutOff routerHub x.target = false → x.status = 0 → y.status = 0 → x.data ≠ [] →
        exec (.transactionCompletion tag gen 0) s = .next { s with chip := { s.chip with
          txns := s.chip.txns.erase x
          dma := s.chip.dma.map fun z => if z.chan = y.chan then { y with done := y.done + x.bytes } else z
          host := ⟨x.chan / 8, x.hostAddr, x.data⟩ :: s.chip.host } }) ∧
      (s.chip.netExpired x.since = true → (∀ k ∈ s.chip.calls, k.tag ≠ tag.toNat) → Does (.netTimeout tag) s fun t =>
        t.chip.txns = s.chip.txns.erase x ∧ t.chip.get .H_TAG_GEN tag.toNat = (s.chip.get .H_TAG_GEN tag.toNat + 1) % 16 ∧
        t.chip.get .NOC_TIMEOUT_CNT_COUNT 0 = satAdd (2 ^ 32 - 1) (s.chip.get .NOC_TIMEOUT_CNT_COUNT 0) 1 ∧ t.chip.get .NOC_ERR_LOC_VALID 0 ≠ 0 ∧
        (s.chip.get .NOC_ERR_LOC_VALID 0 = 0 → t.chip.get .NOC_ERR_LOC_TAG 0 = tag.toNat) ∧
        t.chip.dma = (s.chip.dma.map fun z => if z.chan = y.chan then { y with status := dmaJoin y.status 7, stopped := true } else z) ∧
        t.arr = s.arr ∧ t.mem = s.mem)) ∧
    (s.chip.get .H_TAG_GEN tag.toNat ≠ gen.toNat →
      exec (.transactionCompletion tag gen 0) s = .next { s with chip := s.chip.count .NOC_LATE_CNT_COUNT 0 1 }) ∧
    (∀ (k : Call) (who : Init) (n : Nat) (paced : Bool), s.chip.calls.find? (fun z => z.tag = tag.toNat) = some k → k.live = true → k.kind = .access who false n paced →
      s.chip.waiting = [] →
      (s.chip.netExpired k.since = true → Does (.netTimeout tag) s fun t =>
        t.chip.resp = ⟨.netTimeout, 0, []⟩ ∧ t.chip.calls = s.chip.calls.erase k ∧ t.chip.get .H_TAG_GEN tag.toNat = (s.chip.get .H_TAG_GEN tag.toNat + 1) % 16 ∧
        t.chip.get .NOC_TIMEOUT_CNT_COUNT 0 = satAdd (2 ^ 32 - 1) (s.chip.get .NOC_TIMEOUT_CNT_COUNT 0) 1 ∧ t.arr = s.arr ∧ t.mem = s.mem) ∧
      (s.chip.netExpired k.since = false → exec (.netTimeout tag) s = .next s)) ∧
    (die.val < s.chip.dies → s.chip.on .H_LINK_FAIL die = false → Does (.linkFail die) s fun t =>
      t.chip.get .H_LINK_FAIL die = 1 ∧ t.chip.get .FLT_SRC_LINK 0 = 1 ∧ t.mem = s.mem ∧ t.arr.istore = s.arr.istore ∧ t.arr.sched = s.arr.sched ∧
      ∀ p, p < 16 → t.chip.pumpState p =
        if p ∈ s.chip.partsOnDie die ∧ s.chip.pumpState p ≠ psEmpty then psLoading else s.chip.pumpState p)

/-- A command of a deep-memory channel that exceeds its time fails the channel; where a partition uses the unmirrored stack FLT_SRC.MEM is set, and the accesses in flight that the channel
serves end with 0 (R158); the first failure of a mirrored stack changes no access. A march test on
MT_CMD is pending for the time of its table, with no store changed; when it ends without failures a destructive one leaves the tested stores at 0, a preserving one
as they were, and the result is COMPLETED; with failures they are counted, the first is located and the outcome is 1. -/
def Obligations.ChannelFailureAndMarchTests : Prop :=
  ∀ (k : Fin 8) (sec : Bool) (target : Fin 4) (unit : Fin 64) (stack : Fin 8) (ch : Fin 16) (s₀ : State),
    let s := s₀.seen (.core k sec)
    (s.chip.chFailed stack ch = false → stack.val / 2 < s.chip.dies → Does (.channelCommandTimeout stack ch) s fun t =>
      t.chip.get .DMC_STACK_STATUS_CH_FAIL stack = orBit (s.chip.get .DMC_STACK_STATUS_CH_FAIL stack) ch % 2 ^ 16 ∧
      (s.chip.mirrored stack = false → s.chip.stackMapped stack = true → t.chip.get .FLT_SRC_MEM 0 = 1) ∧ t.mem = s.mem ∧
      (s.chip.mirrored stack = true → (∀ q, q < 16 → s.chip.chFailed stack q = false) → t.arr = s.arr) ∧
      (s.chip.mirrored stack = false → t.arr.accs = (s.arr.accs.map (fun y =>
        if y.deepCh = 1 + stack.val * 16 + ch.val && 3 ≤ y.kind && !y.arrived then { y with arrived := true, data := 0 } else y)).filter
          (fun y => y.live || !y.arrived) ∧ { t.arr with accs := s.arr.accs } = s.arr)) ∧
    ((sec || k.val < 4) = true → s.chip.power = pwrOn → s.chip.cmdPending .mt 0 = false → s.chip.get .H_QUIESCE 0 = 0 →
      (s.chip.mtUnitOk target unit = true → s.chip.mtDestructiveOk target unit = true → Does (.destructiveTest k sec target unit) s₀ fun t =>
        t.chip.cmdPending .mt 0 = true ∧ t.chip.get .H_MT_DUE 0 = s.chip.now + s.chip.mtTime target false + 1 ∧ t.arr = s.arr ∧ t.mem = s.mem) ∧
      (s.chip.mtUnitOk target unit = true → s.chip.mtPreservingOk target unit = true → Does (.preservingTest k sec target unit) s₀ fun t =>
        t.chip.cmdPending .mt 0 = true ∧ t.chip.get .H_MT_DUE 0 = s.chip.now + s.chip.mtTime target true + 1 ∧ t.arr = s.arr ∧ t.mem = s.mem) ∧
      (s.chip.mtUnitOk target unit = true → s.chip.mtDestructiveOk target unit = false → Does (.destructiveTest k sec target unit) s₀ fun t =>
        t.chip.get .MT_RESULT_OUTCOME 0 = refused ∧ t.chip.get .MT_RESULT_CODE 0 = 1 ∧ t.chip.cmdPending .mt 0 = false ∧ t.arr = s.arr ∧ t.mem = s.mem)) ∧
    (s.chip.cmdPending .mt 0 = true → s.chip.due .H_MT_DUE 0 = true →
      (s.chip.get .CQ_CMD (CmdReg.mt.idx 0) = 2 → Does (.marchTestComplete []) s fun t =>
        t.chip.get .MT_RESULT_READY 0 = 1 ∧ t.chip.get .MT_RESULT_OUTCOME 0 = completed ∧ t.chip.cmdPending .mt 0 = false ∧ t.arr = s.arr ∧ t.mem = s.mem) ∧
      (s.chip.get .CQ_CMD (CmdReg.mt.idx 0) = 1 → s.chip.get .H_MT_TARGET 0 = mtCistern → Does (.marchTestComplete []) s fun t =>
        t.chip.get .MT_RESULT_OUTCOME 0 = completed ∧ t.chip.cmdPending .mt 0 = false ∧ t.arr = s.arr ∧ t.mem.deep = s.mem.deep ∧ t.mem.sram = s.mem.sram ∧
        ∀ z, Memory.read t.mem.cistern z = if z / 0x400000 = s.chip.get .H_MT_UNIT 0 then 0 else Memory.read s.mem.cistern z) ∧
      (∀ (e : BitVec 17 × BitVec 20) (es : List (BitVec 17 × BitVec 20)), Does (.marchTestComplete (e :: es)) s fun t =>
        t.chip.get .MT_RESULT_OUTCOME 0 = 1 ∧ t.chip.get .MT_FAIL_CNT_COUNT 0 = satAdd (2 ^ 32 - 1) (s.chip.get .MT_FAIL_CNT_COUNT 0) (es.length + 1) ∧
        (s.chip.get .MT_FAIL_LOC_VALID 0 = 0 → t.chip.get .MT_FAIL_LOC_UNIT 0 = e.1.toNat ∧ t.chip.get .MT_FAIL_LOC_WORD 0 = e.2.toNat)))

/-! The image loader (R187 to R194, R242) -/

/-- LDR_CMD LOAD by the service complex takes an active partition in EMPTY to LOADING, at step 3; a host is refused with IMG_PERM. ABORT of a pending LOAD clears what the load has written and
ends it with ABORTED, in EMPTY; a rim section of it in the rim loader goes with it. With none pending ABORT is refused. -/
def Obligations.LoadsStartAndAbort : Prop :=
  ∀ (who : Init) (p : Fin 16) (s₀ : State),
    let s := s₀.seen who
    s.chip.regMay who ⟨.part, p, 0x4000⟩ true = true →
    (s.chip.power = pwrOn → s.chip.get .H_QUIESCE 0 = 0 → s.chip.loading p = false →
      (initHost who = false → s.chip.on .PTN_CFG_ACTIVE p = true → s.chip.pumpState p = psEmpty → s.chip.get .LDR_PARAM_SRC p ≤ 4 → Does (.ldrLoad who p) s₀ fun t =>
        t.chip.loading p = true ∧ t.chip.pumpState p = psLoading ∧ t.chip.get .LDR_STATUS_STEP p = 3 ∧ t.chip.image p = [] ∧ t.arr = s.arr ∧ t.mem = s.mem) ∧
      (initHost who = true → Does (.ldrLoad who p) s₀ fun t =>
        t.chip.loading p = false ∧ t.chip.get .LDR_RESULT_OUTCOME p = refused ∧ t.chip.get .LDR_RESULT_CODE p = imgPerm ∧ t.chip.pumpState p = s.chip.pumpState p ∧
        t.arr = s.arr ∧ t.mem = s.mem)) ∧
    (initHost who = false → s.chip.loading p = true → Does (.ldrAbort who p) s₀ fun t =>
      t.chip.loading p = false ∧ t.chip.pumpState p = psEmpty ∧ t.chip.get .LDR_RESULT_READY p = 1 ∧ t.chip.get .LDR_RESULT_OUTCOME p = aborted ∧
      t.chip.get .LDR_STATUS_STEP p = 0 ∧ t.chip.get .LDR_REFUSE_SECTION p = 0 ∧ t.chip.get .LDR_REFUSE_OFF_OFFSET p = 0 ∧ t.arr = clearStores p s.chip s.arr ∧
      t.mem.cistern = s.mem.cistern ∧ t.mem.sram = s.mem.sram ∧ t.mem.vault = s.mem.vault ∧
      (s.chip.get .LDR_STATUS_STEP p < 14 → t.mem.deep = s.mem.deep) ∧
      (s.chip.rimFed p = false → t.mem.rim = s.mem.rim ∧ ∀ k, t.chip.sector k = s.chip.sector k) ∧
      (s.chip.rimFed p = true → t.chip.streaming = false ∧ ∀ k, k < 12 → s.chip.sector k = sectLoading →
        t.chip.sector k = sectEmpty ∧ ∀ x, x / 0x100000 = k → Memory.read t.mem.rim x = 0)) ∧
    (initHost who = false → s.chip.loading p = false → s.chip.get .H_QUIESCE 0 = 0 → Does (.ldrAbort who p) s₀ fun t =>
      t.chip.loading p = false ∧ t.chip.get .LDR_RESULT_OUTCOME p = refused ∧ t.chip.get .LDR_RESULT_CODE p = imgState ∧ t.arr = s.arr ∧ t.mem = s.mem)

/-- Image bytes go, in the order of the loader's reads, to the place that is being read, and a read past the source's end, or one that fails, ends the load: refused with IMG_SOURCE, the partition's
stores cleared, its pump in EMPTY. Once everything that a step reads has arrived the step's checks are made: where one fails the load is refused with its code and place, else the next step's bytes are
read. An image that has passed step 18 is written to the stores and the golden copy, and where it has no rim section and no optional section, primes the partition at step 20, as one does whose
optional sections have passed.
While the rim loader is busy a rim section waits. Once it is free the section's stream begins. -/
def Obligations.ImageBytesAreCheckedAndInstalled : Prop :=
  ∀ (p : Fin 16) (bs : List Byte) (s : State),
    let step := s.chip.get .LDR_STATUS_STEP p
    let img := s.chip.image p
    let held := s.chip.sourceHeld p
    let stores := clearStores p s.chip s.arr
    let refusal := fun (t : State) (code at' : Nat) =>
      t.chip.loading p = false ∧ t.chip.get .LDR_RESULT_READY p = 1 ∧ t.chip.get .LDR_RESULT_OUTCOME p = refused ∧ t.chip.get .LDR_RESULT_CODE p = code % 2 ^ 8 ∧
      t.chip.pumpState p = psEmpty ∧ t.chip.get .LDR_STATUS_STEP p = 0 ∧ t.arr = stores ∧ (at' < 14 → t.mem = s.mem)
    (s.chip.loading p = true → ∀ off n, s.chip.reading p = some (off, n) →
      (held ≤ off → Does (.imageSourceRead p (some bs)) s fun t => refusal t imgSource step) ∧
      (s.chip.rimFed p = false → Does (.imageSourceRead p none) s fun t => refusal t imgSource step) ∧
      (bs ≠ [] → bs.length ≤ n → off + bs.length ≤ held →
        let got := overlay img off bs
        let c := (s.chip.setImage p got).set .H_IMG_POS p (s.chip.get .H_IMG_POS p + bs.length)
        (∀ off' n', c.reading p = some (off', n') → off' < held → exec (.imageSourceRead p (some bs)) s = .next { s with chip := c }) ∧
        (c.reading p = none →
          (∀ r, step ≠ 20 → stepCheck c p held got step = .error r → Does (.imageSourceRead p (some bs)) s fun t =>
            refusal t r.code r.step ∧ t.chip.get .LDR_REFUSE_SECTION p = r.sect % 2 ^ 16 ∧ t.chip.get .LDR_REFUSE_SUB p = r.sub % 2 ^ 8 ∧
            t.chip.get .LDR_REFUSE_OFF_OFFSET p = r.off % 2 ^ 64) ∧
          (step < 18 → stepCheck c p held got step = .ok () → ∀ off' n', readSpan (stepReads got (nextStep step)) 0 = some (off', n') → off' < held →
            exec (.imageSourceRead p (some bs)) s = .next { s with chip := c.loadStep p (nextStep step) }) ∧
          (∀ l, step = 18 → stepCheck c p held got step = .ok () → imageCheck c p got = .ok l →
            let installed := fun (t : State) =>
              t.chip.loading p = true ∧ t.chip.get .PMP_SLEN_S p = manS got % 2 ^ 13 ∧ t.chip.get .LDR_IMAGE_ID_ID p = leAt got 0x28 8 % 2 ^ 64 ∧
              t.arr.istore = putAll stores.istore l.words ∧ t.arr.gword = putAll stores.gword l.words ∧ t.arr.sched = putAll stores.sched l.sched ∧
              t.arr.gsched = putAll stores.gsched l.sched ∧ t.arr.gslot = putAll stores.gslot l.slots ∧ t.mem = s.mem
            (∀ sc, sectOf got 0x60 = some sc → sc.stored ≠ 0 → sc.off < held → Does (.imageSourceRead p (some bs)) s fun t =>
              installed t ∧ t.chip.get .LDR_STATUS_STEP p = 19) ∧
            (sectOf got 0x60 = none → optionalSects got = [] → Does (.imageSourceRead p (some bs)) s fun t =>
              installed t ∧ t.chip.get .LDR_STATUS_STEP p = 20 ∧ t.chip.get .H_PRIMING p = 1)) ∧
          (step = 20 → symbolsCheck got = .ok none → Does (.imageSourceRead p (some bs)) s fun t =>
            t.chip.loading p = true ∧ t.chip.get .LDR_STATUS_STEP p = 20 ∧ t.chip.get .H_PRIMING p = 1 ∧ t.arr.istore = s.arr.istore ∧ t.mem = s.mem)))) ∧
    (s.chip.streaming = true → exec (.rimSectionHandoff p) s = .next s) ∧
    (s.chip.loading p = true → step = 19 → s.chip.reading p = none → s.chip.streaming = false → s.chip.on .H_ABSENT 0 = false → Does (.rimSectionHandoff p) s fun t =>
      t.chip.streaming = true ∧ t.chip.rimFed p = true ∧ t.chip.get .H_RS_STATE 0 = 1 ∧ t.chip.get .H_RS_WORD 0 = 0 ∧ t.chip.loading p = true ∧
      t.chip.get .LDR_STATUS_STEP p = 19 ∧ t.arr = s.arr ∧ t.mem = s.mem)

/-! Probes and triggers (R202 to R216) -/

/-- ARM of a valid buffer, outside EMPTY and LOADING, starts the capture in PRE with the sequencer in state 0 and the smallest rate exponent. DISARM is pending until every record has
completed; the capture is then IDLE. FORCE in PRE sets the FORCE input. A command out of place is refused with its code.
The oldest record leaves the staging buffer for deep memory and touches no byte outside those it writes; the rate exponent falls by 1 after RELAX low cycles; an edge of XTRIG_IN sets its latch in every
partition; a pulse of a trigger line sets the latch of its line where both partitions have one master, once its period has ended; XTRIG_OUT rises
where XOUT_EN still permits it, and falls 20 ns later. -/
def Obligations.ProbeCommandsAndEvents : Prop :=
  ∀ (who : Init) (p q : Fin 16) (n : Fin 4) (k : BitVec 16) (s : State),
    (let s₀ := s
      let s := s₀.seen who
      s.chip.regMay who ⟨.prb, p, 0x4⟩ true = true → s.chip.cmdPending .prb p = false →
      let cap := s.chip.get .PRB_STATUS_CAP p
      let empty := s.chip.pumpState p = psEmpty ∨ s.chip.pumpState p = psLoading
      let kept := fun (t : State) => t.chip.get .PRB_STATUS_CAP p = cap ∧ t.arr = s.arr ∧ t.mem = s.mem
      (¬empty → cap = capIdle → s.chip.bufferOk p = true → Does (.arm who p) s₀ fun t =>
        t.chip.get .PRB_STATUS_CAP p = capPre ∧ t.chip.get .PRB_STATUS_SEQ p = 0 ∧ t.chip.get .PRB_REC_CNT_COUNT p = 0 ∧
        t.chip.get .PRB_STATUS_RATE p = s.chip.get .PRB_RATE_MIN p % 16 ∧ t.chip.get .PRB_RESULT_READY p = 1 ∧ t.chip.get .PRB_RESULT_OUTCOME p = completed ∧
        t.arr = s.arr ∧ t.mem = s.mem) ∧
      (empty ∨ cap ≠ capIdle ∨ s.chip.bufferOk p = false → Does (.arm who p) s₀ fun t => kept t ∧ t.chip.get .PRB_RESULT_OUTCOME p = refused ∧
        t.chip.get .PRB_RESULT_CODE p = if empty then 1 else if cap ≠ capIdle then 2 else 3) ∧
      (cap ≠ capIdle → Does (.disarm who p) s₀ fun t => kept t ∧ t.chip.cmdPending .prb p = true ∧ t.chip.get .CQ_CMD (CmdReg.prb.idx p) = 2) ∧
      (cap = capPre → Does (.force who p) s₀ fun t => kept t ∧ t.chip.get .H_LATCH_FORCE p = 1 ∧ t.chip.get .PRB_RESULT_OUTCOME p = completed) ∧
      (cap ≠ capPre → Does (.force who p) s₀ fun t => kept t ∧ t.chip.get .H_LATCH_FORCE p = s.chip.get .H_LATCH_FORCE p ∧
        t.chip.get .PRB_RESULT_OUTCOME p = refused ∧ t.chip.get .PRB_RESULT_CODE p = 2)) ∧
    (s.chip.cmdPending .prb p = true → s.chip.get .CQ_CMD (CmdReg.prb.idx p) = 2 →
      (s.chip.recordsDone p = true → Does (.disarmComplete p) s fun t =>
        t.chip.get .PRB_STATUS_CAP p = capIdle ∧ t.chip.cmdPending .prb p = false ∧ t.chip.get .PRB_RESULT_OUTCOME p = completed ∧ t.chip.get .PRB_RESULT_READY p = 1 ∧
        t.arr = s.arr ∧ t.mem = s.mem) ∧
      (s.chip.recordsDone p = false → exec (.disarmComplete p) s = .next s)) ∧
    (∀ r, s.chip.recs.find? (fun r => r.part = p.val) = some r → (s.chip.probeTag p).isSome = true → ∀ st g off, s.chip.place p (r.addr + r.left) false = .deep st g off →
      s.chip.power ≠ pwrWatch → r.left + k.toNat ≤ r.data.length → (r.addr + r.left) % 32 + k.toNat ≤ 32 → r.addr + r.left < cisternBase →
      s.chip.deepDead st off = false → s.chip.cutOff routerHub (s.chip.routerDeep st off) = false → NatMap.find 0 s.mem.deepErr (deepKey st g off / 32) = 0 →
      Does (.recordDrain p k) s fun t =>
        t.chip.recs = (if r.left + k.toNat = r.data.length then s.chip.recs.erase r else s.chip.recs.replace r { r with left := r.left + k.toNat }) ∧
        (∀ z, Memory.read t.mem.deep z = if deepKey st g off ≤ z ∧ z < deepKey st g off + k.toNat then r.data.getD (r.left + (z - deepKey st g off)) 0
          else Memory.read s.mem.deep z) ∧
        t.mem.cistern = s.mem.cistern ∧ t.mem.sram = s.mem.sram ∧ t.mem.rim = s.mem.rim ∧ t.arr = s.arr) ∧
    (s.chip.on .PRB_CTL_RR_EN p = true → s.chip.get .PRB_RATE_RELAX p ≠ 0 → s.chip.get .PRB_RATE_RELAX p ≤ s.chip.get .H_FALL_CNT p →
      s.chip.get .PRB_RATE_MIN p < s.chip.get .PRB_STATUS_RATE p → Does (.rateFall p) s fun t =>
        t.chip.get .PRB_STATUS_RATE p = (s.chip.get .PRB_STATUS_RATE p - 1) % 16 ∧ t.chip.get .PRB_EVENT_RATE_CHG p = 1 ∧ t.arr = s.arr ∧ t.mem = s.mem) ∧
    (Does (.xtrigInEdge n false) s fun t =>
      (∀ j, j < 16 → t.chip.get .H_LATCH_X j = orBit (s.chip.get .H_LATCH_X j) n % 16) ∧
      KeepsAll s.chip t.chip ((List.range 16).map fun j => (.H_LATCH_X, j)) ∧ t.arr = s.arr ∧ t.mem = s.mem) ∧
    (∀ x ∈ s.chip.lines, x.q = q.val → x.p = p.val → x.due < s.chip.period → Does (.triggerLineArrival q p) s fun t =>
      t.chip.get .H_LATCH_L p = (if s.chip.masterOf p = s.chip.masterOf q then orBit (s.chip.get .H_LATCH_L p) q % 2 ^ 16 else s.chip.get .H_LATCH_L p) ∧
      x ∉ t.chip.lines ∧ KeepsAll s.chip t.chip [(.H_LATCH_L, p.val)] ∧ t.arr = s.arr ∧ t.mem = s.mem) ∧
    (∀ x ∈ s.chip.xrise, x / 2 ^ 64 % 4 = n.val → x % 2 ^ 64 ≤ s.chip.period → bitB (s.chip.get .PRB_CTL_XOUT_EN (x / 2 ^ 66)) n = true → Does (.xtrigOutRise n) s fun t =>
      t.chip.get .H_XOUT n = 1 ∧ t.chip.get .H_XOUT_FALL n = s.chip.now + 97 ∧ x ∉ t.chip.xrise ∧
      KeepsAll s.chip t.chip [(.H_XOUT, n.val), (.H_XOUT_FALL, n.val)] ∧ t.arr = s.arr ∧ t.mem = s.mem) ∧
    ((∀ x ∈ s.chip.xrise, x / 2 ^ 64 % 4 = n.val → x % 2 ^ 64 ≤ s.chip.period → bitB (s.chip.get .PRB_CTL_XOUT_EN (x / 2 ^ 66)) n = false) →
      Does (.xtrigOutRise n) s fun t => KeepsAll s.chip t.chip [] ∧ t.arr = s.arr ∧ t.mem = s.mem) ∧
    (s.chip.due .H_XOUT_FALL n = true → Does (.xtrigOutPulseEnd n) s fun t =>
      t.chip.get .H_XOUT n = 0 ∧ KeepsAll s.chip t.chip [(.H_XOUT, n.val), (.H_XOUT_FALL, n.val)] ∧ t.arr = s.arr ∧ t.mem = s.mem)

/-! The rim fabric (R225 to R229, R238) and its loader (R242 to R256) -/

/-- Two drivers of a bank bus line that overlap for more than 200 ps are disabled and recorded, and the keeper holds the OR of what they drove; a shorter overlap leaves no trace. A 1 written to the
bank's bit re-enables them. A lost clock source is marked and its tree goes low: it waits for ALT where AUTO allows it, else it stays low; a lane's recovered clock is never lost. The scrubber moves on
by a frame, corrects and counts the words with one wrong bit, leaves a word with more as it was read and locates the first such frame. A reset tree with a pin or cell source asserts with it at once
and, where the source deasserts, begins to wait for the edges of its clock tree; one with a register source does not follow. -/
def Obligations.RimFaultsAndTrees : Prop :=
  ∀ (bank tree : Fin 12) (line : Fin 64) (ds : List (Fin 64)) (ps : BitVec 16) (who : Init) (mask : BitVec 12) (data : List (Fin 16 × Fin 64)) (check : List (Fin 16 × Fin 8)) (v : Bool) (r : Fin 4) (s : State),
    (let s₀ := s
      let s := s₀.seen who
      s.chip.regMay who ⟨.rim, 0, 0xA0⟩ true = true → Does (.busEvtClear who mask) s₀ fun t =>
        t.chip.get .RIM_BUS_EVT_BANK 0 = (s.chip.get .RIM_BUS_EVT_BANK 0 - Nat.land (s.chip.get .RIM_BUS_EVT_BANK 0) mask.toNat) % 2 ^ 12 ∧
        (∀ i, t.chip.get .H_BUS_OFF i = if bitB mask.toNat (i / 4096) then 0 else s.chip.get .H_BUS_OFF i) ∧ t.arr = s.arr ∧ t.mem = s.mem) ∧
    let live := if s.chip.sectorLive bank then s.chip.liveDrivers bank line (ds.map Fin.val) else []
    (2 ≤ live.length → 200 < ps.toNat → Does (.busContention bank line ds ps) s fun t =>
      (∀ d ∈ live, t.chip.get .H_BUS_OFF (bank * 4096 + line * 64 + d) = 1) ∧
      t.chip.get .RIM_BUS_EVT_BANK 0 = orBit (s.chip.get .RIM_BUS_EVT_BANK 0) bank % 2 ^ 12 ∧
      (s.chip.get .RIM_BUS_LOC_VALID 0 = 0 → t.chip.get .RIM_BUS_LOC_BANK 0 = bank.val ∧ t.chip.get .RIM_BUS_LOC_LINE 0 = line.val) ∧
      (∀ level : BusDriver → Bool, let on := (sectDrivers (s.mem.sectorCfg bank) line).filter fun d => d.point ∈ live
        (∀ d ∈ on, rimValue s.chip s.arr s.mem bank d.data = some (level d)) →
          NatMap.find 0 t.chip.fab.keeper (bank * 64 + line) = b2n (on.any level)) ∧ t.arr = s.arr ∧ t.mem = s.mem) ∧
    (live.length < 2 ∨ ps.toNat ≤ 200 → exec (.busContention bank line ds ps) s = .next s) ∧
    (let src := s.chip.treeSel tree;
      (src = 0 ∨ (0x20 ≤ src ∧ src ≤ 0x5F) → exec (.clockSourceLoss tree) s = .next s) ∧
      (src ≠ 0 → ¬(0x20 ≤ src ∧ src ≤ 0x5F) → Does (.clockSourceLoss tree) s fun t =>
        let alt := s.chip.on .RIM_CLK_SEL_AUTO tree && !bitB (s.chip.get .RIM_CLK_STATUS_ON_ALT 0) tree
        t.chip.get .RIM_CLK_STATUS_LOST 0 = orBit (s.chip.get .RIM_CLK_STATUS_LOST 0) tree % 2 ^ 12 ∧ t.chip.get .H_TREE_LVL tree = 0 ∧
        (alt = true → t.chip.get .RIM_CLK_STATUS_ON_ALT 0 = orBit (s.chip.get .RIM_CLK_STATUS_ON_ALT 0) tree % 2 ^ 12 ∧
          t.chip.get .H_TREE_PH tree = if s.chip.clockSource (s.chip.get .RIM_CLK_SEL_ALT tree) = 0 then 0 else 2) ∧
        (alt = false → t.chip.get .H_TREE_LOW tree = 1 ∧ t.chip.get .H_TREE_DEAD tree = 1) ∧
        Keeps s.chip t.chip [(.RIM_CLK_STATUS_LOST, 0), (.RIM_CLK_STATUS_ON_ALT, 0), (.H_TREE_LOW, tree.val), (.H_TREE_LVL, tree.val), (.H_TREE_DEAD, tree.val),
          (.H_TREE_SRC, tree.val), (.H_TREE_PH, tree.val)] ∧ t.arr = s.arr ∧ t.mem = s.mem)) ∧
    (∀ f, s.chip.on .RIM_SCRUB_CTL_EN 0 = true → s.chip.scrubFrom (s.chip.get .RIM_SCRUB_STATUS_FRAME 0) = some f →
      let spared := Config.shiftLutBits f (s.mem.rim.filter fun x => x.1 / 0x100000 = f / 8192)
      let errs := (flippedBits data check).filter fun e => 64 ≤ e % 128 || !((e / 128 * 64 + e % 128) ∈ spared)
      let m := errs.foldl (fun m e => m.flipBit f e) s.mem
      let ones := ((List.range 16).filter fun w => (m.wordErrors f w).length = 1).length
      Does (.scrubFrame data check) s fun t =>
        t.chip.get .RIM_SCRUB_STATUS_FRAME 0 = (if f = 98303 then 0 else (f + 1) % 2 ^ 17) ∧
        t.chip.get .RIM_SCRUB_CE_CNT_COUNT 0 = (if ones = 0 then s.chip.get .RIM_SCRUB_CE_CNT_COUNT 0 else satAdd (2 ^ 32 - 1) (s.chip.get .RIM_SCRUB_CE_CNT_COUNT 0) ones) ∧
        (∀ w, w < 16 → 2 ≤ (m.wordErrors f w).length →
          t.mem.wordErrors f w = m.wordErrors f w ∧ t.chip.get .RIM_SCRUB_UE_LOC_VALID 0 ≠ 0 ∧
          (s.chip.get .RIM_SCRUB_UE_LOC_VALID 0 = 0 → t.chip.get .RIM_SCRUB_UE_LOC_FRAME 0 = f % 2 ^ 17)) ∧
        (∀ w, w < 16 → (m.wordErrors f w).length < 2 → t.mem.wordErrors f w = []) ∧
        (∀ w e, w < 16 → m.wordErrors f w = [e] → e % 128 < 64 → let x := f * 128 + w * 8 + e % 128 / 8
          Memory.read t.mem.rim x = Memory.read m.rim x ^^^ BitVec.ofNat 8 (2 ^ (e % 8))) ∧
        (∀ x, (∀ w e, w < 16 → m.wordErrors f w = [e] → e % 128 < 64 → x ≠ f * 128 + w * 8 + e % 128 / 8) → Memory.read t.mem.rim x = Memory.read m.rim x) ∧
        { t.mem with rim := s.mem.rim, rimErr := s.mem.rimErr } = s.mem ∧ t.arr = s.arr) ∧
    (let follows := Does (.resetTreeChange r v) s fun t =>
        (v = true → t.chip.get .H_RST_TREE r = 1 ∧ t.chip.get .H_RST_CNT r = 0) ∧
        (v = false → t.chip.get .H_RST_TREE r = s.chip.get .H_RST_TREE r ∧
          (s.chip.on .H_RST_TREE r = true → s.chip.get .H_RST_CNT r = 0 → t.chip.get .H_RST_CNT r = 1)) ∧
        KeepsAll s.chip t.chip [(.H_RST_TREE, r.val), (.H_RST_CNT, r.val)] ∧ t.arr = s.arr ∧ t.mem = s.mem
      let src := s.chip.get .RIM_RST_CTL_SRC r
      (src = 2 → (v = true ∨ s.chip.inputOff (s.chip.get .RIM_RST_CTL_BANK r) 2 = false) → follows) ∧
      (src = 3 → (resetSource r s.chip s.arr s.mem = none ∨ resetSource r s.chip s.arr s.mem = some v) → follows) ∧
      (src < 2 ∨ (src = 2 ∧ v = false ∧ s.chip.inputOff (s.chip.get .RIM_RST_CTL_BANK r) 2 = true) ∨ (src = 3 ∧ resetSource r s.chip s.arr s.mem = some !v) →
        exec (.resetTreeChange r v) s = .next s))

/-- RIM_LD_CMD by the service complex. LOAD starts a stream from its source, before its sync word. ABORT of it ends with ABORTED, and every byte of a sector in LOADING is cleared. CLEAR of a
module-owned sector is pending; when it ends the sector is EMPTY with every byte 0 and no other byte changed. A sector in STARTING runs after 20 ns. -/
def Obligations.RimLoaderCommands : Prop :=
  ∀ (who : Init) (k : Fin 12) (s : State),
    (let s₀ := s
      let s := s₀.seen who
      s.chip.regMay who ⟨.rim, 0, 0x104⟩ true = true →
      (s.chip.cmdPending .rimLd 0 = false → s.chip.get .RIM_LD_PARAM_SRC 0 < 2 → s.chip.streaming = false → s.chip.on .H_ABSENT 0 = false → Does (.rimLdLoad who) s₀ fun t =>
        t.chip.cmdPending .rimLd 0 = true ∧ t.chip.streaming = true ∧ t.chip.get .RIM_LD_STATUS_ORIGIN 0 = s.chip.get .RIM_LD_PARAM_SRC 0 ∧
        t.chip.get .H_RS_STATE 0 = 1 ∧ t.chip.get .H_RS_WORD 0 = 0 ∧ t.arr = s.arr ∧ t.mem = s.mem) ∧
      (s.chip.cmdPending .rimLd 0 = true → s.chip.get .CQ_CMD (CmdReg.rimLd.idx 0) = 1 → Does (.rimLdAbort who) s₀ fun t =>
        t.chip.cmdPending .rimLd 0 = false ∧ t.chip.streaming = false ∧ t.chip.get .RIM_LD_RESULT_READY 0 = 1 ∧ t.chip.get .RIM_LD_RESULT_OUTCOME 0 = aborted ∧ t.arr = s.arr ∧
        (s.chip.sector k = sectLoading → t.chip.sector k = sectEmpty ∧ ∀ x, x / 0x100000 = k.val → Memory.read t.mem.rim x = 0) ∧
        (s.chip.sector k ≠ sectLoading → t.chip.sector k = s.chip.sector k ∧ ∀ x, x / 0x100000 = k.val → Memory.read t.mem.rim x = Memory.read s.mem.rim x) ∧
        { t.mem with rim := s.mem.rim, rimRef := s.mem.rimRef, rimErr := s.mem.rimErr } = s.mem) ∧
      (s.chip.cmdPending .rimLd 0 = false → s.chip.get .RIM_SECT_OWN_OWNER k = ownerModule → Does (.clear who (k.castLT (by omega))) s₀ fun t =>
        t.chip.cmdPending .rimLd 0 = true ∧ t.chip.get .CQ_CMD (CmdReg.rimLd.idx 0) = 3 ∧ t.chip.get .H_CLR_SECT 0 = k.val ∧ t.chip.sector k = s.chip.sector k ∧
        t.arr = s.arr ∧ t.mem = s.mem)) ∧
    (s.chip.cmdPending .rimLd 0 = true → s.chip.get .CQ_CMD (CmdReg.rimLd.idx 0) = 3 → s.chip.get .H_CLR_SECT 0 = k.val → Does .clearComplete s fun t =>
      t.chip.sector k = sectEmpty ∧ t.chip.cmdPending .rimLd 0 = false ∧ t.chip.get .RIM_LD_RESULT_OUTCOME 0 = completed ∧ t.arr = s.arr ∧
      (∀ x, Memory.read t.mem.rim x = if x / 0x100000 = k.val then 0 else Memory.read s.mem.rim x) ∧
      (∀ f, f / 8192 = k.val → NatMap.find 0 t.mem.rimRef f = 0) ∧ { t.mem with rim := s.mem.rim, rimRef := s.mem.rimRef, rimErr := s.mem.rimErr } = s.mem) ∧
    (s.chip.sector k = sectStarting → s.chip.due .H_SECT_DUE k = true → Does (.sectorStartupComplete k) s fun t =>
      t.chip.sector k = sectRunning ∧ KeepsAll s.chip t.chip [(.RIM_SECT_STATE_STATE, k.val), (.H_SECT_DUE, k.val)] ∧ t.arr = s.arr ∧ t.mem = s.mem)

/-- The control words of a configuration stream: the sync word selects every device, NOP is counted only, DEVID compares the ID, SELECT sets the mask on the load bus, SECTOR clears a sector and
moves it to LOADING, FADDR moves the pointer. A first word other than the sync word, or another ID, fails the stream with its code, and so does a load bus without an edge.
The words that carry frames. WRITE of a frame with its CRC, in a sector it may configure, puts its 128 bytes at the pointer, which advances, and changes no other byte; a wrong CRC fails the
stream. REPEAT puts the last frame written into the next n frames. Each frame's CRC is kept as its reference. END with the right CRC ends the stream and starts every sector in LOADING, with its flip-flops at their reset values; a wrong one fails it. -/
def Obligations.RimStreams : Prop :=
  (∀ (w : Word32) (arg : BitVec 24) (id : Word32) (s : State),
    let words := [(Fld.H_RS_WORD, 0), (Fld.H_RS_CRC, 0)]
    let room := fun n => s.chip.get .RIM_LD_STATUS_ORIGIN 0 = 1 ∨ s.chip.get .H_RS_WORD 0 + n ≤ min s.chip.streamLimit s.chip.flashWords
    let fails := fun (t : State) (code : Nat) =>
      t.chip.streaming = false ∧ t.chip.get .RIM_LD_STATUS_ERR 0 = 1 ∧ t.chip.get .RIM_LD_STATUS_CODE 0 = code ∧ t.arr = s.arr
    (s.chip.streaming = true → s.chip.get .H_RS_STATE 0 = 1 → room 1 → s.chip.get .RIM_LD_STATUS_ORIGIN 0 ≠ 2 →
      (Does (.syncWord 0xA5C35A3C#32) s fun t => t.chip.get .H_RS_STATE 0 = 2 ∧ t.chip.get .H_RS_MASK 0 = 0xFF ∧
        KeepsAll s.chip t.chip ([(.H_RS_STATE, 0), (.H_RS_MASK, 0)] ++ words) ∧ t.arr = s.arr ∧ t.mem = s.mem) ∧
      (w ≠ 0xA5C35A3C#32 → Does (.syncWord w) s fun t => fails t rimSync)) ∧
    (StreamReads 1 s.chip →
      exec (.streamNop 0 0) s = .next { s with chip := s.chip.streamWords [0] } ∧
      (s.chip.get .RIM_LD_STATUS_ORIGIN 0 = 1 → arg.toNat < 0x100 → Does (.select arg) s fun t => t.chip.get .H_RS_MASK 0 = arg.toNat ∧
        KeepsAll s.chip t.chip ((.H_RS_MASK, 0) :: words) ∧ t.arr = s.arr ∧ t.mem = s.mem) ∧
      (arg.toNat ≤ 11 → s.chip.mayLoad arg.toNat = true → Does (.sector arg) s fun t =>
        t.chip.sector arg.toNat = sectLoading ∧ t.chip.get .H_RS_SECT 0 = arg.toNat + 1 ∧ t.chip.get .H_RS_PTR 0 = 8192 * arg.toNat ∧
        KeepsAll s.chip t.chip ([(.RIM_SECT_STATE_STATE, arg.toNat), (.H_RS_SECT, 0), (.H_RS_PTR, 0)] ++ words) ∧ t.arr = s.arr ∧
        (∀ x, Memory.read t.mem.rim x = if x / 0x100000 = arg.toNat then 0 else Memory.read s.mem.rim x) ∧
        { t.mem with rim := s.mem.rim, rimRef := s.mem.rimRef, rimErr := s.mem.rimErr } = s.mem) ∧
      (∀ k, s.chip.get .H_RS_SECT 0 = k + 1 → k < 12 → arg.toNat ≤ 8191 → Does (.faddr arg) s fun t =>
        t.chip.get .H_RS_PTR 0 = 8192 * k + arg.toNat ∧ KeepsAll s.chip t.chip ((.H_RS_PTR, 0) :: words) ∧ t.arr = s.arr ∧ t.mem = s.mem)) ∧
    (StreamReads 2 s.chip →
      (id.toNat = s.chip.get .RIM_ID_ID 0 → exec (.devid 0 id) s = .next { s with chip := s.chip.streamWords [0x1000000, id.toNat] }) ∧
      (id.toNat ≠ s.chip.get .RIM_ID_ID 0 → Does (.devid 0 id) s fun t => fails t rimDevid)) ∧
    (s.chip.streaming = true → s.chip.get .RIM_LD_STATUS_ORIGIN 0 = 1 → Does .loadBusTimeout s fun t => fails t rimEarlyEnd)) ∧
  (∀ (k : Nat) (data : List Word32) (arg : BitVec 24) (crc : Word32) (s : State),
    let f := s.chip.get .H_RS_PTR 0
    let d := ((data.map BitVec.toNat).take 32).flatMap (toBytes 4)
    let right := crcDone ((s.chip.streamWords [0x8000000]).get .H_RS_CRC 0)
    (s.chip.get .H_RS_SECT 0 = k + 1 → k < 12 → StreamReads 34 s.chip → s.chip.framesOk 1 = true → data.length = 33 →
      (((data.map BitVec.toNat).getD 32 0) = frameCrc f d → s.chip.frameRefusal s.mem k f d = 0 → Does (.write 1 data) s fun t =>
        t.chip.streaming = true ∧ t.chip.get .H_RS_PTR 0 = f + 1 ∧ t.chip.get .H_RS_LAST 0 = f + 1 ∧
        (∀ x, Memory.read t.mem.rim x = if f * 128 ≤ x ∧ x < f * 128 + 128 then d.getD (x - f * 128) 0 else Memory.read s.mem.rim x) ∧
        t.chip.rimFrame = d ∧ NatMap.find 0 t.mem.rimRef f = frameCrc f d + 1 ∧ (∀ w, w < 16 → t.mem.wordErrors f w = []) ∧
        { t.mem with rim := s.mem.rim, rimRef := s.mem.rimRef, rimErr := s.mem.rimErr } = s.mem ∧ t.arr = s.arr) ∧
      (((data.map BitVec.toNat).getD 32 0) = frameCrc f d → s.chip.frameRefusal s.mem k f d ≠ 0 → Does (.write 1 data) s fun t =>
        t.chip.streaming = false ∧ t.chip.get .RIM_LD_STATUS_CODE 0 = s.chip.frameRefusal s.mem k f d) ∧
      (((data.map BitVec.toNat).getD 32 0) ≠ frameCrc f d → Does (.write 1 data) s fun t =>
        t.chip.streaming = false ∧ t.chip.get .RIM_LD_STATUS_ERR 0 = 1 ∧ t.chip.get .RIM_LD_STATUS_CODE 0 = rimFrameCrc)) ∧
    (let last := s.chip.rimFrame;
      s.chip.get .H_RS_SECT 0 = k + 1 → k < 12 → StreamReads 1 s.chip → s.chip.framesOk arg.toNat = true → s.chip.get .H_RS_LAST 0 ≠ 0 → last.length = 128 →
      (∀ i, i < arg.toNat → s.chip.frameRefusal { s.mem with rim := Memory.writeN s.mem.rim (f * 128) (List.replicate i last).flatten } k (f + i) last = 0) → Does (.repeatFrames arg) s fun t =>
        t.chip.streaming = true ∧ t.chip.get .H_RS_PTR 0 = f + arg.toNat ∧
        (∀ x, Memory.read t.mem.rim x = if f * 128 ≤ x ∧ x < (f + arg.toNat) * 128 then last.getD (x % 128) 0 else Memory.read s.mem.rim x) ∧
        (∀ i, i < arg.toNat → NatMap.find 0 t.mem.rimRef (f + i) = frameCrc (f + i) last + 1) ∧
        { t.mem with rim := s.mem.rim, rimRef := s.mem.rimRef, rimErr := s.mem.rimErr } = s.mem ∧ t.arr = s.arr) ∧
    (s.chip.streaming = true → s.chip.get .H_RS_STATE 0 = 2 → s.chip.get .RIM_LD_STATUS_ORIGIN 0 ≠ 2 →
      (s.chip.get .RIM_LD_STATUS_ORIGIN 0 = 1 ∨ s.chip.get .H_RS_WORD 0 + 2 ≤ min s.chip.streamLimit s.chip.flashWords) →
      (crc.toNat = right → Does (.endStream 0 crc) s fun t =>
        t.chip.streaming = false ∧ t.chip.get .H_RS_STATE 0 = 3 ∧ (∀ j, j < 12 → t.chip.sector j = if s.chip.sector j = sectLoading then sectStarting else s.chip.sector j) ∧
        (∀ j n, j < 12 → n < 65536 → s.chip.sector j = sectLoading → NatMap.find 0 t.chip.fab.ffs (j * 65536 + n) = 0) ∧
        t.arr = s.arr ∧ t.mem = s.mem) ∧
      (crc.toNat ≠ right → Does (.endStream 0 crc) s fun t =>
        t.chip.streaming = false ∧ t.chip.get .RIM_LD_STATUS_CODE 0 = rimStreamCrc ∧ (∀ j, j < 12 → t.chip.sector j = if s.chip.sector j = sectLoading then sectEmpty else s.chip.sector j))))

/-! Pins (R265 to R272) and serial lanes (R278 to R289) -/

/-- A written configuration is taken at its pin-clock edge; where FUNC or STD has changed the old source is released and the pad is idle for two periods, and then the new source drives it. A bank's
supply that rises leaves its pins in the power-off state for 100 microseconds, one that falls puts them there at once, with their inputs at 0 and the reset trees of its pin asserted. A measurement
updates VMEAS and VMISMATCH. -/
def Obligations.PinsAndBankSupplies : Prop :=
  ∀ (b : Fin 12) (n : Fin 32) (strap : Fin 4) (v : BitVec 8) (s : State),
    let i := b.val * 32 + n.val
    let pads := [(Fld.H_PIN_IDLE, i), (.H_PIN_IDLE, i + 1), (.H_PIN_SRC, i), (.H_PIN_SRC, i + 1)]
    let taken := [(Fld.H_PIN_PEND, i), (.H_PIN_MOVE, i), (.H_PIN_CFG, i)]
    (s.chip.due .H_PIN_PEND i = true → Does (.pinFunctionChange b n) s fun t =>
      t.chip.get .H_PIN_PEND i = 0 ∧ t.chip.get .H_PIN_MOVE i = 0 ∧ t.chip.get .H_PIN_CFG i = (s.chip.pinCfg i).word % 2 ^ 32 ∧
      (s.chip.on .H_PIN_MOVE i = true → (∀ j ∈ s.chip.pinsWith i, t.chip.get .H_PIN_IDLE j = s.chip.now + 97 ∧ t.chip.get .H_PIN_SRC j = 0) ∧
        KeepsAll s.chip t.chip (taken ++ pads)) ∧
      (s.chip.on .H_PIN_MOVE i = false → KeepsAll s.chip t.chip taken) ∧ t.arr = s.arr ∧ t.mem = s.mem) ∧
    (s.chip.due .H_PIN_IDLE i = true → (s.chip.due .H_PIN_PEND i && s.chip.on .H_PIN_MOVE i) = false → Does (.pinSwitchComplete b n) s fun t =>
      (∀ j ∈ s.chip.pinsWith i, t.chip.get .H_PIN_IDLE j = 0 ∧ t.chip.get .H_PIN_SRC j = s.chip.pinFunc j % 8) ∧
      KeepsAll s.chip t.chip pads ∧ t.arr = s.arr ∧ t.mem = s.mem) ∧
    (s.chip.get .IOB_BANK_STATUS_PGOOD b = 0 → s.chip.on .H_ABSENT 0 = false → Does (.pgoodRise b strap) s fun t =>
      t.chip.get .IOB_BANK_STATUS_PGOOD b = 1 ∧ t.chip.get .IOB_BANK_STATUS_STRAP b = strap.val ∧ t.chip.bankState b = .powerOff ∧
      t.chip.get .H_PG_SETTLE b = s.chip.now + 100 * Chip.us + 1 ∧ t.arr = s.arr ∧ t.mem = s.mem) ∧
    (s.chip.due .H_PG_SETTLE b = true → s.chip.on .IOB_BANK_STATUS_PGOOD b = true → Does (.pgoodSettle b) s fun t =>
      t.chip.bankState b ≠ .powerOff ∧ KeepsAll s.chip t.chip [(.H_PG_SETTLE, b.val)] ∧ t.arr = s.arr ∧ t.mem = s.mem) ∧
    (s.chip.on .IOB_BANK_STATUS_PGOOD b = true → Does (.pgoodFall b) s fun t =>
      t.chip.get .IOB_BANK_STATUS_PGOOD b = 0 ∧ t.chip.bankState b = .powerOff ∧ (∀ m, m < 32 → t.chip.inputOff b m = true) ∧
      (∀ r, r < 4 → s.chip.get .RIM_RST_CTL_SRC r = 2 → s.chip.get .RIM_RST_CTL_BANK r = b.val → t.chip.get .H_RST_TREE r = 1) ∧ t.arr = s.arr ∧ t.mem = s.mem) ∧
    (Does (.vccioMeasurement b v) s fun t =>
      t.chip.get .IOB_BANK_STATUS_VMEAS b = v.toNat ∧ t.chip.get .IOB_BANK_STATUS_VMISMATCH b = b2n (t.chip.vMismatch b) ∧
      Keeps s.chip t.chip [(.IOB_BANK_STATUS_VMEAS, b.val), (.IOB_BANK_STATUS_VMISMATCH, b.val)] ∧ t.arr = s.arr ∧ t.mem = s.mem)

/-- The key sequence of IOB_LOCK locks its bank, and any other key starts it anew. A masked GPIO write by an agent changes the masked bits of pins that it owns and no other bit, and a masked bit
of another's pin is counted; the bits of the odd pin of a differential pair do not count. -/
def Obligations.BankLockAndAgentGpio : Prop :=
  ∀ (who : Init) (b : Fin 12) (key : BitVec 8) (k : Fin 8) (reg : GpioReg) (v : Word32) (s₀ : State),
    (let s := s₀.seen who;
      s.chip.regMay who ⟨.iob, b, 0x8⟩ true = true → Does (.iobLock who b key) s₀ fun t =>
        t.chip.get .IOB_BANK_CFG_LOCKED b = (if key = 0x5A ∧ s.chip.on .H_LOCK_SEQ b then 1 else s.chip.get .IOB_BANK_CFG_LOCKED b) ∧
        t.chip.get .H_LOCK_SEQ b = b2n (key = 0xA5) ∧ KeepsAll s.chip t.chip [(.IOB_BANK_CFG_LOCKED, b.val), (.H_LOCK_SEQ, b.val)] ∧ t.arr = s.arr ∧ t.mem = s.mem) ∧
    (let s := s₀.seen (.core k false);
      4 ≤ k.val → Does (.agpWrite k false b reg v) s₀ fun t =>
        let f := (gpioReg reg).place.1
        let pin := fun (i : Nat) => b.val * 32 + (gpioReg reg).place.2 + i
        let counts := fun (i : Nat) => bitB v.toNat (16 + i) && s.chip.agpCounts (pin i)
        (∀ i, i < 16 → bit (t.chip.get f b) i = if counts i ∧ s.chip.get .IOB_PIN_CFG_AGENT (pin i) + 4 = k.val then bit v.toNat i else bit (s.chip.get f b) i) ∧
        t.chip.get .AGP_DENY_CNT_COUNT 0 = (if ∃ i, i < 16 ∧ counts i ∧ s.chip.get .IOB_PIN_CFG_AGENT (pin i) + 4 ≠ k.val
          then satAdd (2 ^ 32 - 1) (s.chip.get .AGP_DENY_CNT_COUNT 0) 1 else s.chip.get .AGP_DENY_CNT_COUNT 0) ∧
        Keeps s.chip t.chip [(f, b.val), (.AGP_DENY_CNT_COUNT, 0), (.AGP_DENY_LOC_VALID, 0), (.AGP_DENY_LOC_CORE, 0), (.AGP_DENY_LOC_BANK, 0), (.AGP_DENY_LOC_PIN, 0)] ∧
        t.arr = s.arr ∧ t.mem = s.mem)

/-- Line bits of one period arrive at a lane with its buffer `g` not yet taken. A 64b/66b lane that hunts counts a valid header and locks at the 64th, and slips by one bit at an invalid one; locked, it
presents the block, counts an invalid header and loses lock at the 16th of a window. An 8b/10b lane that hunts aligns on a comma; aligned, it presents the character of each group, and a group that is not
in the table as 0xFE with K and ERR, counted; the fourth of a window loses alignment. Bits of another encoding, or of a lane without a signal, change nothing. Adaptation sets ADAPTED. Signal detect that
rises locks a raw lane, and that falls ends adaptation and lock. A PLL shows its lock. -/
def Obligations.LanesLock : Prop :=
  ∀ (q : Fin 16) (l : Fin 4) (pb : Bool) (bits : List Bool) (s : State),
    let i := q.val * 4 + l.val
    let c := s.chip
    let g := (c.laneBuf i).group ++ bits
    let period := c.laneEn i = true ∧ c.on .LQ_LANE_STATUS_SIGDET i = true ∧ (c.laneBuf i).line = [] ∧ bits.length = rateD (c.laneRate i) ∧
      c.get .LQ_LANE_CTL_RXINV i = 0 ∧ c.get .LQ_PRBS_CTL_CHK_EN i = 0
    let same := fun (t : State) => t.arr = s.arr ∧ t.mem = s.mem
    let errs := fun (t : State) (n : Nat) => t.chip.get .LQ_LANE_ERR_COUNT i = satAdd (2 ^ 32 - 1) (c.get .LQ_LANE_ERR_COUNT i) n
    let lost := fun (t : State) => t.chip.get .LQ_LANE_STATUS_LOCK i = 0 ∧ t.chip.get .LQ_LANE_STATUS_LOCK_LOST i = 1
    (period → c.laneEnc i = enc64b66b → g.length = 66 →
      let head := bitsNat (g.take 2)
      let valid := head = 1 ∨ head = 2
      (c.laneHunts i enc64b66b = true →
        (valid → c.get .H_HUNT i = 63 → Does (.blockLock (laneNo q l) bits) s fun t => t.chip.get .LQ_LANE_STATUS_LOCK i = 1 ∧ t.chip.get .H_HUNT i = 0 ∧ same t) ∧
        (valid → c.get .H_HUNT i < 63 → Does (.blockLock (laneNo q l) bits) s fun t => t.chip.get .LQ_LANE_STATUS_LOCK i = 0 ∧ t.chip.get .H_HUNT i = c.get .H_HUNT i + 1 ∧ same t) ∧
        (¬valid → Does (.blockLock (laneNo q l) bits) s fun t => t.chip.get .LQ_LANE_STATUS_LOCK i = 0 ∧ t.chip.get .H_HUNT i = 0 ∧ (t.chip.laneBuf i).group = g.drop 1 ∧ same t)) ∧
      (c.on .LQ_LANE_STATUS_LOCK i = true → c.get .H_WIN_BAD i < 16 →
        let shown := fun (t : State) => t.chip.get .H_RX_UNIT (i * 32) = head + 4 * (c.rxPayload i ((g.drop 2).take 64)).1 + 1
        (valid → Does (.lockLoss (laneNo q l) bits) s fun t => shown t ∧ t.chip.get .LQ_LANE_STATUS_LOCK i = c.get .LQ_LANE_STATUS_LOCK i ∧
          t.chip.get .LQ_LANE_ERR_COUNT i = c.get .LQ_LANE_ERR_COUNT i ∧ same t) ∧
        (¬valid → c.get .H_WIN_BAD i < 15 → Does (.lockLoss (laneNo q l) bits) s fun t => shown t ∧ t.chip.get .LQ_LANE_STATUS_LOCK i = c.get .LQ_LANE_STATUS_LOCK i ∧ errs t 1 ∧ same t) ∧
        (¬valid → c.get .H_WIN_BAD i = 15 → Does (.lockLoss (laneNo q l) bits) s fun t => lost t ∧ errs t 1 ∧ same t))) ∧
    (period → c.laneEnc i = enc8b10b →
      (∀ k, c.laneHunts i enc8b10b = true → commaAt 0 g.length g = some k → g.length < k + 10 → Does (.commaAlign (laneNo q l) bits) s fun t =>
        t.chip.get .LQ_LANE_STATUS_LOCK i = 1 ∧ (t.chip.laneBuf i).group = g.drop k ∧ same t) ∧
      (c.laneHunts i enc8b10b = true → commaAt 0 g.length g = none → Does (.commaAlign (laneNo q l) bits) s fun t => t.chip.get .LQ_LANE_STATUS_LOCK i = 0 ∧ same t) ∧
      (∀ x y, c.on .LQ_LANE_STATUS_LOCK i = true → c.get .LQ_LANE_CTL_ALIGN i = 0 → g = x ++ y → x.length = 10 → y.length = 10 → c.get .H_WIN_BAD i < 4 →
        let rd := c.on .H_RX_RD i
        (∀ b b', dec10 x rd = some b → dec10 y (rdAfter x rd) = some b' → Does (.lockLoss (laneNo q l) bits) s fun t =>
          t.chip.get .H_RX_UNIT (i * 32) = b.1 + b2n b.2 * 256 + 1 ∧ t.chip.get .H_RX_UNIT (i * 32 + 1) = b'.1 + b2n b'.2 * 256 + 1 ∧
          t.chip.get .LQ_LANE_STATUS_LOCK i = c.get .LQ_LANE_STATUS_LOCK i ∧ t.chip.get .LQ_LANE_ERR_COUNT i = c.get .LQ_LANE_ERR_COUNT i ∧ same t) ∧
        (dec10 x rd = none → c.get .H_WIN_BAD i = 3 → commaAt 0 10 y = none → Does (.lockLoss (laneNo q l) bits) s fun t =>
          t.chip.get .H_RX_UNIT (i * 32) = 0x3FF ∧ lost t ∧ errs t 1 ∧ same t))) ∧
    (c.laneEnc i ≠ enc64b66b ∨ c.laneEn i = false ∨ c.get .LQ_LANE_STATUS_SIGDET i = 0 → exec (.blockLock (laneNo q l) bits) s = .next s) ∧
    (c.laneEn i = true → c.on .LQ_LANE_STATUS_SIGDET i = true → Does (.adaptationComplete q l) s fun t =>
      t.chip.get .LQ_LANE_STATUS_ADAPTED i = 1 ∧ KeepsAll c t.chip ((.LQ_LANE_STATUS_ADAPTED, i) :: (List.range 12).map fun k => (.H_DFE_TAP, i * 12 + k)) ∧ same t) ∧
    (c.get .LQ_LANE_STATUS_SIGDET i = 0 → c.laneEn i = true → c.laneEnc i = encRaw → Does (.signalDetect q l true) s fun t =>
      t.chip.get .LQ_LANE_STATUS_SIGDET i = 1 ∧ t.chip.get .LQ_LANE_STATUS_LOCK i = 1 ∧
      KeepsAll c t.chip [(.LQ_LANE_STATUS_SIGDET, i), (.LQ_LANE_STATUS_LOCK, i)] ∧ same t) ∧
    (c.on .LQ_LANE_STATUS_SIGDET i = true → Does (.signalDetect q l false) s fun t =>
      t.chip.get .LQ_LANE_STATUS_SIGDET i = 0 ∧ t.chip.get .LQ_LANE_STATUS_ADAPTED i = 0 ∧ t.chip.get .LQ_LANE_STATUS_LOCK i = 0 ∧
      (c.on .LQ_LANE_STATUS_LOCK i = true → t.chip.get .LQ_LANE_STATUS_LOCK_LOST i = 1) ∧ same t) ∧
    exec (.pllLock q pb) s = .next { s with chip := c.set (if pb then .LQ_QUAD_STATUS_PLLB_LOCK else .LQ_QUAD_STATUS_PLLA_LOCK) q 1 }

/-- The bits of a period reach the PRBS checker: where they continue the pattern an unlocked checker locks at the 64th that matches, and a locked one counts the bits that differ and all bits, and shows
CHK_LOST at the 64th error of a window. A read of its errors latches the bits and restarts both counts. INJ stays set for the next generated word; on a lane lent to Ethernet it is not performed. A
protected lane that fails moves its port to the spare, once; REVERT returns it. -/
def Obligations.PrbsAndSparing : Prop :=
  ∀ (who : Init) (q : Fin 16) (l : Fin 4) (raw : List Bool) (first n : Nat) (s : State),
    let i := q.val * 4 + l.val
    let bits := (raw.drop first).take n
    let trees := (List.range 12).flatMap fun k => [(Fld.H_TREE_PH, k), (.H_TREE_LVL, k), (.H_TREE_DEAD, k), (.H_TREE_SRC, k)]
    (s.chip.on .LQ_PRBS_CTL_CHK_EN i = true → s.chip.laneEn i = true → s.chip.on .LQ_LANE_STATUS_SIGDET i = true → (s.chip.laneBuf i).line = [] →
      bits.length = rateD (s.chip.laneRate i) →
      let line := bits.map fun b => b ^^ s.chip.on .LQ_LANE_CTL_RXINV i
      let got := (if ratePam4 (s.chip.laneRate i) then grayPairs line else line).map fun b => b ^^ s.chip.on .LQ_PRBS_CTL_INV i
      let want := (patBits (s.chip.get .LQ_PRBS_CTL_PAT i) bits.length (s.chip.get .H_CHK i)).1
      let wrong := ((got.zip want).filter fun x => x.1 ≠ x.2).length
      let run := s.chip.get .H_CHK_RUN i
      (s.chip.get .LQ_PRBS_STATUS_CHK_LOCK i = 0 → got = want → run < 64 → 64 ≤ run + bits.length →
        s.chip.get .LQ_PRBS_ERR_COUNT i < 2 ^ 32 → s.chip.get .H_PRBS_BITS i < 2 ^ 64 → Does (.prbsCheckerLock q l raw first n) s fun t =>
        t.chip.get .LQ_PRBS_STATUS_CHK_LOCK i = 1 ∧ t.chip.get .LQ_PRBS_ERR_COUNT i = s.chip.get .LQ_PRBS_ERR_COUNT i ∧
        t.chip.get .H_PRBS_BITS i = min (s.chip.get .H_PRBS_BITS i + (run + bits.length - 64)) (2 ^ 64 - 1) ∧ t.arr = s.arr ∧ t.mem = s.mem) ∧
      (s.chip.get .LQ_PRBS_STATUS_CHK_LOCK i = 0 → got = want → run + bits.length < 64 → Does (.prbsCheckerLock q l raw first n) s fun t =>
        t.chip.get .LQ_PRBS_STATUS_CHK_LOCK i = 0 ∧ t.chip.get .H_CHK_RUN i = run + bits.length ∧ t.arr = s.arr ∧ t.mem = s.mem) ∧
      (s.chip.get .LQ_PRBS_STATUS_CHK_LOCK i = 1 → s.chip.get .H_CHK_WIN i + bits.length < 1024 → s.chip.get .H_CHK_BAD i + wrong < 64 →
        Does (.prbsCheckerLock q l raw first n) s fun t =>
          t.chip.get .LQ_PRBS_STATUS_CHK_LOCK i = 1 ∧ t.chip.get .LQ_PRBS_ERR_COUNT i = satAdd (2 ^ 32 - 1) (s.chip.get .LQ_PRBS_ERR_COUNT i) wrong ∧
          t.chip.get .H_PRBS_BITS i = min (s.chip.get .H_PRBS_BITS i + bits.length) (2 ^ 64 - 1) ∧ t.arr = s.arr ∧ t.mem = s.mem) ∧
      (s.chip.get .LQ_PRBS_STATUS_CHK_LOCK i = 1 → s.chip.get .H_CHK_WIN i + bits.length < 1024 → s.chip.get .H_CHK_BAD i < 64 → 64 ≤ s.chip.get .H_CHK_BAD i + wrong →
        Does (.prbsCheckerLock q l raw first n) s fun t => t.chip.get .LQ_PRBS_STATUS_CHK_LOST i = 1 ∧ t.arr = s.arr ∧ t.mem = s.mem)) ∧
    (let s₀ := s
      let s := s₀.seen who
      (s.chip.regMay who ⟨.lq, q, 0x118 + l.val * 0x40⟩ false = true → Does (.prbsErrRead who q l) s₀ fun t =>
        t.chip.resp = ⟨.ok, s.chip.get .LQ_PRBS_ERR_COUNT i % 2 ^ 32, []⟩ ∧ t.chip.get .LQ_PRBS_ERR_COUNT i = 0 ∧ t.chip.get .H_PRBS_BITS i = 0 ∧
        t.chip.get .LQ_PRBS_BITS_COUNT i = s.chip.get .H_PRBS_BITS i % 2 ^ 64 ∧
        KeepsAll s.chip t.chip [(.LQ_PRBS_ERR_COUNT, i), (.H_PRBS_BITS, i), (.LQ_PRBS_BITS_COUNT, i)] ∧ t.arr = s.arr ∧ t.mem = s.mem) ∧
      (s.chip.regMay who ⟨.lq, q, 0x110 + l.val * 0x40⟩ true = true → s.chip.get .LQ_PRBS_CTL_PAT i ≤ 5 → s.chip.get .LQ_PRBS_CTL_INJ i < 2 →
        s.chip.get .LQ_PRBS_CTL_INJ_RATE i < 16 → s.chip.get .LQ_PRBS_CTL_INV i < 2 → s.chip.get .LQ_PRBS_CTL_CHK_EN i < 2 → s.chip.get .LQ_PRBS_CTL_GEN_EN i < 2 →
        (s.chip.ethLane i = false →
          (s.chip.get .LQ_PRBS_CTL_GEN_EN i = 0 ∧ s.chip.get .LQ_PRBS_CTL_CHK_EN i = 0) ∨ patOk (s.chip.laneRate i) (s.chip.get .LQ_PRBS_CTL_PAT i) = true →
          Does (.inj who q l) s₀ fun t =>
            t.chip.get .LQ_PRBS_CTL_INJ i = 1 ∧ t.chip.get .LQ_PRBS_CTL_PAT i = s.chip.get .LQ_PRBS_CTL_PAT i ∧
            t.chip.get .LQ_PRBS_CTL_GEN_EN i = s.chip.get .LQ_PRBS_CTL_GEN_EN i ∧ t.arr = s.arr ∧ t.mem = s.mem) ∧
        (s.chip.ethLane i = true → exec (.inj who q l) s₀ = .next { s with chip := (s.chip.answer .ok).set .LQ_QUAD_CTL_CFG_REJ q 1 })) ∧
      (s.chip.regMay who ⟨.lq, q, 0x0⟩ true = true → Does (.revert who q) s₀ fun t =>
        t.chip.get .LQ_QUAD_STATUS_SPARE_USED q = 0 ∧ t.chip.get .LQ_QUAD_STATUS_FAILED q = 0 ∧ t.chip.portLane i = i ∧
        KeepsAll s.chip t.chip ([(.LQ_QUAD_STATUS_SPARE_USED, q.val), (.LQ_QUAD_STATUS_FAILED, q.val)] ++ trees) ∧ t.arr = s.arr ∧ t.mem = s.mem)) ∧
    (s.chip.laneFailed i = true → s.chip.get .LQ_QUAD_STATUS_SPARE_USED q = 0 → Does (.laneFailure q l) s fun t =>
      t.chip.get .LQ_QUAD_STATUS_SPARE_USED q = 1 ∧ t.chip.get .LQ_QUAD_STATUS_FAILED q = orBit (s.chip.get .LQ_QUAD_STATUS_FAILED q) l % 16 ∧
      t.chip.portLane i = t.chip.spareOf q ∧ t.arr = s.arr ∧ t.mem = s.mem) ∧
    (s.chip.get .LQ_QUAD_STATUS_SPARE_USED q ≠ 0 → Does (.laneFailure q l) s fun t => KeepsAll s.chip t.chip trees ∧ t.arr = s.arr ∧ t.mem = s.mem)

/-! The service Ethernet ports (R291, R292, R348) -/

/-- A received frame goes into the buffer of the owned descriptor at HW, which advances; no byte outside the buffer and the descriptor changes; without a descriptor the frame is dropped and counted. A port without a link, a PAUSE frame and one of more than 9,216 bytes leave no trace.
A frame of an owned transmit descriptor leaves. An armed epoch waits for the wrap. A read of ETH_TX_TS gives the oldest stamp and removes it. -/
def Obligations.EthernetFramesAndStamps : Prop :=
  ∀ (p : Fin 2) (f : List Byte) (k : Fin 8) (sec : Bool) (ns : BitVec 30) (s : State),
    (s.chip.ethLink p = false ∨ be16 f 12 = 0x8808 ∨ 9216 < f.length → exec (.frameReceive p f true) s = .next s) ∧
    (s.chip.ethLink p = true → be16 f 12 ≠ 0x8808 → f.length ≤ 9216 →
      let hw := s.chip.get .ETH_RX_IDX_HW p
      (hw = s.chip.get .ETH_RX_IDX_SW p → exec (.frameReceive p f true) s = .next { s with chip := s.chip.count .ETH_RX_IDX_DROP p 1 }) ∧
      let x := ethDesc (s.chip.get .ETH_RX_RING_OFFSET p * 64) hw s.chip s.mem
      let d := x.1
      (hw ≠ s.chip.get .ETH_RX_IDX_SW p → x.2 = (s.chip, s.mem) → d.flags % 2 = 1 →
        ethBanks d.buf d.len = true → (d.at' + 16 ≤ d.buf ∨ d.buf + d.len ≤ d.at') → s.mem.sramErr = [] → Does (.frameReceive p f true) s fun t =>
          t.chip.get .ETH_RX_IDX_HW p = (hw + 1) % 2 ^ s.chip.get .ETH_RX_RING_LOG2 p % 2 ^ 12 ∧
          (∀ j, j < min f.length d.len → Memory.read t.mem.sram (d.buf + j) = f.getD j 0) ∧
          (∀ x, ¬(d.buf ≤ x ∧ x < d.buf + min f.length d.len) → ¬(d.at' + 4 ≤ x ∧ x < d.at' + 16) → Memory.read t.mem.sram x = Memory.read s.mem.sram x) ∧
          ofBytes (Memory.readN t.mem.sram (d.at' + 4) 2) = min f.length d.len % 2 ^ 16 ∧ (Memory.read t.mem.sram (d.at' + 6)).toNat % 2 = 0 ∧
          t.mem.cistern = s.mem.cistern ∧ t.mem.deep = s.mem.deep ∧ t.mem.vault = s.mem.vault ∧ t.mem.rim = s.mem.rim ∧ t.arr = s.arr)) ∧
    (let x := ethDesc (s.chip.get .ETH_TX_RING_OFFSET p * 64) (s.chip.get .ETH_TX_IDX_HW p) s.chip s.mem
      let d := x.1
      let h := sramRead (d.len + 1) d.buf d.len s.chip s.mem
      s.chip.ethOption p = true → d.len ≤ 9216 → s.chip.get .ETH_TX_IDX_HW p ≠ s.chip.get .ETH_TX_IDX_SW p → x.2 = (s.chip, s.mem) → d.flags % 2 = 1 → ethBanks d.buf d.len = true →
      h.status = .ok → h.chip = s.chip → h.mem = s.mem → ptpEvent h.data = none → s.mem.sramErr = [] →
      Does (.frameTransmit p) s fun t =>
        t.chip.frames = (p.val, h.data) :: s.chip.frames ∧ t.chip.get .ETH_TX_IDX_HW p = (s.chip.get .ETH_TX_IDX_HW p + 1) % 2 ^ s.chip.get .ETH_TX_RING_LOG2 p % 2 ^ 12 ∧
        (∀ x, ¬(d.at' + 4 ≤ x ∧ x < d.at' + 16) → Memory.read t.mem.sram x = Memory.read s.mem.sram x) ∧ t.arr = s.arr) ∧
    (let s₀ := s
      let s := s₀.seen (.core k sec)
      (sec || k.val < 4) = true →
      (ns.toNat ≤ 999999999 → Does (.epochArm k sec p ns) s₀ fun t => t.chip.get .ETH_PTP_NEXT_NS_NS p = ns.toNat ∧ t.chip.get .H_EPOCH_ARM p = 1 ∧
        KeepsAll s.chip t.chip [(.ETH_PTP_NEXT_NS_NS, p.val), (.H_EPOCH_ARM, p.val)] ∧ t.arr = s.arr ∧ t.mem = s.mem) ∧
      (999999999 < ns.toNat → exec (.epochArm k sec p ns) s₀ = .next { s with chip := s.chip.answer .ok }) ∧
      (∀ e, s.chip.txTs.find? (fun e => e.1 = p.val) = some e → Does (.txTsRead k sec p) s₀ fun t =>
        t.chip.resp = ⟨.ok, e.2 % 2 ^ 32, []⟩ ∧ t.chip.txTs = s.chip.txTs.erase e ∧ KeepsAll s.chip t.chip [] ∧ t.arr = s.arr ∧ t.mem = s.mem))

/-! Host ports (R130, R295, R302) and DMA (R297 to R301) -/

/-- PERST_N and the loss of a link reset their port: its DMA channels stop with LOSS = 1 and its MSI-X vectors are masked again. PERST_N, a link that stays away for 1 ms and a surprise removal
lose the host; a link-down and a function-level reset do not. A link that has trained brings the host back. -/
def Obligations.PortResetsAndHostLosses : Prop :=
  ∀ (n : Fin 4) (ch : Fin 8) (v : Fin 48) (speed : Fin 7) (width : Fin 17) (s : State),
    let isReset := fun (t : State) => t.chip.get .DMA_CH_CTL_EN (n * 8 + ch) = 0 ∧ t.chip.get .DMA_CH_STATUS_LOSS (n * 8 + ch) = 1 ∧
      t.chip.get .MSIX_CTRL_MASK (n * 48 + v) = Fld.reset .MSIX_CTRL_MASK ∧ t.chip.get .GLB_BAR2_SEL_WIN n = Fld.reset .GLB_BAR2_SEL_WIN
    (s.chip.portExists n = true → s.chip.on .H_PERST n = false → Does (.perstAssert n) s fun t =>
      isReset t ∧ t.chip.get .H_PERST n = 1 ∧ t.chip.get .H_LINKUP n = 0 ∧ t.chip.on .H_LOST n = true) ∧
    exec (.perstDeassert n) s = .next { s with chip := s.chip.set .H_PERST n 0 } ∧
    (s.chip.on .H_LINKUP n = true → Does (.linkDown n) s fun t =>
      isReset t ∧ t.chip.get .H_LINKUP n = 0 ∧ t.chip.get .H_LINK_DUE n = s.chip.now + 1000 * Chip.us + 1 ∧ t.chip.get .H_LOST n = s.chip.get .H_LOST n ∧
      t.arr = s.arr ∧ t.mem = s.mem) ∧
    (s.chip.due .H_LINK_DUE n = true → s.chip.on .H_LINKUP n = false → Does (.linkReturnTimeout n) s fun t => t.chip.on .H_LOST n = true ∧ t.chip.get .H_LINK_DUE n = 0) ∧
    (s.chip.portExists n = true → Does (.surpriseRemoval n) s fun t => t.chip.on .H_LOST n = true ∧ t.chip.get .H_LINKUP n = s.chip.get .H_LINKUP n) ∧
    (s.chip.on .H_LINKUP n = true → Does (.functionLevelReset n) s fun t =>
      isReset t ∧ t.chip.get .H_LINKUP n = s.chip.get .H_LINKUP n ∧ t.chip.get .H_LOST n = s.chip.get .H_LOST n ∧ t.arr = s.arr ∧ t.mem = s.mem) ∧
    (s.chip.mayTrain n = true → s.chip.on .H_LINKUP n = false → 1 ≤ speed.val → s.chip.widthOk width = true → Does (.linkReturn n speed width) s fun t =>
      t.chip.get .H_LINKUP n = 1 ∧ t.chip.get .H_LOST n = 0 ∧ t.chip.get .DMA_PORT_STATUS_SPEED n = speed.val ∧ t.chip.get .DMA_PORT_STATUS_WIDTH n = width.val ∧
      Keeps s.chip t.chip [(.H_LINKUP, n.val), (.H_LOST, n.val), (.H_LINK_DUE, n.val), (.DMA_PORT_STATUS_SPEED, n.val), (.DMA_PORT_STATUS_WIDTH, n.val)] ∧
      t.arr = s.arr ∧ t.mem = s.mem)

/-- DMA_CH_PI hands descriptors to a channel; an index outside the ring is not taken. A channel reads its next descriptor and issues transactions that do not cross 256 bytes; one that could not be read,
or whose fields are not in order, issues nothing. A descriptor that has ended writes its record and advances CI. An abort stops an idle channel, and lets what is in flight end. -/
def Obligations.DmaChannels : Prop :=
  ∀ (n : Fin 4) (j : Fin 8) (pi : BitVec 16) (who : Init) (b : List Byte) (rest : List (List Byte)) (s : State),
    let ch := n.val * 8 + j.val
    let u := s.seen who
    let may := match who with
      | .host k => k = n ∧ u.chip.hostGone who = false
      | .core k sec => (sec || decide (k.val < 4)) = true
    (may → u.chip.get .H_QUIESCE 0 = 0 →
      (pi.toNat < u.chip.dmaRing ch → exec (.dmaChPi who n j pi) s = .next { u with chip := (u.chip.answer .ok).set .DMA_CH_PI_PI ch pi.toNat }) ∧
      (u.chip.dmaRing ch ≤ pi.toNat → exec (.dmaChPi who n j pi) s = .next { u with chip := (u.chip.answer .ok).set .DMA_CH_STATUS_CFG_REJ ch 1 })) ∧
    (may → u.chip.on .DMA_CH_CTL_EN ch = true →
      (u.chip.dmaItem ch = none → u.chip.get .H_DMA_NEXT ch = u.chip.get .DMA_CH_PI_PI ch → Does (.dmaAbort who n j rest) s fun t =>
        t.chip.get .DMA_CH_CTL_EN ch = 0 ∧ t.chip.get .DMA_CH_CTL_ABORT ch = 0 ∧ Keeps u.chip t.chip [(.DMA_CH_CTL_EN, ch), (.DMA_CH_CTL_ABORT, ch)] ∧
        t.arr = u.arr ∧ t.mem = u.mem) ∧
      (∀ x, u.chip.dmaItem ch = some x → x.issued < x.len → x.stopped = false → Does (.dmaAbort who n j rest) s fun t =>
        t.chip.get .DMA_CH_CTL_ABORT ch = 1 ∧ t.chip.get .DMA_CH_CTL_EN ch = u.chip.get .DMA_CH_CTL_EN ch ∧ t.chip.txns = u.chip.txns ∧
        t.chip.dmaItem ch = some { x with stopped := true, aborted := true } ∧ t.arr = u.arr ∧ t.mem = u.mem)) ∧
    (s.chip.power ≠ pwrWatch → s.chip.on .DMA_CH_CTL_EN ch = true → s.chip.on .DMA_CH_CTL_ABORT ch = false → s.chip.dmaItem ch = none →
      s.chip.get .H_DMA_NEXT ch ≠ s.chip.get .DMA_CH_PI_PI ch →
      let i := s.chip.get .H_DMA_NEXT ch
      let next := (i + 1) % s.chip.dmaRing ch % 2 ^ 16
      (∀ d tag y, dmaDecode b = some d → dmaDescOk d = true → bit d.ctrl 0 = 1 → d.design % 8 + d.length ≤ 8 →
        s.chip.freeTag ch = some tag → s.chip.get .PTN_CFG_BIND (bits d.ctrl 7 4) = n.val →
        s.chip.place (bits d.ctrl 7 4) d.design false = .cistern y → s.chip.cutOff routerHub (y / 0x80000) = false → NatMap.find 0 s.mem.cisErr (y / 8) = 0 →
        Does (.descriptor n j b 1 []) s fun t =>
          t.chip.txns = s.chip.txns ++ [{ tag := tag, gen := s.chip.get .H_TAG_GEN tag, chan := ch, bytes := d.length, status := 0, hostAddr := d.hostAddr, data := Memory.readN s.mem.cistern y d.length, since := s.chip.now, target := y / 0x80000 }] ∧
          t.chip.get .H_DMA_NEXT ch = next ∧ t.chip.dma = s.chip.dma ++ [⟨ch, i, d.hostAddr, d.design, d.length, d.ctrl, d.user, d.length, 0, 0, false, false⟩] ∧
          t.arr = s.arr ∧ t.mem = s.mem) ∧
      ((∀ d, dmaDecode b = some d → dmaDescOk d = false) → ∀ k data, Does (.descriptor n j b k data) s fun t =>
        t.chip.get .H_DMA_NEXT ch = next ∧ t.chip.txns = s.chip.txns ∧ t.arr = s.arr ∧ t.mem = s.mem ∧
        ∃ x, t.chip.dmaItem ch = some x ∧ x.index = i ∧ x.status = (if b.length < 32 then dmaHostErr else dmaDescErr) ∧ x.stopped = true)) ∧
    (∀ x, s.chip.dmaItem ch = some x → s.chip.dmaBusy ch = false → x.len ≤ x.issued → x.status = 0 → x.aborted = false → bit x.ctrl 1 = 0 →
      s.chip.on .DMA_CH_CTL_ABORT ch = false → Does (.descriptorComplete n j rest) s fun t =>
        t.chip.host = ⟨n, s.chip.get .DMA_CH_CPL_BASE_ADDR ch * 64 + 16 * x.index,
          toBytes 8 x.user ++ toBytes 4 x.done ++ toBytes 2 x.index ++ [0] ++ toBytes 1 (1 - s.chip.get .H_DMA_PASS ch)⟩ :: s.chip.host ∧
        t.chip.get .DMA_CH_STATUS_CI ch = (x.index + 1) % s.chip.dmaRing ch % 2 ^ 16 ∧ t.chip.dmaItem ch = none ∧
        KeepsAll s.chip t.chip [(.DMA_CH_STATUS_CI, ch), (.H_DMA_PASS, ch)] ∧ t.arr = s.arr ∧ t.mem = s.mem)

/-! The service complex (R321 to R349) and mailboxes (R350 to R355) -/

/-- A post with space in the store is stored; after it no enabled thread waits that has all its tokens. With none there it goes to the sump, in order; a post without a place waits behind the others, and its core's write stays in flight. The sump
refills the store in order. A post that has waited its limit is dropped and counted. A take makes the slotted thread RUNNING and gives its tokens; with no thread in the slot, or one running, it says so.
SCH_DONE ends the running thread, and of any other sets SEQ_ERR. A core's command takes effect in the state to which its execution has led, `u`. -/
def Obligations.PostsTakesAndThreads : Prop :=
  ∀ (k : Fin 8) (sec : Bool) (th : BitVec 10) (ix : BitVec 3) (s : State),
    let u := s.seen (.core k sec)
    (u.chip.posts = [] → u.chip.sump = [] → u.chip.tokens.length < 4096 → Does (.schPost k sec th ix) s fun t =>
      u.chip.tokens ++ [⟨th.toNat, ix.toNat, u.chip.get .SCH_POST_VAL_VALUE k, k, 0⟩] <+: t.chip.tokens ∧
      (u.chip.icQuiet → t.chip.tokens = u.chip.tokens ++ [⟨th.toNat, ix.toNat, u.chip.get .SCH_POST_VAL_VALUE k, k, 0⟩] ∧ t.chip.posts = [] ∧ t.chip.sump = []) ∧
      t.chip.get .SCH_POST_RES_OUTCOME k = 1 ∧ t.chip.get .SCH_POST_RES_COUNT k = (u.chip.get .SCH_POST_RES_COUNT k + 1) % 2 ^ 16 ∧ t.chip.resp.status = .ok ∧
      (∀ j, u.chip.get .SCH_THR_CFG_EN j ≠ 0 → t.chip.get .SCH_THR_CFG_STATE j = thrWait → t.chip.thrFed j = false) ∧
      Keeps u.chip t.chip [(.SCH_POST_RES_COUNT, k.val)] ∧ t.arr = u.arr ∧ t.mem = u.mem) ∧
    (u.chip.posts = [] → u.chip.postPlace = 2 → Does (.schPost k sec th ix) s fun t =>
      u.chip.sump ++ [⟨th.toNat, ix.toNat, u.chip.get .SCH_POST_VAL_VALUE k, k, 0⟩] <+: t.chip.sump ∧ t.chip.tokens = u.chip.tokens ∧
      t.chip.get .SCH_POST_RES_OUTCOME k = 2 ∧ t.chip.resp.status = .ok ∧ Keeps u.chip t.chip [(.SCH_POST_RES_COUNT, k.val)] ∧ t.arr = u.arr ∧ t.mem = u.mem) ∧
    (u.chip.posts ≠ [] ∨ u.chip.postPlace = 0 → Does (.schPost k sec th ix) s fun t =>
      u.chip.posts ++ [⟨th.toNat, ix.toNat, u.chip.get .SCH_POST_VAL_VALUE k, k, u.chip.now⟩] <+: t.chip.posts ∧ t.chip.tokens = u.chip.tokens ∧ t.chip.sump = u.chip.sump ∧
      (∃ x ∈ t.chip.calls, x.kind = .post k ∧ x.since = u.chip.now ∧ x.live = true) ∧ t.chip.resp = u.chip.resp ∧
      Keeps u.chip t.chip [(.SCH_POST_RES_COUNT, k.val)] ∧ t.arr = u.arr ∧ t.mem = u.mem) ∧
    (s.chip.posts = [] → Does .sumpRefill s fun t =>
      (s.chip.icQuiet → t.chip.tokens = s.chip.tokens ++ s.chip.sump.take (4096 - s.chip.tokens.length) ∧ t.chip.sump = s.chip.sump.drop (4096 - s.chip.tokens.length)) ∧
      s.chip.tokens ++ s.chip.sump.take (4096 - s.chip.tokens.length) <+: t.chip.tokens ∧ Keeps s.chip t.chip [] ∧ t.arr = s.arr ∧ t.mem = s.mem) ∧
    (∀ x xs, s.chip.posts = x :: xs → x.since + s.chip.get .SCH_CTL_BPWAIT 0 * Chip.us ≤ s.chip.now → Does .postDrop s fun t =>
      t.chip.get .SCH_DROP_CNT_COUNT 0 = satAdd (2 ^ 32 - 1) (s.chip.get .SCH_DROP_CNT_COUNT 0) 1 ∧ (x.src < 8 → t.chip.get .SCH_POST_RES_OUTCOME x.src = 3) ∧
      (s.chip.icQuiet → t.chip.posts = xs ∧ t.chip.tokens = s.chip.tokens) ∧ t.arr = s.arr ∧ t.mem = s.mem) ∧
    (u.chip.get .SCH_RUNNING k ≠ 0 → Does (.schTake k sec) s fun t => t.chip.resp = ⟨.ok, 2 ^ 30, []⟩ ∧ t.chip.get .SCH_RUNNING k = u.chip.get .SCH_RUNNING k ∧
      t.arr = u.arr ∧ t.mem = u.mem) ∧
    (u.chip.get .SCH_RUNNING k = 0 → u.chip.posts = [] → u.chip.sump = [] →
      (u.chip.get .SCH_SLOT k = 0 → Does (.schTake k sec) s fun t =>
        t.chip.resp = ⟨.ok, 2 ^ 31, []⟩ ∧ (u.chip.icQuiet → t.chip.tokens = u.chip.tokens) ∧ t.chip.get .SCH_RUNNING k = 0 ∧ t.arr = u.arr ∧ t.mem = u.mem) ∧
      (∀ j, u.chip.get .SCH_SLOT k = j + 1 → (∀ i, i < 8 → u.chip.get .SCH_SLOT i = j + 1 → i = k.val) → Does (.schTake k sec) s fun t =>
        t.chip.resp = ⟨.ok, u.chip.get .SCH_THR_CFG_PRIO j * 2 ^ 10 + j, []⟩ ∧ t.chip.get .SCH_RUNNING k = j + 1 ∧ t.chip.get .SCH_THR_CFG_STATE j = thrRunning ∧
        (∀ i, i < 8 → bitB (u.chip.get .SCH_THR_CFG_WAIT j) i = true → ∀ x, u.chip.tokenOf j i = some x → t.chip.get .SCH_TOKEN_VALUE (k * 8 + i) = x.value % 2 ^ 64) ∧
        (∀ i, i < 8 → bitB (u.chip.get .SCH_THR_CFG_WAIT j) i = false → t.chip.get .SCH_TOKSRC_SRC (k * 8 + i) = 15 ∧ t.chip.get .SCH_TOKEN_VALUE (k * 8 + i) = 0) ∧
        t.arr = u.arr ∧ t.mem = u.mem)) ∧
    (u.chip.get .SCH_RUNNING k = th.toNat + 1 → Does (.schDone k sec th) s fun t =>
      t.chip.get .SCH_RUNNING k = 0 ∧ t.chip.get .SCH_THR_CFG_STATE th.toNat ≠ thrRunning ∧ t.chip.get .SCH_STATUS_SEQ_ERR 0 = u.chip.get .SCH_STATUS_SEQ_ERR 0 ∧
      t.chip.tokens = u.chip.tokens ∧ t.arr = u.arr ∧ t.mem = u.mem) ∧
    (u.chip.get .SCH_RUNNING k ≠ th.toNat + 1 → exec (.schDone k sec th) s = .next { u with chip := (u.chip.set .SCH_STATUS_SEQ_ERR 0 1).answer .ok })

/-- An event, and a 1 written to IC_PEND_SET, set the pending bit of an interrupt-mode source; an eligible token-mode source posts its token and is active instead. A claim by a target's own core gives the
source presented to it, now active and not pending; a completion of it ends that, and of an inactive source is counted. Another core's claim is not performed. A core's command takes effect in the state to
which its execution has led, `u`. -/
def Obligations.InterruptSources : Prop :=
  ∀ (src : BitVec 10) (k : Fin 8) (sec : Bool) (w : Fin 32) (mask : Word32) (tg : Fin 16) (s : State),
    let u := s.seen (.core k sec)
    (src ≠ 0 → s.chip.sourceLive src.toNat = true →
      (s.chip.get .IC_SRC_CFG_MODE src.toNat = 0 → Does (.sourceEvent src) s fun t =>
        t.chip.get .IC_PEND_BIT src.toNat = 1 ∧ Keeps s.chip t.chip [] ∧ t.arr = s.arr ∧ t.mem = s.mem) ∧
      (s.chip.get .IC_SRC_CFG_MODE src.toNat = 1 → s.chip.on .IC_EN_BIT src.toNat = true → s.chip.on .IC_ACTIVE_BIT src.toNat = false →
        s.chip.on .IC_SRC_CFG_PRIO src.toNat = true → s.chip.instances .IC_PEND_BIT = [] → s.chip.posts = [] → s.chip.sump = [] → s.chip.tokens.length < 4096 →
        Does (.sourceEvent src) s fun t =>
          t.chip.tokens = s.chip.tokens ++ [⟨s.chip.get .IC_SRC_CFG_TARGETS src.toNat % 1024, 7, src.toNat, 9, 0⟩] ∧
          t.chip.get .IC_ACTIVE_BIT src.toNat = 1 ∧ t.chip.get .IC_PEND_BIT src.toNat = 0 ∧ t.arr = s.arr ∧ t.mem = s.mem)) ∧
    (Does (.icPendSet k sec w mask) s fun t =>
      (∀ i, i < 32 → bitB mask.toNat i = true → 32 * w.val + i ≠ 0 → u.chip.get .IC_SRC_CFG_MODE (32 * w.val + i) = 0 → t.chip.get .IC_PEND_BIT (32 * w.val + i) = 1) ∧
      Keeps u.chip t.chip [] ∧ t.arr = u.arr ∧ t.mem = u.mem) ∧
    (ownsTarget k sec tg = true →
      (u.chip.icTop tg ≠ 0 → Does (.icClaim k sec tg) s fun t =>
        t.chip.resp = ⟨.ok, u.chip.icTop tg, []⟩ ∧ t.chip.get .IC_ACTIVE_BIT (u.chip.icTop tg) = 1 ∧
        (u.chip.icTop tg < 252 ∨ 254 < u.chip.icTop tg → t.chip.get .IC_PEND_BIT (u.chip.icTop tg) = 0) ∧
        t.chip.get .IC_CLAIMED_BY (u.chip.icTop tg) = tg.val + 1 ∧ t.arr = u.arr ∧ t.mem = u.mem) ∧
      (u.chip.icTop tg = 0 → exec (.icClaim k sec tg) s = .next { u with chip := u.chip.answer .ok 0 }) ∧
      (u.chip.on .IC_ACTIVE_BIT src.toNat = true → u.chip.get .IC_CLAIMED_BY src.toNat = tg.val + 1 → u.chip.get .IC_SRC_CFG_MODE src.toNat = 0 → Does (.icComplete k sec tg src) s fun t =>
        t.chip.get .IC_ACTIVE_BIT src.toNat = 0 ∧ t.chip.get .IC_CLAIMED_BY src.toNat = 0 ∧ t.chip.get .IC_ERR_COUNT 0 = u.chip.get .IC_ERR_COUNT 0 ∧
        t.arr = u.arr ∧ t.mem = u.mem) ∧
      (u.chip.on .IC_ACTIVE_BIT src.toNat = false → exec (.icComplete k sec tg src) s = .next { u with chip := (u.chip.count .IC_ERR_COUNT 0 1).answer .ok })) ∧
    (ownsTarget k sec tg = false → exec (.icClaim k sec tg) s = .next { u with chip := u.chip.coreDenied k })

/-- A core with rights over another invalidates its cache, and resets it: it runs again, awake, in non-secure state, and its latched halves are gone. A write of TRC_SW forms a SOFTWARE packet, unless its
source is off or its secure state may not be traced. A core enters a low-power state with its packets flushed, or, where the flush does not complete, with them discarded.
What is seen of an initiator (`seen`) is nothing of a host, nor of a core that is not traced and stays in its state; of a traced core it is ADDR packets (their number and contents are the model's free
values: log entry 178), then SEC_ENTER where it has entered secure state; and only SEC_EXIT where it leaves a secure state that may not be traced. -/
def Obligations.CoresAndTheirTrace : Prop :=
  ∀ (k tg : Fin 8) (sec : Bool) (v : Word64) (st : Fin 4) (s : State),
    let u := s.seen (.core k sec)
    (∀ n, s.seen (.host n) = s) ∧
    (s.chip.get .H_LP k ≠ 1 →
      (s.chip.trcEnabled k = false → s.chip.on .H_SEC k = sec → u = s) ∧
      (s.chip.trcEnabled k = true → s.chip.on .TRC_CTL_STALL 0 = false → s.chip.trc.length ≤ 250 → s.chip.get .H_TRC_LOSTN k = 0 →
        (s.chip.on .H_SEC k = false → sec = true → u.chip.on .H_SEC k = true ∧ u.arr = s.arr ∧ u.mem = s.mem ∧
          ∃ runs x, u.chip.trc = s.chip.trc ++ runs ++ [x] ∧ runs.length ≤ 3 ∧ (∀ r ∈ runs, r.typ = 1 ∧ r.src = k.val) ∧ x.typ = 6 ∧ x.src = k.val) ∧
        (s.chip.on .H_SEC k = true → s.chip.secAllowed = false → sec = false → u.chip.on .H_SEC k = false ∧ u.arr = s.arr ∧ u.mem = s.mem ∧
          ∃ x, u.chip.trc = s.chip.trc ++ [x] ∧ x.typ = 7 ∧ x.src = k.val))) ∧
    (u.chip.coreMay k sec ⟨.cc, tg, 0⟩ = true →
      (Does (.icinv k sec tg) s fun t => t.chip.get .SVC_CTL_ICINV tg = 1 ∧ KeepsAll u.chip t.chip [(.SVC_CTL_ICINV, tg.val)] ∧ t.arr = u.arr ∧ t.mem = u.mem) ∧
      (Does (.coreReset k sec tg) s fun t => t.chip.runs tg = 1 ∧ t.chip.get .H_LP tg = 0 ∧ t.chip.get .H_LP_LOST tg = 0 ∧ t.chip.get .H_SEC tg = 0 ∧
        (∀ e ∈ t.chip.latch ++ t.chip.held, e.1 % 16 ≠ 4 + tg.val) ∧ t.arr = u.arr ∧ t.mem = u.mem)) ∧
    ((sec || k.val < 4) = true →
      (u.chip.trcEnabled (16 + k) = true → u.chip.secHidden (16 + k) = false → u.chip.trc.length < 256 → u.chip.get .H_TRC_LOSTN (16 + k) = 0 →
        Does (.trcSw k sec v) s fun t => t.chip.trc = u.chip.trc ++ [⟨v.toNat, u.chip.stamp, 16 + k, 10, u.chip.get .H_TRC_SEQ (16 + k)⟩] ∧
          Keeps u.chip t.chip [(.H_TRC_SEQ, 16 + k.val)] ∧ t.arr = u.arr ∧ t.mem = u.mem) ∧
      (u.chip.trcEnabled (16 + k) = false ∨ u.chip.secHidden (16 + k) = true → Does (.trcSw k sec v) s fun t =>
        t.chip.trc = u.chip.trc ∧ Keeps u.chip t.chip [] ∧ t.arr = u.arr ∧ t.mem = u.mem)) ∧
    (s.chip.mayRest k st = true →
      (s.chip.on .TRC_CTL_EN 0 = true → Does (.traceFlush k st) s fun t =>
        t.chip.get .H_LP k = st.val + 1 ∧ t.chip.get .H_LP_LOST k = 0 ∧ (∀ x ∈ t.chip.trc, packetOf k x = true → x.typ = 3 ∨ x.typ = 4) ∧ t.arr = s.arr ∧
        t.mem.cistern = s.mem.cistern ∧ t.mem.deep = s.mem.deep ∧ t.mem.vault = s.mem.vault ∧ t.mem.rim = s.mem.rim) ∧
      (s.chip.on .TRC_CTL_EN 0 = true → s.chip.trc = [] → Does (.traceFlush k st) s fun t => t.mem = s.mem) ∧
      (Does (.flushIncomplete k st) s fun t =>
        t.chip.get .H_LP k = st.val + 1 ∧ t.chip.get .H_LP_LOST k = 1 ∧ (∀ x ∈ t.chip.trc, packetOf k x = true → x.typ = 3 ∨ x.typ = 4) ∧
        (∀ x ∈ s.chip.trc, packetOf k x = false → x ∈ t.chip.trc) ∧ t.arr = s.arr ∧ t.mem = s.mem)) ∧
    (s.chip.mayRest k st = false → exec (.traceFlush k st) s = .next s ∧ exec (.flushIncomplete k st) s = .next s)

/-- A doorbell by the sender's end commits the staged words. A read of word 0 by the receiver's end latches the message; its read of word 15 takes the message, unless another has been committed since:
the channel is then still full. A read of word 15 without a snapshot takes nothing. -/
def Obligations.MailboxMessages : Prop :=
  ∀ (who : Init) (n : Fin 64) (s : State),
    let u := s.seen who
    (u.chip.mbxEndOf who n = some .sender → u.chip.hostGone who = false → Does (.doorbell who n) s fun t =>
      (∀ w, w < 16 → t.chip.get .MBX_MSG_DATA (n * 16 + w) = u.chip.get .H_MBX_STAGE (n * 16 + w) % 2 ^ 32) ∧
      t.chip.get .MBX_STATUS_SEQ n = (u.chip.get .MBX_STATUS_SEQ n + 1) % 2 ^ 16 ∧
      (u.chip.get .MBX_STATUS_FULL n = 0 → t.chip.get .MBX_STATUS_FULL n = 1 ∧ t.chip.get .MBX_STATUS_COLLISION n = u.chip.get .MBX_STATUS_COLLISION n) ∧
      (u.chip.get .MBX_STATUS_FULL n ≠ 0 → t.chip.get .MBX_STATUS_FULL n = u.chip.get .MBX_STATUS_FULL n ∧ t.chip.get .MBX_STATUS_COLLISION n = 1) ∧
      t.chip.get .MBX_STATUS_SRESET n = 0 ∧ t.chip.get .MBX_STATUS_RRESET n = 0 ∧ t.arr = u.arr ∧ t.mem = u.mem) ∧
    (u.chip.mbxEndOf who n = some .receiver →
      (Does (.snapshot who n) s fun t =>
        t.chip.resp = ⟨.ok, u.chip.get .MBX_MSG_DATA (n * 16) % 2 ^ 32, []⟩ ∧ t.chip.get .MBX_STATUS_SNAP n = 1 ∧
        (∀ w, w < 16 → t.chip.get .H_MBX_SNAP (n * 16 + w) = u.chip.get .MBX_MSG_DATA (n * 16 + w) % 2 ^ 32) ∧
        t.chip.get .H_MBX_SNAPSEQ n = u.chip.get .MBX_STATUS_SEQ n % 2 ^ 16 ∧ t.chip.get .MBX_STATUS_FULL n = u.chip.get .MBX_STATUS_FULL n ∧ t.arr = u.arr ∧ t.mem = u.mem) ∧
      (u.chip.get .MBX_STATUS_SNAP n ≠ 0 → Does (.take who n) s fun t =>
        t.chip.resp = ⟨.ok, u.chip.get .H_MBX_SNAP (n * 16 + 15) % 2 ^ 32, []⟩ ∧ t.chip.get .MBX_STATUS_SNAP n = 0 ∧
        t.chip.get .MBX_STATUS_FULL n = (if u.chip.get .MBX_STATUS_SEQ n = u.chip.get .H_MBX_SNAPSEQ n then 0 else u.chip.get .MBX_STATUS_FULL n) ∧
        Keeps u.chip t.chip [(.MBX_STATUS_SNAP, n.val), (.MBX_STATUS_FULL, n.val)] ∧ t.arr = u.arr ∧ t.mem = u.mem) ∧
      (u.chip.get .MBX_STATUS_SNAP n = 0 → exec (.take who n) s = .next { u with chip := u.chip.answer .ok (u.chip.get .MBX_MSG_DATA (n * 16 + 15) % 2 ^ 32) })) ∧
    (u.chip.mbxEndOf who n = none → exec (.take who n) s = .next { u with chip := u.chip.denied who false (0x100000 + n.val * 0x100 + 0x3C) }) ∧
    (u.chip.mbxEndOf who n = none → exec (.doorbell who n) s = .next { u with chip := u.chip.denied who true (0x100000 + n.val * 0x100 + 0x40) })

/-! Uteus (R356 to R362) -/

/-- HELLO negotiates the highest version that both sides have and is answered with it, or with NO_COMMON_VERSION; it brings the port's host back. FW_STATUS is answered with the boot report, and before
a HELLO with NOT_NEGOTIATED. Messages that begin a request wait for the rest of it; a message with a reserved bit set, or out of order, is answered BAD_LENGTH or BAD_FRAGMENT.
KEEPALIVE is taken and not answered; without a message for 2 KA_MS the negotiation ends and the port is lost. An event goes to the port's event channel. -/
def Obligations.UteusSessions : Prop :=
  ∀ (n : Fin 4) (j : Fin 8) (id lo hi ka code : BitVec 16) (heads : List UtHead) (data : List Byte) (s : State),
    let v := min hi.toNat fwMax
    (UtFree s.chip n j → UtWhole s.chip n j utHello id.toNat heads →
      (max lo.toNat fwMin ≤ v → ka = 0 ∨ (100 ≤ ka.toNat ∧ ka.toNat ≤ 60000) → Does (.hello n j ⟨id, heads⟩ lo hi ka) s fun t =>
        t.chip.get .H_UT_VER n = v ∧ t.chip.get .H_UT_KA n = ka.toNat ∧ t.chip.get .H_UT_LAST n = s.chip.now + 1 ∧
        t.chip.on .H_LOST n = (s.chip.on .H_LOST n && !s.chip.on .H_LINKUP n) ∧ (∀ x ∈ t.chip.utAsm, x.port ≠ n.val) ∧
        UtAnswered s.chip t.chip n j 0 id.toNat utHello utOk (toBytes 2 v ++ toBytes 2 fwMin ++ toBytes 2 fwMax ++ toBytes 2 ka.toNat ++ s.chip.bootReport) ∧
        t.arr = s.arr ∧ t.mem = s.mem) ∧
      (v < max lo.toNat fwMin → Does (.hello n j ⟨id, heads⟩ lo hi ka) s fun t =>
        t.chip.get .H_UT_VER n = s.chip.get .H_UT_VER n ∧
        UtAnswered s.chip t.chip n j 0 id.toNat utHello utNoCommonVersion (toBytes 2 0 ++ toBytes 2 fwMin ++ toBytes 2 fwMax) ∧ t.arr = s.arr ∧ t.mem = s.mem)) ∧
    (UtFree s.chip n j → UtWhole s.chip n j utFwStatus id.toNat heads →
      (utSince utFwStatus ≤ s.chip.get .H_UT_VER n → Does (.fwStatus n j ⟨id, heads⟩) s fun t =>
        UtAnswered s.chip t.chip n j (s.chip.get .H_UT_VER n) id.toNat utFwStatus utOk s.chip.bootReport ∧ t.arr = s.arr ∧ t.mem = s.mem) ∧
      (s.chip.get .H_UT_VER n = 0 → Does (.fwStatus n j ⟨id, heads⟩) s fun t =>
        UtAnswered s.chip t.chip n j 0 id.toNat utFwStatus utNotNegotiated [] ∧ t.arr = s.arr ∧ t.mem = s.mem)) ∧
    (UtFree s.chip n j → s.chip.utAsm = [] → ∀ x xs, heads = x :: xs →
      (utReserved x = true → Does (.fwStatus n j ⟨id, heads⟩) s fun t =>
        UtAnswered s.chip t.chip n j (s.chip.get .H_UT_VER n) id.toNat utFwStatus utBadLength [] ∧ t.arr = s.arr ∧ t.mem = s.mem) ∧
      (utReserved x = false → x.frag ≠ 0 → Does (.fwStatus n j ⟨id, heads⟩) s fun t =>
        UtAnswered s.chip t.chip n j (s.chip.get .H_UT_VER n) id.toNat utFwStatus utBadFragment [] ∧ t.arr = s.arr ∧ t.mem = s.mem) ∧
      (utReserved x = false → x.frag = 0 → x.flags = 1 → xs = [] → Does (.fwStatus n j ⟨id, heads⟩) s fun t =>
        t.chip.utAsm = [⟨n, j, utFwStatus, id.toNat, 1⟩] ∧ t.chip.utWait = [] ∧ t.chip.fwOut = [] ∧ t.chip.get .MBX_STATUS_FULL (s.chip.utChannel n j) = 0 ∧
        t.chip.get .MBX_STATUS_FULL (s.chip.utChannel n j + 1) = 0 ∧ t.arr = s.arr ∧ t.mem = s.mem)) ∧
    (s.chip.portExists n = true → s.chip.utWait = [] → s.chip.fwOut = [] → s.chip.get .H_FW_DOWN 0 = 0 →
      (s.chip.get .MBX_STATUS_COLLISION (s.chip.utChannel n (s.chip.utPairs - 1)) = 0 → Does (.keepalive n) s fun t =>
        t.chip.get .H_UT_LAST n = s.chip.now + 1 ∧ t.chip.get .MBX_STATUS_FULL (s.chip.utChannel n (s.chip.utPairs - 1)) = 0 ∧ t.chip.fwOut = [] ∧
        Keeps s.chip t.chip [(.H_UT_LAST, n.val), (.MBX_STATUS_FULL, s.chip.utChannel n (s.chip.utPairs - 1))] ∧ t.arr = s.arr ∧ t.mem = s.mem) ∧
      (s.chip.get .MBX_STATUS_FULL (s.chip.eventChannel n) = 0 → data.length ≤ 50 → Does (.event n code data) s fun t =>
        UtPosted t.chip (s.chip.eventChannel n) (s.chip.get .H_UT_VER n) utEvent 0 0 0 (toBytes 2 code.toNat ++ data) ∧ t.arr = s.arr ∧ t.mem = s.mem)) ∧
    (s.chip.get .H_UT_VER n ≠ 0 → s.chip.get .H_UT_KA n ≠ 0 → s.chip.get .H_UT_LAST n - 1 + 2 * s.chip.get .H_UT_KA n * 1000 * Chip.us ≤ s.chip.now →
      Does (.keepaliveLapse n) s fun t => t.chip.get .H_UT_VER n = 0 ∧ t.chip.on .H_LOST n = true)

/-- What the firmware does for the requests of a negotiated port. A request that names a partition of another port is answered DENIED and reaches neither the array nor the memories. Of its own:
PART_BIND and DM_MAP write their registers, SYMBOL_QUERY of an empty partition gives an empty payload, PART_CREATE leaves an active partition bound to the port, IMAGE_ABORT ends the load, and the
commands of PART_RELEASE, IMAGE_LOAD, MARCH_TEST and STEP_RATE are pending, their responses waiting for the results. -/
def Obligations.UteusRequests : Prop :=
  ∀ (n : Fin 4) (j : Fin 8) (id : BitVec 16) (p : Fin 16) (cfg v : Word32) (src : Word64) (bind alt : BitVec 3) (loss : BitVec 2) (fb econ : Bool) (first : BitVec 8)
    (name : List Byte) (heads : List UtHead) (s : State), UtFree s.chip n j → 0x0103 ≤ s.chip.get .H_UT_VER n → s.chip.power = pwrOn → s.chip.get .H_QUIESCE 0 = 0 →
    let ver := s.chip.get .H_UT_VER n
    let whole := fun (typ : Nat) => UtWhole s.chip n j typ id.toNat heads
    let same := fun (t : State) => t.arr = s.arr ∧ t.mem = s.mem
    let named := s.chip.get .PTN_CFG_BIND p = n.val
    let bindV := s.chip.get .PTN_CFG_FIRST p + s.chip.get .PTN_CFG_COUNT p * 2 ^ 8 + bind.toNat * 2 ^ 16 + alt.toNat * 2 ^ 20 + loss.toNat * 2 ^ 24 + b2n fb * 2 ^ 26
    (¬named →
      (whole utPartRelease → Does (.partRelease n j ⟨id, heads⟩ p) s fun t => UtAnswered s.chip t.chip n j ver id.toNat utPartRelease utDenied [] ∧ same t) ∧
      (whole utPartBind → Does (.partBind n j ⟨id, heads⟩ p bind loss alt fb) s fun t => UtAnswered s.chip t.chip n j ver id.toNat utPartBind utDenied [] ∧ same t ∧
        t.chip.get .PTN_CFG_BIND p = s.chip.get .PTN_CFG_BIND p) ∧
      (whole utImageLoad → Does (.imageLoad n j ⟨id, heads⟩ p v src) s fun t => UtAnswered s.chip t.chip n j ver id.toNat utImageLoad utDenied [] ∧ same t)) ∧
    (named → whole utPartBind → s.chip.get .PTN_CFG_FIRST p < 64 → s.chip.get .PTN_CFG_COUNT p < 128 → s.chip.ptnCfgOk p bindV = true → Does (.partBind n j ⟨id, heads⟩ p bind loss alt fb) s fun t =>
      t.chip.get .PTN_CFG_BIND p = bind.toNat ∧ t.chip.get .PTN_CFG_ALT p = alt.toNat ∧ t.chip.get .PTN_CFG_LOSS p = loss.toNat ∧ t.chip.get .PTN_CFG_FALLBACK p = b2n fb ∧
      t.chip.get .PTN_CFG_FIRST p = s.chip.get .PTN_CFG_FIRST p ∧ (∃ b, UtAnswered s.chip t.chip n j ver id.toNat utPartBind utOk b) ∧ same t) ∧
    (named → whole utDmMap → s.chip.pumpIdle p = true → first.toNat < 192 → bitB v.toNat 31 = true → s.chip.dmMapFree (p * 192 + first.toNat) (bits v.toNat 10 8) (bits v.toNat 4 0) = true →
      bits v.toNat 10 8 / 2 < s.chip.dies → Does (.dmMap n j ⟨id, heads⟩ p first [v]) s fun t =>
        t.chip.get .DM_MAP_VALID (p * 192 + first.toNat) = 1 ∧ t.chip.get .DM_MAP_STACK (p * 192 + first.toNat) = bits v.toNat 10 8 ∧
        t.chip.get .DM_MAP_GRANULE (p * 192 + first.toNat) = bits v.toNat 4 0 ∧ (∃ b, UtAnswered s.chip t.chip n j ver id.toNat utDmMap utOk b) ∧ same t) ∧
    (named → whole utSymbolQuery → s.chip.pumpState p = psEmpty → Does (.symbolQuery n j ⟨id, heads⟩ p name) s fun t =>
      UtAnswered s.chip t.chip n j ver id.toNat utSymbolQuery utOk [] ∧ same t) ∧
    (whole utPartCreate → s.chip.ptnCfgOk p (utCfgValue n cfg.toNat) = true → s.chip.on .PTN_CFG_ACTIVE p = false → s.chip.cmdPending .ptn p = false → 0 < bits cfg.toNat 14 8 →
      bits cfg.toNat 5 0 + bits cfg.toNat 14 8 ≤ s.chip.bands → (∀ q, q < 16 → s.chip.on .PTN_CFG_ACTIVE q = true →
        s.chip.get .PTN_CFG_FIRST q + s.chip.get .PTN_CFG_COUNT q ≤ bits cfg.toNat 5 0 ∨ bits cfg.toNat 5 0 + bits cfg.toNat 14 8 ≤ s.chip.get .PTN_CFG_FIRST q) →
      Does (.partCreate n j ⟨id, heads⟩ p cfg) s fun t =>
        t.chip.get .PTN_CFG_ACTIVE p = 1 ∧ t.chip.get .PTN_CFG_BIND p = n.val ∧ t.chip.get .PTN_CFG_FIRST p = bits cfg.toNat 5 0 ∧
        t.chip.get .PTN_CFG_COUNT p = bits cfg.toNat 14 8 ∧ (∃ b, UtAnswered s.chip t.chip n j ver id.toNat utPartCreate utOk b) ∧ same t) ∧
    (named → whole utPartRelease → s.chip.cmdPending .ptn p = false → s.chip.on .PTN_CFG_ACTIVE p = true → s.chip.pumpState p = psEmpty ∨ s.chip.pumpState p = psHalt →
      Does (.partRelease n j ⟨id, heads⟩ p) s fun t =>
        UtAwaits s.chip t.chip n j id.toNat utPartRelease p ∧ t.chip.cmdPending .ptn p = true ∧ t.chip.get .CQ_CMD (CmdReg.ptn.idx p) = 2 ∧ same t) ∧
    (named → whole utImageLoad → s.chip.loading p = false → s.chip.on .PTN_CFG_ACTIVE p = true → s.chip.pumpState p = psEmpty → bits v.toNat 26 24 ≤ 4 → Does (.imageLoad n j ⟨id, heads⟩ p v src) s fun t =>
      UtAwaits s.chip t.chip n j id.toNat utImageLoad p ∧ t.chip.loading p = true ∧ t.chip.pumpState p = psLoading ∧ t.chip.get .LDR_SRC_ADDR p = src.toNat ∧ same t) ∧
    (named → whole utImageAbort → s.chip.loading p = true → s.chip.get .LDR_STATUS_STEP p < 14 → s.chip.rimFed p = false → Does (.imageAbort n j ⟨id, heads⟩ p) s fun t =>
      t.chip.loading p = false ∧ t.chip.pumpState p = psEmpty ∧ t.chip.get .LDR_RESULT_OUTCOME p = aborted ∧ (∃ b, UtAnswered s.chip t.chip n j ver id.toNat utImageAbort utOk b) ∧
      t.arr = clearStores p s.chip s.arr ∧ t.mem.cistern = s.mem.cistern ∧ t.mem.deep = s.mem.deep ∧ t.mem.sram = s.mem.sram ∧ t.mem.vault = s.mem.vault ∧ t.mem.rim = s.mem.rim) ∧
    (whole utMarchTest → s.chip.cmdPending .mt 0 = false → bits v.toNat 31 28 = 2 → s.chip.mtUnitOk (bits v.toNat 27 26) (bits v.toNat 5 0) = true →
      s.chip.mtPreservingOk (bits v.toNat 27 26) (bits v.toNat 5 0) = true → Does (.marchTest n j ⟨id, heads⟩ v) s fun t =>
        UtAwaits s.chip t.chip n j id.toNat utMarchTest 0 ∧ t.chip.cmdPending .mt 0 = true ∧ t.chip.get .H_MT_UNIT 0 = bits v.toNat 5 0 ∧ same t) ∧
    (whole utStepRate → s.chip.cmdPending .pmp p = false → s.chip.on .PMP_RATE_CHANGING 0 = false → (∀ q, q < 16 → s.chip.pumpState q = psEmpty ∨ s.chip.pumpState q = psHalt) →
      (s.chip.otherHost n = false → Does (.stepRate n j ⟨id, heads⟩ p econ) s fun t =>
        UtAwaits s.chip t.chip n j id.toNat utStepRate p ∧ t.chip.cmdPending .pmp p = true ∧ t.chip.get .PMP_RATE_CHANGING 0 = 1 ∧ t.chip.get .H_RATE_NEW 0 = b2n econ ∧ same t) ∧
      (s.chip.otherHost n = true → Does (.stepRate n j ⟨id, heads⟩ p econ) s fun t => UtAnswered s.chip t.chip n j ver id.toNat utStepRate utDenied [] ∧
        t.chip.get .PMP_RATE_CHANGING 0 = s.chip.get .PMP_RATE_CHANGING 0 ∧ same t))

/-! The timekeeper (R363 to R373) -/

/-- A tick adds the increment to a domain and then the step that waits; a step within the threshold waits, a larger one is refused unless it overrides. An accepted edge of PPS_IN captures both domains after
their increment and performs an armed alignment before a step; another is counted. A switch request waits for the edge, and lapses. A compare fires, PPS_OUT rises and a domain wraps in the tick that carries the domain there. A rim event is stamped, or shown as
lost. -/
def Obligations.TimekeeperEvents : Prop :=
  ∀ (k : Fin 8) (sec : Bool) (d i : Fin 2) (e : Fin 16) (delta : Word32) (override long : Bool) (s : State),
    let u := s.seen (.core k sec)
    let next := fun (d : Nat) => s.chip.tkNext d / 2 ^ 32 % 2 ^ 32
    let cmpDom := s.chip.get .TK_CMP_DOM i
    let ppsDom := s.chip.get .TK_PPS_OUT_DOM 0
    (s.chip.tickNear = true → s.chip.tkNext d / 2 ^ 64 = (s.chip.get .TK_NOW_WRAPS d + 1) % 2 ^ 32 → Does (.wrap d) s fun t =>
      t.chip.get .TK_NOW_WRAPS d = (s.chip.get .TK_NOW_WRAPS d + 1) % 2 ^ 32 ∧ t.chip.get .TK_NOW_NS d = next d ∧ t.chip.get .H_TK_AT 0 = s.chip.get .H_TK_AT 0 + 1 ∧
      t.arr = s.arr ∧ t.mem = s.mem) ∧
    ((sec || k.val < 4) = true →
      ((magnitude delta.toNat ≤ u.chip.get .TK_JUMP_THR_THR d ∧ u.chip.get .TK_JUMP_THR_THR d ≠ 0) ∨ override = true → Does (.tkStep k sec d delta override) s fun t =>
        t.chip.get .H_STEP_PEND d = 1 ∧ t.chip.get .H_STEP_DELTA d = delta.toNat ∧ KeepsAll u.chip t.chip [(.H_STEP_PEND, d.val), (.H_STEP_DELTA, d.val)] ∧
        t.arr = u.arr ∧ t.mem = u.mem) ∧
      (u.chip.get .TK_JUMP_THR_THR d < magnitude delta.toNat ∨ u.chip.get .TK_JUMP_THR_THR d = 0 → Does (.tkStep k sec d delta false) s fun t =>
        t.chip.get .TK_DSTATUS_STEP_REF d = 1 ∧ Keeps u.chip t.chip [(.TK_DSTATUS_STEP_REF, d.val)] ∧ t.arr = u.arr ∧ t.mem = u.mem) ∧
      (u.chip.on .TK_SEL_PEND 0 = false → Does (.req k sec) s fun t => t.chip.get .TK_SEL_PEND 0 = 1 ∧ t.chip.get .H_SW_DUE 0 = u.chip.now + 2000000 * Chip.us + 1 ∧
        KeepsAll u.chip t.chip [(.TK_SEL_PEND, 0), (.H_SW_DUE, 0)] ∧ t.arr = u.arr ∧ t.mem = u.mem)) ∧
    (s.chip.ppsSpaced = true → s.chip.timing = true → Does (.ppsInEdge true) s fun t =>
      let raised := s.chip.tkRaised d / 2 ^ 32 % 2 ^ 32
      let diff := (s.chip.get .TK_ALIGN_VALUE d + 2 ^ 32 - raised) % 2 ^ 32
      t.chip.get .TK_PPS_CAP_NS d = raised ∧ t.chip.get .TK_PPS_CAP_VALID d = 1 ∧ t.chip.get .TK_SEL_PEND 0 = 0 ∧
      (s.chip.on .TK_ALIGN_ARM d = false → t.chip.get .TK_NOW_NS d = next d ∧ t.chip.get .H_STEP_PEND d = 0) ∧
      (s.chip.on .TK_ALIGN_ARM d = true → t.chip.get .TK_ALIGN_ARM d = 0 ∧
        (s.chip.jumpRefused d diff (s.chip.on .TK_ALIGN_OVERRIDE d) = false → s.chip.get .TK_ALIGN_VALUE d < 2 ^ 32 →
          t.chip.get .TK_NOW_NS d = s.chip.get .TK_ALIGN_VALUE d ∧ t.chip.get .TK_DSTATUS_ALIGN_DONE d = 1 ∧ t.chip.get .H_STEP_PEND d = s.chip.get .H_STEP_PEND d) ∧
        (s.chip.jumpRefused d diff (s.chip.on .TK_ALIGN_OVERRIDE d) = true →
          t.chip.get .TK_NOW_NS d = next d ∧ t.chip.get .TK_DSTATUS_ALIGN_REF d = 1)) ∧ t.arr = s.arr ∧ t.mem = s.mem) ∧
    (s.chip.timing = true → long = false ∨ s.chip.ppsSpaced = false → exec (.ppsInEdge long) s = .next { s with chip := s.chip.count .TK_PPS_GLITCH_COUNT 0 1 }) ∧
    (s.chip.timing = false → exec (.ppsInEdge long) s = .next s) ∧
    (s.chip.on .TK_SEL_PEND 0 = true → s.chip.due .H_SW_DUE 0 = true → Does .swNopps s fun t => t.chip.get .TK_SEL_SW_NOPPS 0 = 1 ∧ t.chip.get .TK_SEL_PEND 0 = 0 ∧
      KeepsAll s.chip t.chip [(.TK_SEL_SW_NOPPS, 0), (.TK_SEL_PEND, 0), (.H_SW_DUE, 0)] ∧ t.arr = s.arr ∧ t.mem = s.mem) ∧
    (s.chip.tickNear = true → s.chip.get .TK_PPS_OUT_EN 0 = 1 → ppsDom < 2 → crosses (s.chip.get .TK_NOW_NS ppsDom) (next ppsDom) (s.chip.get .TK_PPS_OUT_NEXT 0) = true →
      s.chip.get .TK_NOW_NS ppsDom < 2 ^ 32 → Does .ppsOutRise s fun t =>
        t.chip.get .H_PPS_OUT 0 = 1 ∧ t.chip.get .TK_PPS_OUT_NEXT 0 = (s.chip.get .TK_PPS_OUT_NEXT 0 + 1000000000) % 2 ^ 32 ∧ t.arr = s.arr ∧ t.mem = s.mem) ∧
    (s.chip.due .H_PPS_FALL 0 = true → exec .ppsOutFall s = .next { s with chip := (s.chip.set .H_PPS_OUT 0 0).set .H_PPS_FALL 0 0 }) ∧
    (s.chip.tickNear = true → s.chip.get .TK_CMP_ARM i = 1 → cmpDom < 2 → crosses (s.chip.get .TK_NOW_NS cmpDom) (next cmpDom) (s.chip.get .TK_CMP_VALUE i) = true →
      s.chip.get .TK_NOW_NS cmpDom < 2 ^ 32 → Does (.compareFire i) s fun t =>
        t.chip.get .TK_CMP_FIRED i = 1 ∧ t.chip.get .TK_CMP_ARM i = 0 ∧ (∀ p, p < 16 → bitB (t.chip.get .H_LATCH_CMP p) i = true) ∧ t.arr = s.arr ∧ t.mem = s.mem) ∧
    (sectStarting ≤ s.chip.sector (e % 12) →
      (s.chip.on .TK_EVT_VALID e = false → Does (.rimEventTap e) s fun t => t.chip.get .TK_EVT_VALID e = 1 ∧ t.chip.get .TK_EVT_NS e = s.chip.stamp % 2 ^ 32 ∧
        t.chip.get .TK_EVT_DOM e = s.chip.dom % 2 ∧ KeepsAll s.chip t.chip [(.TK_EVT_VALID, e.val), (.TK_EVT_NS, e.val), (.TK_EVT_DOM, e.val)] ∧ t.arr = s.arr ∧ t.mem = s.mem) ∧
      (s.chip.on .TK_EVT_VALID e = true → exec (.rimEventTap e) s = .next { s with chip := s.chip.set .TK_EVT_OVF e 1 }))

/-! Power (R377 to R391) -/

/-- A power command that is accepted moves the module as R382 says: IDLE and ON at once, with the result COMPLETED; WATCH and SLEEP with the result pending, the first sample due INTERVAL milliseconds
and 100 microseconds later, and the contents of the compute dies gone in SLEEP; QUIESCE halts what waits or runs and aborts DMA, with the result pending. One that may not is refused with
PWR_STATE before PWR_BUSY before PWR_AVS, and changes nothing else. The command takes effect in the state `s` to which its core's execution has led. -/
def Obligations.PowerCommands : Prop :=
  ∀ (k : Fin 8) (sec ack : Bool) (s₀ : State),
    let s := s₀.seen (.core k sec)
    s.chip.regMay (Init.core k sec) ⟨.svc, 0, 0x404⟩ true = true → s.chip.cmdPending .pwr 0 = false →
    let ended := fun (t : State) (cmd outcome code : Nat) =>
      t.chip.cmdPending .pwr 0 = false ∧ t.chip.get .PWR_RESULT_READY 0 = 1 ∧ t.chip.get .PWR_RESULT_CONSUMED 0 = 0 ∧ t.chip.get .PWR_RESULT_OUTCOME 0 = outcome ∧
      t.chip.get .PWR_RESULT_CMD 0 = cmd ∧ t.chip.get .PWR_RESULT_CODE 0 = code ∧
      t.chip.get .PWR_RESULT_SEQ 0 = (s.chip.get .CQ_SEQ (CmdReg.pwr.idx 0) + 1) % 2 ^ 16
    let waits := fun (t : State) (cmd : Nat) =>
      t.chip.cmdPending .pwr 0 = true ∧ t.chip.get .CQ_CMD (CmdReg.pwr.idx 0) = cmd ∧ t.chip.get .PWR_RESULT_READY 0 = 0
    let turned := fun (cmd code : Nat) (t : State) => ended t cmd refused code ∧ t.arr = s.arr ∧ t.mem = s.mem ∧
      KeepsAll s.chip t.chip [(.CQ_SEQ, CmdReg.pwr.idx 0), (.PWR_RESULT_READY, 0), (.PWR_RESULT_CONSUMED, 0), (.PWR_RESULT_OUTCOME, 0), (.PWR_RESULT_CMD, 0),
        (.PWR_RESULT_CODE, 0), (.PWR_RESULT_SEQ, 0)]
    let awake := s.chip.power = pwrOn ∨ s.chip.power = pwrIdle
    (s.chip.power = pwrOn → s.chip.idleBusy = false → Does (.idle k sec) s₀ fun t =>
      t.chip.power = pwrIdle ∧ ended t 1 completed 0 ∧ t.arr = s.arr ∧ t.mem.cistern = s.mem.cistern ∧ t.mem.deep = s.mem.deep ∧ t.mem.vault = s.mem.vault ∧ t.mem.rim = s.mem.rim) ∧
    (awake → s.chip.idleBusy = false → Does (.watch k sec) s₀ fun t =>
      t.chip.power = pwrWatch ∧ waits t 2 ∧ t.chip.get .H_WATCH_CNT 0 = 0 ∧
      t.chip.get .H_WATCH_DUE 0 = s.chip.now + (s.chip.get .PWR_WATCH_CTL_INTERVAL 0 * 1000 + 100) * Chip.us + 1 ∧
      t.arr = s.arr ∧ t.mem.cistern = s.mem.cistern ∧ t.mem.deep = s.mem.deep ∧ t.mem.vault = s.mem.vault ∧ t.mem.rim = s.mem.rim) ∧
    (awake → s.chip.sleepBusy = false → Does (.sleep k sec true) s₀ fun t =>
      t.chip.power = pwrSleep ∧ waits t 3 ∧ t.arr.istore = [] ∧ t.arr.slotA = [] ∧ t.arr.xreg = [] ∧ t.mem.cistern = [] ∧ t.mem.deep = [] ∧ t.mem.vault = s.mem.vault) ∧
    (s.chip.power = pwrIdle → Does (.on k sec) s₀ fun t => t.chip.power = pwrOn ∧ ended t 4 completed 0 ∧ t.arr = s.arr ∧ t.mem = s.mem) ∧
    (awake → Does (.quiesce k sec) s₀ fun t =>
      t.chip.power = s.chip.power ∧ waits t 5 ∧ t.chip.get .H_QUIESCE 0 = 1 ∧ t.chip.get .H_Q_DUE 0 = s.chip.now + s.chip.get .PWR_CTL_QLIMIT 0 * Chip.us + 1 ∧
      (∀ p, p < 16 → s.chip.cmdPending .pmp p = false →
        (s.chip.pumpState p = psWait → t.chip.pumpState p = psHalt) ∧
        (s.chip.pumpState p = psRun ∨ s.chip.pumpState p = psHold → bitB (t.chip.get .H_STOP_PEND p) 5 = true)) ∧
      (∀ ch, ch < 32 → s.chip.on .DMA_CH_CTL_EN ch = true → s.chip.dmaItem ch = none →
        if s.chip.get .H_DMA_NEXT ch = s.chip.get .DMA_CH_PI_PI ch then t.chip.get .DMA_CH_CTL_EN ch = 0 else t.chip.get .DMA_CH_CTL_ABORT ch = 1) ∧ t.mem = s.mem) ∧
    (s.chip.power ≠ pwrOn → Does (.idle k sec) s₀ (turned 1 pwrBadState)) ∧
    (s.chip.power = pwrOn → s.chip.idleBusy = true → Does (.idle k sec) s₀ (turned 1 pwrBusy)) ∧
    (¬awake → Does (.watch k sec) s₀ (turned 2 pwrBadState) ∧ Does (.sleep k sec ack) s₀ (turned 3 pwrBadState) ∧ Does (.quiesce k sec) s₀ (turned 5 pwrBadState)) ∧
    (awake → s.chip.idleBusy = true → Does (.watch k sec) s₀ (turned 2 pwrBusy)) ∧
    (awake → s.chip.sleepBusy = true → Does (.sleep k sec ack) s₀ (turned 3 pwrBusy)) ∧
    (awake → s.chip.sleepBusy = false → Does (.sleep k sec false) s₀ fun t =>
      ended t 3 refused pwrAvs ∧ t.chip.power = s.chip.power ∧ t.chip.get .PWR_AVS_FAIL 0 = 1 ∧ t.arr = s.arr ∧ t.mem = s.mem) ∧
    (s.chip.power ≠ pwrIdle → Does (.on k sec) s₀ (turned 4 pwrBadState))

/-- Power events: QUIESCE ends when no tag is in use and every pump rests, and past its limit it resets the partitions that still run. A demand starts the exit from IDLE or WATCH, and its end brings ON or
IDLE, with the WATCH result and its cause. COUNT mismatching samples in a row end WATCH. An enabled WAKE level and the matching MGMT address start the wake from SLEEP, whose end brings
IDLE and the result. A temperature that crosses a threshold raises source 249, one of 125 degrees resets the module, a regulator alert 247, and an unacknowledged voltage aborts its SETRATE. -/
def Obligations.PowerEvents : Prop :=
  ∀ (command level : Bool) (raw : BitVec 96) (n : Fin 4) (addr : BitVec 7) (die : Fin 5) (temp : BitVec 8) (s : State),
    (s.chip.get .H_QUIESCE 0 = 1 → s.chip.pumpsRest = true → tagsUsed s.chip s.arr = 0 → s.chip.cmdPending .pwr 0 = true → Does .quiesceComplete s fun t =>
      t.chip.get .H_QUIESCE 0 = 0 ∧ t.chip.cmdPending .pwr 0 = false ∧ t.chip.get .PWR_RESULT_READY 0 = 1 ∧ t.chip.get .PWR_RESULT_OUTCOME 0 = completed ∧
      (s.chip.on .TRC_CTL_EN 0 = true → t.chip.trc = []) ∧ t.arr = s.arr) ∧
    (0 < tagsUsed s.chip s.arr → exec .quiesceComplete s = .next s) ∧
    (s.chip.get .H_QUIESCE 0 = 1 → s.chip.due .H_Q_DUE 0 = true → Does .quiescePumpLimit s fun t =>
      t.chip.get .H_Q_DUE 0 = 0 ∧ t.mem = s.mem ∧ ∀ p, p < 16 →
        if s.chip.on .PTN_CFG_ACTIVE p ∧ s.chip.pumpState p ≠ psHalt ∧ s.chip.pumpState p ≠ psEmpty ∧ s.chip.pumpState p ≠ psLoading
        then t.chip.pumpState p = psLoading ∧ t.chip.get .H_PRIMING p = 3 else t.chip.pumpState p = s.chip.pumpState p) ∧
    (s.chip.on .H_EXIT 0 = false →
      (s.chip.power = pwrIdle → Does (.demandExit true) s fun t =>
        t.chip.get .H_EXIT 0 = 1 ∧ t.chip.get .H_EXIT_CAUSE 0 = 6 ∧ t.chip.get .H_EXIT_DUE 0 = s.chip.now + 10 * Chip.us + 1 ∧
        KeepsAll s.chip t.chip [(.H_EXIT, 0), (.H_EXIT_CAUSE, 0), (.H_EXIT_DUE, 0)] ∧ t.arr = s.arr ∧ t.mem = s.mem) ∧
      (s.chip.power = pwrWatch → Does (.demandExit command) s fun t =>
        t.chip.get .H_EXIT 0 = (if command then 1 else 2) ∧ t.chip.get .H_EXIT_CAUSE 0 = (if command then 6 else 5) ∧
        t.chip.get .H_EXIT_DUE 0 = s.chip.now + (if command then 35 else 25) * Chip.us + 1 ∧
        KeepsAll s.chip t.chip [(.H_EXIT, 0), (.H_EXIT_CAUSE, 0), (.H_EXIT_DUE, 0)] ∧ t.arr = s.arr ∧ t.mem = s.mem) ∧
      (s.chip.power = pwrWatch → s.chip.due .H_WATCH_DUE 0 = true → Does (.watchSample raw) s fun t =>
        let v := s.chip.watchVector raw.toNat
        let miss := Nat.land (Nat.xor v (s.chip.watchBits .PWR_WATCH_VAL_BITS)) (s.chip.watchBits .PWR_WATCH_MASK_BITS)
        (miss = 0 → t.chip.get .H_WATCH_CNT 0 = 0 ∧ t.chip.get .H_EXIT 0 = 0) ∧
        (miss ≠ 0 → t.chip.get .H_WATCH_CNT 0 = (s.chip.get .H_WATCH_CNT 0 + 1) % 256) ∧
        (miss ≠ 0 → s.chip.get .H_WATCH_CNT 0 + 1 ≠ s.chip.get .PWR_WATCH_CTL_COUNT 0 → t.chip.get .H_EXIT 0 = 0) ∧
        (miss ≠ 0 → s.chip.get .H_WATCH_CNT 0 + 1 = s.chip.get .PWR_WATCH_CTL_COUNT 0 → t.chip.get .H_EXIT 0 = 2 ∧ t.chip.get .H_EXIT_CAUSE 0 = 1 ∧
          t.chip.watchBits .PWR_WATCH_LAST_BITS = v) ∧
        t.chip.power = pwrWatch ∧ t.arr = s.arr ∧ t.mem = s.mem)) ∧
    (∀ goal, s.chip.get .H_EXIT 0 = goal + 1 → s.chip.waiting = [] → s.chip.get .H_QUIESCE 0 ≠ 2 → Does .powerStateExitComplete s fun t =>
      t.chip.power = (if goal = 0 then pwrOn else pwrIdle) ∧ t.chip.get .H_EXIT 0 = 0 ∧ t.arr = s.arr ∧ t.mem.cistern = s.mem.cistern ∧ t.mem.deep = s.mem.deep ∧
      t.mem.vault = s.mem.vault ∧ t.mem.rim = s.mem.rim ∧ (goal = 0 ∨ s.chip.on .TRC_CTL_EN 0 = false → t.mem = s.mem) ∧
      (∀ k, k < 8 → goal = 0 → s.chip.get .H_LP k = s.chip.power + 1 → t.chip.get .H_LP k = 0) ∧
      (s.chip.power = pwrWatch → s.chip.cmdPending .pwr 0 = true → s.chip.get .H_EXIT_CAUSE 0 < 16 →
        t.chip.get .PWR_STATE_WAKE 0 = s.chip.get .H_EXIT_CAUSE 0 ∧ t.chip.cmdPending .pwr 0 = false ∧ t.chip.get .PWR_RESULT_READY 0 = 1 ∧
        t.chip.get .PWR_RESULT_OUTCOME 0 = completed)) ∧
    (s.chip.power = pwrSleep → s.chip.on .H_WAKE_CAUSE 0 = false →
      (bitB (s.chip.get .PWR_WAKE_CTL_EN 0) n = true → bit (s.chip.get .PWR_WAKE_CTL_POL 0) n = b2n level → Does (.wakePin n level) s fun t =>
        t.chip.get .H_WAKE_CAUSE 0 = 3 ∧ KeepsAll s.chip t.chip [(.H_WAKE_CAUSE, 0), (.H_WAKE_DUE, 0)] ∧ t.arr = s.arr ∧ t.mem = s.mem) ∧
      (s.chip.on .PWR_WAKE_CTL_MGMT_EN 0 = true → s.chip.get .PWR_WAKE_CTL_MGMT_ADDR 0 = addr.toNat → Does (.mgmtAddressMatch addr) s fun t =>
        t.chip.get .H_WAKE_CAUSE 0 = 4 ∧ KeepsAll s.chip t.chip [(.H_WAKE_CAUSE, 0), (.H_WAKE_DUE, 0)] ∧ t.arr = s.arr ∧ t.mem = s.mem)) ∧
    (∀ w, s.chip.power = pwrSleep → s.chip.get .H_WAKE_CAUSE 0 = w + 1 → w < 16 → s.chip.get .H_QUIESCE 0 ≠ 2 → s.chip.cmdPending .pwr 0 = true → Does .wakeComplete s fun t =>
      t.chip.power = pwrIdle ∧ t.chip.get .PWR_STATE_WAKE 0 = w ∧ t.chip.get .H_WAKE_CAUSE 0 = 0 ∧ t.chip.cmdPending .pwr 0 = false ∧ t.chip.get .PWR_RESULT_READY 0 = 1 ∧
      t.chip.get .PWR_RESULT_OUTCOME 0 = completed ∧ t.arr = s.arr ∧ t.mem.cistern = s.mem.cistern ∧ t.mem.deep = s.mem.deep ∧ t.mem.vault = s.mem.vault ∧
      t.mem.rim = s.mem.rim) ∧
    (125 ≤ temp.toNat → Does (.thresholdCrossing die temp) s fun t =>
      t.chip.get .PWR_RST_CAUSE_THERM 0 = 1 ∧ t.chip.power = pwrOn ∧ t.chip.get .H_TEMP die = temp.toNat ∧ t.arr = {} ∧ t.mem = {}) ∧
    (temp.toNat < 125 → Does (.thresholdCrossing die temp) s fun t =>
      t.chip.get .H_TEMP die = temp.toNat ∧ t.chip.get .H_THERM die = s.chip.thermFlags temp.toNat ∧
      (s.chip.get .H_THERM die ≠ s.chip.thermFlags temp.toNat → s.chip.get .IC_SRC_CFG_MODE 249 = 0 → t.chip.get .IC_PEND_BIT 249 = 1) ∧
      Keeps s.chip t.chip [(.H_TEMP, die.val), (.H_THERM, die.val)] ∧ t.arr = s.arr ∧ t.mem = s.mem) ∧
    (Does .pmbAlert s fun t => (s.chip.get .IC_SRC_CFG_MODE 247 = 0 → t.chip.get .IC_PEND_BIT 247 = 1) ∧ Keeps s.chip t.chip [] ∧ t.arr = s.arr ∧ t.mem = s.mem) ∧
    (s.chip.on .PMP_RATE_CHANGING 0 = true → s.chip.cmdPending .pmp (s.chip.get .H_RATE_PART 0) = true → s.chip.get .CQ_CMD (CmdReg.pmp.idx (s.chip.get .H_RATE_PART 0)) = 5 →
      Does .avsTimeout s fun t =>
      t.chip.get .PMP_RATE_CHANGING 0 = 0 ∧ t.chip.get .PMP_RATE_ECON 0 = s.chip.get .PMP_RATE_ECON 0 ∧ t.chip.get .PWR_AVS_FAIL 0 = 1 ∧
      (s.chip.get .IC_SRC_CFG_MODE 248 = 0 → t.chip.get .IC_PEND_BIT 248 = 1) ∧
      t.chip.cmdPending .pmp (s.chip.get .H_RATE_PART 0) = false ∧ t.chip.get .PMP_RESULT_OUTCOME (s.chip.get .H_RATE_PART 0) = aborted ∧ t.arr = s.arr ∧ t.mem = s.mem)

/-! Module resets and start-up (R17, R387 to R391) -/

/-- Every module reset puts each register at its reset value but for those that are always on, what only a power cycle brings back (failed channels and links), the fuses and the world outside,
empties every memory, and records its cause. The tamper latch survives brown-out, thermal trip and a life-cycle change, and RESET_N and the removal of power clear it. An accepted life-cycle change
is in force after it. (That memories and stores then hold zeros is the model's choice: log entry 3.) After power-on and RESET_N the module waits for start-up, and a rail that fails meanwhile resets
nothing more. Start-up that finds a pair to boot ends with the firmware running, FAULT_N released and VDD_C up; without one the boot stops, with FAULT_N's cause left as it was.
PRESENT_N that deasserts in ON or IDLE takes the supplies and the ports and starts QUIESCE. -/
def Obligations.ModuleResets : Prop :=
  ∀ (u : StartUp) (s : State),
    let kept := fun (t : State) => t.arr = {} ∧ t.mem = {} ∧ t.pending = s.pending ∧ t.chip.grade = s.chip.grade ∧ t.chip.now = s.chip.now ∧
      (∀ f j, f ∉ resetKeeps → f ≠ .H_TK_AT → f ≠ .H_THERM → f ≠ .PWR_STATE_STATE → f ≠ .H_RST_N → t.chip.get f j = ({} : Chip).get f j) ∧
      (∀ f ∈ [Fld.PWR_WAKE_CTL_EN, .PWR_WAKE_CTL_POL, .PWR_WAKE_CTL_MGMT_EN, .PWR_WAKE_CTL_MGMT_ADDR, .LC_STATE_REFUSED], t.chip.get f 0 = s.chip.get f 0) ∧
      t.chip.get .LC_STATE_PEND 0 = 0 ∧
      t.chip.get .LC_STATE_STATE 0 = (if s.chip.get .LC_STATE_PEND 0 = 0 then s.chip.get .LC_STATE_STATE 0 else s.chip.get .LC_STATE_PEND 0 % 16)
    let latch := fun (t : State) (v : Nat) => t.chip.get .PWR_RST_CAUSE_TAMPER 0 = v
    let failed := fun (t : State) => ∀ j, t.chip.get .DMC_STACK_STATUS_CH_FAIL j = s.chip.get .DMC_STACK_STATUS_CH_FAIL j ∧ t.chip.get .H_LINK_FAIL j = s.chip.get .H_LINK_FAIL j
    let old := s.chip.get .PWR_RST_CAUSE_TAMPER 0
    Does .powerOn s (fun t => kept t ∧ t.chip.power = pwrOn ∧ t.chip.get .PWR_RST_CAUSE_POR 0 = 1 ∧ t.chip.get .H_RST_N 0 = 1 ∧
      ∀ j, t.chip.get .DMC_STACK_STATUS_CH_FAIL j = 0 ∧ t.chip.get .H_LINK_FAIL j = 0) ∧
    Does .resetN s (fun t => kept t ∧ t.chip.power = pwrOn ∧ latch t 0 ∧ t.chip.get .PWR_RST_CAUSE_PIN 0 = 1 ∧ t.chip.get .H_RST_N 0 = 1 ∧ failed t) ∧
    (s.chip.on .H_RST_N 0 = false → Does .brownOut s (fun t => kept t ∧ t.chip.power = pwrOn ∧ latch t old ∧ t.chip.get .PWR_RST_CAUSE_BROWNOUT 0 = 1 ∧ failed t)) ∧
    (s.chip.on .H_RST_N 0 = true → exec .brownOut s = .next s) ∧
    Does .thermalTrip s (fun t => kept t ∧ t.chip.power = pwrOn ∧ latch t old ∧ t.chip.get .PWR_RST_CAUSE_THERM 0 = 1 ∧ failed t) ∧
    Does .powerRemoval s (fun t => kept t ∧ t.chip.power = pwrOff ∧ latch t 0) ∧
    (s.chip.due .H_LC_DUE 0 = true → Does .lifeCycleReset s (fun t => kept t ∧ t.chip.power = pwrOn ∧ latch t old ∧ t.chip.get .PWR_RST_CAUSE_LC 0 = 1 ∧ failed t)) ∧
    (s.chip.on .H_WARM 0 = false → s.chip.power ≠ pwrOff → u.fusesOk = true → u.pllsOk = true → u.sramBad.toNat % 4 = 0 →
      (∀ pr, s.chip.bootPair u = some pr → u.stream = none → u.parts = [] → Does (.startUp u) s fun t =>
        t.chip.get .H_WARM 0 = 1 ∧ t.chip.get .H_RST_N 0 = 0 ∧ t.chip.get .FLT_SRC_BOOT 0 = 0 ∧ t.chip.get .PWR_AVS_VDD_C 0 = 800 ∧
        t.chip.get .H_FW_SEC 0 = (fwVersions (startFw u) pr).1.toNat ∧ t.chip.get .H_FW_SVC 0 = (fwVersions (startFw u) pr).2.toNat ∧
        (fwListed (startFw u) pr = true → t.chip.lastGood u = some pr) ∧
        t.chip.x16 = (u.recordOk && u.x16) ∧ (∀ j, j < 2 * s.chip.dies → t.chip.get .DMC_STACK_STATUS_STATE j = if bit u.stackBad.toNat j = 1 then 3 else 2) ∧
        (∀ j, j < 8 → t.chip.get .H_SRAM_BAD j = bit u.sramBad.toNat j) ∧
        (u.recordOk = true → ∀ j, j < 12 → bit u.sectors.toNat j = 1 → s.chip.sector j = sectEmpty → t.chip.get .RIM_SECT_OWN_OWNER j = ownerModule) ∧
        t.arr = s.arr ∧ t.mem = s.mem) ∧
      (s.chip.bootPair u = none → Does (.startUp u) s fun t =>
        t.chip.get .H_WARM 0 = 0 ∧ t.chip.get .H_RST_N 0 = 0 ∧ t.chip.get .FLT_SRC_BOOT 0 = s.chip.get .FLT_SRC_BOOT 0 ∧ t.arr = s.arr ∧ t.mem = s.mem)) ∧
    (u.fusesOk = false ∨ u.pllsOk = false → exec (.startUp u) s = .next { s with chip := s.chip.set .H_RST_N 0 0 }) ∧
    (s.chip.on .H_ABSENT 0 = false → s.chip.on .H_QUIESCE 0 = false → s.chip.power = pwrOn ∨ s.chip.power = pwrIdle → Does .presentDeassert s fun t =>
      t.chip.get .H_ABSENT 0 = 1 ∧ (∀ b, b < 12 → t.chip.get .IOB_BANK_STATUS_PGOOD b = 0 ∧ t.chip.bankState b = .powerOff) ∧
      (∀ n, n < 4 → s.chip.portExists n = true → s.chip.on .H_LOST n = false → t.chip.get .H_LINKUP n = 0 ∧ t.chip.get .H_LOST n = 1) ∧
      t.chip.get .H_QUIESCE 0 = 1 ∧ t.chip.cmdPending .pwr 0 = true ∧ t.chip.get .CQ_CMD (CmdReg.pwr.idx 0) = 5) ∧
    (Does .presentAssert s fun t => t.chip.get .H_ABSENT 0 = 0 ∧ KeepsAll s.chip t.chip [(.H_ABSENT, 0)] ∧ t.arr = s.arr ∧ t.mem = s.mem)

/-! Security and debug (R392 to R398) -/

/-- The key word of a permitted change of the life cycle, written again, is accepted: it wipes the vault, the slots and mailbox channels 32 to 63, ends debug authorisation, and is pending for 1 ms;
a change that is not permitted sets REFUSED. Tamper wipes the same, sets the latch and wakes from SLEEP; a wipe that ends raises source 251. A certificate that passes every check
sets the level of its signer, and one that fails clears it and sets REJ. IDCODE gives stepping, part and maker; a boundary scan that the matrix forbids sets DENIED. -/
def Obligations.LifeCycleTamperAndDebug : Prop :=
  ∀ (k : Fin 8) (key : Word32) (cert : Cert) (data : Word64) (s : State),
    let u := s.seen (.core k true)
    let wiped := fun (v t : State) => t.mem.vault = [] ∧ (∀ j, t.chip.get .H_VAULT_SLOT j = 0) ∧ (∀ j, 32 ≤ j → t.chip.get .MBX_STATUS_FULL j = 0) ∧
      (∀ j, 512 ≤ j → t.chip.get .MBX_MSG_DATA j = 0) ∧ t.chip.get .DBG_STATUS_LEVEL 0 = 0 ∧ t.chip.get .DBG_STATUS_PERM 0 = 0 ∧ t.chip.get .H_WIPE 0 = 1 ∧
      { t.mem with vault := v.mem.vault } = v.mem ∧ t.arr = v.arr
    (u.chip.get .H_LC_KEY 0 = key.toNat + 1 →
      (∀ target, target < 6 → key.toNat = 0x4C430000 + target → u.chip.lcAllowed target = true → Does (.lcCmd k true key) s fun t =>
        wiped u t ∧ t.chip.get .LC_STATE_PEND 0 = target ∧ t.chip.get .H_LC_DUE 0 = u.chip.now + 1000 * Chip.us + 1) ∧
      ((∀ target, target < 6 → key.toNat ≠ 0x4C430000 + target ∨ u.chip.lcAllowed target = false) → Does (.lcCmd k true key) s fun t =>
        t.chip.get .LC_STATE_REFUSED 0 = 1 ∧ KeepsAll u.chip t.chip [(.LC_STATE_REFUSED, 0), (.H_LC_KEY, 0)] ∧ t.arr = u.arr ∧ t.mem = u.mem)) ∧
    (u.chip.get .H_LC_KEY 0 ≠ key.toNat + 1 → Does (.lcCmd k true key) s fun t =>
      t.chip.get .H_LC_KEY 0 = key.toNat + 1 ∧ KeepsAll u.chip t.chip [(.H_LC_KEY, 0)] ∧ t.arr = u.arr ∧ t.mem = u.mem) ∧
    (Does .tamper s fun t =>
      wiped s t ∧ t.chip.get .PWR_RST_CAUSE_TAMPER 0 = 1 ∧ (s.chip.get .IC_SRC_CFG_MODE 250 = 0 → t.chip.get .IC_PEND_BIT 250 = 1) ∧
      (s.chip.power = pwrSleep → s.chip.on .H_WAKE_CAUSE 0 = false → t.chip.get .H_WAKE_CAUSE 0 = 5)) ∧
    (s.chip.on .H_WIPE 0 = true → s.chip.waiting = [] → Does .wipeComplete s fun t =>
      t.chip.get .H_WIPE 0 = 0 ∧ (s.chip.get .IC_SRC_CFG_MODE 251 = 0 → t.chip.get .IC_PEND_BIT 251 = 1) ∧ Keeps s.chip t.chip [(.H_WIPE, 0)] ∧ t.arr = s.arr ∧ t.mem = s.mem) ∧
    (s.chip.power < pwrSleep → Does (.dbgCert cert) s fun t =>
      (if s.chip.certOk cert then t.chip.get .DBG_STATUS_LEVEL 0 = (if cert.klogrim then 2 else 1) ∧ t.chip.get .DBG_STATUS_PERM 0 = cert.perm.toNat ∧
          t.chip.get .DBG_STATUS_REJ 0 = s.chip.get .DBG_STATUS_REJ 0
        else t.chip.get .DBG_STATUS_LEVEL 0 = 0 ∧ t.chip.get .DBG_STATUS_PERM 0 = 0 ∧ t.chip.get .DBG_STATUS_REJ 0 = 1) ∧
      KeepsAll s.chip t.chip [(.DBG_STATUS_LEVEL, 0), (.DBG_STATUS_PERM, 0), (.DBG_STATUS_REJ, 0)] ∧ t.arr = s.arr ∧ t.mem = s.mem) ∧
    (s.chip.power ≠ pwrOff →
      (Does .idcode s fun t => t.chip.resp.value = s.chip.idcode ∧ t.chip.get .H_JTAG_IR 0 = 1 ∧ KeepsAll s.chip t.chip [(.H_JTAG_IR, 0)] ∧ t.arr = s.arr ∧ t.mem = s.mem) ∧
      (Does .bypass s fun t => t.chip.resp.value = 0 ∧ t.chip.get .H_JTAG_IR 0 = 0 ∧ KeepsAll s.chip t.chip [(.H_JTAG_IR, 0)] ∧ t.arr = s.arr ∧ t.mem = s.mem)) ∧
    bits s.chip.idcode 31 28 = b2n s.chip.isB0 ∧ bits s.chip.idcode 27 12 = (match s.chip.grade with | .vdx410 => 0x410 | .vdx420 => 0x420 | .vdx440 => 0x440) ∧
    bits s.chip.idcode 11 1 = Config.jep106.toNat ∧ bits s.chip.idcode 0 0 = 1 ∧
    (s.chip.power = pwrOn ∨ s.chip.power = pwrIdle → ∀ x ∈ [(Instr.samplePreload data, Jtag.sample), (.extest data, .extest), (.highz data, .highz), (.clamp data, .clamp),
      (.extestPulse data, .extestPulse), (.extestTrain data, .extestTrain)], Does x.1 s fun t => t.arr = s.arr ∧ t.mem = s.mem ∧
        if s.chip.scanAllowed then t.chip.get .H_JTAG_IR 0 = x.2.ctorIdx ∧ t.chip.get .H_JTAG_BSR 0 = data.toNat ∧ KeepsAll s.chip t.chip [(.H_JTAG_IR, 0), (.H_JTAG_BSR, 0)]
        else t.chip.resp.value = 0 ∧ t.chip.get .DBG_STATUS_DENIED 0 = 1 ∧ KeepsAll s.chip t.chip [(.DBG_STATUS_DENIED, 0)])

/-- What reset leaves: every field at the value that the field table of the spec gives it (here the ones that are not 0), no command waiting, every queue, log and memory empty and in its canonical form. -/
def Obligations.ResetValues : Prop :=
  State.reset.Sound ∧ State.reset.pending = [] ∧ State.reset.chip.tokens = [] ∧ State.reset.chip.posts = [] ∧ State.reset.chip.sump = [] ∧ State.reset.chip.flt = [] ∧
  State.reset.chip.txns = [] ∧ State.reset.chip.recs = [] ∧ State.reset.chip.reps = [] ∧ State.reset.chip.latch = [] ∧ State.reset.chip.held = [] ∧ State.reset.arr = {} ∧
  (∀ p, p < 16 → State.reset.chip.pumpState p = psEmpty ∧ State.reset.chip.get .PTN_CFG_ACTIVE p = 0 ∧ State.reset.chip.stepNow p = 0 ∧
    State.reset.chip.get .PMP_CYCLE_CYCLE p = 0 ∧ State.reset.chip.get .PMP_RESULT_READY p = 0) ∧
  State.reset.chip.power = pwrOn ∧ State.reset.chip.get .PWR_CTL_QLIMIT 0 = 1000 ∧ State.reset.chip.get .PWR_CTL_CRIT 0 = 105 ∧ State.reset.chip.get .PWR_CTL_WARN 0 = 95 ∧
  State.reset.chip.get .PWR_WAKE_CTL_MGMT_ADDR 0 = 0x50 ∧ State.reset.chip.get .PWR_WATCH_CTL_COUNT 0 = 1 ∧ State.reset.chip.get .PWR_WATCH_CTL_INTERVAL 0 = 100 ∧
  State.reset.chip.get .PWR_AVS_TMO 0 = 100 ∧ State.reset.chip.get .PWR_RST_CAUSE_POR 0 = 1 ∧ State.reset.chip.get .FLT_SRC_BOOT 0 = 1 ∧ State.reset.chip.get .FLT_FN_EN_EN 0 = 0x7FFFFF ∧
  (∀ (f : Fld) (j : Nat), State.reset.chip.get f j = f.reset)
end

