-- ==== Sys2Proof/Laws/Memory.lean ====
section
/-! SUPPORT. Laws of the byte-addressed memories: a read after a write, and the canonical form that every memory operation keeps. -/

namespace Sys2Proof.Machine

/-! Reads after writes -/

theorem Memory.read_erase (m : List Host.Cell) (a b : Nat) :
    Memory.read (Memory.erase m a) b = if b = a then Memory.blank else Memory.read m b := by
  induction m with
  | nil => simp [Memory.erase, Memory.read]
  | cons e m ih =>
    obtain ⟨x, v⟩ := e
    by_cases hx : x = a
    · subst hx
      by_cases hb : x = b
      · subst hb; simpa [Memory.erase, Memory.read] using ih
      · simp [Memory.erase, Memory.read, hb, ih]
    · by_cases hb : x = b
      · subst hb; simp [Memory.erase, Memory.read, hx]
      · simp [Memory.erase, Memory.read, hx, hb, ih]

theorem Memory.read_insert (m : List Host.Cell) (a b : Nat) (v : Byte) :
    Memory.read (Memory.insert m a v) b = if b = a then v else Memory.read m b := by
  induction m with
  | nil => simp [Memory.insert, Memory.read, eq_comm]
  | cons e m ih =>
    obtain ⟨x, w⟩ := e
    unfold Memory.insert
    split
    · by_cases hb : a = b <;> simp [Memory.read, hb, eq_comm]
    · split
      · next hx =>
        subst hx
        by_cases hb : x = b
        · subst hb; simp [Memory.read]
        · simp [Memory.read, hb, Ne.symm hb]
      · next hx =>
        by_cases hb : x = b
        · subst hb; simp [Memory.read, hx]
        · simp [Memory.read, hb, ih]

/-- Reading after one write: the byte at the address written, every other address as before. -/
@[simp] theorem Memory.read_write (m : List Host.Cell) (a b : Nat) (v : Byte) :
    Memory.read (Memory.write m a v) b = if b = a then v else Memory.read m b := by
  unfold Memory.write
  split
  · next h => subst h; exact Memory.read_erase m a b
  · exact Memory.read_insert m a b v

/-- Reading after a write of several bytes: the bytes where they were written, every other address as before. -/
theorem Memory.read_writeN (m : List Host.Cell) (a b : Nat) (d : List Byte) :
    Memory.read (Memory.writeN m a d) b = if a ≤ b ∧ b < a + d.length then d.getD (b - a) 0 else Memory.read m b := by
  induction d generalizing m a with
  | nil =>
    rw [if_neg (by simp only [List.length_nil]; omega)]; rfl
  | cons v d ih =>
    unfold Memory.writeN
    rw [ih]
    by_cases hb : b = a
    · subst hb
      rw [if_neg (by omega), if_pos (by simp)]
      simp
    · by_cases hr : a + 1 ≤ b ∧ b < a + 1 + d.length
      · rw [if_pos hr, if_pos (by simp only [List.length_cons]; omega)]
        obtain ⟨k, hk⟩ : ∃ k, b = a + 1 + k := ⟨b - (a + 1), by omega⟩
        subst hk
        rw [show a + 1 + k - (a + 1) = k from by omega, show a + 1 + k - a = k + 1 from by omega]
        simp
      · rw [if_neg hr, if_neg (by simp only [List.length_cons]; omega)]
        simp [hb]

/-- A write of several bytes reads back whole. -/
theorem Memory.readN_writeN (m : List Host.Cell) (a : Nat) (d : List Byte) :
    Memory.readN (Memory.writeN m a d) a d.length = d := by
  have key : ∀ (m : List Host.Cell) (a : Nat) (d : List Byte) (n k : Nat), n + k = d.length →
      Memory.readN (Memory.writeN m a d) (a + k) n = d.drop k := by
    intro m a d n
    induction n with
    | zero => intro k h; simp [Memory.readN, show d.length ≤ k from by omega]
    | succ n ih =>
      intro k h
      have hk : k < d.length := by omega
      simp only [Memory.readN]
      rw [Memory.read_writeN, if_pos ⟨by omega, by omega⟩, show a + k + 1 = a + (k + 1) from by omega, ih (k + 1) (by omega),
        show a + k - a = k from by omega, List.drop_eq_getElem_cons hk]
      simp [hk]
  have := key m a d d.length 0 (by omega)
  simpa using this

/-! The canonical form -/

theorem Memory.wfFrom_mono {lo lo' : Nat} {m : List Host.Cell} (h : Memory.wfFrom lo m = true) (hl : lo' ≤ lo) :
    Memory.wfFrom lo' m = true := by
  cases m with
  | nil => rfl
  | cons e m => simp only [Memory.wfFrom, Bool.and_eq_true, decide_eq_true_eq] at h ⊢; exact ⟨⟨by omega, h.1.2⟩, h.2⟩

theorem Memory.wfFrom_filter (p : Host.Cell → Bool) {lo : Nat} {m : List Host.Cell} (h : Memory.wfFrom lo m = true) :
    Memory.wfFrom lo (m.filter p) = true := by
  induction m generalizing lo with
  | nil => rfl
  | cons e m ih =>
    simp only [Memory.wfFrom, Bool.and_eq_true, decide_eq_true_eq] at h
    rw [List.filter_cons]
    split
    · simp only [Memory.wfFrom, Bool.and_eq_true, decide_eq_true_eq]; exact ⟨h.1, ih h.2⟩
    · exact Memory.wfFrom_mono (ih h.2) (by omega)

theorem Memory.erase_eq_filter (m : List Host.Cell) (a : Nat) : Memory.erase m a = m.filter (fun c => c.1 ≠ a) := by
  induction m with
  | nil => rfl
  | cons e m ih => by_cases h : e.1 = a <;> simp_all [Memory.erase]

theorem Memory.wfFrom_insert {lo : Nat} {m : List Host.Cell} (a : Nat) (v : Byte) (h : Memory.wfFrom lo m = true)
    (ha : lo ≤ a) (hv : v ≠ Memory.blank) : Memory.wfFrom lo (Memory.insert m a v) = true := by
  induction m generalizing lo with
  | nil => simp [Memory.insert, Memory.wfFrom, ha, hv]
  | cons e m ih =>
    obtain ⟨x, w⟩ := e
    simp only [Memory.wfFrom, Bool.and_eq_true, decide_eq_true_eq] at h
    unfold Memory.insert
    split
    · simp only [Memory.wfFrom, Bool.and_eq_true, decide_eq_true_eq]
      exact ⟨⟨ha, hv⟩, ⟨⟨by omega, h.1.2⟩, h.2⟩⟩
    · split
      · next hx => subst hx; simp only [Memory.wfFrom, Bool.and_eq_true, decide_eq_true_eq]; exact ⟨⟨ha, hv⟩, h.2⟩
      · simp only [Memory.wfFrom, Bool.and_eq_true, decide_eq_true_eq]
        exact ⟨h.1, ih h.2 (by omega)⟩

/-- One byte written keeps the canonical form. -/
@[simp] theorem Memory.wf_write {m : List Host.Cell} (a : Nat) (v : Byte) (h : Memory.wf m = true) :
    Memory.wf (Memory.write m a v) = true := by
  unfold Memory.write Memory.wf
  split
  · rw [Memory.erase_eq_filter]; exact Memory.wfFrom_filter _ h
  · next hv => exact Memory.wfFrom_insert a v h (Nat.zero_le _) hv

/-- Several bytes written keep it. -/
@[simp] theorem Memory.wf_writeN {m : List Host.Cell} (a : Nat) (d : List Byte) (h : Memory.wf m = true) :
    Memory.wf (Memory.writeN m a d) = true := by
  induction d generalizing m a with
  | nil => exact h
  | cons v d ih => exact ih (a + 1) (Memory.wf_write a v h)

/-- Dropping cells keeps it. -/
@[simp] theorem Memory.wf_filter {m : List Host.Cell} (p : Host.Cell → Bool) (h : Memory.wf m = true) :
    Memory.wf (m.filter p) = true := Memory.wfFrom_filter p h

/-- Blanking a range keeps it. -/
@[simp] theorem Memory.wf_clearRange {m : List Host.Cell} (lo hi : Nat) (h : Memory.wf m = true) :
    Memory.wf (Memory.clearRange m lo hi) = true := Memory.wfFrom_filter _ h

@[simp] theorem Memory.wf_nil : Memory.wf [] = true := rfl

/-! The memories of the module -/

theorem Mem.wf_iff (m : Mem) : m.wf = true ↔
    Memory.wf m.cistern = true ∧ Memory.wf m.deep = true ∧ Memory.wf m.sram = true ∧ Memory.wf m.vault = true ∧ Memory.wf m.rim = true := by
  simp [Mem.wf, and_assoc]

/-- The module's memories are in their canonical form right after reset. -/
theorem Mem.wf_reset : (({} : Mem)).wf = true := rfl

theorem Mem.wf_cisRead {m : Mem} (w : Nat) (h : m.wf = true) : (m.cisRead w).2.wf = true := by
  unfold Mem.cisRead; split <;> exact h

theorem deepRead_wf (c : Chip) {m : Mem} (k off u : Nat) (h : m.wf = true) : (deepRead c m k off u).2.2.wf = true := by
  have pick : ∀ (p : Prop) [Decidable p] (x y : Ecc × Chip × Mem), x.2.2.wf = true → y.2.2.wf = true →
      (if p then x else y).2.2.wf = true := by
    intro p _ x y hx hy
    split
    · exact hx
    · exact hy
  unfold deepRead
  split
  · exact h
  · split
    · split <;> exact h
    · simp only
      split
      · exact h
      · exact h
      · exact pick _ _ _ h h

theorem readCis_wf (c : Chip) {m : Mem} (p a x n net : Nat) (h : m.wf = true) : (readCis c m p a x n net).mem.wf = true :=
  Mem.wf_cisRead _ h

theorem writeCis_wf (c : Chip) {m : Mem} (p a x net : Nat) (d : List Byte) (h : m.wf = true) :
    (writeCis c m p a x net d).mem.wf = true := by
  unfold writeCis
  split
  · rw [Mem.wf_iff] at h ⊢; exact ⟨Memory.wf_writeN _ _ h.1, h.2⟩
  · have h' := Mem.wf_cisRead (x / 8) h
    simp only
    split
    · exact h'
    · rw [Mem.wf_iff] at h' ⊢; exact ⟨Memory.wf_writeN _ _ h'.1, h'.2⟩

theorem readDeep_wf (c : Chip) {m : Mem} (p a k g off n net : Nat) (h : m.wf = true) : (readDeep c m p a k g off n net).mem.wf = true := by
  unfold readDeep
  split
  · exact h
  · exact deepRead_wf _ _ _ _ h

theorem writeDeep_wf (c : Chip) {m : Mem} (p a k g off net : Nat) (d : List Byte) (h : m.wf = true) :
    (writeDeep c m p a k g off net d).mem.wf = true := by
  unfold writeDeep
  split
  · exact h
  · simp only
    split
    · rw [Mem.wf_iff] at h ⊢; exact ⟨h.1, Memory.wf_writeN _ _ h.2.1, h.2.2⟩
    · have h' := deepRead_wf c k off (deepKey k g off / 32) h
      split
      · exact h'
      · rw [Mem.wf_iff] at h' ⊢; exact ⟨h'.1, Memory.wf_writeN _ _ h'.2.1, h'.2.2⟩

theorem designRead_wf (p net : Nat) (svc : Bool) (fuel a n : Nat) (c : Chip) {m : Mem} (h : m.wf = true) :
    (designRead p net svc fuel a n c m).mem.wf = true := by
  induction fuel generalizing a n c m with
  | zero => exact h
  | succ fuel ih =>
    cases n with
    | zero => exact h
    | succ n =>
      simp only [designRead]
      apply ih
      split
      · exact readCis_wf _ _ _ _ _ _ h
      · split
        · exact readDeep_wf _ _ _ _ _ _ _ _ h
        · split
          · exact h
          · exact readDeep_wf _ _ _ _ _ _ _ _ h
      · exact h

theorem designWrite_wf (p net : Nat) (svc : Bool) (fuel a : Nat) (d : List Byte) (c : Chip) {m : Mem} (h : m.wf = true) :
    (designWrite p net svc fuel a d c m).mem.wf = true := by
  induction fuel generalizing a d c m with
  | zero => exact h
  | succ fuel ih =>
    cases d with
    | nil => exact h
    | cons b d =>
      simp only [designWrite]
      apply ih
      split
      · exact writeCis_wf _ _ _ _ _ _ h
      · exact writeDeep_wf _ _ _ _ _ _ _ _ h
      · exact h

theorem netRead_wf (c : Chip) {m : Mem} (p a n : Nat) (svc : Bool) (h : m.wf = true) : (netRead c m p a n svc).mem.wf = true := by
  unfold netRead
  split
  · exact h
  · split
    · exact h
    · exact h
    · exact designRead_wf _ _ _ _ _ _ _ h

theorem netWrite_wf (c : Chip) {m : Mem} (p a : Nat) (d : List Byte) (svc : Bool) (h : m.wf = true) :
    (netWrite c m p a d svc).mem.wf = true := by
  unfold netWrite
  split
  · exact h
  · split
    · exact h
    · exact h
    · exact designWrite_wf _ _ _ _ _ _ _ h

theorem netAtomic_wf (c : Chip) {m : Mem} (p a n : Nat) (svc : Bool) (f : Nat → Nat) (h : m.wf = true) :
    (netAtomic c m p a n svc f).mem.wf = true := by
  unfold netAtomic
  repeat' split
  all_goals first | exact h | skip
  · simp only
    split
    · exact writeCis_wf _ _ _ _ _ _ (readCis_wf _ _ _ _ _ _ h)
    · exact readCis_wf _ _ _ _ _ _ h

theorem sramEcc_wf (c : Chip) {m : Mem} (w : Nat) (h : m.wf = true) : (sramEcc c m w).2.2.wf = true := by
  unfold sramEcc; split <;> exact h

theorem sramRead_wf (fuel a n : Nat) (c : Chip) {m : Mem} (h : m.wf = true) : (sramRead fuel a n c m).mem.wf = true := by
  induction fuel generalizing a n c m with
  | zero => exact h
  | succ fuel ih =>
    cases n with
    | zero => exact h
    | succ n => simp only [sramRead]; exact ih _ _ _ (sramEcc_wf _ _ h)

theorem sramWrite_wf (fuel a : Nat) (d : List Byte) (c : Chip) {m : Mem} (h : m.wf = true) :
    (sramWrite fuel a d c m).mem.wf = true := by
  induction fuel generalizing a d c m with
  | zero => exact h
  | succ fuel ih =>
    cases d with
    | nil => exact h
    | cons b d =>
      simp only [sramWrite]
      apply ih
      have key : ∀ (x : Ecc × Chip × Mem), x.2.2.wf = true → (if x.1 = Ecc.bad then x.2.2 else
          { x.2.2 with sram := Memory.writeN x.2.2.sram a ((b :: d).take (min (b :: d).length (8 - a % 8))) }).wf = true := by
        intro x hx
        split
        · exact hx
        · rw [Mem.wf_iff] at hx ⊢; exact ⟨hx.1, hx.2.1, Memory.wf_writeN _ _ hx.2.2.1, hx.2.2.2⟩
      apply key
      split
      · exact h
      · exact sramEcc_wf _ _ h

end Sys2Proof.Machine
end

