-- ==== Sys2Proof/Laws/NatMap.lean ====
section
/-! SUPPORT. Laws of the sparse tables: a read after a write, and the canonical form that every write keeps. -/

namespace Sys2Proof.Machine

theorem NatMap.find_erase_same (d : Nat) (m : NatMap) (k : Nat) : NatMap.find d (m.erase k) k = d := by
  induction m with
  | nil => rfl
  | cons e m ih => obtain ⟨a, v⟩ := e; by_cases h : a = k <;> simp [NatMap.erase, NatMap.find, h, ih]

theorem NatMap.find_erase_ne (d : Nat) (m : NatMap) {j k : Nat} (h : j ≠ k) :
    NatMap.find d (m.erase k) j = NatMap.find d m j := by
  induction m with
  | nil => rfl
  | cons e m ih =>
    obtain ⟨a, v⟩ := e
    by_cases ha : a = k
    · subst ha; simp [NatMap.erase, NatMap.find, ih, h.symm]
    · simp [NatMap.erase, NatMap.find, ha, ih]

theorem NatMap.find_insert_same (d : Nat) (m : NatMap) (k v : Nat) : NatMap.find d (m.insert k v) k = v := by
  induction m with
  | nil => simp [NatMap.insert, NatMap.find]
  | cons e m ih =>
    obtain ⟨a, w⟩ := e
    unfold NatMap.insert
    split
    · simp [NatMap.find]
    · split
      · simp [NatMap.find]
      · simp [NatMap.find, *]

theorem NatMap.find_insert_ne (d : Nat) (m : NatMap) {j k : Nat} (v : Nat) (h : j ≠ k) :
    NatMap.find d (m.insert k v) j = NatMap.find d m j := by
  induction m with
  | nil => simp [NatMap.insert, NatMap.find, h.symm]
  | cons e m ih =>
    obtain ⟨a, w⟩ := e
    unfold NatMap.insert
    split
    · simp [NatMap.find, h.symm]
    · split
      · next ha => subst ha; simp [NatMap.find, h.symm]
      · simp [NatMap.find, ih]

/-- Reading after one write: the value at the key written, every other key as before. -/
theorem NatMap.find_put (d : Nat) (m : NatMap) (j k v : Nat) :
    NatMap.find d (NatMap.put d m k v) j = if j = k then v else NatMap.find d m j := by
  unfold NatMap.put
  by_cases h : j = k
  · subst h; split <;> simp_all [NatMap.find_erase_same, NatMap.find_insert_same]
  · split <;> simp [h, NatMap.find_erase_ne, NatMap.find_insert_ne]

end Sys2Proof.Machine
end

