-- ==== Sys2Proof/Laws/State.lean ====
section
/-! SUPPORT. One lemma for each part of the state under each named update: what an update does not name is unchanged. -/

namespace Sys2Proof.Machine

/-! Fields -/

/-- Two fields or instances have different keys. -/
theorem Fld.key_inj {f g : Fld} {i j : Nat} : f.key i = g.key j ↔ f = g ∧ i = j := by
  have hf := f.ctorIdx_lt
  have hg := g.ctorIdx_lt
  constructor
  · intro h
    unfold Fld.key at h
    exact ⟨Fld.ctorIdx_inj (by omega), by omega⟩
  · rintro ⟨rfl, rfl⟩; rfl

/-- A field read after one write: the value cut to the field's width at the field written, every other field as before. -/
theorem Chip.get_set (c : Chip) (f g : Fld) (i j v : Nat) :
    (c.set f i v).get g j = if g = f ∧ j = i then f.clip v else c.get g j := by
  unfold Chip.set Chip.get
  by_cases h : g = f
  · subst h
    simp only [NatMap.find_put, Fld.key_inj, true_and]
  · rw [if_neg (fun h' => h h'.1)]
    show NatMap.find g.reset (NatMap.put f.reset c.fld (f.key i) (f.clip v)) (g.key j) = _
    have hk : g.key j ≠ f.key i := fun e => h (Fld.key_inj.1 e).1
    unfold NatMap.put
    split
    · exact NatMap.find_erase_ne _ _ hk
    · exact NatMap.find_insert_ne _ _ _ hk

@[simp] theorem Chip.get_set_same (c : Chip) (f : Fld) (i v : Nat) : (c.set f i v).get f i = f.clip v := by
  simp [Chip.get_set]

theorem Chip.get_set_ne (c : Chip) {f g : Fld} {i j : Nat} (v : Nat) (h : ¬(g = f ∧ j = i)) :
    (c.set f i v).get g j = c.get g j := by
  rw [Chip.get_set, if_neg h]

/-- A value that fits its field is kept whole. -/
theorem Fld.clip_lt {f : Fld} {v : Nat} (h : v < 2 ^ f.width) : f.clip v = v := by
  unfold Fld.clip
  split
  · rfl
  · exact Nat.mod_eq_of_lt h

theorem Fld.clip_zero (f : Fld) : f.clip 0 = 0 := by
  unfold Fld.clip; split <;> simp

/-! What a field write leaves alone -/

@[simp] theorem Chip.set_grade (c : Chip) (f : Fld) (i v : Nat) : (c.set f i v).grade = c.grade := by cases c; rfl
@[simp] theorem Chip.set_stepping (c : Chip) (f : Fld) (i v : Nat) : (c.set f i v).stepping = c.stepping := by cases c; rfl
@[simp] theorem Chip.set_suffixN (c : Chip) (f : Fld) (i v : Nat) : (c.set f i v).suffixN = c.suffixN := by cases c; rfl
@[simp] theorem Chip.set_x16 (c : Chip) (f : Fld) (i v : Nat) : (c.set f i v).x16 = c.x16 := by cases c; rfl
@[simp] theorem Chip.set_lbSel (c : Chip) (f : Fld) (i v : Nat) : (c.set f i v).lbSel = c.lbSel := by cases c; rfl
@[simp] theorem Chip.set_now (c : Chip) (f : Fld) (i v : Nat) : (c.set f i v).now = c.now := by cases c; rfl
@[simp] theorem Chip.set_period (c : Chip) (f : Fld) (i v : Nat) : (c.set f i v).period = c.period := by cases c; rfl
@[simp] theorem Chip.set_free (c : Chip) (f : Fld) (i v : Nat) : (c.set f i v).free = c.free := by cases c; rfl
@[simp] theorem Chip.set_latch (c : Chip) (f : Fld) (i v : Nat) : (c.set f i v).latch = c.latch := by cases c; rfl
@[simp] theorem Chip.set_held (c : Chip) (f : Fld) (i v : Nat) : (c.set f i v).held = c.held := by cases c; rfl
@[simp] theorem Chip.set_resp (c : Chip) (f : Fld) (i v : Nat) : (c.set f i v).resp = c.resp := by cases c; rfl
@[simp] theorem Chip.set_tokens (c : Chip) (f : Fld) (i v : Nat) : (c.set f i v).tokens = c.tokens := by cases c; rfl
@[simp] theorem Chip.set_sump (c : Chip) (f : Fld) (i v : Nat) : (c.set f i v).sump = c.sump := by cases c; rfl
@[simp] theorem Chip.set_posts (c : Chip) (f : Fld) (i v : Nat) : (c.set f i v).posts = c.posts := by cases c; rfl
@[simp] theorem Chip.set_trc (c : Chip) (f : Fld) (i v : Nat) : (c.set f i v).trc = c.trc := by cases c; rfl
@[simp] theorem Chip.set_recs (c : Chip) (f : Fld) (i v : Nat) : (c.set f i v).recs = c.recs := by cases c; rfl
@[simp] theorem Chip.set_lines (c : Chip) (f : Fld) (i v : Nat) : (c.set f i v).lines = c.lines := by cases c; rfl
@[simp] theorem Chip.set_xrise (c : Chip) (f : Fld) (i v : Nat) : (c.set f i v).xrise = c.xrise := by cases c; rfl
@[simp] theorem Chip.set_reps (c : Chip) (f : Fld) (i v : Nat) : (c.set f i v).reps = c.reps := by cases c; rfl
@[simp] theorem Chip.set_imgs (c : Chip) (f : Fld) (i v : Nat) : (c.set f i v).imgs = c.imgs := by cases c; rfl
@[simp] theorem Chip.set_syms (c : Chip) (f : Fld) (i v : Nat) : (c.set f i v).syms = c.syms := by cases c; rfl
@[simp] theorem Chip.set_flt (c : Chip) (f : Fld) (i v : Nat) : (c.set f i v).flt = c.flt := by cases c; rfl
@[simp] theorem Chip.set_host (c : Chip) (f : Fld) (i v : Nat) : (c.set f i v).host = c.host := by cases c; rfl
@[simp] theorem Chip.set_waiting (c : Chip) (f : Fld) (i v : Nat) : (c.set f i v).waiting = c.waiting := by cases c; rfl
@[simp] theorem Chip.set_txns (c : Chip) (f : Fld) (i v : Nat) : (c.set f i v).txns = c.txns := by cases c; rfl
@[simp] theorem Chip.set_dma (c : Chip) (f : Fld) (i v : Nat) : (c.set f i v).dma = c.dma := by cases c; rfl
@[simp] theorem Chip.set_txTs (c : Chip) (f : Fld) (i v : Nat) : (c.set f i v).txTs = c.txTs := by cases c; rfl
@[simp] theorem Chip.set_frames (c : Chip) (f : Fld) (i v : Nat) : (c.set f i v).frames = c.frames := by cases c; rfl
@[simp] theorem Chip.set_fwOut (c : Chip) (f : Fld) (i v : Nat) : (c.set f i v).fwOut = c.fwOut := by cases c; rfl
@[simp] theorem Chip.set_utWait (c : Chip) (f : Fld) (i v : Nat) : (c.set f i v).utWait = c.utWait := by cases c; rfl
@[simp] theorem Chip.set_edges (c : Chip) (f : Fld) (i v : Nat) : (c.set f i v).edges = c.edges := by cases c; rfl
@[simp] theorem Chip.set_fab (c : Chip) (f : Fld) (i v : Nat) : (c.set f i v).fab = c.fab := by cases c; rfl
@[simp] theorem Chip.set_lanes (c : Chip) (f : Fld) (i v : Nat) : (c.set f i v).lanes = c.lanes := by cases c; rfl
@[simp] theorem Chip.set_rimFrame (c : Chip) (f : Fld) (i v : Nat) : (c.set f i v).rimFrame = c.rimFrame := by cases c; rfl
@[simp] theorem Chip.set_rails (c : Chip) (f : Fld) (i v : Nat) : (c.set f i v).rails = c.rails := by cases c; rfl
@[simp] theorem Chip.set_calls (c : Chip) (f : Fld) (i v : Nat) : (c.set f i v).calls = c.calls := by cases c; rfl
@[simp] theorem Chip.set_utAsm (c : Chip) (f : Fld) (i v : Nat) : (c.set f i v).utAsm = c.utAsm := by cases c; rfl

/-! What an answer leaves alone -/

@[simp] theorem Chip.answer_get (c : Chip) (st : Status) (v : Nat) (d : List Byte) (f : Fld) (i : Nat) : (c.answer st v d).get f i = c.get f i := by cases c; rfl
@[simp] theorem Chip.answer_resp (c : Chip) (st : Status) (v : Nat) (d : List Byte) : (c.answer st v d).resp = ⟨st, v, d⟩ := by cases c; rfl
@[simp] theorem Chip.answer_grade (c : Chip) (st : Status) (v : Nat) (d : List Byte) : (c.answer st v d).grade = c.grade := by cases c; rfl
@[simp] theorem Chip.answer_stepping (c : Chip) (st : Status) (v : Nat) (d : List Byte) : (c.answer st v d).stepping = c.stepping := by cases c; rfl
@[simp] theorem Chip.answer_suffixN (c : Chip) (st : Status) (v : Nat) (d : List Byte) : (c.answer st v d).suffixN = c.suffixN := by cases c; rfl
@[simp] theorem Chip.answer_x16 (c : Chip) (st : Status) (v : Nat) (d : List Byte) : (c.answer st v d).x16 = c.x16 := by cases c; rfl
@[simp] theorem Chip.answer_lbSel (c : Chip) (st : Status) (v : Nat) (d : List Byte) : (c.answer st v d).lbSel = c.lbSel := by cases c; rfl
@[simp] theorem Chip.answer_now (c : Chip) (st : Status) (v : Nat) (d : List Byte) : (c.answer st v d).now = c.now := by cases c; rfl
@[simp] theorem Chip.answer_period (c : Chip) (st : Status) (v : Nat) (d : List Byte) : (c.answer st v d).period = c.period := by cases c; rfl
@[simp] theorem Chip.answer_free (c : Chip) (st : Status) (v : Nat) (d : List Byte) : (c.answer st v d).free = c.free := by cases c; rfl
@[simp] theorem Chip.answer_fld (c : Chip) (st : Status) (v : Nat) (d : List Byte) : (c.answer st v d).fld = c.fld := by cases c; rfl
@[simp] theorem Chip.answer_latch (c : Chip) (st : Status) (v : Nat) (d : List Byte) : (c.answer st v d).latch = c.latch := by cases c; rfl
@[simp] theorem Chip.answer_held (c : Chip) (st : Status) (v : Nat) (d : List Byte) : (c.answer st v d).held = c.held := by cases c; rfl
@[simp] theorem Chip.answer_tokens (c : Chip) (st : Status) (v : Nat) (d : List Byte) : (c.answer st v d).tokens = c.tokens := by cases c; rfl
@[simp] theorem Chip.answer_sump (c : Chip) (st : Status) (v : Nat) (d : List Byte) : (c.answer st v d).sump = c.sump := by cases c; rfl
@[simp] theorem Chip.answer_posts (c : Chip) (st : Status) (v : Nat) (d : List Byte) : (c.answer st v d).posts = c.posts := by cases c; rfl
@[simp] theorem Chip.answer_trc (c : Chip) (st : Status) (v : Nat) (d : List Byte) : (c.answer st v d).trc = c.trc := by cases c; rfl
@[simp] theorem Chip.answer_recs (c : Chip) (st : Status) (v : Nat) (d : List Byte) : (c.answer st v d).recs = c.recs := by cases c; rfl
@[simp] theorem Chip.answer_lines (c : Chip) (st : Status) (v : Nat) (d : List Byte) : (c.answer st v d).lines = c.lines := by cases c; rfl
@[simp] theorem Chip.answer_xrise (c : Chip) (st : Status) (v : Nat) (d : List Byte) : (c.answer st v d).xrise = c.xrise := by cases c; rfl
@[simp] theorem Chip.answer_reps (c : Chip) (st : Status) (v : Nat) (d : List Byte) : (c.answer st v d).reps = c.reps := by cases c; rfl
@[simp] theorem Chip.answer_imgs (c : Chip) (st : Status) (v : Nat) (d : List Byte) : (c.answer st v d).imgs = c.imgs := by cases c; rfl
@[simp] theorem Chip.answer_syms (c : Chip) (st : Status) (v : Nat) (d : List Byte) : (c.answer st v d).syms = c.syms := by cases c; rfl
@[simp] theorem Chip.answer_flt (c : Chip) (st : Status) (v : Nat) (d : List Byte) : (c.answer st v d).flt = c.flt := by cases c; rfl
@[simp] theorem Chip.answer_host (c : Chip) (st : Status) (v : Nat) (d : List Byte) : (c.answer st v d).host = c.host := by cases c; rfl
@[simp] theorem Chip.answer_waiting (c : Chip) (st : Status) (v : Nat) (d : List Byte) : (c.answer st v d).waiting = c.waiting := by cases c; rfl
@[simp] theorem Chip.answer_txns (c : Chip) (st : Status) (v : Nat) (d : List Byte) : (c.answer st v d).txns = c.txns := by cases c; rfl
@[simp] theorem Chip.answer_dma (c : Chip) (st : Status) (v : Nat) (d : List Byte) : (c.answer st v d).dma = c.dma := by cases c; rfl
@[simp] theorem Chip.answer_txTs (c : Chip) (st : Status) (v : Nat) (d : List Byte) : (c.answer st v d).txTs = c.txTs := by cases c; rfl
@[simp] theorem Chip.answer_frames (c : Chip) (st : Status) (v : Nat) (d : List Byte) : (c.answer st v d).frames = c.frames := by cases c; rfl
@[simp] theorem Chip.answer_fwOut (c : Chip) (st : Status) (v : Nat) (d : List Byte) : (c.answer st v d).fwOut = c.fwOut := by cases c; rfl
@[simp] theorem Chip.answer_utWait (c : Chip) (st : Status) (v : Nat) (d : List Byte) : (c.answer st v d).utWait = c.utWait := by cases c; rfl
@[simp] theorem Chip.answer_edges (c : Chip) (st : Status) (v : Nat) (d : List Byte) : (c.answer st v d).edges = c.edges := by cases c; rfl
@[simp] theorem Chip.answer_fab (c : Chip) (st : Status) (v : Nat) (d : List Byte) : (c.answer st v d).fab = c.fab := by cases c; rfl
@[simp] theorem Chip.answer_lanes (c : Chip) (st : Status) (v : Nat) (d : List Byte) : (c.answer st v d).lanes = c.lanes := by cases c; rfl
@[simp] theorem Chip.answer_rimFrame (c : Chip) (st : Status) (v : Nat) (d : List Byte) : (c.answer st v d).rimFrame = c.rimFrame := by cases c; rfl
@[simp] theorem Chip.answer_rails (c : Chip) (st : Status) (v : Nat) (d : List Byte) : (c.answer st v d).rails = c.rails := by cases c; rfl
@[simp] theorem Chip.answer_calls (c : Chip) (st : Status) (v : Nat) (d : List Byte) : (c.answer st v d).calls = c.calls := by cases c; rfl
@[simp] theorem Chip.answer_utAsm (c : Chip) (st : Status) (v : Nat) (d : List Byte) : (c.answer st v d).utAsm = c.utAsm := by cases c; rfl

/-! Acting on a part of the state -/

@[simp] theorem State.onChip_chip (s : State) (f : Chip → Chip) : (s.onChip f).chip = f s.chip := by cases s; rfl
@[simp] theorem State.onChip_arr (s : State) (f : Chip → Chip) : (s.onChip f).arr = s.arr := by cases s; rfl
@[simp] theorem State.onChip_mem (s : State) (f : Chip → Chip) : (s.onChip f).mem = s.mem := by cases s; rfl
@[simp] theorem State.onChip_pending (s : State) (f : Chip → Chip) : (s.onChip f).pending = s.pending := by cases s; rfl
@[simp] theorem State.onArr_chip (s : State) (f : Chip → Arr → Chip × Arr) : (s.onArr f).chip = (f s.chip s.arr).1 := by cases s; rfl
@[simp] theorem State.onArr_arr (s : State) (f : Chip → Arr → Chip × Arr) : (s.onArr f).arr = (f s.chip s.arr).2 := by cases s; rfl
@[simp] theorem State.onArr_mem (s : State) (f : Chip → Arr → Chip × Arr) : (s.onArr f).mem = s.mem := by cases s; rfl
@[simp] theorem State.onArr_pending (s : State) (f : Chip → Arr → Chip × Arr) : (s.onArr f).pending = s.pending := by cases s; rfl
@[simp] theorem State.onMem_chip (s : State) (f : Chip → Mem → Chip × Mem) : (s.onMem f).chip = (f s.chip s.mem).1 := by cases s; rfl
@[simp] theorem State.onMem_arr (s : State) (f : Chip → Mem → Chip × Mem) : (s.onMem f).arr = s.arr := by cases s; rfl
@[simp] theorem State.onMem_mem (s : State) (f : Chip → Mem → Chip × Mem) : (s.onMem f).mem = (f s.chip s.mem).2 := by cases s; rfl
@[simp] theorem State.onMem_pending (s : State) (f : Chip → Mem → Chip × Mem) : (s.onMem f).pending = s.pending := by cases s; rfl
@[simp] theorem State.onAll_chip (s : State) (f : Chip → Arr → Mem → All) : (s.onAll f).chip = (f s.chip s.arr s.mem).1 := by cases s; rfl
@[simp] theorem State.onAll_arr (s : State) (f : Chip → Arr → Mem → All) : (s.onAll f).arr = (f s.chip s.arr s.mem).2.1 := by cases s; rfl
@[simp] theorem State.onAll_mem (s : State) (f : Chip → Arr → Mem → All) : (s.onAll f).mem = (f s.chip s.arr s.mem).2.2 := by cases s; rfl
@[simp] theorem State.onAll_pending (s : State) (f : Chip → Arr → Mem → All) : (s.onAll f).pending = s.pending := by cases s; rfl

end Sys2Proof.Machine
end

