-- ==== Sys2Proof/Laws/Signals.lean ====
section
/-! SUPPORT. What raising an interrupt source, posting tokens, logging a fault and moving FAULT_N may change: fields of the scheduler, of the
interrupt controller, MSI-X pending bits and the fault block, the token queues, the fault log and the messages to hosts, and nothing else. -/

namespace Sys2Proof.Machine

/-- `c'` differs from `c` by signals only. -/
structure Chip.Quiet (c c' : Chip) : Prop where
  get : ∀ f i, f.signal = false → c'.get f i = c.get f i
  rest : { c' with fld := c.fld, tokens := c.tokens, sump := c.sump, posts := c.posts, host := c.host, flt := c.flt } = c

namespace Chip.Quiet

theorem refl (c : Chip) : Quiet c c := ⟨fun _ _ _ => rfl, rfl⟩

theorem trans {c d e : Chip} (h : Quiet c d) (k : Quiet d e) : Quiet c e := by
  refine ⟨fun f i hf => (k.get f i hf).trans (h.get f i hf), ?_⟩
  have hk := k.rest
  have hh := h.rest
  cases c; cases d; cases e
  simp only [Chip.mk.injEq] at hk hh ⊢
  simp_all

/-- A write of a signal field. -/
theorem put {c : Chip} {f : Fld} (i v : Nat) (hf : f.signal = true) : Quiet c (c.set f i v) :=
  ⟨fun g j hg => Chip.get_set_ne c v (fun h => by rw [h.1, hf] at hg; cases hg), rfl⟩

theorem cond {c d e : Chip} {p : Prop} [Decidable p] (h : Quiet c d) (k : Quiet c e) : Quiet c (if p then d else e) := by
  split
  · exact h
  · exact k

theorem fold {α : Type} (g : Chip → α → Chip) (l : List α) (c : Chip) (h : ∀ d x, Quiet d (g d x)) : Quiet c (l.foldl g c) := by
  induction l generalizing c with
  | nil => exact refl c
  | cons x l ih => exact (h c x).trans (ih _)

end Chip.Quiet

theorem Chip.bump_quiet (c : Chip) {f : Fld} (i : Nat) (hf : f.signal = true) : Chip.Quiet c (c.bump f i) := Chip.Quiet.put _ _ hf

theorem Chip.count_quiet (c : Chip) {f : Fld} (i n : Nat) (hf : f.signal = true) : Chip.Quiet c (c.count f i n) := Chip.Quiet.put _ _ hf

theorem Chip.raiseTo_quiet (c : Chip) {f : Fld} (i n : Nat) (hf : f.signal = true) : Chip.Quiet c (c.raiseTo f i n) :=
  Chip.Quiet.cond (Chip.Quiet.put _ _ hf) (Chip.Quiet.refl c)

theorem Chip.setPend_quiet (c : Chip) (s : Nat) : Chip.Quiet c (c.setPend s) := Chip.Quiet.cond (Chip.Quiet.refl c) (Chip.Quiet.put _ _ rfl)

theorem Chip.thrWake_quiet (c : Chip) (t : Nat) : Chip.Quiet c (c.thrWake t) :=
  Chip.Quiet.cond (((Chip.Quiet.put _ _ rfl).trans (Chip.Quiet.put _ _ rfl)).trans (Chip.bump_quiet _ _ rfl)) (Chip.Quiet.refl c)

theorem Chip.thrSlot_quiet (c : Chip) (k : Nat) : Chip.Quiet c (c.thrSlot k) := by
  unfold Chip.thrSlot
  split
  · exact Chip.Quiet.refl c
  · exact (Chip.Quiet.put _ _ rfl).trans (Chip.Quiet.put _ _ rfl)
  · exact Chip.Quiet.cond (((Chip.Quiet.put _ _ rfl).trans (Chip.Quiet.put _ _ rfl)).trans (Chip.Quiet.put _ _ rfl)) (Chip.Quiet.refl c)

theorem Chip.schSettle_quiet (c : Chip) : Chip.Quiet c c.schSettle :=
  (Chip.Quiet.fold _ _ c Chip.thrWake_quiet).trans (Chip.Quiet.fold _ _ _ fun d _ => Chip.Quiet.fold _ _ d Chip.thrSlot_quiet)

theorem Chip.postAccepted_quiet (c : Chip) (k : Token) (o : Nat) (h : 8 ≤ k.src) : Chip.Quiet c (c.postAccepted k o) := by
  unfold Chip.postAccepted
  rw [if_neg (by omega)]
  exact (Chip.Quiet.put _ _ rfl).trans (Chip.Quiet.put _ _ rfl)

theorem Chip.sumpTouch_quiet (c : Chip) : Chip.Quiet c c.sumpTouch := by
  unfold Chip.sumpTouch
  simp only
  exact (Chip.Quiet.cond (Chip.Quiet.put _ _ rfl) (Chip.Quiet.refl c)).trans (Chip.raiseTo_quiet _ _ _ rfl)

theorem Chip.postPut_quiet (c : Chip) (k : Token) (place : Nat) (hk : 8 ≤ k.src) : Chip.Quiet c (c.postPut k place) := by
  unfold Chip.postPut
  split
  · exact Chip.Quiet.trans (d := { c with tokens := c.tokens ++ [k] }) ⟨fun _ _ _ => rfl, rfl⟩ (Chip.postAccepted_quiet _ _ _ hk)
  · have h : Chip.Quiet c ({ c with sump := c.sump ++ [k] }.sumpTouch.postAccepted k 2) :=
      Chip.Quiet.trans (d := { c with sump := c.sump ++ [k] }) ⟨fun _ _ _ => rfl, rfl⟩
        ((Chip.sumpTouch_quiet _).trans (Chip.postAccepted_quiet _ _ _ hk))
    exact Chip.Quiet.cond (h.trans (Chip.setPend_quiet _ _)) h

theorem Chip.post_quiet (c : Chip) (k : Token) (hk : 8 ≤ k.src) : Chip.Quiet c (c.post k) := by
  unfold Chip.post
  split
  · have h : Chip.Quiet c { c with posts := c.posts ++ [{ k with since := c.now }] } := ⟨fun _ _ _ => rfl, rfl⟩
    exact Chip.Quiet.cond (h.trans (Chip.setPend_quiet _ _)) h
  · exact Chip.postPut_quiet _ _ _ hk

theorem Chip.icPost_quiet (c : Chip) (s : Nat) : Chip.Quiet c (c.icPost s) := Chip.Quiet.cond (Chip.post_quiet _ _ (by simp)) (Chip.Quiet.refl c)

theorem Chip.icSettle_quiet (c : Chip) : Chip.Quiet c c.icSettle :=
  (Chip.Quiet.fold _ _ c fun d _ => Chip.Quiet.fold _ _ d Chip.icPost_quiet).trans (Chip.schSettle_quiet _)

/-- An event of an interrupt source changes signals only. -/
theorem Chip.raise_quiet (c : Chip) (s : Nat) : Chip.Quiet c (c.raise s) := (Chip.setPend_quiet c s).trans (Chip.icSettle_quiet _)

/-- Events of several sources change signals only. -/
theorem Chip.raiseAll_quiet (c : Chip) (ss : List Nat) : Chip.Quiet c (c.raiseAll ss) :=
  (Chip.Quiet.fold _ _ c Chip.setPend_quiet).trans (Chip.icSettle_quiet _)

/-- The end of a core's post changes no field: it ends the post's transaction and answers the core. -/
theorem Chip.postEnd_get (c : Chip) (k : Token) (f : Fld) (i : Nat) : (c.postEnd k).get f i = c.get f i := by
  unfold Chip.postEnd
  split
  · split <;> rfl
  · rfl

theorem Chip.postAccepted_get (c : Chip) (k : Token) (o : Nat) (f : Fld) (i : Nat) (h : f.signal = false) : (c.postAccepted k o).get f i = c.get f i := by
  unfold Chip.postAccepted
  split
  · rw [Chip.postEnd_get]
    exact (Chip.Quiet.put _ _ rfl).get f i h
  · exact ((Chip.Quiet.put _ _ rfl).trans (Chip.Quiet.put _ _ rfl)).get f i h

theorem Chip.postPut_get (c : Chip) (k : Token) (place : Nat) (f : Fld) (i : Nat) (h : f.signal = false) : (c.postPut k place).get f i = c.get f i := by
  have sump : (({ c with sump := c.sump ++ [k] } : Chip).sumpTouch.postAccepted k 2).get f i = c.get f i := by
    rw [Chip.postAccepted_get _ _ _ _ _ h]
    exact (Chip.sumpTouch_quiet _).get f i h
  unfold Chip.postPut
  split
  · exact Chip.postAccepted_get _ _ _ _ _ h
  · simp only
    split
    · rw [(Chip.setPend_quiet _ _).get f i h]; exact sump
    · exact sump

theorem Chip.postsAccept_get (n : Nat) (c : Chip) (f : Fld) (i : Nat) (h : f.signal = false) : (Chip.postsAccept n c).get f i = c.get f i := by
  induction n generalizing c with
  | zero => rfl
  | succ n ih =>
    unfold Chip.postsAccept
    split
    · rfl
    · split
      · rfl
      · rw [ih, Chip.postPut_get _ _ _ _ _ h]; rfl

theorem Chip.sumpRefill_quiet (c : Chip) : Chip.Quiet c c.sumpRefill := ⟨fun _ _ _ => rfl, rfl⟩

/-- Refilling the matching store changes no field but signals. -/
theorem Chip.schRefill_get (c : Chip) (f : Fld) (i : Nat) (h : f.signal = false) : c.schRefill.get f i = c.get f i := by
  unfold Chip.schRefill
  simp only
  rw [(Chip.schSettle_quiet _).get f i h, Chip.postsAccept_get _ _ _ _ h, (Chip.sumpRefill_quiet c).get f i h]

/-- A fault-log entry changes signals only. -/
theorem Chip.logFault_quiet (c : Chip) (code p info : Nat) : Chip.Quiet c (c.logFault code p info) := by
  unfold Chip.logFault
  split
  · exact ⟨fun _ _ _ => rfl, rfl⟩
  · exact Chip.count_quiet _ _ _ rfl

/-- FAULT_N and its contributions are signals. -/
theorem Chip.faultN_quiet (c : Chip) : Chip.Quiet c c.faultN := by
  have h : Chip.Quiet c c.fltCauses := by
    unfold Chip.fltCauses
    simp only
    have h1 : Chip.Quiet c (if (List.range 4).any (fun d => c.on .H_LINK_FAIL d) then c.set .FLT_SRC_LINK 0 1 else c) := Chip.Quiet.cond (Chip.Quiet.put _ _ rfl) (Chip.Quiet.refl c)
    exact h1.trans (Chip.Quiet.cond (Chip.Quiet.put _ _ rfl) (Chip.Quiet.refl _))
  unfold Chip.faultN
  simp only
  exact h.trans (Chip.Quiet.cond (Chip.Quiet.cond (Chip.Quiet.refl _) ((Chip.Quiet.put _ _ rfl).trans (Chip.raise_quiet _ _))) (Chip.Quiet.put _ _ rfl))

/-- An MSI-X vector changes signals only. -/
theorem Chip.msi_quiet (c : Chip) (n v : Nat) : Chip.Quiet c (c.msi n v) := by
  unfold Chip.msi
  split
  · exact Chip.Quiet.put _ _ rfl
  · exact ⟨fun _ _ _ => rfl, rfl⟩

/-- An interrupt of a partition changes signals only. -/
theorem Chip.partIrq_quiet (c : Chip) (p v s : Nat) : Chip.Quiet c (c.partIrq p v s) := by
  unfold Chip.partIrq
  split
  · exact Chip.msi_quiet _ _ _
  · exact Chip.msi_quiet _ _ _
  · exact Chip.msi_quiet _ _ _
  · exact Chip.msi_quiet _ _ _
  · exact Chip.raise_quiet _ _
  · exact Chip.raise_quiet _ _
  · exact Chip.Quiet.refl c

/-- A pump event sets its bit, and for the rest changes signals only. -/
theorem Chip.pumpEvent_quiet (c : Chip) (f : Fld) (n p : Nat) : Chip.Quiet (c.set f p 1) (c.pumpEvent f n p) :=
  Chip.Quiet.cond (Chip.partIrq_quiet _ _ _ _) (Chip.Quiet.refl _)

/-- A probe event sets its bit, and for the rest changes signals only. -/
theorem Chip.probeEvent_quiet (c : Chip) (f : Fld) (n p : Nat) : Chip.Quiet (c.set f p 1) (c.probeEvent f n p) :=
  Chip.Quiet.cond (Chip.partIrq_quiet _ _ _ _) (Chip.Quiet.refl _)

/-- A design-memory error bit sets, and for the rest signals change only. -/
theorem Chip.dmErr_quiet (c : Chip) (f : Fld) (p : Nat) : Chip.Quiet (c.set f p 1) (c.dmErr f p) := Chip.raise_quiet _ _

/-! The pending bit of an event -/

theorem Chip.setPend_pend (c : Chip) {s : Nat} (h : s ≠ 0) (hs : s ≤ 1023) : (c.setPend s).get .IC_PEND_BIT s = 1 := by
  have hc : ¬(s = 0 ∨ 1023 < s) := by omega
  unfold Chip.setPend
  rw [if_neg hc, Chip.get_set_same]
  rfl

/-! Reading through a signal -/

theorem Chip.raise_get (c : Chip) (s : Nat) (f : Fld) (i : Nat) (h : f.signal = false) : (c.raise s).get f i = c.get f i := (Chip.raise_quiet c s).get f i h
theorem Chip.raiseAll_get (c : Chip) (s : List Nat) (f : Fld) (i : Nat) (h : f.signal = false) : (c.raiseAll s).get f i = c.get f i := (Chip.raiseAll_quiet c s).get f i h
theorem Chip.logFault_get (c : Chip) (code p info : Nat) (f : Fld) (i : Nat) (h : f.signal = false) : (c.logFault code p info).get f i = c.get f i := (Chip.logFault_quiet c code p info).get f i h
theorem Chip.faultN_get (c : Chip) (f : Fld) (i : Nat) (h : f.signal = false) : (c.faultN).get f i = c.get f i := (Chip.faultN_quiet c).get f i h

theorem Chip.Quiet.grade {c d : Chip} (h : Chip.Quiet c d) : d.grade = c.grade := by have := congrArg Chip.grade h.rest; exact this
theorem Chip.Quiet.stepping {c d : Chip} (h : Chip.Quiet c d) : d.stepping = c.stepping := by have := congrArg Chip.stepping h.rest; exact this
theorem Chip.Quiet.suffixN {c d : Chip} (h : Chip.Quiet c d) : d.suffixN = c.suffixN := by have := congrArg Chip.suffixN h.rest; exact this
theorem Chip.Quiet.x16 {c d : Chip} (h : Chip.Quiet c d) : d.x16 = c.x16 := by have := congrArg Chip.x16 h.rest; exact this
theorem Chip.Quiet.lbSel {c d : Chip} (h : Chip.Quiet c d) : d.lbSel = c.lbSel := by have := congrArg Chip.lbSel h.rest; exact this
theorem Chip.Quiet.now {c d : Chip} (h : Chip.Quiet c d) : d.now = c.now := by have := congrArg Chip.now h.rest; exact this
theorem Chip.Quiet.period {c d : Chip} (h : Chip.Quiet c d) : d.period = c.period := by have := congrArg Chip.period h.rest; exact this
theorem Chip.Quiet.free {c d : Chip} (h : Chip.Quiet c d) : d.free = c.free := by have := congrArg Chip.free h.rest; exact this
theorem Chip.Quiet.latch {c d : Chip} (h : Chip.Quiet c d) : d.latch = c.latch := by have := congrArg Chip.latch h.rest; exact this
theorem Chip.Quiet.held {c d : Chip} (h : Chip.Quiet c d) : d.held = c.held := by have := congrArg Chip.held h.rest; exact this
theorem Chip.Quiet.resp {c d : Chip} (h : Chip.Quiet c d) : d.resp = c.resp := by have := congrArg Chip.resp h.rest; exact this
theorem Chip.Quiet.recs {c d : Chip} (h : Chip.Quiet c d) : d.recs = c.recs := by have := congrArg Chip.recs h.rest; exact this
theorem Chip.Quiet.lines {c d : Chip} (h : Chip.Quiet c d) : d.lines = c.lines := by have := congrArg Chip.lines h.rest; exact this
theorem Chip.Quiet.xrise {c d : Chip} (h : Chip.Quiet c d) : d.xrise = c.xrise := by have := congrArg Chip.xrise h.rest; exact this
theorem Chip.Quiet.reps {c d : Chip} (h : Chip.Quiet c d) : d.reps = c.reps := by have := congrArg Chip.reps h.rest; exact this
theorem Chip.Quiet.imgs {c d : Chip} (h : Chip.Quiet c d) : d.imgs = c.imgs := by have := congrArg Chip.imgs h.rest; exact this
theorem Chip.Quiet.syms {c d : Chip} (h : Chip.Quiet c d) : d.syms = c.syms := by have := congrArg Chip.syms h.rest; exact this
theorem Chip.Quiet.waiting {c d : Chip} (h : Chip.Quiet c d) : d.waiting = c.waiting := by have := congrArg Chip.waiting h.rest; exact this
theorem Chip.Quiet.txns {c d : Chip} (h : Chip.Quiet c d) : d.txns = c.txns := by have := congrArg Chip.txns h.rest; exact this
theorem Chip.Quiet.dma {c d : Chip} (h : Chip.Quiet c d) : d.dma = c.dma := by have := congrArg Chip.dma h.rest; exact this
theorem Chip.Quiet.txTs {c d : Chip} (h : Chip.Quiet c d) : d.txTs = c.txTs := by have := congrArg Chip.txTs h.rest; exact this
theorem Chip.Quiet.frames {c d : Chip} (h : Chip.Quiet c d) : d.frames = c.frames := by have := congrArg Chip.frames h.rest; exact this
theorem Chip.Quiet.fwOut {c d : Chip} (h : Chip.Quiet c d) : d.fwOut = c.fwOut := by have := congrArg Chip.fwOut h.rest; exact this
theorem Chip.Quiet.utWait {c d : Chip} (h : Chip.Quiet c d) : d.utWait = c.utWait := by have := congrArg Chip.utWait h.rest; exact this
theorem Chip.Quiet.trc {c d : Chip} (h : Chip.Quiet c d) : d.trc = c.trc := by have := congrArg Chip.trc h.rest; exact this
theorem Chip.Quiet.edges {c d : Chip} (h : Chip.Quiet c d) : d.edges = c.edges := by have := congrArg Chip.edges h.rest; exact this
theorem Chip.Quiet.fab {c d : Chip} (h : Chip.Quiet c d) : d.fab = c.fab := by have := congrArg Chip.fab h.rest; exact this
theorem Chip.Quiet.lanes {c d : Chip} (h : Chip.Quiet c d) : d.lanes = c.lanes := by have := congrArg Chip.lanes h.rest; exact this
theorem Chip.Quiet.rimFrame {c d : Chip} (h : Chip.Quiet c d) : d.rimFrame = c.rimFrame := by have := congrArg Chip.rimFrame h.rest; exact this
theorem Chip.Quiet.rails {c d : Chip} (h : Chip.Quiet c d) : d.rails = c.rails := by have := congrArg Chip.rails h.rest; exact this
theorem Chip.Quiet.calls {c d : Chip} (h : Chip.Quiet c d) : d.calls = c.calls := by have := congrArg Chip.calls h.rest; exact this
theorem Chip.Quiet.utAsm {c d : Chip} (h : Chip.Quiet c d) : d.utAsm = c.utAsm := by have := congrArg Chip.utAsm h.rest; exact this

end Sys2Proof.Machine
end

