-- ==== Sys2Proof/Laws/Results.lean ====
section
/-! SUPPORT. The result registers (R93, R95): what producing a result, refusing, accepting and finishing a command write, and what they leave. -/

namespace Sys2Proof.Machine

/-- The fields that a command register's results live in. -/
def CmdReg.owns (r : CmdReg) (f : Fld) : Bool :=
  let (rdy, con, out, cm, cd, sq) := r.result
  f == rdy || f == con || f == out || f == cm || f == cd || f == sq || (r == .pmp && (f == .H_RES_CYC || f == .PMP_EVENT_RESULT))

/-- Producing a result leaves every field alone but those of the result register and the signals. -/
theorem Chip.putResult_get (c : Chip) (r : CmdReg) (i cmd seq outcome code : Nat) (f : Fld) (j : Nat)
    (hr : r.owns f = false) (hs : f.signal = false) : (c.putResult r i cmd seq outcome code).get f j = c.get f j := by
  cases r <;> simp only [CmdReg.owns, CmdReg.result, Bool.or_eq_false_iff, beq_eq_false_iff_ne, Bool.and_eq_false_iff] at hr <;>
    simp only [Chip.putResult, Chip.resultEvent, CmdReg.result]
  · obtain ⟨⟨⟨⟨⟨⟨h1, h2⟩, h3⟩, h4⟩, h5⟩, h6⟩, h7⟩ := hr
    have h7 : f ≠ .H_RES_CYC ∧ f ≠ .PMP_EVENT_RESULT := by rcases h7 with h | h; exacts [absurd rfl h, h]
    rw [(Chip.pumpEvent_quiet _ _ _ _).get f j hs]
    simp [Chip.get_set, *]
  all_goals
    obtain ⟨⟨⟨⟨⟨⟨h1, h2⟩, h3⟩, h4⟩, h5⟩, h6⟩, -⟩ := hr
    try rw [Chip.raise_get _ _ _ _ hs]
    simp [Chip.get_set, *]

/-- The chain of writes by which a result register takes a result (R95). -/
def Chip.resultBase (c : Chip) (r : CmdReg) (i cmd seq outcome code : Nat) : Chip :=
  (((((c.set r.result.1 i 1).set r.result.2.1 i 0).set r.result.2.2.1 i outcome).set r.result.2.2.2.1 i cmd).set
    r.result.2.2.2.2.1 i code).set r.result.2.2.2.2.2 i seq

/-- The fields of a result register after that chain. -/
theorem Chip.resultBase_get (c : Chip) (r : CmdReg) (i cmd seq outcome code : Nat) (f : Fld) :
    (c.resultBase r i cmd seq outcome code).get f i =
      if f = r.result.2.2.2.2.2 then r.result.2.2.2.2.2.clip seq
      else if f = r.result.2.2.2.2.1 then r.result.2.2.2.2.1.clip code
      else if f = r.result.2.2.2.1 then r.result.2.2.2.1.clip cmd
      else if f = r.result.2.2.1 then r.result.2.2.1.clip outcome
      else if f = r.result.2.1 then r.result.2.1.clip 0
      else if f = r.result.1 then r.result.1.clip 1 else c.get f i := by
  simp [Chip.resultBase, Chip.get_set]

/-- Producing a result: the chain of writes, and then the event of the register. -/
theorem Chip.putResult_eq (c : Chip) (r : CmdReg) (i cmd seq outcome code : Nat) :
    c.putResult r i cmd seq outcome code = (c.resultBase r i cmd seq outcome code).resultEvent r i := rfl

/-- The event of a result leaves the result register as it is. -/
theorem Chip.resultEvent_get (c : Chip) (r : CmdReg) (i : Nat) (f : Fld) (j : Nat) (hs : f.signal = false)
    (h1 : f ≠ .H_RES_CYC) (h2 : f ≠ .PMP_EVENT_RESULT) : (c.resultEvent r i).get f j = c.get f j := by
  cases r with
  | pmp =>
    show ((c.set .H_RES_CYC i (c.lastCycle i)).pumpEvent .PMP_EVENT_RESULT 0 i).get f j = _
    rw [(Chip.pumpEvent_quiet _ _ _ _).get f j hs, Chip.get_set_ne _ _ (fun h => h2 h.1), Chip.get_set_ne _ _ (fun h => h1 h.1)]
  | ptn => exact Chip.raise_get _ _ _ _ hs
  | ldr => exact Chip.raise_get _ _ _ _ hs
  | prb => rfl
  | mt => exact Chip.raise_get _ _ _ _ hs
  | rimLd => exact Chip.raise_get _ _ _ _ hs
  | pwr => rfl

end Sys2Proof.Machine
end

