-- ==== Sys2Proof/Tests/Witnesses.lean ====
section
/-! SUPPORT. For every clause of every statement that has hypotheses, a state and operands that meet all of them together. The clauses of one
statement are numbered in its order. -/

set_option Elab.async false

namespace Sys2Proof.Tests
open Sys2Proof Sys2Proof.Machine

/-- The state after reset, some time later, with the given fields set. -/
def w (l : List (Fld × Nat × Nat)) : State :=
  { State.reset with chip := { l.foldl (fun c x => c.set x.1 x.2.1 x.2.2) State.reset.chip with now := 1000000, period := 300000 } }
def wc (f : Chip → Chip) (l : List (Fld × Nat × Nat)) : State := { w l with chip := f (w l).chip }
def wa (a : Arr) (l : List (Fld × Nat × Nat)) : State := { w l with arr := a }
def svc : Init := .core 1 false

/-- Partition 0 owns bands 0 and 1, is bound to port 1 and runs. -/
def part0 : List (Fld × Nat × Nat) :=
  [(.PTN_CFG_ACTIVE, 0, 1), (.PTN_CFG_FIRST, 0, 0), (.PTN_CFG_COUNT, 0, 2), (.PTN_CFG_BIND, 0, 1), (.PMP_STATUS_STATE, 0, psRun)]
def bar2 : List (Fld × Nat × Nat) := [(.GLB_BAR2_SEL_PART, 1, 0), (.GLB_BAR2_SEL_WIN, 1, 3)]
def loads : List (Fld × Nat × Nat) := [(.PMP_STATUS_STATE, 0, psLoading), (.CQ_PEND, CmdReg.ldr.idx 0, 1), (.LDR_STATUS_STEP, 0, 3)]
def rimLoads : List (Fld × Nat × Nat) := [(.RIM_LD_STATUS_BUSY, 0, 1), (.H_RS_STATE, 0, 2), (.H_RS_MASK, 0, 255), (.RIM_LD_STATUS_ORIGIN, 0, 1)]
def mtRun : List (Fld × Nat × Nat) := [(.CQ_PEND, CmdReg.mt.idx 0, 1), (.H_MT_DUE, 0, 1000001)]
def ut : List (Fld × Nat × Nat) := [(.H_FW_DOWN, 0, 0), (.H_UT_VER, 1, 0x103)]

/-- An instruction word of opcode `op` whose operands read slots 3, 4, 5 and `d`, and a processor that is to execute it in step 2. -/
def wd (op prb snd d : Nat) : Nat := encodeWord (Word.make 0xBEEF 3 4 5 d op prb snd 17)
def bpW (word : Nat) : State :=
  wa { fword := [(7 * 4096 + 2, word)], pmap := [(7 * 4096 + 2, 9)], slotA := [(7 * 4096 + 3, 1), (7 * 4096 + 4, 1)] }
    (part0 ++ [(.PMP_SLEN_STEP_NOW, 0, 2)])
def badParity : Arr := { slotA := [(131071 * 4096 + 4095, 1)] }
def agW (iss : Nat) : State :=
  wa { fsched := [((Unit'.agent 2 1).num * 4096 + 2, iss * 2 ^ 128)], addr := [(9, 0x20)], wdata := [(9, 0x1122334455667788)] }
    (part0 ++ [(.PMP_SLEN_STEP_NOW, 0, 2), (.DM_MAP_VALID, 0, 1), (.DM_MAP_STACK, 0, 1), (.DM_MAP_GRANULE, 0, 3)])
def acc0 : Access := { agent := 9, kind := 3, place := 15, left := 5 }
def fw (word : Nat) : Arr := { istore := [(7 * 4096 + 2, word)] }
def rep0 : Repair := ⟨0, false, 7 * 4096 + 2, 5, false⟩
def repW (st : Nat) : State :=
  { wa { gword := [(7 * 4096 + 2, encodeWord 77)] } (part0 ++ [(.PMP_STATUS_STATE, 0, st)]) with
    chip := { (w (part0 ++ [(.PMP_STATUS_STATE, 0, st)])).chip with reps := [rep0] } }
def txn0 : Txn := { tag := 9, gen := 3, chan := 9, bytes := 4, status := 0, hostAddr := 0x1000, data := [1, 2, 3, 4], since := 5, target := 2 }
def item0 : DmaItem := { chan := 9, index := 2, hostAddr := 0x1000, design := 0, len := 4, ctrl := 1, user := 7, issued := 4 }
def item1 : DmaItem := { item0 with chan := 11 }
def txW (l : List (Fld × Nat × Nat)) : State := wc (fun c => { c with txns := [txn0], dma := [item0] }) (part0 ++ l)
def rec0 : ProbeRec := ⟨0, 5, 0x40000100, (List.range 40).map (BitVec.ofNat 8), 28⟩
def badFrame : List Word32 := (List.range 33).map (BitVec.ofNat 32)
def frame0 : List Byte := (List.range 64).map (BitVec.ofNat 8)
def ethW (len : Nat) (l : List (Fld × Nat × Nat)) : State :=
  { w ([(.ETH_CTL_EN, 0, 1), (.ETH_RX_RING_OFFSET, 0, 0x500000 / 64), (.ETH_TX_RING_OFFSET, 0, 0x500000 / 64)] ++ l) with
    mem := { sram := Memory.writeN [] 0x500000 (toBytes 4 0x400040 ++ toBytes 2 len ++ toBytes 2 1) } }
/-- A descriptor of 8 bytes in 32 bytes of host memory (R298). -/
def desc0 : List Byte := toBytes 8 0x1000 ++ toBytes 8 0x3000100000 ++ toBytes 4 8 ++ toBytes 4 1 ++ toBytes 8 5
def tok0 : Token := ⟨1023, 7, 77, 1, 0⟩
/-- A flash whose preferred pair, slots A and B, verifies and is listed. -/
def flash0 : FwFlash := ⟨some ⟨3, .owner, true⟩, none, none, some ⟨4, .owner, true⟩, [(3, 4)], true, some (false, true), none⟩
def startUp0 : StartUp := ⟨true, true, 0, [], true, true, 77, 5, flash0, 0, [], 2, none, []⟩
/-- A request in one message, and the first of two. -/
def head1 : List UtHead := [⟨0, 0, 0, 0, false⟩]
def headPart : List UtHead := [⟨1, 0, 0, 0, false⟩]
/-- A due WATCH sample that does not match, with the given COUNT. -/
def watchW (n : Nat) : State :=
  w [(.PWR_STATE_STATE, 0, pwrWatch), (.H_WATCH_DUE, 0, 1000001), (.PWR_WATCH_VAL_BITS, 2, 2 ^ 31), (.PWR_WATCH_MASK_BITS, 2, 2 ^ 31), (.PWR_WATCH_CTL_COUNT, 0, n)]
/-- A directory entry (R169). -/
def dirEnt (typ flags off stored plain : Nat) : List Byte :=
  toBytes 2 typ ++ toBytes 2 flags ++ toBytes 4 0 ++ toBytes 8 off ++ toBytes 8 stored ++ toBytes 8 plain
def padded (l : List Byte) (n : Nat) : List Byte := l ++ List.replicate (n - l.length) 0
/-- A row of the manifest's hash table, with the hash 0. -/
def hashRow (typ : Nat) : List Byte := toBytes 2 typ ++ toBytes 50 0
/-- The types of the sections of `goodImage` between MANIFEST and SIGNATURE. -/
def goodTypes (rim : Bool) : List Nat := [0x11, 0x20, 0x21, 0x40, 0x41, 0x50] ++ if rim then [0x60] else []
/-- An image for two bands with one stanza of 16 words, of which BP 0 executes the first and a probe taps it; its two maps are stored compressed as one byte each. -/
def goodImage (rim : Bool) : List Byte :=
  let k := if rim then 9 else 8
  padded (toBytes 4 0x49584456 ++ toBytes 2 3 ++ toBytes 2 2 ++ toBytes 4 64 ++ toBytes 4 k ++ toBytes 8 64 ++ toBytes 8 1984 ++ toBytes 8 0 ++ toBytes 8 7
    ++ toBytes 16 0 ++
    dirEnt 1 0 384 (256 + 52 * (k - 2)) (256 + 52 * (k - 2)) ++ dirEnt 0x11 0 1024 0 0 ++ dirEnt 0x20 0 1024 160 160 ++ dirEnt 0x21 1 1216 1 16384 ++
    dirEnt 0x40 0 1280 0 0 ++ dirEnt 0x41 1 1280 1 16384 ++ dirEnt 0x50 0 1344 8 8 ++ (if rim then dirEnt 0x60 0 1408 4 4 else []) ++
    dirEnt 2 0 1856 96 96) 384 ++
  padded (toBytes 4 (256 + 52 * (k - 2)) ++ toBytes 2 440 ++ [2, 1, 0, 0] ++ toBytes 2 16 ++ toBytes 2 160 ++ toBytes 2 0 ++ toBytes 4 1 ++ [0, 1, 0, 0] ++
    toBytes 8 7 ++ toBytes 4 0 ++ toBytes 4 31 ++ List.replicate (0x100 - 0x28) 0 ++ (goodTypes rim).flatMap hashRow) 640 ++
  padded (toBytes 10 (Word.make 0xBEEF 3 4 5 0 1 1 0 0) ++ toBytes 150 0) 192 ++
  padded [33] 64 ++ padded [65] 64 ++ padded (toBytes 8 0) 64 ++ padded [] 512 ++ padded [] 64

/-- That image loading onto partition 0, at step 18. -/
def goodW (rim : Bool) : State :=
  wc (fun c => c.setImage 0 (goodImage rim)) (part0 ++ loads ++
    [(.LDR_STATUS_STEP, 0, 18), (.H_VAULT_SLOT, 0, 1), (.LC_STATE_STATE, 0, 2), (.DM_MAP_VALID, 0, 1)])

/-- The same, the last of step 18's bytes having arrived. -/
def goodC (rim : Bool) : Chip :=
  ((goodW rim).chip.setImage 0 (goodImage rim)).set .H_IMG_POS 0 ((goodW rim).chip.get .H_IMG_POS 0 + (toBytes 8 0).length)

theorem overlay_good (rim : Bool) : overlay ((goodW rim).chip.image 0) 1344 (toBytes 8 0) = goodImage rim := by cases rim <;> decide +kernel

theorem open_plain (sha : ∀ b, Config.sha384 b = 0) {img : List Byte} {step typ : Nat} {s : Sect} (found : sectOf img typ = some s)
    (hash : digestBytes 0 = manHash img ((sects img).idxOf s)) (flags : s.flags = 0) :
    openType img step typ = .ok (some (s, slice img s.off s.stored)) := by
  simp only [openType, found, openSect, hashOk, sha, hash, flags, if_true]
  rfl

/-- What the two maps of `goodImage` decompress to: BP 0 has stanza 0, and no BP is primed. -/
def goodMap (b : List Byte) : List Byte := if b = [33] then toBytes 4 0 ++ List.replicate 16380 0xFF else List.replicate 16384 0xFF

theorem goodMap_length (b : List Byte) : (goodMap b).length = 16384 := by
  unfold goodMap
  split
  · rw [List.length_append, List.length_replicate, show (toBytes 4 0).length = 4 from rfl]
  · rw [List.length_replicate]

theorem open_map (sha : ∀ b, Config.sha384 b = 0) (inf : ∀ b, Config.inflate b = some (goodMap b)) {img : List Byte} {step typ : Nat} {s : Sect}
    (found : sectOf img typ = some s) (hash : digestBytes 0 = manHash img ((sects img).idxOf s)) (flags : s.flags = 1) (plain : s.plain = 16384) :
    openType img step typ = .ok (some (s, goodMap (slice img s.off s.stored))) := by
  simp only [openType, found, openSect, hashOk, sha, hash, flags, inf, goodMap_length, plain, if_true]
  rfl

theorem leAt_ones (n k : Nat) (h : k + 4 ≤ n) : leAt (List.replicate n 0xFF) k 4 = 0xFFFFFFFF := by
  simp only [leAt, List.drop_replicate, List.take_replicate, show min 4 (n - k) = 4 by omega]; rfl

theorem mapEntries_ones (n k : Nat) (h : 4 * k ≤ n) : mapEntries (List.replicate n 0xFF) k = [] := by
  simp only [mapEntries, List.filter_eq_nil_iff, List.mem_map, List.mem_range]
  rintro _ ⟨r, hr, rfl⟩
  simp only [leAt_ones n (4 * r) (by omega), ne_eq, not_true_eq_false, decide_false, Bool.false_eq_true, not_false_eq_true]

theorem mapEntries_first (n k : Nat) (h : 4 * k ≤ n) : mapEntries (toBytes 4 0 ++ List.replicate n 0xFF) (k + 1) = [(0, 0)] := by
  rw [mapEntries, List.range_succ_eq_map, List.map_cons, List.map_map, List.filter_cons_of_pos (by rfl)]
  congr 1
  simp only [List.filter_eq_nil_iff, List.mem_map, List.mem_range]
  rintro _ ⟨r, hr, rfl⟩
  have : leAt (toBytes 4 0 ++ List.replicate n 0xFF) (4 * (r + 1)) 4 = 0xFFFFFFFF := by
    rw [← leAt_ones n (4 * r) (by omega), leAt, leAt, show 4 * (r + 1) = 4 + 4 * r by omega, ← List.drop_drop]; rfl
  simp only [Function.comp, this, ne_eq, not_true_eq_false, decide_false, Bool.false_eq_true, not_false_eq_true]

theorem goodMap_prime : mapEntries (goodMap [65]) (2048 * 2) = [] := by
  rw [goodMap, if_neg (by decide)]; exact mapEntries_ones _ _ (by decide)

theorem goodMap_stanza : mapEntries (goodMap [33]) (2048 * 2) = [(0, 0)] := by
  rw [goodMap, if_pos rfl]; exact mapEntries_first _ _ (by decide)

def goodWords : List (Nat × Nat × Nat) := (List.range 16).map fun t => (0, t, if t = 0 then Word.make 0xBEEF 3 4 5 0 1 1 0 0 else 0)

theorem stanza_good (sha : ∀ b, Config.sha384 b = 0) (inf : ∀ b, Config.inflate b = some (goodMap b)) (rim : Bool) :
    stanzaCheck (goodImage rim) = .ok goodWords := by
  have d := open_plain (step := 14) sha (show sectOf (goodImage rim) 0x20 = some (sectAt (goodImage rim) 2) by cases rim <;> decide +kernel)
    (by cases rim <;> decide +kernel) (by cases rim <;> decide +kernel)
  have m := open_map (step := 14) sha inf (show sectOf (goodImage rim) 0x21 = some (sectAt (goodImage rim) 3) by cases rim <;> decide +kernel)
    (by cases rim <;> decide +kernel) (by cases rim <;> decide +kernel) (by cases rim <;> decide +kernel)
  rw [show slice (goodImage rim) (sectAt (goodImage rim) 3).off (sectAt (goodImage rim) 3).stored = [33] by cases rim <;> decide +kernel] at m
  have hs : manS (goodImage rim) = 16 := by cases rim <;> decide +kernel
  have hc : manCount (goodImage rim) = 2 := by cases rim <;> decide +kernel
  unfold stanzaCheck
  simp only [d, m, hs, hc, goodMap_length, goodMap_stanza, bind, Except.bind, pure, Except.pure]
  cases rim <;> decide +kernel

theorem priming_good (sha : ∀ b, Config.sha384 b = 0) (inf : ∀ b, Config.inflate b = some (goodMap b)) (rim : Bool) :
    primingCheck (goodC rim) 0 (goodImage rim) = .ok [] := by
  have d := open_plain (step := 17) sha (show sectOf (goodImage rim) 0x40 = some (sectAt (goodImage rim) 4) by cases rim <;> decide +kernel)
    (by cases rim <;> decide +kernel) (by cases rim <;> decide +kernel)
  have m := open_map (step := 17) sha inf (show sectOf (goodImage rim) 0x41 = some (sectAt (goodImage rim) 5) by cases rim <;> decide +kernel)
    (by cases rim <;> decide +kernel) (by cases rim <;> decide +kernel) (by cases rim <;> decide +kernel)
  rw [show slice (goodImage rim) (sectAt (goodImage rim) 5).off (sectAt (goodImage rim) 5).stored = [65] by cases rim <;> decide +kernel] at m
  have hc : manCount (goodImage rim) = 2 := by cases rim <;> decide +kernel
  have t : openType (goodImage rim) 17 0x70 = .ok none := by
    rw [openType, show sectOf (goodImage rim) 0x70 = none by cases rim <;> decide +kernel]
  unfold primingCheck
  simp only [d, m, t, hc, goodMap_length, goodMap_prime, bind, Except.bind, pure, Except.pure]
  cases rim <;> decide +kernel

/-- BP 0's first word has probe position 0. -/
def goodProbes : NatMap := [(0, 1)]

theorem probe_good (sha : ∀ b, Config.sha384 b = 0) (rim : Bool) :
    probeCheck (goodC rim) 0 (goodImage rim) goodWords = .ok goodProbes := by
  have d := open_plain (step := 18) sha (show sectOf (goodImage rim) 0x50 = some (sectAt (goodImage rim) 6) by cases rim <;> decide +kernel)
    (by cases rim <;> decide +kernel) (by cases rim <;> decide +kernel)
  unfold probeCheck
  simp only [d, bind, Except.bind, pure, Except.pure]
  cases rim <;> decide +kernel

theorem layout_good (sha : ∀ b, Config.sha384 b = 0) (rim : Bool) : layoutCheck (goodC rim) 0 (goodImage rim) = .ok () := by
  have d := open_plain (step := 13) sha (show sectOf (goodImage rim) 0x11 = some (sectAt (goodImage rim) 1) by cases rim <;> decide +kernel)
    (by cases rim <;> decide +kernel) (by cases rim <;> decide +kernel)
  unfold layoutCheck
  simp only [d, bind, Except.bind]
  cases rim <;> decide +kernel

theorem signature_good (ver : ∀ k d r s, Config.ecdsaVerify k d r s = true) (rim : Bool) :
    signatureCheck (goodC rim) (goodImage rim) = .ok () := by
  unfold signatureCheck
  simp only [ver]
  cases rim <;> decide +kernel

def goodLoaded : Loaded :=
  ⟨goodWords.foldl (fun m w => NatMap.put 0 m ((2048 * 0 + w.1) * 4096 + w.2.1) (encodeWord w.2.2)) [], [], [], goodProbes, []⟩

theorem image_good (sha : ∀ b, Config.sha384 b = 0) (ver : ∀ k d r s, Config.ecdsaVerify k d r s = true)
    (inf : ∀ b, Config.inflate b = some (goodMap b)) (rim : Bool) : imageCheck (goodC rim) 0 (goodImage rim) = .ok goodLoaded := by
  unfold imageCheck
  rw [show directoryCheck (goodImage rim) = .ok () by cases rim <;> decide +kernel, signature_good ver, layout_good sha, stanza_good sha inf,
    show manifestCheck (goodImage rim) = .ok () by cases rim <;> decide +kernel,
    show targetCheck (goodC rim) 0 (goodImage rim) = .ok () by cases rim <;> decide +kernel, priming_good sha inf,
    show latencyCheck (goodC rim) (goodImage rim) = .ok [] by cases rim <;> decide +kernel,
    show xchCheck (goodC rim) 0 (goodImage rim) = .ok [] by cases rim <;> decide +kernel]
  have ags : agentCheck (goodC rim) 0 (goodImage rim) (latAssumed [] 1) = .ok [] := by cases rim <;> decide +kernel
  simp only [ags, bind, Except.bind, probe_good sha, pure, Except.pure]
  cases rim <;> decide +kernel

theorem step18_good (sha : ∀ b, Config.sha384 b = 0) (inf : ∀ b, Config.inflate b = some (goodMap b)) (rim : Bool) :
    stepCheck (goodC rim) 0 ((goodW rim).chip.sourceHeld 0) (goodImage rim) 18 = .ok () := by
  unfold stepCheck
  simp only [stanza_good sha inf, probe_good sha, bind, Except.bind, pure, Except.pure]

/-- No source has its pending bit set: the interrupt controller is quiet. -/
theorem quiet_of {c : Chip} (h : ∀ e ∈ c.fld, e.1 % 1024 ≠ Fld.IC_PEND_BIT.ctorIdx) : c.icQuiet := by
  intro x
  have find : ∀ (m : NatMap), (∀ e ∈ m, e.1 % 1024 ≠ Fld.IC_PEND_BIT.ctorIdx) → NatMap.find 0 m (x * 1024 + Fld.IC_PEND_BIT.ctorIdx) = 0 := by
    intro m hm
    induction m with
    | nil => rfl
    | cons e m ih =>
      rw [NatMap.find, if_neg, ih fun y hy => hm y (List.mem_cons_of_mem _ hy)]
      intro he
      have := hm e List.mem_cons_self
      rw [he, Nat.mul_add_mod_of_lt (by decide)] at this
      exact this rfl
  have zero : c.get .IC_PEND_BIT x = 0 := find c.fld h
  simp [Chip.icEligible, Chip.on, zero]
theorem tags_used (c : Chip) (base n : Nat) (h : c.calls = (List.range n).map fun j => ⟨base + j, .post 0, 0, 0, true⟩) : c.tagIn base n = none := by
  simp [Chip.tagIn, h]
/-- Port 1 with its first `n` tags in use. -/
def busyW (n : Nat) : State :=
  wc (fun c => { c with calls := (List.range n).map fun j => ⟨initTags (.host 1) + j, .post 0, 0, 0, true⟩ }) part0
theorem busy_none (n : Nat) : (busyW n).chip.tagIn (initTags (.host 1)) n = none := tags_used _ _ _ rfl
def rimIn : List (Fld × Nat × Nat) := [(.RIM_LD_STATUS_BUSY, 0, 1), (.RIM_LD_STATUS_ORIGIN, 0, 2), (.RIM_LD_STATUS_PART, 0, 0), (.H_RS_STATE, 0, 2)]
/-- An image of one section, of an unknown optional type. -/
def oddImage : List Byte := padded (toBytes 12 0 ++ toBytes 4 1 ++ toBytes 48 0 ++ dirEnt 0x9000 0 96 1 1) 512
def oddW : State := wc (fun c => c.setImage 0 oddImage) (part0 ++ loads ++ [(.LDR_STATUS_STEP, 0, 20)])
def call0 : Call := ⟨9, .access svc false 4 false, 0, 2, true⟩
/-- Sector 11 with one driver point, one reset-driver cell at 1, and nothing else. -/
def sect0 : SectorCfg := ⟨[], [], [⟨63, 63, .const true, .const true⟩], [], [], .const false, .const true, []⟩
def goodFrame : List Word32 :=
  (List.range 32).map (BitVec.ofNat 32) ++ [BitVec.ofNat 32 (frameCrc 8193 ((List.range 32).flatMap (toBytes 4)))]
def rimW (l : List (Fld × Nat × Nat)) : State := w (rimLoads ++ [(.H_RS_SECT, 0, 2), (.H_RS_PTR, 0, 8193), (.RIM_SECT_STATE_STATE, 1, 1)] ++ l)
def laneW (l : List (Fld × Nat × Nat)) : State :=
  w ([(.LQ_LANE_CTL_EN, 63, 1), (.LQ_LANE_STATUS_SIGDET, 63, 1), (.LQ_LANE_STATUS_ADAPTED, 63, 1), (.LQ_LANE_CTL_ENC, 63, 2), (.LQ_QUAD_CTL_PLLA, 15, 6)] ++ l)
def lane10 (l : List (Fld × Nat × Nat)) : State :=
  w ([(.LQ_LANE_CTL_EN, 63, 1), (.LQ_LANE_STATUS_SIGDET, 63, 1), (.LQ_LANE_STATUS_ADAPTED, 63, 1), (.LQ_LANE_CTL_ENC, 63, 1), (.LQ_QUAD_CTL_PLLA, 15, 3)] ++ l)
def chkW (l : List (Fld × Nat × Nat)) : State :=
  w ([(.LQ_LANE_CTL_EN, 63, 1), (.LQ_LANE_STATUS_SIGDET, 63, 1), (.LQ_PRBS_CTL_CHK_EN, 63, 1), (.LQ_PRBS_CTL_PAT, 63, 2), (.LQ_QUAD_CTL_PLLA, 15, 3), (.H_CHK, 63, 1)] ++ l)
def good66 : List Bool := [true, false] ++ List.replicate 64 false
/-- D.0.0 from running disparity minus. -/
def d00 : List Bool := [true, false, false, true, true, true, false, true, false, false]
def quiesced : List (Fld × Nat × Nat) := []



/-! StepRunsFrontCommand -/

theorem witness_StepRunsFrontCommand_1 :
    ∃ (i : Instr) (rest : List Instr) (s : State),
    s.pending = i :: rest :=
  ⟨.sumpRefill, [.postDrop], { w [] with pending := [.sumpRefill, .postDrop] }, rfl⟩


/-! IdleStepIsOnePeriod -/

theorem witness_IdleStepIsOnePeriod_1 :
    ∃ (s : State),
    s.pending = [] :=
  ⟨w [], rfl⟩


/-! CommandsKeepToTheirLayers -/

theorem witness_CommandsKeepToTheirLayers_1 :
    ∃ (i : Instr) (s : State) (t : State),
    exec i s = Host.Outcome.next t ∧ i.reach = Reach.chip :=
  ⟨.holdLong 3, w [], w [], ⟨rfl, rfl⟩⟩

theorem witness_CommandsKeepToTheirLayers_2 :
    ∃ (i : Instr) (s : State) (t : State),
    exec i s = Host.Outcome.next t ∧ i.reach = Reach.array :=
  ⟨.rampComplete 3, w [], w [], ⟨rfl, rfl⟩⟩

theorem witness_CommandsKeepToTheirLayers_3 :
    ∃ (i : Instr) (s : State) (t : State),
    exec i s = Host.Outcome.next t ∧ i.reach = Reach.memory :=
  ⟨(Instr.repeatFrames 0), w [], w [], ⟨rfl, rfl⟩⟩


/-! StepKeepsMemoriesSound -/

theorem witness_StepKeepsMemoriesSound_1 :
    ∃ (s : State) (t : State),
    s.Sound ∧ step s = Host.Outcome.next t :=
  ⟨{ w [] with pending := [.holdLong 3] }, w [], ⟨by unfold State.Sound; decide +kernel, rfl⟩⟩


/-! WordCheckCorrectsOneDetectsTwo -/

theorem witness_WordCheckCorrectsOneDetectsTwo_1 :
    ∃ (d : Nat) (i : Nat) (j : Nat),
    d < 2 ^ 80 ∧ i < 88 ∧ j < 88 ∧ i ≠ j :=
  ⟨2 ^ 80 - 1, 86, 87, by decide +kernel⟩


/-! SlotWriteKeepsParity -/

theorem witness_SlotWriteKeepsParity_1 :
    ∃ (slots : NatMap) (b : Nat) (k : Nat) (v : Nat),
    v < 2 ∧ NatMap.find 0 slots (b * 4096 + k) < 2 :=
  ⟨[(3, 1)], 0, 4095, 1, by decide +kernel⟩


/-! EvalStoresTruthTable -/

theorem witness_EvalStoresTruthTable_1 :
    ∃ (bp : Fin 131072) (p : Nat) (w : Nat) (va : Nat) (vb : Nat) (vc : Nat) (vd : Nat) (s : State),
    BpRuns BpOp.eval (↑bp) p w s ∧ OperandsRead (bpBegun (↑bp) p w s.chip) s.arr p (↑bp) (s.chip.stepNow p) w va vb vc vd :=
  ⟨7, 0, wd 1 1 1 5, 1, 1, 0, 0, bpW (wd 1 1 1 5), by and_intros <;> first | decide +kernel | (constructor <;> decide +kernel)⟩


/-! EvalcWritesOnlyWhenEnabled -/

theorem witness_EvalcWritesOnlyWhenEnabled_1 :
    ∃ (bp : Fin 131072) (p : Nat) (w : Nat) (va : Nat) (vb : Nat) (vc : Nat) (vd : Nat) (s : State),
    BpRuns BpOp.evalc (↑bp) p w s ∧ OperandsRead (bpBegun (↑bp) p w s.chip) s.arr p (↑bp) (s.chip.stepNow p) w va vb vc vd ∧ vd = 1 :=
  ⟨7, 0, wd 2 1 1 4, 1, 1, 0, 1, bpW (wd 2 1 1 4), by and_intros <;> first | decide +kernel | (constructor <;> decide +kernel)⟩

theorem witness_EvalcWritesOnlyWhenEnabled_2 :
    ∃ (bp : Fin 131072) (p : Nat) (w : Nat) (va : Nat) (vb : Nat) (vc : Nat) (vd : Nat) (s : State) (old : Nat),
    BpRuns BpOp.evalc (↑bp) p w s ∧
      OperandsRead (bpBegun (↑bp) p w s.chip) s.arr p (↑bp) (s.chip.stepNow p) w va vb vc vd ∧
        vd = 0 ∧ readSlot (bpBegun (↑bp) p w s.chip) s.arr p (↑bp) (s.chip.stepNow p) = (old, bpBegun (↑bp) p w s.chip, s.arr) :=
  ⟨7, 0, wd 2 1 1 5, 1, 1, 0, 0, bpW (wd 2 1 1 5), 0, by and_intros <;> first | decide +kernel | (constructor <;> decide +kernel)⟩


/-! OtherOpcodesWriteNoSlot -/

theorem witness_OtherOpcodesWriteNoSlot_1 :
    ∃ (bp : Fin 131072) (p : Nat) (w : Nat) (va : Nat) (vb : Nat) (vc : Nat) (vd : Nat) (s : State) (op : BpOp),
    BpRuns op (↑bp) p w s ∧ OperandsRead (bpBegun (↑bp) p w s.chip) s.arr p (↑bp) (s.chip.stepNow p) w va vb vc vd ∧ op = BpOp.mput :=
  ⟨7, 0, wd 3 1 1 5, 1, 1, 0, 0, bpW (wd 3 1 1 5), .mput, by and_intros <;> first | decide +kernel | (constructor <;> decide +kernel)⟩

theorem witness_OtherOpcodesWriteNoSlot_2 :
    ∃ (bp : Fin 131072) (p : Nat) (w : Nat) (va : Nat) (vb : Nat) (vc : Nat) (vd : Nat) (s : State) (op : BpOp),
    BpRuns op (↑bp) p w s ∧ OperandsRead (bpBegun (↑bp) p w s.chip) s.arr p (↑bp) (s.chip.stepNow p) w va vb vc vd ∧ op = BpOp.stop :=
  ⟨7, 0, wd 4 1 0 5, 1, 1, 0, 0, bpW (wd 4 1 0 5), .stop, by and_intros <;> first | decide +kernel | (constructor <;> decide +kernel)⟩

theorem witness_OtherOpcodesWriteNoSlot_3 :
    ∃ (bp : Fin 131072) (p : Nat) (w : Nat) (va : Nat) (vb : Nat) (vc : Nat) (vd : Nat) (s : State) (op : BpOp),
    BpRuns op (↑bp) p w s ∧ OperandsRead (bpBegun (↑bp) p w s.chip) s.arr p (↑bp) (s.chip.stepNow p) w va vb vc vd ∧ op = BpOp.trig :=
  ⟨7, 0, wd 5 0 1 5, 1, 1, 0, 0, bpW (wd 5 0 1 5), .trig, by and_intros <;> first | decide +kernel | (constructor <;> decide +kernel)⟩

theorem witness_OtherOpcodesWriteNoSlot_4 :
    ∃ (bp : Fin 131072) (p : Nat) (w : Nat) (va : Nat) (vb : Nat) (vc : Nat) (vd : Nat) (s : State) (op : BpOp),
    BpRuns op (↑bp) p w s ∧ OperandsRead (bpBegun (↑bp) p w s.chip) s.arr p (↑bp) (s.chip.stepNow p) w va vb vc vd ∧ op = BpOp.out :=
  ⟨7, 0, wd 6 0 1 5, 1, 1, 0, 0, bpW (wd 6 0 1 5), .out, by and_intros <;> first | decide +kernel | (constructor <;> decide +kernel)⟩

theorem witness_OtherOpcodesWriteNoSlot_5 :
    ∃ (bp : Fin 131072) (p : Nat) (w : Nat) (va : Nat) (vb : Nat) (vc : Nat) (vd : Nat) (s : State) (op : BpOp),
    BpRuns op (↑bp) p w s ∧ OperandsRead (bpBegun (↑bp) p w s.chip) s.arr p (↑bp) (s.chip.stepNow p) w va vb vc vd ∧ op = BpOp.xev :=
  ⟨7, 0, wd 7 0 0 5, 1, 1, 0, 0, bpW (wd 7 0 0 5), .xev, by and_intros <;> first | decide +kernel | (constructor <;> decide +kernel)⟩

theorem witness_OtherOpcodesWriteNoSlot_6 :
    ∃ (bp : Fin 131072) (p : Nat) (w : Nat) (s : State),
    BpRuns BpOp.nop (↑bp) p w s :=
  ⟨7, 0, wd 0 0 0 5, bpW (wd 0 0 0 5), by constructor <;> decide +kernel⟩

theorem witness_OtherOpcodesWriteNoSlot_7 :
    ∃ (bp : Fin 131072) (p : Nat) (w : Nat) (s : State),
    BpRuns BpOp.undefinedOp (↑bp) p w s :=
  ⟨7, 0, wd 12 0 0 5, bpW (wd 12 0 0 5), by constructor <;> decide +kernel⟩


/-! SlotParityFailureStopsPartition -/

theorem witness_SlotParityFailureStopsPartition_1 :
    ∃ (c : Chip) (a : Arr) (p : Nat) (b : Nat) (k : Nat),
    c.on Fld.H_DS_MIRROR p = false ∧ parityOk a.slotA a.parA ((b * 4096 + k) / 8) = false ∧ p < 16 ∧ b < 131072 ∧ k < 4096 ∧ c.get Fld.PTN_DPAR_LOC_VALID p = 0 :=
  ⟨(w part0).chip, badParity, 0, 131071, 4095, by decide +kernel⟩

theorem witness_SlotParityFailureStopsPartition_2 :
    ∃ (c : Chip) (a : Arr) (p : Nat) (b : Nat) (k : Nat),
    c.on Fld.H_DS_MIRROR p = false ∧ parityOk a.slotA a.parA ((b * 4096 + k) / 8) = false ∧ p < 16 ∧ b < 131072 ∧ k < 4096 ∧ c.get Fld.PTN_DPAR_LOC_VALID p ≠ 0 :=
  ⟨(w (part0 ++ [(.PTN_DPAR_LOC_VALID, 0, 1)])).chip, badParity, 0, 131071, 4095, by decide +kernel⟩


/-! CisternAccessesOfAgents -/

theorem witness_CisternAccessesOfAgents_1 :
    ∃ (tile : Fin 512) (agent : Fin 4) (p : Nat) (s : State),
    s.chip.tileOwner ((↑tile * 4 + ↑agent) / 4) = some p ∧
      s.chip.pumpState p = psRun ∧ entryIssue (s.arr.entry (Unit'.agent ↑tile ↑agent) (s.chip.stepNow p)) = issCread :=
  ⟨2, 1, 0, agW 1, by decide +kernel⟩

theorem witness_CisternAccessesOfAgents_2 :
    ∃ (tile : Fin 512) (agent : Fin 4) (p : Nat) (s : State),
    s.chip.tileOwner ((↑tile * 4 + ↑agent) / 4) = some p ∧
      s.chip.pumpState p = psRun ∧ entryIssue (s.arr.entry (Unit'.agent ↑tile ↑agent) (s.chip.stepNow p)) = issCwrite :=
  ⟨2, 1, 0, agW 2, by constructor <;> decide +kernel⟩

theorem witness_CisternAccessesOfAgents_3 :
    ∃ (tile : Fin 512) (agent : Fin 4) (p : Nat) (s : State),
    s.chip.tileOwner ((↑tile * 4 + ↑agent) / 4) = some p ∧
      s.chip.pumpState p = psRun ∧ entryIssue (s.arr.entry (Unit'.agent ↑tile ↑agent) (s.chip.stepNow p)) = issDread :=
  ⟨2, 1, 0, agW 3, by decide +kernel⟩

theorem witness_CisternAccessesOfAgents_4 :
    ∃ (tile : Fin 512) (agent : Fin 4) (p : Nat) (s : State),
    s.chip.tileOwner ((↑tile * 4 + ↑agent) / 4) = some p ∧
      s.chip.pumpState p = psRun ∧ entryIssue (s.arr.entry (Unit'.agent ↑tile ↑agent) (s.chip.stepNow p)) = issDwrite :=
  ⟨2, 1, 0, agW 4, by decide +kernel⟩

theorem witness_CisternAccessesOfAgents_5 :
    ∃ (tile : Fin 512) (agent : Fin 4) (p : Nat) (s : State),
    AgentIssues issCread (↑tile * 4 + ↑agent) p s :=
  ⟨2, 1, 0, agW 1, by constructor <;> decide +kernel⟩

theorem witness_CisternAccessesOfAgents_6 :
    ∃ (tile : Fin 512) (agent : Fin 4) (p : Nat) (s : State),
    AgentIssues issCwrite (↑tile * 4 + ↑agent) p s :=
  ⟨2, 1, 0, agW 2, by constructor <;> decide +kernel⟩


/-! DeepAccessesOfAgents -/

theorem witness_DeepAccessesOfAgents_1 :
    ∃ (tile : Fin 512) (agent : Fin 4) (p : Nat) (st : Nat) (gr : Nat) (off : Nat) (s : State),
    NatMap.find 0 s.arr.addr (↑tile * 4 + ↑agent) * 8 < cisternBase ∧
      (s.chip.set Fld.H_STEP_DONE (agentDone (↑tile * 4 + ↑agent)) 1).place p (NatMap.find 0 s.arr.addr (↑tile * 4 + ↑agent) * 8) false = Place.deep st gr off ∧
        (s.chip.set Fld.H_STEP_DONE (agentDone (↑tile * 4 + ↑agent)) 1).deepDead st off = false ∧
          (s.chip.set Fld.H_STEP_DONE (agentDone (↑tile * 4 + ↑agent)) 1).cutOff ((↑tile * 4 + ↑agent) / 4)
                ((s.chip.set Fld.H_STEP_DONE (agentDone (↑tile * 4 + ↑agent)) 1).routerDeep st off) =
              false ∧
            AgentIssues issDread (↑tile * 4 + ↑agent) p s :=
  ⟨2, 1, 0, 1, 3, 0x100, agW 3, by and_intros <;> first | decide +kernel | (constructor <;> decide +kernel)⟩

theorem witness_DeepAccessesOfAgents_2 :
    ∃ (tile : Fin 512) (agent : Fin 4) (p : Nat) (st : Nat) (gr : Nat) (off : Nat) (s : State),
    NatMap.find 0 s.arr.addr (↑tile * 4 + ↑agent) * 8 < cisternBase ∧
      (s.chip.set Fld.H_STEP_DONE (agentDone (↑tile * 4 + ↑agent)) 1).place p (NatMap.find 0 s.arr.addr (↑tile * 4 + ↑agent) * 8) false = Place.deep st gr off ∧
        (s.chip.set Fld.H_STEP_DONE (agentDone (↑tile * 4 + ↑agent)) 1).deepDead st off = false ∧
          (s.chip.set Fld.H_STEP_DONE (agentDone (↑tile * 4 + ↑agent)) 1).cutOff ((↑tile * 4 + ↑agent) / 4)
                ((s.chip.set Fld.H_STEP_DONE (agentDone (↑tile * 4 + ↑agent)) 1).routerDeep st off) =
              false ∧
            AgentIssues issDwrite (↑tile * 4 + ↑agent) p s ∧ NatMap.find 0 s.mem.deepErr (deepKey st gr off / 32) = 0 :=
  ⟨2, 1, 0, 1, 3, 0x100, agW 4, by and_intros <;> first | decide +kernel | (constructor <;> decide +kernel)⟩

theorem witness_DeepAccessesOfAgents_3 :
    ∃ (tile : Fin 512) (agent : Fin 4) (s : State) (place : Fin 16) (x : Access),
    List.find? (fun (y : Access) => decide (y.agent = ↑tile * 4 + ↑agent) && decide (3 ≤ y.kind) && decide (y.place = ↑place) && !y.arrived) s.arr.accs = some x ∧
      s.chip.cutOff (↑tile) x.target = false ∧ ∀ y ∈ s.arr.accs, y.live = true :=
  ⟨2, 1, wa { accs := [acc0] } [], 15, acc0, by decide +kernel⟩


/-! AccessTypesOfFields -/

theorem witness_AccessTypesOfFields_1 :
    ∃ (c : Chip) (k : Nat) (x : FieldDef),
    c.get x.fld (k * x.fc + x.fi) < 2 ^ x.fld.width ∧ 0 < x.fld.width ∧ x.acc = Acc.rw :=
  ⟨(w []).chip, 3, ⟨.PMP_HOLD_LIMIT_LIMIT, 15, 0, .rw, 0, 1⟩, by decide +kernel⟩

theorem witness_AccessTypesOfFields_2 :
    ∃ (c : Chip) (k : Nat) (x : FieldDef),
    c.get x.fld (k * x.fc + x.fi) < 2 ^ x.fld.width ∧ 0 < x.fld.width ∧ x.acc = Acc.w1c :=
  ⟨(w [(.PMP_STOP_CODES_CODES, 3, 7)]).chip, 3, ⟨.PMP_STOP_CODES_CODES, 63, 0, .w1c, 0, 1⟩, by decide +kernel⟩

theorem witness_AccessTypesOfFields_3 :
    ∃ (c : Chip) (k : Nat) (x : FieldDef),
    c.get x.fld (k * x.fc + x.fi) < 2 ^ x.fld.width ∧ 0 < x.fld.width ∧ x.acc = Acc.w1s :=
  ⟨(w []).chip, 3, ⟨.LQ_PRBS_CTL_INJ, 12, 12, .w1s, 0, 1⟩, by decide +kernel⟩

theorem witness_AccessTypesOfFields_4 :
    ∃ (c : Chip) (k : Nat) (x : FieldDef),
    c.get x.fld (k * x.fc + x.fi) < 2 ^ x.fld.width ∧ 0 < x.fld.width ∧ (x.acc = Acc.ro ∨ x.acc = Acc.rc ∨ x.acc = Acc.wo) :=
  ⟨(w []).chip, 3, ⟨.PMP_STATUS_STATE, 2, 0, .ro, 0, 1⟩, by decide +kernel⟩

theorem witness_AccessTypesOfFields_5 :
    ∃ (c : Chip) (k : Nat) (x : FieldDef) (g : Fld) (j : Nat),
    c.get x.fld (k * x.fc + x.fi) < 2 ^ x.fld.width ∧ 0 < x.fld.width ∧ ¬(g = x.fld ∧ j = k * x.fc + x.fi) :=
  ⟨(w []).chip, 3, ⟨.PMP_STATUS_STATE, 2, 0, .ro, 0, 1⟩, .PMP_STATUS_STATE, 4, by decide +kernel⟩


/-! RegisterWritesByName -/

theorem witness_RegisterWritesByName_1 :
    ∃ (n : Fin 4) (v : Word64) (s : State),
    BitVec.toNat v < 2 ^ 32 ∧ s.chip.hostGone (Init.host n) = true :=
  ⟨1, 0, w [(.H_LOST, 1, 1)], by decide +kernel⟩

theorem witness_RegisterWritesByName_2 :
    ∃ (n : Fin 4) (p : Fin 16) (v : Word64) (s : State),
    BitVec.toNat v < 2 ^ 32 ∧ s.chip.hostGone (Init.host n) = false ∧ s.chip.get Fld.PTN_CFG_BIND ↑p = ↑n :=
  ⟨1, 15, 0xFFFFFFFF, w [(.PTN_CFG_BIND, 15, 1)], by decide +kernel⟩

theorem witness_RegisterWritesByName_3 :
    ∃ (n : Fin 4) (p : Fin 16) (v : Word64) (s : State),
    BitVec.toNat v < 2 ^ 32 ∧ s.chip.hostGone (Init.host n) = false ∧ s.chip.get Fld.PTN_CFG_BIND ↑p ≠ ↑n :=
  ⟨1, 15, 0xFFFFFFFF, w [(.PTN_CFG_BIND, 15, 2)], by decide +kernel⟩

theorem witness_RegisterWritesByName_4 :
    ∃ (k : Fin 8) (sec : Bool) (v : Word64),
    BitVec.toNat v < 2 ^ 32 ∧ (↑k < 4 ∨ sec = true) :=
  ⟨7, true, 0, by decide +kernel⟩


/-! TwoPartAccesses -/

theorem witness_TwoPartAccesses_1 :
    ∃ (n : Fin 4) (p : Fin 16) (s : State) (v : Nat),
    s.chip.get Fld.PTN_CFG_BIND ↑p = ↑n ∧
      s.chip.get Fld.PMP_CYCLE_CYCLE ↑p < 2 ^ 64 ∧ NatMap.find 0 s.chip.latch (latchKey (Init.host n) (4194336 + ↑p * 65536)) = v + 1 :=
  ⟨1, 15, wc (fun c => c.setLatch (latchKey (.host 1) 0x4F0020) 77) [(.PTN_CFG_BIND, 15, 1)], 77, by decide +kernel⟩

theorem witness_TwoPartAccesses_2 :
    ∃ (n : Fin 4) (p : Fin 16) (s : State),
    s.chip.get Fld.PTN_CFG_BIND ↑p = ↑n ∧
      s.chip.get Fld.PMP_CYCLE_CYCLE ↑p < 2 ^ 64 ∧ NatMap.find 0 s.chip.latch (latchKey (Init.host n) (4194336 + ↑p * 65536)) = 0 :=
  ⟨1, 15, w [(.PTN_CFG_BIND, 15, 1)], by decide +kernel⟩

theorem witness_TwoPartAccesses_3 :
    ∃ (n : Fin 4) (ch : Fin 8) (lo : Word32) (s : State),
    s.chip.get Fld.DMA_CH_CTL_EN (↑n * 8 + ↑ch) = 0 ∧
      s.chip.hostGone (Init.host n) = false ∧ NatMap.find 0 s.chip.held (latchKey (Init.host n) (13635592 + ↑ch * 256)) = BitVec.toNat lo + 1 :=
  ⟨1, 3, 0xFFFFFFFF, wc (fun c => c.hold (latchKey (.host 1) 0xD01308) 0xFFFFFFFF) [], by decide +kernel⟩


/-! ReadsWithEffects -/

theorem witness_ReadsWithEffects_1 :
    ∃ (n : Fin 4) (p : Fin 16) (s : State),
    s.chip.get Fld.PTN_CFG_BIND ↑p = ↑n ∧ s.chip.get Fld.PMP_OVR_CNT_COUNT ↑p < 2 ^ 32 :=
  ⟨1, 15, w [(.PTN_CFG_BIND, 15, 1), (.PMP_OVR_CNT_COUNT, 15, 2 ^ 32 - 1)], by decide +kernel⟩

theorem witness_ReadsWithEffects_2 :
    ∃ (k : Fin 8) (sec : Bool) (s₀ : State) (e : FltEntry) (es : List FltEntry),
    (s₀.seen (Init.core k sec)).chip.regMay (Init.core k sec) { blk := Blk.svc, inst := 0, off := 1552 } false = true ∧
      (s₀.seen (Init.core k sec)).chip.flt = e :: es :=
  ⟨1, false, wc (fun c => { c with flt := [⟨1, 2, 1, 3, 0x1234567890123⟩] }) [], ⟨1, 2, 1, 3, 0x1234567890123⟩, [], by decide +kernel⟩

theorem witness_ReadsWithEffects_3 :
    ∃ (k : Fin 8) (sec : Bool) (s₀ : State),
    (s₀.seen (Init.core k sec)).chip.regMay (Init.core k sec) { blk := Blk.svc, inst := 0, off := 1552 } false = true ∧ (s₀.seen (Init.core k sec)).chip.flt = [] :=
  ⟨7, true, w [], by decide +kernel⟩


/-! StartEntersRampOrIsRefused -/

theorem witness_StartEntersRampOrIsRefused_1 :
    ∃ (who : Init) (p : Fin 16) (s₀ : State) (f : Fld),
    (s₀.seen who).chip.regMay who { blk := Blk.part, inst := ↑p, off := 4 } true = true ∧
      (s₀.seen who).chip.power = pwrOn ∧
        (s₀.seen who).chip.cmdPending CmdReg.pmp ↑p = false ∧
          (if (s₀.seen who).chip.pumpState ↑p = psEmpty ∨ (s₀.seen who).chip.pumpState ↑p = psLoading then 1
              else
                if (s₀.seen who).chip.pumpState ↑p ≠ psHalt ∨ (s₀.seen who).chip.mode ↑p = modeHalt ∨ (s₀.seen who).chip.underTest ↑p = true then 2
                else
                  if
                      (s₀.seen who).chip.mode ↑p = modePaced ∧
                        (s₀.seen who).chip.get Fld.PMP_CTL_PSRC ↑p = 0 ∧
                          (s₀.seen who).chip.get Fld.PMP_TDIV_INT ↑p < (s₀.seen who).chip.get Fld.PMP_SLEN_S ↑p then
                    3
                  else if (s₀.seen who).chip.on Fld.PMP_RATE_CHANGING 0 = true then 4 else 0) =
              0 ∧
            f ∈
              [Fld.PMP_STOP_CAUSE_STOP, Fld.PMP_STOP_CAUSE_MASK, Fld.PMP_STOP_CAUSE_OVERRUN, Fld.PMP_STOP_CAUSE_LAG, Fld.PMP_STOP_CAUSE_HALT_CMD,
                Fld.PMP_STOP_CAUSE_DATA_PARITY, Fld.PMP_STOP_CAUSE_REPAIR_FAIL, Fld.PMP_STOP_CAUSE_HOST_LOSS, Fld.PMP_STOP_CODES_CODES, Fld.PMP_STATUS_LAG,
                Fld.PMP_STATUS_TICK_PEND] :=
  ⟨.host 1, 0, w (part0 ++ [(.PMP_STATUS_STATE, 0, psHalt), (.PMP_CTL_MODE, 0, modeFree)]), .PMP_STATUS_LAG, by decide +kernel⟩

theorem witness_StartEntersRampOrIsRefused_2 :
    ∃ (who : Init) (p : Fin 16) (s₀ : State),
    (s₀.seen who).chip.regMay who { blk := Blk.part, inst := ↑p, off := 4 } true = true ∧
      (s₀.seen who).chip.power = pwrOn ∧
        (s₀.seen who).chip.cmdPending CmdReg.pmp ↑p = false ∧
          (if (s₀.seen who).chip.pumpState ↑p = psEmpty ∨ (s₀.seen who).chip.pumpState ↑p = psLoading then 1
            else
              if (s₀.seen who).chip.pumpState ↑p ≠ psHalt ∨ (s₀.seen who).chip.mode ↑p = modeHalt ∨ (s₀.seen who).chip.underTest ↑p = true then 2
              else
                if
                    (s₀.seen who).chip.mode ↑p = modePaced ∧
                      (s₀.seen who).chip.get Fld.PMP_CTL_PSRC ↑p = 0 ∧
                        (s₀.seen who).chip.get Fld.PMP_TDIV_INT ↑p < (s₀.seen who).chip.get Fld.PMP_SLEN_S ↑p then
                  3
                else if (s₀.seen who).chip.on Fld.PMP_RATE_CHANGING 0 = true then 4 else 0) ≠
            0 :=
  ⟨.host 1, 0, w part0, by decide +kernel⟩


/-! HaltStopsPump -/

theorem witness_HaltStopsPump_1 :
    ∃ (who : Init) (p : Fin 16) (s₀ : State),
    (s₀.seen who).chip.regMay who { blk := Blk.part, inst := ↑p, off := 4 } true = true ∧
      (s₀.seen who).chip.cmdPending CmdReg.pmp ↑p = false ∧ ((s₀.seen who).chip.pumpState ↑p = psRun ∨ (s₀.seen who).chip.pumpState ↑p = psHold) :=
  ⟨.host 1, 0, w part0, by decide +kernel⟩

theorem witness_HaltStopsPump_2 :
    ∃ (who : Init) (p : Fin 16) (s₀ : State),
    (s₀.seen who).chip.regMay who { blk := Blk.part, inst := ↑p, off := 4 } true = true ∧
      (s₀.seen who).chip.cmdPending CmdReg.pmp ↑p = false ∧ (s₀.seen who).chip.pumpState ↑p = psWait :=
  ⟨svc, 0, w (part0 ++ [(.PMP_STATUS_STATE, 0, psWait)]), by decide +kernel⟩

theorem witness_HaltStopsPump_3 :
    ∃ (who : Init) (p : Fin 16) (s₀ : State),
    (s₀.seen who).chip.regMay who { blk := Blk.part, inst := ↑p, off := 4 } true = true ∧
      (s₀.seen who).chip.cmdPending CmdReg.pmp ↑p = true ∧ (s₀.seen who).chip.get Fld.CQ_CMD (CmdReg.pmp.idx ↑p) = 1 ∧ (s₀.seen who).chip.pumpState ↑p = psRamp :=
  ⟨svc, 0, w (part0 ++ [(.PMP_STATUS_STATE, 0, psRamp), (.CQ_PEND, CmdReg.pmp.idx 0, 1), (.CQ_CMD, CmdReg.pmp.idx 0, 1)]), by decide +kernel⟩


/-! CyclesBeginOnStepAndTick -/

theorem witness_CyclesBeginOnStepAndTick_1 :
    ∃ (who : Init) (p : Fin 16) (count : BitVec 16) (s₀ : State) (k : Nat),
    (s₀.seen who).chip.regMay who { blk := Blk.part, inst := ↑p, off := 4 } true = true ∧
      (s₀.seen who).chip.cmdPending CmdReg.pmp ↑p = false ∧
        (s₀.seen who).chip.pumpState ↑p = psWait ∧
          (s₀.seen who).chip.mode ↑p = modeStep ∧
            count ≠ 0 ∧
              (s₀.seen who).chip.holdMark (↑p) 0 = 0 ∧
                (s₀.seen who).chip.reps = [] ∧
                  (s₀.seen who).chip.tileOwner (k / 256) = some ↑p ∧ (s₀.seen who).arr.capCur.sorted = true ∧ NatMap.find 0 (s₀.seen who).arr.capCur k < 2 :=
  ⟨svc, 0, 65535, w (part0 ++ [(.PMP_STATUS_STATE, 0, psWait), (.PMP_CTL_MODE, 0, modeStep)]), 511, by decide +kernel⟩

theorem witness_CyclesBeginOnStepAndTick_2 :
    ∃ (who : Init) (p : Fin 16) (s₀ : State) (k : Nat),
    (s₀.seen who).chip.divDue ↑p = true ∧
      (s₀.seen who).chip.mode ↑p = modePaced ∧
        (s₀.seen who).chip.elastic ↑p = false ∧
          (s₀.seen who).chip.pumpState ↑p = psWait ∧
            (s₀.seen who).chip.holdMark (↑p) 0 = 0 ∧
              (s₀.seen who).chip.reps = [] ∧
                (s₀.seen who).chip.tileOwner (k / 256) = some ↑p ∧ (s₀.seen who).arr.capCur.sorted = true ∧ NatMap.find 0 (s₀.seen who).arr.capCur k < 2 :=
  ⟨svc, 0, w (part0 ++ [(.PMP_STATUS_STATE, 0, psWait), (.PMP_CTL_MODE, 0, modePaced), (.PMP_CTL_PSRC, 0, 0), (.H_DIV_ON, 0, 1), (.PMP_TDIV_INT, 0, 100), (.H_DIV_START, 0, 0)]), 511, by decide +kernel⟩

theorem witness_CyclesBeginOnStepAndTick_3 :
    ∃ (who : Init) (p : Fin 16) (s₀ : State),
    (s₀.seen who).chip.divDue ↑p = true ∧
      (s₀.seen who).chip.mode ↑p = modePaced ∧
        (s₀.seen who).chip.get Fld.PMP_CTL_OVR ↑p = ovrStretch ∧
          ((s₀.seen who).chip.pumpState ↑p = psRun ∨ (s₀.seen who).chip.pumpState ↑p = psHold) ∧ (s₀.seen who).chip.on Fld.PMP_STATUS_TICK_PEND ↑p = false :=
  ⟨svc, 0, w (part0 ++ [(.PMP_STATUS_STATE, 0, psHold), (.PMP_CTL_MODE, 0, modePaced), (.PMP_CTL_PSRC, 0, 0), (.H_DIV_ON, 0, 1), (.PMP_TDIV_INT, 0, 100), (.H_DIV_START, 0, 0), (.PMP_CTL_OVR, 0, ovrStretch)]), by decide +kernel⟩

theorem witness_CyclesBeginOnStepAndTick_4 :
    ∃ (who : Init) (p : Fin 16) (s₀ : State),
    (s₀.seen who).chip.divDue ↑p = true ∧ (s₀.seen who).chip.mode ↑p ≠ modePaced :=
  ⟨svc, 0, w (part0 ++ [(.PMP_CTL_MODE, 0, modePaced), (.PMP_CTL_PSRC, 0, 0), (.H_DIV_ON, 0, 1), (.PMP_TDIV_INT, 0, 100), (.H_DIV_START, 0, 0), (.PMP_CTL_MODE, 0, modeFree)]), by decide +kernel⟩

theorem witness_CyclesBeginOnStepAndTick_5 :
    ∃ (who : Init) (p : Fin 16) (s₀ : State),
    (s₀.seen who).chip.divDue ↑p = false :=
  ⟨svc, 0, w part0, by decide +kernel⟩

theorem witness_CyclesBeginOnStepAndTick_6 :
    ∃ (p : Fin 16) (c : Chip) (src : Nat) (due : Nat),
    c.edges = [(↑p, src, due)] ∧ c.period < due :=
  ⟨0, { (w part0).chip with edges := [(0, 1, 300001)] }, 1, 300001, by decide +kernel⟩

theorem witness_CyclesBeginOnStepAndTick_7 :
    ∃ (p : Fin 16) (c : Chip) (src : Nat) (due : Nat),
    c.edges = [(↑p, src, due)] ∧ due ≤ c.period :=
  ⟨0, { (w part0).chip with edges := [(0, 1, 300000)] }, 1, 300000, by decide +kernel⟩


/-! PrimeRestoresGoldenState -/

theorem witness_PrimeRestoresGoldenState_1 :
    ∃ (who : Init) (p : Fin 16) (s₀ : State) (k : Nat),
    (s₀.seen who).chip.regMay who { blk := Blk.part, inst := ↑p, off := 4 } true = true ∧
      (s₀.seen who).chip.power = pwrOn ∧
        (s₀.seen who).chip.cmdPending CmdReg.pmp ↑p = false ∧
          (s₀.seen who).chip.pumpState ↑p = psHalt ∧ (s₀.seen who).chip.underTest ↑p = false ∧ (s₀.seen who).arr.gslot.sorted = true ∧ k < 4096 :=
  ⟨svc, 0, wa { gslot := [(5, 1), (8192, 1)] } (part0 ++ [(.PMP_STATUS_STATE, 0, psHalt)]), 4095, by decide +kernel⟩

theorem witness_PrimeRestoresGoldenState_2 :
    ∃ (who : Init) (p : Fin 16) (s₀ : State) (b : Nat),
    (s₀.seen who).chip.regMay who { blk := Blk.part, inst := ↑p, off := 4 } true = true ∧
      (s₀.seen who).chip.power = pwrOn ∧
        (s₀.seen who).chip.cmdPending CmdReg.pmp ↑p = false ∧
          (s₀.seen who).chip.pumpState ↑p = psHalt ∧
            (s₀.seen who).chip.underTest ↑p = false ∧ (s₀.seen who).arr.gslot.sorted = true ∧ (s₀.seen who).chip.ownsBand (↑p) (b / 2048) = true :=
  ⟨svc, 0, wa { gslot := [(5, 1), (8192, 1)] } (part0 ++ [(.PMP_STATUS_STATE, 0, psHalt)]), 4095, by decide +kernel⟩

theorem witness_PrimeRestoresGoldenState_3 :
    ∃ (who : Init) (p : Fin 16) (s₀ : State) (k : Nat),
    (s₀.seen who).chip.regMay who { blk := Blk.part, inst := ↑p, off := 4 } true = true ∧
      (s₀.seen who).chip.power = pwrOn ∧
        (s₀.seen who).chip.cmdPending CmdReg.pmp ↑p = false ∧
          (s₀.seen who).chip.pumpState ↑p = psHalt ∧
            (s₀.seen who).chip.underTest ↑p = false ∧ (s₀.seen who).arr.gslot.sorted = true ∧ (s₀.seen who).chip.xOwner k = some ↑p :=
  ⟨svc, 0, wa { gslot := [(5, 1)] } (part0 ++ [(.PMP_STATUS_STATE, 0, psHalt), (.PTN_CFG_ACTIVE, 0, 1)]), 511, by decide +kernel⟩


/-! RateChanges -/

theorem witness_RateChanges_1 :
    ∃ (who : Init) (p : Fin 16) (s₀ : State),
    (s₀.seen who).chip.regMay who { blk := Blk.part, inst := ↑p, off := 4 } true = true ∧
      initHost who = false ∧
        (s₀.seen who).chip.cmdPending CmdReg.pmp ↑p = false ∧
          (s₀.seen who).chip.on Fld.PMP_RATE_CHANGING 0 = false ∧ ∀ q < 16, (s₀.seen who).chip.pumpState q = psEmpty ∨ (s₀.seen who).chip.pumpState q = psHalt :=
  ⟨svc, 15, w [], by decide +kernel⟩

theorem witness_RateChanges_2 :
    ∃ (who : Init) (p : Fin 16) (s₀ : State) (q : Nat),
    (s₀.seen who).chip.get Fld.PMP_RATE_CHANGING 0 = 1 ∧
      (s₀.seen who).chip.due Fld.H_RATE_DUE 0 = true ∧
        (s₀.seen who).chip.get Fld.H_RATE_PART 0 = ↑p ∧
          (s₀.seen who).chip.get Fld.H_RATE_NEW 0 < 2 ∧
            (s₀.seen who).chip.cmdPending CmdReg.pmp ↑p = true ∧ (s₀.seen who).chip.get Fld.CQ_CMD (CmdReg.pmp.idx ↑p) = 5 ∧ q < 16 :=
  ⟨svc, 15, w [(.PMP_RATE_CHANGING, 0, 1), (.H_RATE_DUE, 0, 1000001), (.H_RATE_PART, 0, 15), (.H_RATE_NEW, 0, 1), (.CQ_PEND, CmdReg.pmp.idx 15, 1), (.CQ_CMD, CmdReg.pmp.idx 15, 5)], 15, by decide +kernel⟩

theorem witness_RateChanges_3 :
    ∃ (who : Init) (p : Fin 16) (s₀ : State),
    (s₀.seen who).chip.regMay who { blk := Blk.part, inst := ↑p, off := 4 } true = true ∧
      initHost who = false ∧
        (s₀.seen who).chip.get Fld.PMP_RATE_CHANGING 0 = 1 ∧
          ((s₀.seen who).chip.cmdPending CmdReg.pmp ↑p = false ∨ (s₀.seen who).chip.get Fld.CQ_CMD (CmdReg.pmp.idx ↑p) = 5) :=
  ⟨svc, 15, w [(.PMP_RATE_CHANGING, 0, 1)], by decide +kernel⟩


/-! RampRunsAndEnds -/

theorem witness_RampRunsAndEnds_1 :
    ∃ (p : Fin 16) (s : State),
    s.chip.pumpState ↑p = psRamp ∧
      s.chip.due Fld.H_RAMP_END ↑p = true ∧ s.chip.reps = [] ∧ s.chip.cmdPending CmdReg.pmp ↑p = true ∧ s.chip.mode ↑p = modeFree ∧ s.chip.holdMark (↑p) 0 = 0 :=
  ⟨0, w (part0 ++ [(.PMP_STATUS_STATE, 0, psRamp), (.H_RAMP_END, 0, 1000001), (.CQ_PEND, CmdReg.pmp.idx 0, 1), (.PMP_CTL_MODE, 0, modeFree)]), by decide +kernel⟩

theorem witness_RampRunsAndEnds_2 :
    ∃ (p : Fin 16) (s : State),
    s.chip.pumpState ↑p = psRamp ∧
      s.chip.due Fld.H_RAMP_END ↑p = true ∧
        s.chip.reps = [] ∧ s.chip.cmdPending CmdReg.pmp ↑p = true ∧ s.chip.mode ↑p ≠ modeFree ∧ s.chip.mode ↑p = modePaced ∧ s.chip.get Fld.PMP_CTL_PSRC ↑p = 0 :=
  ⟨0, w (part0 ++ [(.PMP_STATUS_STATE, 0, psRamp), (.H_RAMP_END, 0, 1000001), (.CQ_PEND, CmdReg.pmp.idx 0, 1), (.PMP_CTL_MODE, 0, modePaced)]), by decide +kernel⟩

theorem witness_RampRunsAndEnds_3 :
    ∃ (p : Fin 16) (j : Fin 6) (s : State),
    s.chip.pumpState ↑p = psRamp ∧ s.chip.rampLeft ↑p + ↑j = 6 ∧ ↑j < s.chip.slen ↑p :=
  ⟨0, 5, w (part0 ++ [(.PMP_STATUS_STATE, 0, psRamp), (.H_RAMP_END, 0, 1000004), (.PMP_SLEN_S, 0, 64)]), by decide +kernel⟩

theorem witness_RampRunsAndEnds_4 :
    ∃ (p : Fin 16) (w : BitVec 12) (s : State),
    s.chip.pumpState ↑p = psWait ∧ w.toNat < s.chip.slen ↑p :=
  ⟨0, 4095, w (part0 ++ [(.PMP_STATUS_STATE, 0, psWait), (.PMP_SLEN_S, 0, 4096)]), by decide +kernel⟩


/-! FetchChecksWords -/

theorem witness_FetchChecksWords_1 :
    ∃ (ahead : Bool) (st : Nat) (b : Nat) (a : Arr),
    checkWord (NatMap.find 0 (if ahead = true then a.fword else a.istore) (b * 4096 + st)) = WordCheck.good :=
  ⟨false, 2, 7, fw (encodeWord 77), by decide +kernel⟩

theorem witness_FetchChecksWords_2 :
    ∃ (ahead : Bool) (st : Nat) (b : Nat) (a : Arr) (w : Nat),
    checkWord (NatMap.find 0 (if ahead = true then a.fword else a.istore) (b * 4096 + st)) = WordCheck.corrected w :=
  ⟨true, 2, 7, { fword := [(7 * 4096 + 2, Nat.xor (encodeWord 77) 8)] }, encodeWord 77, by decide +kernel⟩

theorem witness_FetchChecksWords_3 :
    ∃ (ahead : Bool) (st : Nat) (b : Nat) (c : Chip) (a : Arr),
    checkWord (NatMap.find 0 (if ahead = true then a.fword else a.istore) (b * 4096 + st)) = WordCheck.bad ∧ c.repairing false (b * 4096 + st) = true :=
  ⟨true, 2, 7, (wc (fun c => { c with reps := [rep0] }) []).chip, { fword := [(7 * 4096 + 2, Nat.xor (encodeWord 77) 24)] }, by decide +kernel⟩

theorem witness_FetchChecksWords_4 :
    ∃ (a : Arr),
    a.istore.sorted = true :=
  ⟨fw (Nat.xor (encodeWord 77) 24), by decide +kernel⟩


/-! HoldsEnd -/

theorem witness_HoldsEnd_1 :
    ∃ (p : Fin 16) (s : State),
    s.chip.pumpState ↑p = psHold ∧ holdReady s.chip s.arr (↑p) (s.chip.holdMark (↑p) (s.chip.stepNow ↑p)) s.chip.period = true :=
  ⟨0, w (part0 ++ [(.PMP_STATUS_STATE, 0, psHold)]), by decide +kernel⟩

theorem witness_HoldsEnd_2 :
    ∃ (p : Fin 16) (s : State),
    holdReady s.chip s.arr (↑p) (s.chip.holdMark (↑p) (s.chip.stepNow ↑p)) s.chip.period = false :=
  ⟨0, w (part0 ++ [(.PMP_STATUS_STATE, 0, psHold), (.H_HOLD_MARK, 0, 8), (.PMP_HOLD_REQ_HOST, 0, 1)]), by decide +kernel⟩

theorem witness_HoldsEnd_3 :
    ∃ (p : Fin 16) (s : State),
    s.chip.pumpState ↑p = psHold ∧
      s.chip.get Fld.PMP_HOLD_LIMIT_LIMIT ↑p ≠ 0 ∧
        s.chip.on Fld.H_HOLD_LONG_SET ↑p = false ∧
          s.chip.get Fld.PMP_HOLD_LIMIT_LIMIT ↑p * Chip.us < (s.chip.period + 1 - s.chip.get Fld.H_HOLD_START ↑p) * s.chip.unitsPerPeriod :=
  ⟨0, w (part0 ++ [(.PMP_STATUS_STATE, 0, psHold), (.PMP_HOLD_LIMIT_LIMIT, 0, 1), (.H_HOLD_START, 0, 1)]), by decide +kernel⟩

theorem witness_HoldsEnd_4 :
    ∃ (p : Fin 16) (s : State) (e : ElEntry),
    List.find? (fun (e : ElEntry) => decide (e.part = ↑p) && decide (e.due ≠ 0) && decide (e.due ≤ s.chip.period + 1)) s.arr.elOut = some e :=
  ⟨0, wa { elOut := [⟨0, 3, [], 300001⟩] } [], ⟨0, 3, [], 300001⟩, by decide +kernel⟩


/-! CreateClaimsBands -/

theorem witness_CreateClaimsBands_1 :
    ∃ (who : Init) (p : Fin 16) (s₀ : State),
    (s₀.seen who).chip.regMay who { blk := Blk.part, inst := ↑p, off := 4100 } true = true ∧
      (s₀.seen who).chip.power = pwrOn ∧
        (s₀.seen who).chip.cmdPending CmdReg.ptn ↑p = false ∧
          (s₀.seen who).chip.get Fld.H_QUIESCE 0 = 0 ∧
            (if initHost who = true then 1
              else
                if (s₀.seen who).chip.on Fld.PTN_CFG_ACTIVE ↑p = true then 2
                else
                  if
                      (s₀.seen who).chip.get Fld.PTN_CFG_COUNT ↑p = 0 ∨
                        (s₀.seen who).chip.bands < (s₀.seen who).chip.get Fld.PTN_CFG_FIRST ↑p + (s₀.seen who).chip.get Fld.PTN_CFG_COUNT ↑p then
                    3
                  else
                    if (s₀.seen who).chip.overlaps ↑p = true then 4
                    else
                      if
                          (s₀.seen who).chip.get Fld.PTN_CFG_BIND ↑p < 4 ∧
                            (s₀.seen who).chip.portExists ((s₀.seen who).chip.get Fld.PTN_CFG_BIND ↑p) = false then
                        5
                      else 0) =
              0 :=
  ⟨svc, 3, w [(.PTN_CFG_FIRST, 3, 63), (.PTN_CFG_COUNT, 3, 1)], by decide +kernel⟩

theorem witness_CreateClaimsBands_2 :
    ∃ (who : Init) (p : Fin 16) (s₀ : State),
    (s₀.seen who).chip.regMay who { blk := Blk.part, inst := ↑p, off := 4100 } true = true ∧
      (s₀.seen who).chip.power = pwrOn ∧
        (s₀.seen who).chip.cmdPending CmdReg.ptn ↑p = false ∧
          (s₀.seen who).chip.get Fld.H_QUIESCE 0 = 0 ∧
            (if initHost who = true then 1
              else
                if (s₀.seen who).chip.on Fld.PTN_CFG_ACTIVE ↑p = true then 2
                else
                  if
                      (s₀.seen who).chip.get Fld.PTN_CFG_COUNT ↑p = 0 ∨
                        (s₀.seen who).chip.bands < (s₀.seen who).chip.get Fld.PTN_CFG_FIRST ↑p + (s₀.seen who).chip.get Fld.PTN_CFG_COUNT ↑p then
                    3
                  else
                    if (s₀.seen who).chip.overlaps ↑p = true then 4
                    else
                      if
                          (s₀.seen who).chip.get Fld.PTN_CFG_BIND ↑p < 4 ∧
                            (s₀.seen who).chip.portExists ((s₀.seen who).chip.get Fld.PTN_CFG_BIND ↑p) = false then
                        5
                      else 0) ≠
              0 :=
  ⟨svc, 3, w [(.PTN_CFG_FIRST, 3, 63), (.PTN_CFG_COUNT, 3, 2)], by decide +kernel⟩


/-! ReleaseClearsPartition -/

theorem witness_ReleaseClearsPartition_1 :
    ∃ (who : Init) (p : Fin 16) (s₀ : State),
    (s₀.seen who).chip.regMay who { blk := Blk.part, inst := ↑p, off := 4100 } true = true ∧
      initHost who = false ∧
        (s₀.seen who).chip.power = pwrOn ∧
          (s₀.seen who).chip.cmdPending CmdReg.ptn ↑p = false ∧
            (s₀.seen who).chip.get Fld.H_QUIESCE 0 = 0 ∧
              (s₀.seen who).chip.on Fld.PTN_CFG_ACTIVE ↑p = true ∧ ((s₀.seen who).chip.pumpState ↑p = psEmpty ∨ (s₀.seen who).chip.pumpState ↑p = psHalt) :=
  ⟨svc, 0, w (part0 ++ [(.PMP_STATUS_STATE, 0, psHalt)]), by decide +kernel⟩

theorem witness_ReleaseClearsPartition_2 :
    ∃ (who : Init) (p : Fin 16) (s₀ : State) (k : Nat),
    (s₀.seen who).chip.cmdPending CmdReg.ptn ↑p = true ∧
      (s₀.seen who).chip.get Fld.CQ_CMD (CmdReg.ptn.idx ↑p) = 2 ∧ (s₀.seen who).chip.ownsBand (↑p) (k / 4096 / 2048) = true :=
  ⟨svc, 0, w (part0 ++ [(.CQ_PEND, CmdReg.ptn.idx 0, 1), (.CQ_CMD, CmdReg.ptn.idx 0, 2)]), 4096 * 4096 - 1, by decide +kernel⟩


/-! PartitionResetPrimes -/

theorem witness_PartitionResetPrimes_1 :
    ∃ (who : Init) (p : Fin 16) (s₀ : State),
    (s₀.seen who).chip.regMay who { blk := Blk.part, inst := ↑p, off := 4100 } true = true ∧
      (s₀.seen who).chip.power = pwrOn ∧
        (s₀.seen who).chip.cmdPending CmdReg.ptn ↑p = false ∧
          (s₀.seen who).chip.get Fld.H_QUIESCE 0 = 0 ∧
            (s₀.seen who).chip.on Fld.PTN_CFG_ACTIVE ↑p = true ∧ (s₀.seen who).chip.pumpState ↑p ≠ psLoading ∧ (s₀.seen who).chip.pumpState ↑p ≠ psEmpty :=
  ⟨.host 1, 0, w part0, by decide +kernel⟩

theorem witness_PartitionResetPrimes_2 :
    ∃ (who : Init) (p : Fin 16) (s₀ : State),
    (s₀.seen who).chip.regMay who { blk := Blk.part, inst := ↑p, off := 4100 } true = true ∧
      (s₀.seen who).chip.power = pwrOn ∧
        (s₀.seen who).chip.cmdPending CmdReg.ptn ↑p = false ∧
          (s₀.seen who).chip.get Fld.H_QUIESCE 0 = 0 ∧ (s₀.seen who).chip.on Fld.PTN_CFG_ACTIVE ↑p = true ∧ (s₀.seen who).chip.pumpState ↑p = psEmpty :=
  ⟨svc, 0, w (part0 ++ [(.PMP_STATUS_STATE, 0, psEmpty)]), by decide +kernel⟩

theorem witness_PartitionResetPrimes_3 :
    ∃ (who : Init) (p : Fin 16) (s₀ : State),
    (s₀.seen who).chip.deepAwaited (s₀.seen who).arr ↑p = false ∧
      (s₀.seen who).chip.get Fld.H_PRIMING ↑p = 3 ∧
        (s₀.seen who).chip.cmdPending CmdReg.ptn ↑p = true ∧ (s₀.seen who).chip.get Fld.CQ_CMD (CmdReg.ptn.idx ↑p) = 3 :=
  ⟨svc, 0, w (part0 ++ [(.H_PRIMING, 0, 3), (.CQ_PEND, CmdReg.ptn.idx 0, 1), (.CQ_CMD, CmdReg.ptn.idx 0, 3)]), by decide +kernel⟩

theorem witness_PartitionResetPrimes_4 :
    ∃ (who : Init) (p : Fin 16) (s₀ : State),
    (s₀.seen who).chip.deepAwaited (s₀.seen who).arr ↑p = false ∧
      (s₀.seen who).chip.get Fld.H_PRIMING ↑p = 2 ∧ (s₀.seen who).chip.recordsDone ↑p = true ∧ (s₀.seen who).chip.cmdPending CmdReg.pmp ↑p = true :=
  ⟨svc, 0, w (part0 ++ [(.H_PRIMING, 0, 2), (.CQ_PEND, CmdReg.pmp.idx 0, 1)]), by decide +kernel⟩

theorem witness_PartitionResetPrimes_5 :
    ∃ (who : Init) (p : Fin 16) (s₀ : State),
    (s₀.seen who).chip.deepAwaited (s₀.seen who).arr ↑p = true :=
  ⟨svc, 0, wa { accs := [acc0] } (part0 ++ [(.H_PRIMING, 0, 3)]), by decide +kernel⟩


/-! RebindMovesToAlternate -/

theorem witness_RebindMovesToAlternate_1 :
    ∃ (p : Fin 16) (n : Nat) (s : State),
    s.chip.get Fld.H_REBIND ↑p = n + 1 ∧
      (s.chip.get Fld.PTN_CFG_ALT ↑p = 4 ∨
        s.chip.get Fld.PTN_CFG_ALT ↑p < 4 ∧
          s.chip.get Fld.PTN_CFG_ALT ↑p ≠ n ∧
            s.chip.on Fld.H_LOST (s.chip.get Fld.PTN_CFG_ALT ↑p) = false ∧
              s.chip.portExists (s.chip.get Fld.PTN_CFG_ALT ↑p) = true ∧ s.chip.on Fld.H_LINKUP (s.chip.get Fld.PTN_CFG_ALT ↑p) = true) :=
  ⟨0, 2, w (part0 ++ [(.H_REBIND, 0, 3), (.PTN_CFG_ALT, 0, 4)]), by decide +kernel⟩

theorem witness_RebindMovesToAlternate_2 :
    ∃ (p : Fin 16) (n : Nat) (s : State),
    s.chip.get Fld.H_REBIND ↑p = n + 1 ∧
      ¬(s.chip.get Fld.PTN_CFG_ALT ↑p = 4 ∨
            s.chip.get Fld.PTN_CFG_ALT ↑p < 4 ∧
              s.chip.get Fld.PTN_CFG_ALT ↑p ≠ n ∧
                s.chip.on Fld.H_LOST (s.chip.get Fld.PTN_CFG_ALT ↑p) = false ∧
                  s.chip.portExists (s.chip.get Fld.PTN_CFG_ALT ↑p) = true ∧ s.chip.on Fld.H_LINKUP (s.chip.get Fld.PTN_CFG_ALT ↑p) = true) ∧
        s.chip.on Fld.PTN_CFG_FALLBACK ↑p = true :=
  ⟨0, 2, w (part0 ++ [(.H_REBIND, 0, 3), (.PTN_CFG_ALT, 0, 2), (.PTN_CFG_FALLBACK, 0, 1)]), by decide +kernel⟩

theorem witness_RebindMovesToAlternate_3 :
    ∃ (p : Fin 16) (n : Nat) (s : State),
    s.chip.get Fld.H_REBIND ↑p = n + 1 ∧
      ¬(s.chip.get Fld.PTN_CFG_ALT ↑p = 4 ∨
            s.chip.get Fld.PTN_CFG_ALT ↑p < 4 ∧
              s.chip.get Fld.PTN_CFG_ALT ↑p ≠ n ∧
                s.chip.on Fld.H_LOST (s.chip.get Fld.PTN_CFG_ALT ↑p) = false ∧
                  s.chip.portExists (s.chip.get Fld.PTN_CFG_ALT ↑p) = true ∧ s.chip.on Fld.H_LINKUP (s.chip.get Fld.PTN_CFG_ALT ↑p) = true) ∧
        s.chip.on Fld.PTN_CFG_FALLBACK ↑p = false ∧ (s.chip.pumpState ↑p = psRun ∨ s.chip.pumpState ↑p = psHold) :=
  ⟨0, 2, w (part0 ++ [(.H_REBIND, 0, 3), (.PTN_CFG_ALT, 0, 2)]), by decide +kernel⟩

theorem witness_RebindMovesToAlternate_4 :
    ∃ (p : Fin 16) (n : Nat) (s : State),
    s.chip.get Fld.H_REBIND ↑p = n + 1 ∧
      ¬(s.chip.get Fld.PTN_CFG_ALT ↑p = 4 ∨
            s.chip.get Fld.PTN_CFG_ALT ↑p < 4 ∧
              s.chip.get Fld.PTN_CFG_ALT ↑p ≠ n ∧
                s.chip.on Fld.H_LOST (s.chip.get Fld.PTN_CFG_ALT ↑p) = false ∧
                  s.chip.portExists (s.chip.get Fld.PTN_CFG_ALT ↑p) = true ∧ s.chip.on Fld.H_LINKUP (s.chip.get Fld.PTN_CFG_ALT ↑p) = true) ∧
        s.chip.on Fld.PTN_CFG_FALLBACK ↑p = false ∧ s.chip.pumpState ↑p = psWait :=
  ⟨0, 2, w (part0 ++ [(.PMP_STATUS_STATE, 0, psWait), (.H_REBIND, 0, 3), (.PTN_CFG_ALT, 0, 2)]), by decide +kernel⟩


/-! RepairsEnd -/

theorem witness_RepairsEnd_1 :
    ∃ (p : Fin 16) (r : Repair) (s : State),
    s.chip.reps = [r] ∧
      r.part = ↑p ∧
        r.sched = false ∧
          checkWord (NatMap.find 0 s.arr.gword r.key) ≠ WordCheck.bad ∧
            s.chip.pumpState ↑p ≠ psRamp ∧ (∀ x ∈ s.chip.goldenPlaces ↑p, ∀ i < 16, s.chip.deepDead x.1 (i * 256) = false) ∧ s.chip.goldenBad s.mem ↑p = false :=
  ⟨0, rep0, repW psHalt, by decide +kernel⟩

theorem witness_RepairsEnd_2 :
    ∃ (p : Fin 16) (r : Repair) (s : State),
    s.chip.reps = [r] ∧
      r.part = ↑p ∧ s.chip.pumpState ↑p = psHalt ∧ s.chip.goldenPlaces ↑p ≠ [] ∧ ∀ x ∈ s.chip.goldenPlaces ↑p, ∀ i < 16, s.chip.deepDead x.1 (i * 256) = true :=
  ⟨0, rep0, { repW psHalt with chip := ((repW psHalt).chip.set .H_GOLD_CNT 0 1).set .DMC_STACK_STATUS_CH_FAIL 0 65535 }, by decide +kernel⟩

theorem witness_RepairsEnd_3 :
    ∃ (p : Fin 16) (r : Repair) (reason : Fin 4) (s : State),
    s.chip.reps = [r] ∧ r.part = ↑p ∧ s.chip.pumpState ↑p = psHalt ∧ (↑reason ≠ 3 ∨ r.since + 20 * Chip.us ≤ s.chip.now) :=
  ⟨0, rep0, 3, repW psHalt, by decide +kernel⟩

theorem witness_RepairsEnd_4 :
    ∃ (p : Fin 16) (r : Repair) (reason : Fin 4) (s : State),
    s.chip.reps = [r] ∧ r.part = ↑p ∧ s.chip.pumpState ↑p = psRun ∧ (↑reason ≠ 3 ∨ r.since + 20 * Chip.us ≤ s.chip.now) :=
  ⟨0, rep0, 3, repW psRun, by decide +kernel⟩


/-! NetworkAccessesOfCisterns -/

theorem witness_NetworkAccessesOfCisterns_1 :
    ∃ (who : Init) (p : Fin 16) (x : BitVec 40) (y : Nat) (s₀ : State) (n : Fin 257),
    (s₀.seen who).chip.reaches who ↑p = true ∧
      (s₀.seen who).chip.power ≠ pwrWatch ∧
        (s₀.seen who).chip.hostGone who = false ∧
          (s₀.seen who).chip.place (↑p) x.toNat (initService who) = Place.cistern y ∧
            ((s₀.seen who).chip.initTag who).isSome = true ∧
              (s₀.seen who).chip.cutOff routerHub (y / 524288) = false ∧ NatMap.find 0 (s₀.seen who).mem.cisErr (y / 8) = 0 ∧ x.toNat % 8 + ↑n ≤ 8 :=
  ⟨.host 1, 0, BitVec.ofNat 40 (cisternBase + 0x100000), 0x100000, w part0, 8, by decide +kernel⟩

theorem witness_NetworkAccessesOfCisterns_2 :
    ∃ (who : Init) (p : Fin 16) (x : BitVec 40) (y : Nat) (s₀ : State) (d : List Byte),
    (s₀.seen who).chip.reaches who ↑p = true ∧
      (s₀.seen who).chip.power ≠ pwrWatch ∧
        (s₀.seen who).chip.hostGone who = false ∧
          (s₀.seen who).chip.place (↑p) x.toNat (initService who) = Place.cistern y ∧
            ((s₀.seen who).chip.initTag who).isSome = true ∧
              (s₀.seen who).chip.cutOff routerHub (y / 524288) = false ∧ NatMap.find 0 (s₀.seen who).mem.cisErr (y / 8) = 0 ∧ x.toNat % 8 + d.length ≤ 8 :=
  ⟨svc, 0, BitVec.ofNat 40 (cisternBase + 0x100007), 0x100007, w part0, [1], by decide +kernel⟩

theorem witness_NetworkAccessesOfCisterns_3 :
    ∃ (who : Init) (p : Fin 16) (x : BitVec 40) (y : Nat) (s₀ : State) (wide : Bool),
    (s₀.seen who).chip.reaches who ↑p = true ∧
      (s₀.seen who).chip.power ≠ pwrWatch ∧
        (s₀.seen who).chip.hostGone who = false ∧
          (s₀.seen who).chip.place (↑p) x.toNat (initService who) = Place.cistern y ∧
            ((s₀.seen who).chip.initTag who).isSome = true ∧
              (s₀.seen who).chip.cutOff routerHub (y / 524288) = false ∧
                NatMap.find 0 (s₀.seen who).mem.cisErr (y / 8) = 0 ∧ (x.toNat % if wide = true then 8 else 4) = 0 :=
  ⟨svc, 0, BitVec.ofNat 40 (cisternBase + 0x100004), 0x100004, w part0, false, by decide +kernel⟩

theorem witness_NetworkAccessesOfCisterns_4 :
    ∃ (who : Init) (p : Fin 16) (x : BitVec 40) (y : Nat) (s₀ : State),
    (s₀.seen who).chip.reaches who ↑p = true ∧
      (s₀.seen who).chip.power ≠ pwrWatch ∧
        (s₀.seen who).chip.hostGone who = false ∧
          (s₀.seen who).chip.place (↑p) x.toNat (initService who) = Place.cistern y ∧ (s₀.seen who).chip.initTag who = none :=
  ⟨.host 1, 0, BitVec.ofNat 40 (cisternBase + 0x100000), 0x100000, busyW 1024, by decide +kernel, by decide +kernel, by decide +kernel, by decide +kernel, busy_none 1024⟩

theorem witness_NetworkAccessesOfCisterns_5 :
    ∃ (who : Init) (p : Fin 16) (x : BitVec 40) (y : Nat) (s₀ : State) (g : Nat),
    (s₀.seen who).chip.reaches who ↑p = true ∧
      (s₀.seen who).chip.power ≠ pwrWatch ∧
        (s₀.seen who).chip.hostGone who = false ∧
          (s₀.seen who).chip.place (↑p) x.toNat (initService who) = Place.cistern y ∧
            (s₀.seen who).chip.initTag who = some g ∧ (s₀.seen who).chip.cutOff routerHub ((s₀.seen who).chip.routerAt (Target.design p x)) = true :=
  ⟨svc, 0, BitVec.ofNat 40 (cisternBase + 0x100004), 0x100004, w (part0 ++ [(.H_LINK_FAIL, 0, 1)]), initTags svc, by decide +kernel⟩


/-! NetworkRefusesWhatItsRightsForbid -/

theorem witness_NetworkRefusesWhatItsRightsForbid_1 :
    ∃ (s₀ : State) (k : Fin 4) (t : Target),
    (∀ (p : Fin 16) (x : BitVec 40), t = Target.design p x → s₀.chip.get Fld.PTN_CFG_BIND ↑p ≠ ↑k) ∧
      (s₀.chip.initTag (Init.host k)).isSome = true ∧ s₀.chip.hostGone (Init.host k) = false :=
  ⟨w [], 1, .sram 0, (fun p x h => by cases h), by decide +kernel⟩

theorem witness_NetworkRefusesWhatItsRightsForbid_2 :
    ∃ (s₀ : State) (k : Fin 8) (x : BitVec 24),
    x.toNat < 4194304 ∧ ((s₀.seen (Init.core k false)).chip.initTag (Init.core k false)).isSome = true :=
  ⟨w [], 7, 0x3FFFFF, by decide +kernel⟩

theorem witness_NetworkRefusesWhatItsRightsForbid_3 :
    ∃ (s₀ : State) (wide : Bool) (who : Init) (p : Fin 16) (x : BitVec 40),
    (s₀.seen who).chip.reaches who ↑p = true ∧
      (s₀.seen who).chip.power ≠ pwrWatch ∧
        x.toNat < cisternBase ∧
          ((s₀.seen who).chip.initTag who).isSome = true ∧
            (s₀.seen who).chip.hostGone who = false ∧
              (x.toNat % 256 + if wide = true then 8 else 4) ≤ 256 ∧
                (s₀.seen who).chip.cutOff routerHub ((s₀.seen who).chip.routerAt (Target.design p x)) = false :=
  ⟨w part0, true, .host 1, 0, 0xF8, by decide +kernel⟩


/-! Bar2AccessesAndSelection -/

theorem witness_Bar2AccessesAndSelection_1 :
    ∃ (n : Fin 4) (part : BitVec 4) (s : State),
    s.chip.hostGone (Init.host n) = false ∧ s.chip.get Fld.PTN_CFG_BIND part.toNat = ↑n :=
  ⟨1, 0, w part0, by decide +kernel⟩

theorem witness_Bar2AccessesAndSelection_2 :
    ∃ (n : Fin 4) (part : BitVec 4) (s : State),
    s.chip.hostGone (Init.host n) = false ∧ s.chip.get Fld.PTN_CFG_BIND part.toNat ≠ ↑n :=
  ⟨2, 0, w part0, by decide +kernel⟩

theorem witness_Bar2AccessesAndSelection_3 :
    ∃ (n : Fin 4) (off : BitVec 36) (s : State) (y : Nat) (len : Fin 4097),
    s.chip.hostGone (Init.host n) = false ∧
      s.chip.get Fld.GLB_BAR2_SEL_PART ↑n < 16 ∧
        s.chip.get Fld.PTN_CFG_BIND (s.chip.get Fld.GLB_BAR2_SEL_PART ↑n) = ↑n ∧
          s.chip.on Fld.H_BAR2_OUT ↑n = false ∧
            s.chip.power ≠ pwrWatch ∧
              (s.chip.initTag (Init.host n)).isSome = true ∧
                s.chip.place (s.chip.get Fld.GLB_BAR2_SEL_PART ↑n) ((s.chip.get Fld.GLB_BAR2_SEL_WIN ↑n * 2 ^ 36 + off.toNat) % 2 ^ 40) false =
                    Place.cistern y ∧
                  s.chip.cutOff routerHub (y / 524288) = false ∧ NatMap.find 0 s.mem.cisErr (y / 8) = 0 ∧ 0 < ↑len ∧ off.toNat % 8 + ↑len ≤ 8 :=
  ⟨1, 0x100000, w (part0 ++ bar2), 0x100000, 8, by decide +kernel⟩

theorem witness_Bar2AccessesAndSelection_4 :
    ∃ (n : Fin 4) (off : BitVec 36) (s : State) (y : Nat) (d : List Byte) (len : Fin 4097),
    s.chip.hostGone (Init.host n) = false ∧
      s.chip.get Fld.GLB_BAR2_SEL_PART ↑n < 16 ∧
        s.chip.get Fld.PTN_CFG_BIND (s.chip.get Fld.GLB_BAR2_SEL_PART ↑n) = ↑n ∧
          s.chip.on Fld.H_BAR2_OUT ↑n = false ∧
            s.chip.power ≠ pwrWatch ∧
              (s.chip.initTag (Init.host n)).isSome = true ∧
                s.chip.place (s.chip.get Fld.GLB_BAR2_SEL_PART ↑n) ((s.chip.get Fld.GLB_BAR2_SEL_WIN ↑n * 2 ^ 36 + off.toNat) % 2 ^ 40) false =
                    Place.cistern y ∧
                  s.chip.cutOff routerHub (y / 524288) = false ∧
                    NatMap.find 0 s.mem.cisErr (y / 8) = 0 ∧ d ≠ [] ∧ ↑len = d.length ∧ off.toNat % 8 + d.length ≤ 8 :=
  ⟨1, 0x100007, w (part0 ++ bar2), 0x100007, [1], 1, by decide +kernel⟩

theorem witness_Bar2AccessesAndSelection_5 :
    ∃ (n : Fin 4) (off : BitVec 36) (s : State) (len : Fin 4097),
    s.chip.hostGone (Init.host n) = false ∧
      s.chip.get Fld.GLB_BAR2_SEL_PART ↑n < 16 ∧
        (s.chip.get Fld.PTN_CFG_BIND (s.chip.get Fld.GLB_BAR2_SEL_PART ↑n) ≠ ↑n ∨ s.chip.on Fld.H_BAR2_OUT ↑n = true) ∧
          (s.chip.initTag (Init.host n)).isSome = true ∧ 0 < ↑len ∧ off.toNat % 256 + ↑len ≤ 256 :=
  ⟨2, 0, w (part0 ++ [(.GLB_BAR2_SEL_PART, 2, 0)]), 256, by decide +kernel⟩

theorem witness_Bar2AccessesAndSelection_6 :
    ∃ (n : Fin 4) (off : BitVec 36) (s : State) (d : List Byte),
    s.chip.hostGone (Init.host n) = false ∧
      s.chip.get Fld.GLB_BAR2_SEL_PART ↑n < 16 ∧
        (s.chip.get Fld.PTN_CFG_BIND (s.chip.get Fld.GLB_BAR2_SEL_PART ↑n) ≠ ↑n ∨ s.chip.on Fld.H_BAR2_OUT ↑n = true) ∧
          (s.chip.initTag (Init.host n)).isSome = true ∧ d ≠ [] ∧ off.toNat % 256 + d.length ≤ 256 :=
  ⟨2, 0, w (part0 ++ [(.GLB_BAR2_SEL_PART, 2, 0)]), [1, 2], by decide +kernel⟩


/-! TransactionsEnd -/

theorem witness_TransactionsEnd_1 :
    ∃ (tag : BitVec 16) (gen : BitVec 4) (s : State) (x : Txn) (y : DmaItem),
    List.find? (fun (t : Txn) => decide (t.tag = tag.toNat)) s.chip.txns = some x ∧
      x.live = true ∧
        s.chip.dmaItem x.chan = some y ∧
          s.chip.get Fld.H_TAG_GEN tag.toNat = gen.toNat ∧ s.chip.cutOff routerHub x.target = false ∧ x.status = 0 ∧ y.status = 0 ∧ x.data ≠ [] :=
  ⟨9, 3, txW [(.H_TAG_GEN, 9, 3)], txn0, item0, by decide +kernel⟩

theorem witness_TransactionsEnd_2 :
    ∃ (tag : BitVec 16) (s : State) (x : Txn) (y : DmaItem),
    List.find? (fun (t : Txn) => decide (t.tag = tag.toNat)) s.chip.txns = some x ∧
      x.live = true ∧
        s.chip.dmaItem x.chan = some y ∧ s.chip.netExpired x.since = true ∧ (∀ k ∈ s.chip.calls, k.tag ≠ tag.toNat) ∧ s.chip.get Fld.NOC_ERR_LOC_VALID 0 = 0 :=
  ⟨9, txW [(.NOC_TIMEOUT_US, 0, 2)], txn0, item0, by decide +kernel⟩

theorem witness_TransactionsEnd_3 :
    ∃ (tag : BitVec 16) (gen : BitVec 4) (s : State),
    s.chip.get Fld.H_TAG_GEN tag.toNat ≠ gen.toNat :=
  ⟨9, 4, txW [(.H_TAG_GEN, 9, 3)], by decide +kernel⟩

theorem witness_TransactionsEnd_4 :
    ∃ (tag : BitVec 16) (s : State) (k : Call) (who : Init) (n : Nat) (paced : Bool),
    List.find? (fun (z : Call) => decide (z.tag = tag.toNat)) s.chip.calls = some k ∧
      k.live = true ∧ k.kind = CallKind.access who false n paced ∧ s.chip.waiting = [] ∧ s.chip.netExpired k.since = true :=
  ⟨9, wc (fun c => { c with calls := [call0] }) [(.NOC_TIMEOUT_US, 0, 1)], call0, svc, 4, false, by decide +kernel⟩

theorem witness_TransactionsEnd_5 :
    ∃ (tag : BitVec 16) (s : State) (k : Call) (who : Init) (n : Nat) (paced : Bool),
    List.find? (fun (z : Call) => decide (z.tag = tag.toNat)) s.chip.calls = some k ∧
      k.live = true ∧ k.kind = CallKind.access who false n paced ∧ s.chip.waiting = [] ∧ s.chip.netExpired k.since = false :=
  ⟨9, wc (fun c => { c with calls := [{ call0 with since := 999999 }] }) [(.NOC_TIMEOUT_US, 0, 1)], { call0 with since := 999999 }, svc, 4, false, by decide +kernel⟩

theorem witness_TransactionsEnd_6 :
    ∃ (die : Fin 4) (s : State) (p : Nat),
    ↑die < s.chip.dies ∧ s.chip.on Fld.H_LINK_FAIL ↑die = false ∧ p < 16 :=
  ⟨3, w [], 15, by decide +kernel⟩


/-! ChannelFailureAndMarchTests -/

theorem witness_ChannelFailureAndMarchTests_1 :
    ∃ (k : Fin 8) (sec : Bool) (stack : Fin 8) (ch : Fin 16) (s₀ : State),
    (s₀.seen (Init.core k sec)).chip.chFailed ↑stack ↑ch = false ∧
      ↑stack / 2 < (s₀.seen (Init.core k sec)).chip.dies ∧
        (s₀.seen (Init.core k sec)).chip.mirrored ↑stack = false ∧ (s₀.seen (Init.core k sec)).chip.stackMapped ↑stack = true :=
  ⟨7, true, 7, 15, w [(.DM_MAP_VALID, 0, 1), (.DM_MAP_STACK, 0, 7)], by decide +kernel⟩

theorem witness_ChannelFailureAndMarchTests_2 :
    ∃ (k : Fin 8) (sec : Bool) (stack : Fin 8) (ch : Fin 16) (s₀ : State),
    (s₀.seen (Init.core k sec)).chip.chFailed ↑stack ↑ch = false ∧
      ↑stack / 2 < (s₀.seen (Init.core k sec)).chip.dies ∧
        (s₀.seen (Init.core k sec)).chip.mirrored ↑stack = true ∧ ∀ q < 16, (s₀.seen (Init.core k sec)).chip.chFailed (↑stack) q = false :=
  ⟨7, true, 7, 15, w [(.DMC_STACK_CFG_MIRROR, 7, 1)], by decide +kernel⟩

theorem witness_ChannelFailureAndMarchTests_3 :
    ∃ (k : Fin 8) (sec : Bool) (target : Fin 4) (unit : Fin 64) (s₀ : State),
    (sec || decide (↑k < 4)) = true ∧
      (s₀.seen (Init.core k sec)).chip.power = pwrOn ∧
        (s₀.seen (Init.core k sec)).chip.cmdPending CmdReg.mt 0 = false ∧
          (s₀.seen (Init.core k sec)).chip.get Fld.H_QUIESCE 0 = 0 ∧
            (s₀.seen (Init.core k sec)).chip.mtUnitOk ↑target ↑unit = true ∧ (s₀.seen (Init.core k sec)).chip.mtDestructiveOk ↑target ↑unit = true :=
  ⟨3, false, 0, 63, w [], by decide +kernel⟩

theorem witness_ChannelFailureAndMarchTests_4 :
    ∃ (k : Fin 8) (sec : Bool) (target : Fin 4) (unit : Fin 64) (s₀ : State),
    (sec || decide (↑k < 4)) = true ∧
      (s₀.seen (Init.core k sec)).chip.power = pwrOn ∧
        (s₀.seen (Init.core k sec)).chip.cmdPending CmdReg.mt 0 = false ∧
          (s₀.seen (Init.core k sec)).chip.get Fld.H_QUIESCE 0 = 0 ∧
            (s₀.seen (Init.core k sec)).chip.mtUnitOk ↑target ↑unit = true ∧ (s₀.seen (Init.core k sec)).chip.mtPreservingOk ↑target ↑unit = true :=
  ⟨4, true, 3, 7, w [], by decide +kernel⟩

theorem witness_ChannelFailureAndMarchTests_5 :
    ∃ (k : Fin 8) (sec : Bool) (target : Fin 4) (unit : Fin 64) (s₀ : State),
    (sec || decide (↑k < 4)) = true ∧
      (s₀.seen (Init.core k sec)).chip.power = pwrOn ∧
        (s₀.seen (Init.core k sec)).chip.cmdPending CmdReg.mt 0 = false ∧
          (s₀.seen (Init.core k sec)).chip.get Fld.H_QUIESCE 0 = 0 ∧
            (s₀.seen (Init.core k sec)).chip.mtUnitOk ↑target ↑unit = true ∧ (s₀.seen (Init.core k sec)).chip.mtDestructiveOk ↑target ↑unit = false :=
  ⟨1, false, 0, 0, w part0, by decide +kernel⟩

theorem witness_ChannelFailureAndMarchTests_6 :
    ∃ (k : Fin 8) (sec : Bool) (s₀ : State),
    (s₀.seen (Init.core k sec)).chip.cmdPending CmdReg.mt 0 = true ∧
      (s₀.seen (Init.core k sec)).chip.due Fld.H_MT_DUE 0 = true ∧ (s₀.seen (Init.core k sec)).chip.get Fld.CQ_CMD (CmdReg.mt.idx 0) = 2 :=
  ⟨7, true, w (mtRun ++ [(.CQ_CMD, CmdReg.mt.idx 0, 2)]), by decide +kernel⟩

theorem witness_ChannelFailureAndMarchTests_7 :
    ∃ (k : Fin 8) (sec : Bool) (s₀ : State),
    (s₀.seen (Init.core k sec)).chip.cmdPending CmdReg.mt 0 = true ∧
      (s₀.seen (Init.core k sec)).chip.due Fld.H_MT_DUE 0 = true ∧
        (s₀.seen (Init.core k sec)).chip.get Fld.CQ_CMD (CmdReg.mt.idx 0) = 1 ∧ (s₀.seen (Init.core k sec)).chip.get Fld.H_MT_TARGET 0 = mtCistern :=
  ⟨7, true, w (mtRun ++ [(.CQ_CMD, CmdReg.mt.idx 0, 1), (.H_MT_TARGET, 0, mtCistern)]), by decide +kernel⟩

theorem witness_ChannelFailureAndMarchTests_8 :
    ∃ (k : Fin 8) (sec : Bool) (s₀ : State),
    (s₀.seen (Init.core k sec)).chip.cmdPending CmdReg.mt 0 = true ∧
      (s₀.seen (Init.core k sec)).chip.due Fld.H_MT_DUE 0 = true ∧ (s₀.seen (Init.core k sec)).chip.get Fld.MT_FAIL_LOC_VALID 0 = 0 :=
  ⟨7, true, w mtRun, by decide +kernel⟩


/-! LoadsStartAndAbort -/

theorem witness_LoadsStartAndAbort_1 :
    ∃ (who : Init) (p : Fin 16) (s₀ : State),
    (s₀.seen who).chip.regMay who { blk := Blk.part, inst := ↑p, off := 16384 } true = true ∧
      (s₀.seen who).chip.power = pwrOn ∧
        (s₀.seen who).chip.get Fld.H_QUIESCE 0 = 0 ∧
          (s₀.seen who).chip.loading ↑p = false ∧
            initHost who = false ∧
              (s₀.seen who).chip.on Fld.PTN_CFG_ACTIVE ↑p = true ∧ (s₀.seen who).chip.pumpState ↑p = psEmpty ∧ (s₀.seen who).chip.get Fld.LDR_PARAM_SRC ↑p ≤ 4 :=
  ⟨svc, 0, w (part0 ++ [(.PMP_STATUS_STATE, 0, psEmpty), (.LDR_PARAM_SRC, 0, 4)]), by decide +kernel⟩

theorem witness_LoadsStartAndAbort_2 :
    ∃ (who : Init) (p : Fin 16) (s₀ : State),
    (s₀.seen who).chip.regMay who { blk := Blk.part, inst := ↑p, off := 16384 } true = true ∧
      (s₀.seen who).chip.power = pwrOn ∧ (s₀.seen who).chip.get Fld.H_QUIESCE 0 = 0 ∧ (s₀.seen who).chip.loading ↑p = false ∧ initHost who = true :=
  ⟨.host 1, 0, w part0, by decide +kernel⟩

theorem witness_LoadsStartAndAbort_3 :
    ∃ (who : Init) (p : Fin 16) (s₀ : State),
    (s₀.seen who).chip.regMay who { blk := Blk.part, inst := ↑p, off := 16384 } true = true ∧
      initHost who = false ∧ (s₀.seen who).chip.loading ↑p = true ∧ (s₀.seen who).chip.get Fld.LDR_STATUS_STEP ↑p < 14 :=
  ⟨svc, 0, w (part0 ++ loads), by decide +kernel⟩

theorem witness_LoadsStartAndAbort_4 :
    ∃ (who : Init) (p : Fin 16) (s₀ : State),
    (s₀.seen who).chip.regMay who { blk := Blk.part, inst := ↑p, off := 16384 } true = true ∧
      initHost who = false ∧ (s₀.seen who).chip.loading ↑p = true ∧ (s₀.seen who).chip.rimFed ↑p = false :=
  ⟨svc, 0, w (part0 ++ loads), by decide +kernel⟩

theorem witness_LoadsStartAndAbort_5 :
    ∃ (who : Init) (p : Fin 16) (s₀ : State) (k : Nat) (x : Nat),
    (s₀.seen who).chip.regMay who { blk := Blk.part, inst := ↑p, off := 16384 } true = true ∧
      initHost who = false ∧
        (s₀.seen who).chip.loading ↑p = true ∧ (s₀.seen who).chip.rimFed ↑p = true ∧ k < 12 ∧ (s₀.seen who).chip.sector k = sectLoading ∧ x / 1048576 = k :=
  ⟨svc, 0, w (part0 ++ loads ++ rimIn ++ [(.RIM_SECT_STATE_STATE, 11, sectLoading)]), 11, 12582911, by decide +kernel⟩


/-! ImageBytesAreCheckedAndInstalled -/

theorem witness_ImageBytesAreCheckedAndInstalled_1 :
    ∃ (p : Fin 16) (s : State) (off : Nat) (n : Nat),
    s.chip.loading ↑p = true ∧ s.chip.reading ↑p = some (off, n) ∧ s.chip.sourceHeld ↑p ≤ off ∧ s.chip.get Fld.LDR_STATUS_STEP ↑p < 14 :=
  ⟨0, w (part0 ++ loads ++ [(.LDR_PARAM_SRC, 0, 4), (.H_FLASH_SIZE, 0, 0)]), 0, 64, by decide +kernel⟩

theorem witness_ImageBytesAreCheckedAndInstalled_2 :
    ∃ (p : Fin 16) (s : State) (off : Nat) (n : Nat),
    s.chip.loading ↑p = true ∧ s.chip.reading ↑p = some (off, n) ∧ s.chip.rimFed ↑p = false ∧ s.chip.get Fld.LDR_STATUS_STEP ↑p < 14 :=
  ⟨0, w (part0 ++ loads), 0, 64, by decide +kernel⟩

theorem witness_ImageBytesAreCheckedAndInstalled_3 :
    ∃ (p : Fin 16) (bs : List Byte) (s : State) (off : Nat) (n : Nat) (off' : Nat) (n' : Nat),
    s.chip.loading ↑p = true ∧
      s.chip.reading ↑p = some (off, n) ∧
        bs ≠ [] ∧
          bs.length ≤ n ∧
            off + bs.length ≤ s.chip.sourceHeld ↑p ∧
              ((s.chip.setImage (↑p) (overlay (s.chip.image ↑p) off bs)).set Fld.H_IMG_POS (↑p) (s.chip.get Fld.H_IMG_POS ↑p + bs.length)).reading ↑p =
                  some (off', n') ∧
                off' < s.chip.sourceHeld ↑p :=
  ⟨0, [1, 2, 3], w (part0 ++ loads), 0, 64, 3, 61, by decide +kernel⟩

theorem witness_ImageBytesAreCheckedAndInstalled_4 :
    ∃ (p : Fin 16) (bs : List Byte) (s : State) (off : Nat) (n : Nat) (r : Refuse),
    s.chip.loading ↑p = true ∧
      s.chip.reading ↑p = some (off, n) ∧
        bs ≠ [] ∧
          bs.length ≤ n ∧
            off + bs.length ≤ s.chip.sourceHeld ↑p ∧
              ((s.chip.setImage (↑p) (overlay (s.chip.image ↑p) off bs)).set Fld.H_IMG_POS (↑p) (s.chip.get Fld.H_IMG_POS ↑p + bs.length)).reading ↑p = none ∧
                s.chip.get Fld.LDR_STATUS_STEP ↑p ≠ 20 ∧
                  stepCheck ((s.chip.setImage (↑p) (overlay (s.chip.image ↑p) off bs)).set Fld.H_IMG_POS (↑p) (s.chip.get Fld.H_IMG_POS ↑p + bs.length)) (↑p)
                        (s.chip.sourceHeld ↑p) (overlay (s.chip.image ↑p) off bs) (s.chip.get Fld.LDR_STATUS_STEP ↑p) =
                      Except.error r ∧
                    r.step < 14 :=
  ⟨0, toBytes 64 0, w (part0 ++ loads), 0, 64, { step := 3, code := imgFormat }, by decide +kernel⟩

theorem witness_ImageBytesAreCheckedAndInstalled_5 :
    ∃ (p : Fin 16) (bs : List Byte) (s : State) (off : Nat) (n : Nat) (off' : Nat) (n' : Nat),
    s.chip.loading ↑p = true ∧
      s.chip.reading ↑p = some (off, n) ∧
        bs ≠ [] ∧
          bs.length ≤ n ∧
            off + bs.length ≤ s.chip.sourceHeld ↑p ∧
              ((s.chip.setImage (↑p) (overlay (s.chip.image ↑p) off bs)).set Fld.H_IMG_POS (↑p) (s.chip.get Fld.H_IMG_POS ↑p + bs.length)).reading ↑p = none ∧
                s.chip.get Fld.LDR_STATUS_STEP ↑p < 18 ∧
                  stepCheck ((s.chip.setImage (↑p) (overlay (s.chip.image ↑p) off bs)).set Fld.H_IMG_POS (↑p) (s.chip.get Fld.H_IMG_POS ↑p + bs.length)) (↑p)
                        (s.chip.sourceHeld ↑p) (overlay (s.chip.image ↑p) off bs) (s.chip.get Fld.LDR_STATUS_STEP ↑p) =
                      Except.ok () ∧
                    readSpan (stepReads (overlay (s.chip.image ↑p) off bs) (nextStep (s.chip.get Fld.LDR_STATUS_STEP ↑p))) 0 = some (off', n') ∧
                      off' < s.chip.sourceHeld ↑p :=
  ⟨0, slice (goodImage true) 0 64, w (part0 ++ loads), 0, 64, 64, 288, by decide +kernel⟩

theorem witness_ImageBytesAreCheckedAndInstalled_6
    (sha : ∀ b, Config.sha384 b = 0) (ver : ∀ k d r s, Config.ecdsaVerify k d r s = true) (inf : ∀ b, Config.inflate b = some (goodMap b)) :
    ∃ (p : Fin 16) (bs : List Byte) (s : State) (off : Nat) (n : Nat) (l : Loaded) (sc : Sect),
    s.chip.loading ↑p = true ∧
      s.chip.reading ↑p = some (off, n) ∧
        bs ≠ [] ∧
          bs.length ≤ n ∧
            off + bs.length ≤ s.chip.sourceHeld ↑p ∧
              ((s.chip.setImage (↑p) (overlay (s.chip.image ↑p) off bs)).set Fld.H_IMG_POS (↑p) (s.chip.get Fld.H_IMG_POS ↑p + bs.length)).reading ↑p = none ∧
                s.chip.get Fld.LDR_STATUS_STEP ↑p = 18 ∧
                  stepCheck ((s.chip.setImage (↑p) (overlay (s.chip.image ↑p) off bs)).set Fld.H_IMG_POS (↑p) (s.chip.get Fld.H_IMG_POS ↑p + bs.length)) (↑p)
                        (s.chip.sourceHeld ↑p) (overlay (s.chip.image ↑p) off bs) (s.chip.get Fld.LDR_STATUS_STEP ↑p) =
                      Except.ok () ∧
                    imageCheck ((s.chip.setImage (↑p) (overlay (s.chip.image ↑p) off bs)).set Fld.H_IMG_POS (↑p) (s.chip.get Fld.H_IMG_POS ↑p + bs.length)) (↑p)
                          (overlay (s.chip.image ↑p) off bs) =
                        Except.ok l ∧
                      sectOf (overlay (s.chip.image ↑p) off bs) 96 = some sc ∧ sc.stored ≠ 0 ∧ sc.off < s.chip.sourceHeld ↑p :=
  ⟨0, toBytes 8 0, goodW true, 1344, 8, goodLoaded, sectAt (goodImage true) 7, by
    have ov : overlay ((goodW true).chip.image ((0 : Fin 16) : Nat)) 1344 (toBytes 8 0) = goodImage true := overlay_good _
    have sc := step18_good sha inf true
    have im := image_good sha ver inf true
    have st : (goodW true).chip.get .LDR_STATUS_STEP ((0 : Fin 16) : Nat) = 18 := by decide +kernel
    rw [ov, st]
    exact ⟨by decide +kernel, by decide +kernel, by decide, by decide, by decide +kernel, by decide +kernel, rfl, sc, im, by decide +kernel⟩⟩

theorem witness_ImageBytesAreCheckedAndInstalled_7
    (sha : ∀ b, Config.sha384 b = 0) (ver : ∀ k d r s, Config.ecdsaVerify k d r s = true) (inf : ∀ b, Config.inflate b = some (goodMap b)) :
    ∃ (p : Fin 16) (bs : List Byte) (s : State) (off : Nat) (n : Nat) (l : Loaded),
    s.chip.loading ↑p = true ∧
      s.chip.reading ↑p = some (off, n) ∧
        bs ≠ [] ∧
          bs.length ≤ n ∧
            off + bs.length ≤ s.chip.sourceHeld ↑p ∧
              ((s.chip.setImage (↑p) (overlay (s.chip.image ↑p) off bs)).set Fld.H_IMG_POS (↑p) (s.chip.get Fld.H_IMG_POS ↑p + bs.length)).reading ↑p = none ∧
                s.chip.get Fld.LDR_STATUS_STEP ↑p = 18 ∧
                  stepCheck ((s.chip.setImage (↑p) (overlay (s.chip.image ↑p) off bs)).set Fld.H_IMG_POS (↑p) (s.chip.get Fld.H_IMG_POS ↑p + bs.length)) (↑p)
                        (s.chip.sourceHeld ↑p) (overlay (s.chip.image ↑p) off bs) (s.chip.get Fld.LDR_STATUS_STEP ↑p) =
                      Except.ok () ∧
                    imageCheck ((s.chip.setImage (↑p) (overlay (s.chip.image ↑p) off bs)).set Fld.H_IMG_POS (↑p) (s.chip.get Fld.H_IMG_POS ↑p + bs.length)) (↑p)
                          (overlay (s.chip.image ↑p) off bs) =
                        Except.ok l ∧
                      sectOf (overlay (s.chip.image ↑p) off bs) 96 = none ∧ optionalSects (overlay (s.chip.image ↑p) off bs) = [] :=
  ⟨0, toBytes 8 0, goodW false, 1344, 8, goodLoaded, by
    have ov : overlay ((goodW false).chip.image ((0 : Fin 16) : Nat)) 1344 (toBytes 8 0) = goodImage false := overlay_good _
    have sc := step18_good sha inf false
    have im := image_good sha ver inf false
    have st : (goodW false).chip.get .LDR_STATUS_STEP ((0 : Fin 16) : Nat) = 18 := by decide +kernel
    rw [ov, st]
    exact ⟨by decide +kernel, by decide +kernel, by decide, by decide, by decide +kernel, by decide +kernel, rfl, sc, im, by decide +kernel⟩⟩

theorem witness_ImageBytesAreCheckedAndInstalled_8
    (sha : ∀ b, Config.sha384 b = 0) :
    ∃ (p : Fin 16) (bs : List Byte) (s : State) (off : Nat) (n : Nat),
    s.chip.loading ↑p = true ∧
      s.chip.reading ↑p = some (off, n) ∧
        bs ≠ [] ∧
          bs.length ≤ n ∧
            off + bs.length ≤ s.chip.sourceHeld ↑p ∧
              ((s.chip.setImage (↑p) (overlay (s.chip.image ↑p) off bs)).set Fld.H_IMG_POS (↑p) (s.chip.get Fld.H_IMG_POS ↑p + bs.length)).reading ↑p = none ∧
                s.chip.get Fld.LDR_STATUS_STEP ↑p = 20 ∧ symbolsCheck (overlay (s.chip.image ↑p) off bs) = Except.ok none :=
  ⟨0, [0], oddW, 96, 1, by
    have odd : symbolsCheck (overlay (oddW.chip.image 0) 96 [0]) = .ok none := by
      rw [show overlay (oddW.chip.image 0) 96 [0] = oddImage by decide +kernel, symbolsCheck,
        show optionalSects oddImage = [sectAt oddImage 0] by decide +kernel]
      simp only [List.foldlM, symbolStep, hashOk, sha, bind, Except.bind]
      decide +kernel
    exact ⟨by decide +kernel, by decide +kernel, by decide, by decide, by decide +kernel, by decide +kernel, by decide +kernel, odd⟩⟩

theorem witness_ImageBytesAreCheckedAndInstalled_9 :
    ∃ (s : State),
    s.chip.streaming = true :=
  ⟨w rimLoads, by decide +kernel⟩

theorem witness_ImageBytesAreCheckedAndInstalled_10 :
    ∃ (p : Fin 16) (s : State),
    s.chip.loading ↑p = true ∧ s.chip.get Fld.LDR_STATUS_STEP ↑p = 19 ∧ s.chip.reading ↑p = none ∧ s.chip.streaming = false ∧ s.chip.on Fld.H_ABSENT 0 = false :=
  ⟨0, w (part0 ++ loads ++ [(.LDR_STATUS_STEP, 0, 19)]), by decide +kernel⟩


/-! ProbeCommandsAndEvents -/

theorem witness_ProbeCommandsAndEvents_1 :
    ∃ (who : Init) (p : Fin 16) (s : State),
    (s.seen who).chip.regMay who { blk := Blk.prb, inst := ↑p, off := 4 } true = true ∧
      (s.seen who).chip.cmdPending CmdReg.prb ↑p = false ∧
        ¬((s.seen who).chip.pumpState ↑p = psEmpty ∨ (s.seen who).chip.pumpState ↑p = psLoading) ∧
          (s.seen who).chip.get Fld.PRB_STATUS_CAP ↑p = capIdle ∧ (s.seen who).chip.bufferOk ↑p = true :=
  ⟨svc, 0, w (part0 ++ [(.PRB_BUF_BASE_BASE, 0, 16), (.PRB_BUF_LEN_LEN, 0, 1677721), (.DM_MAP_VALID, 0, 1)]), by decide +kernel⟩

theorem witness_ProbeCommandsAndEvents_2 :
    ∃ (who : Init) (p : Fin 16) (s : State),
    (s.seen who).chip.regMay who { blk := Blk.prb, inst := ↑p, off := 4 } true = true ∧
      (s.seen who).chip.cmdPending CmdReg.prb ↑p = false ∧
        (((s.seen who).chip.pumpState ↑p = psEmpty ∨ (s.seen who).chip.pumpState ↑p = psLoading) ∨
          (s.seen who).chip.get Fld.PRB_STATUS_CAP ↑p ≠ capIdle ∨ (s.seen who).chip.bufferOk ↑p = false) :=
  ⟨svc, 0, w (part0 ++ [(.PMP_STATUS_STATE, 0, psEmpty)]), by decide +kernel⟩

theorem witness_ProbeCommandsAndEvents_3 :
    ∃ (who : Init) (p : Fin 16) (s : State),
    (s.seen who).chip.regMay who { blk := Blk.prb, inst := ↑p, off := 4 } true = true ∧
      (s.seen who).chip.cmdPending CmdReg.prb ↑p = false ∧ (s.seen who).chip.get Fld.PRB_STATUS_CAP ↑p ≠ capIdle :=
  ⟨svc, 0, w (part0 ++ [(.PRB_STATUS_CAP, 0, capPre)]), by decide +kernel⟩

theorem witness_ProbeCommandsAndEvents_4 :
    ∃ (who : Init) (p : Fin 16) (s : State),
    (s.seen who).chip.regMay who { blk := Blk.prb, inst := ↑p, off := 4 } true = true ∧
      (s.seen who).chip.cmdPending CmdReg.prb ↑p = false ∧ (s.seen who).chip.get Fld.PRB_STATUS_CAP ↑p = capPre :=
  ⟨.host 1, 0, w (part0 ++ [(.PRB_STATUS_CAP, 0, capPre)]), by decide +kernel⟩

theorem witness_ProbeCommandsAndEvents_5 :
    ∃ (who : Init) (p : Fin 16) (s : State),
    (s.seen who).chip.regMay who { blk := Blk.prb, inst := ↑p, off := 4 } true = true ∧
      (s.seen who).chip.cmdPending CmdReg.prb ↑p = false ∧ (s.seen who).chip.get Fld.PRB_STATUS_CAP ↑p ≠ capPre :=
  ⟨svc, 0, w part0, by decide +kernel⟩

theorem witness_ProbeCommandsAndEvents_6 :
    ∃ (p : Fin 16) (s : State),
    s.chip.cmdPending CmdReg.prb ↑p = true ∧ s.chip.get Fld.CQ_CMD (CmdReg.prb.idx ↑p) = 2 ∧ s.chip.recordsDone ↑p = true :=
  ⟨0, w (part0 ++ [(.CQ_PEND, CmdReg.prb.idx 0, 1), (.CQ_CMD, CmdReg.prb.idx 0, 2)]), by decide +kernel⟩

theorem witness_ProbeCommandsAndEvents_7 :
    ∃ (p : Fin 16) (s : State),
    s.chip.cmdPending CmdReg.prb ↑p = true ∧ s.chip.get Fld.CQ_CMD (CmdReg.prb.idx ↑p) = 2 ∧ s.chip.recordsDone ↑p = false :=
  ⟨0, wc (fun c => { c with recs := [rec0] }) (part0 ++ [(.CQ_PEND, CmdReg.prb.idx 0, 1), (.CQ_CMD, CmdReg.prb.idx 0, 2)]), by decide +kernel⟩

theorem witness_ProbeCommandsAndEvents_8 :
    ∃ (p : Fin 16) (k : BitVec 16) (s : State) (r : ProbeRec) (st : Nat) (g : Nat) (off : Nat),
    List.find? (fun (r : ProbeRec) => decide (r.part = ↑p)) s.chip.recs = some r ∧
      (s.chip.probeTag ↑p).isSome = true ∧
        s.chip.place (↑p) (r.addr + r.left) false = Place.deep st g off ∧
          s.chip.power ≠ pwrWatch ∧
            r.left + k.toNat ≤ r.data.length ∧
              (r.addr + r.left) % 32 + k.toNat ≤ 32 ∧
                r.addr + r.left < cisternBase ∧
                  s.chip.deepDead st off = false ∧
                    s.chip.cutOff routerHub (s.chip.routerDeep st off) = false ∧ NatMap.find 0 s.mem.deepErr (deepKey st g off / 32) = 0 :=
  ⟨0, 4, wc (fun c => { c with recs := [rec0] }) (part0 ++ [(.DM_MAP_VALID, 1, 1)]), rec0, 0, 0, 0x11C, by decide +kernel⟩

theorem witness_ProbeCommandsAndEvents_9 :
    ∃ (p : Fin 16) (s : State),
    s.chip.on Fld.PRB_CTL_RR_EN ↑p = true ∧
      s.chip.get Fld.PRB_RATE_RELAX ↑p ≠ 0 ∧
        s.chip.get Fld.PRB_RATE_RELAX ↑p ≤ s.chip.get Fld.H_FALL_CNT ↑p ∧ s.chip.get Fld.PRB_RATE_MIN ↑p < s.chip.get Fld.PRB_STATUS_RATE ↑p :=
  ⟨0, w (part0 ++ [(.PRB_CTL_RR_EN, 0, 1), (.PRB_RATE_RELAX, 0, 5), (.H_FALL_CNT, 0, 5), (.PRB_STATUS_RATE, 0, 1)]), by decide +kernel⟩

theorem witness_ProbeCommandsAndEvents_10 :
    ∃ (j : Nat),
    j < 16 :=
  ⟨15, by decide +kernel⟩

theorem witness_ProbeCommandsAndEvents_11 :
    ∃ (p : Fin 16) (q : Fin 16) (s : State) (x : LinePulse),
    x ∈ s.chip.lines ∧ x.q = ↑q ∧ x.p = ↑p ∧ x.due < s.chip.period :=
  ⟨0, 15, wc (fun c => { c with lines := [⟨15, 0, 299999⟩] }) [], ⟨15, 0, 299999⟩, by decide +kernel⟩

theorem witness_ProbeCommandsAndEvents_12 :
    ∃ (n : Fin 4) (s : State) (x : Nat),
    x ∈ s.chip.xrise ∧ x / 2 ^ 64 % 4 = ↑n ∧ x % 2 ^ 64 ≤ s.chip.period ∧ bitB (s.chip.get Fld.PRB_CTL_XOUT_EN (x / 2 ^ 66)) ↑n = true :=
  ⟨3, wc (fun c => { c with xrise := [3 * 2 ^ 64 + 300000] }) [(.PRB_CTL_XOUT_EN, 0, 8)], 3 * 2 ^ 64 + 300000, by decide +kernel⟩

theorem witness_ProbeCommandsAndEvents_13 :
    ∃ (n : Fin 4) (s : State),
    ∀ x ∈ s.chip.xrise, x / 2 ^ 64 % 4 = ↑n → x % 2 ^ 64 ≤ s.chip.period → bitB (s.chip.get Fld.PRB_CTL_XOUT_EN (x / 2 ^ 66)) ↑n = false :=
  ⟨3, wc (fun c => { c with xrise := [3 * 2 ^ 64 + 300000] }) [], by decide +kernel⟩

theorem witness_ProbeCommandsAndEvents_14 :
    ∃ (n : Fin 4) (s : State),
    s.chip.due Fld.H_XOUT_FALL ↑n = true :=
  ⟨3, w [(.H_XOUT_FALL, 3, 1000001)], by decide +kernel⟩


/-! RimFaultsAndTrees -/

theorem witness_RimFaultsAndTrees_1 :
    ∃ (who : Init) (s : State),
    (s.seen who).chip.regMay who { blk := Blk.rim, inst := 0, off := 160 } true = true :=
  ⟨svc, w [], by decide +kernel⟩

theorem witness_RimFaultsAndTrees_2 :
    ∃ (bank : Fin 12) (line : Fin 64) (ds : List (Fin 64)) (ps : BitVec 16) (s : State) (d : Nat),
    2 ≤ (if s.chip.sectorLive ↑bank = true then s.chip.liveDrivers (↑bank) (↑line) (List.map Fin.val ds) else []).length ∧
      200 < ps.toNat ∧ d ∈ if s.chip.sectorLive ↑bank = true then s.chip.liveDrivers (↑bank) (↑line) (List.map Fin.val ds) else [] :=
  ⟨11, 63, [0, 63], 201, w [(.RIM_SECT_STATE_STATE, 11, 2)], 63, by decide +kernel⟩

theorem witness_RimFaultsAndTrees_3 :
    ∃ (bank : Fin 12) (line : Fin 64) (ds : List (Fin 64)) (ps : BitVec 16) (s : State),
    2 ≤ (if s.chip.sectorLive ↑bank = true then s.chip.liveDrivers (↑bank) (↑line) (List.map Fin.val ds) else []).length ∧
      200 < ps.toNat ∧ s.chip.get Fld.RIM_BUS_LOC_VALID 0 = 0 :=
  ⟨11, 63, [0, 63], 201, w [(.RIM_SECT_STATE_STATE, 11, 2)], by decide +kernel⟩

theorem witness_RimFaultsAndTrees_4
    (cfg : ∀ f, Config.sector 11 f = sect0) :
    ∃ (bank : Fin 12) (line : Fin 64) (ds : List (Fin 64)) (ps : BitVec 16) (s : State) (level : BusDriver → Bool),
    2 ≤ (if s.chip.sectorLive ↑bank = true then s.chip.liveDrivers (↑bank) (↑line) (List.map Fin.val ds) else []).length ∧
      200 < ps.toNat ∧
        ∀
          d ∈
            List.filter
              (fun (d : BusDriver) =>
                decide (d.point ∈ if s.chip.sectorLive ↑bank = true then s.chip.liveDrivers (↑bank) (↑line) (List.map Fin.val ds) else []))
              (sectDrivers (s.mem.sectorCfg ↑bank) ↑line),
          rimValue s.chip s.arr s.mem (↑bank) d.data = some (level d) :=
  ⟨11, 63, [0, 63], 201, w [(.RIM_SECT_STATE_STATE, 11, 2)], fun _ => true, by decide +kernel, by decide, by
    intro d hd
    simp only [Mem.sectorCfg] at hd
    rw [show ((11 : Fin 12) : Nat) = 11 from rfl, cfg] at hd
    have : d ∈ [(⟨63, 63, .const true, .const true⟩ : BusDriver)] := List.mem_of_mem_filter (List.mem_of_mem_filter hd)
    rw [List.mem_singleton.mp this]
    rfl⟩

theorem witness_RimFaultsAndTrees_5 :
    ∃ (bank : Fin 12) (line : Fin 64) (ds : List (Fin 64)) (ps : BitVec 16) (s : State),
    (if s.chip.sectorLive ↑bank = true then s.chip.liveDrivers (↑bank) (↑line) (List.map Fin.val ds) else []).length < 2 ∨ ps.toNat ≤ 200 :=
  ⟨11, 63, [0, 63], 201, w [], by decide +kernel⟩

theorem witness_RimFaultsAndTrees_6 :
    ∃ (tree : Fin 12) (s : State),
    s.chip.treeSel ↑tree = 0 ∨ 32 ≤ s.chip.treeSel ↑tree ∧ s.chip.treeSel ↑tree ≤ 95 :=
  ⟨7, w [(.RIM_CLK_SEL_SRC, 7, 0x5F)], by decide +kernel⟩

theorem witness_RimFaultsAndTrees_7 :
    ∃ (tree : Fin 12) (s : State),
    s.chip.treeSel ↑tree ≠ 0 ∧
      ¬(32 ≤ s.chip.treeSel ↑tree ∧ s.chip.treeSel ↑tree ≤ 95) ∧
        (s.chip.on Fld.RIM_CLK_SEL_AUTO ↑tree && !bitB (s.chip.get Fld.RIM_CLK_STATUS_ON_ALT 0) ↑tree) = true :=
  ⟨11, w [(.RIM_CLK_SEL_SRC, 11, 2), (.RIM_CLK_SEL_AUTO, 11, 1)], by decide +kernel⟩

theorem witness_RimFaultsAndTrees_8 :
    ∃ (tree : Fin 12) (s : State),
    s.chip.treeSel ↑tree ≠ 0 ∧
      ¬(32 ≤ s.chip.treeSel ↑tree ∧ s.chip.treeSel ↑tree ≤ 95) ∧
        (s.chip.on Fld.RIM_CLK_SEL_AUTO ↑tree && !bitB (s.chip.get Fld.RIM_CLK_STATUS_ON_ALT 0) ↑tree) = false :=
  ⟨11, w [(.RIM_CLK_SEL_SRC, 11, 2)], by decide +kernel⟩

theorem witness_RimFaultsAndTrees_9 :
    ∃ (data : List (Fin 16 × Fin 64)) (check : List (Fin 16 × Fin 8)) (s : State) (f : Nat) (w : Nat),
    s.chip.on Fld.RIM_SCRUB_CTL_EN 0 = true ∧
      s.chip.scrubFrom (s.chip.get Fld.RIM_SCRUB_STATUS_FRAME 0) = some f ∧
        w < 16 ∧
          2 ≤
              ((List.foldl (fun (m : Mem) (e : Nat) => m.flipBit f e) s.mem
                      (List.filter
                        (fun (e : Nat) =>
                          decide (64 ≤ e % 128) ||
                            !decide
                                (e / 128 * 64 + e % 128 ∈
                                  Config.shiftLutBits f (List.filter (fun (x : Nat × Byte) => decide (x.1 / 1048576 = f / 8192)) s.mem.rim)))
                        (flippedBits data check))).wordErrors
                  f w).length ∧
            s.chip.get Fld.RIM_SCRUB_UE_LOC_VALID 0 = 0 :=
  ⟨[], [(15, 7), (15, 6)], w [(.RIM_SCRUB_CTL_EN, 0, 1), (.RIM_SECT_STATE_STATE, 11, 3), (.RIM_SECT_OWN_OWNER, 11, 16)], 90112, 15, by decide +kernel⟩

theorem witness_RimFaultsAndTrees_10 :
    ∃ (data : List (Fin 16 × Fin 64)) (check : List (Fin 16 × Fin 8)) (s : State) (f : Nat) (w : Nat),
    s.chip.on Fld.RIM_SCRUB_CTL_EN 0 = true ∧
      s.chip.scrubFrom (s.chip.get Fld.RIM_SCRUB_STATUS_FRAME 0) = some f ∧
        w < 16 ∧
          ((List.foldl (fun (m : Mem) (e : Nat) => m.flipBit f e) s.mem
                    (List.filter
                      (fun (e : Nat) =>
                        decide (64 ≤ e % 128) ||
                          !decide
                              (e / 128 * 64 + e % 128 ∈
                                Config.shiftLutBits f (List.filter (fun (x : Nat × Byte) => decide (x.1 / 1048576 = f / 8192)) s.mem.rim)))
                      (flippedBits data check))).wordErrors
                f w).length <
            2 :=
  ⟨[], [(15, 7)], w [(.RIM_SCRUB_CTL_EN, 0, 1), (.RIM_SECT_STATE_STATE, 11, 3), (.RIM_SECT_OWN_OWNER, 11, 16)], 90112, 15, by decide +kernel⟩

theorem witness_RimFaultsAndTrees_11 :
    ∃ (data : List (Fin 16 × Fin 64)) (check : List (Fin 16 × Fin 8)) (s : State) (f : Nat) (w : Nat) (e : Nat),
    s.chip.on Fld.RIM_SCRUB_CTL_EN 0 = true ∧
      s.chip.scrubFrom (s.chip.get Fld.RIM_SCRUB_STATUS_FRAME 0) = some f ∧
        w < 16 ∧
          (List.foldl (fun (m : Mem) (e : Nat) => m.flipBit f e) s.mem
                    (List.filter
                      (fun (e : Nat) =>
                        decide (64 ≤ e % 128) ||
                          !decide
                              (e / 128 * 64 + e % 128 ∈
                                Config.shiftLutBits f (List.filter (fun (x : Nat × Byte) => decide (x.1 / 1048576 = f / 8192)) s.mem.rim)))
                      (flippedBits data check))).wordErrors
                f w =
              [e] ∧
            e % 128 < 64 :=
  ⟨[], [], { w [(.RIM_SCRUB_CTL_EN, 0, 1), (.RIM_SECT_STATE_STATE, 11, 3), (.RIM_SECT_OWN_OWNER, 11, 16)] with mem := { rimErr := [(90112 * 16 + 15, 32)] } }, 90112, 15, 1925, by decide +kernel⟩

theorem witness_RimFaultsAndTrees_12 :
    ∃ (data : List (Fin 16 × Fin 64)) (check : List (Fin 16 × Fin 8)) (s : State) (f : Nat) (x : Nat),
    s.chip.on Fld.RIM_SCRUB_CTL_EN 0 = true ∧
      s.chip.scrubFrom (s.chip.get Fld.RIM_SCRUB_STATUS_FRAME 0) = some f ∧
        ∀ (w e : Nat),
          w < 16 →
            (List.foldl (fun (m : Mem) (e : Nat) => m.flipBit f e) s.mem
                      (List.filter
                        (fun (e : Nat) =>
                          decide (64 ≤ e % 128) ||
                            !decide
                                (e / 128 * 64 + e % 128 ∈
                                  Config.shiftLutBits f (List.filter (fun (x : Nat × Byte) => decide (x.1 / 1048576 = f / 8192)) s.mem.rim)))
                        (flippedBits data check))).wordErrors
                  f w =
                [e] →
              e % 128 < 64 → x ≠ f * 128 + w * 8 + e % 128 / 8 :=
  ⟨[], [], w [(.RIM_SCRUB_CTL_EN, 0, 1), (.RIM_SECT_STATE_STATE, 11, 3), (.RIM_SECT_OWN_OWNER, 11, 16)], 90112, 11534336, by decide +kernel, by decide +kernel, fun k e hk he => by
    have none : ∀ k < 16, (w [(.RIM_SCRUB_CTL_EN, 0, 1), (.RIM_SECT_STATE_STATE, 11, 3), (.RIM_SECT_OWN_OWNER, 11, 16)]).mem.wordErrors 90112 k = [] := by decide +kernel
    exact absurd ((none k hk).symm.trans he) (by simp)⟩

theorem witness_RimFaultsAndTrees_13 :
    ∃ (v : Bool) (r : Fin 4) (s : State),
    s.chip.get Fld.RIM_RST_CTL_SRC ↑r = 2 ∧ (v = true ∨ s.chip.inputOff (s.chip.get Fld.RIM_RST_CTL_BANK ↑r) 2 = false) ∧ v = true :=
  ⟨true, 3, w [(.RIM_RST_CTL_SRC, 3, 2)], by decide +kernel⟩

theorem witness_RimFaultsAndTrees_14 :
    ∃ (v : Bool) (r : Fin 4) (s : State),
    s.chip.get Fld.RIM_RST_CTL_SRC ↑r = 2 ∧
      (v = true ∨ s.chip.inputOff (s.chip.get Fld.RIM_RST_CTL_BANK ↑r) 2 = false) ∧
        v = false ∧ s.chip.on Fld.H_RST_TREE ↑r = true ∧ s.chip.get Fld.H_RST_CNT ↑r = 0 :=
  ⟨false, 3, w [(.RIM_RST_CTL_SRC, 3, 2), (.RIM_RST_CTL_BANK, 3, 11), (.IOB_BANK_STATUS_PGOOD, 11, 1), (.IOB_PIN_CFG_STD, 354, 1), (.H_RST_TREE, 3, 1)], by decide +kernel⟩

theorem witness_RimFaultsAndTrees_15
    (cfg : ∀ f, Config.sector 11 f = sect0) :
    ∃ (v : Bool) (r : Fin 4) (s : State),
    s.chip.get Fld.RIM_RST_CTL_SRC ↑r = 3 ∧ (resetSource (↑r) s.chip s.arr s.mem = none ∨ resetSource (↑r) s.chip s.arr s.mem = some v) ∧ v = true :=
  ⟨true, 3, w [(.RIM_RST_CTL_SRC, 3, 3), (.RIM_RST_CTL_BANK, 3, 11), (.RIM_SECT_STATE_STATE, 11, 3)], by decide +kernel, .inr (by
    have cell : ∀ m : Mem, (m.sectorCfg 11).resetCell = .const true := fun m => by rw [Mem.sectorCfg, cfg]; rfl
    have src : (w [(.RIM_RST_CTL_SRC, 3, 3), (.RIM_RST_CTL_BANK, 3, 11), (.RIM_SECT_STATE_STATE, 11, 3)]).chip.get .RIM_RST_CTL_SRC 3 = 3 := by decide +kernel
    have bank : (w [(.RIM_RST_CTL_SRC, 3, 3), (.RIM_RST_CTL_BANK, 3, 11), (.RIM_SECT_STATE_STATE, 11, 3)]).chip.get .RIM_RST_CTL_BANK 3 = 11 := by decide +kernel
    have live : (w [(.RIM_RST_CTL_SRC, 3, 3), (.RIM_RST_CTL_BANK, 3, 11), (.RIM_SECT_STATE_STATE, 11, 3)]).chip.sectorLive 11 = true := by decide +kernel
    show resetSource 3 _ _ _ = _
    simp only [resetSource, src, bank, live, cell, if_true]
    rfl), rfl⟩

theorem witness_RimFaultsAndTrees_16 :
    ∃ (v : Bool) (r : Fin 4) (s : State),
    s.chip.get Fld.RIM_RST_CTL_SRC ↑r = 3 ∧
      (resetSource (↑r) s.chip s.arr s.mem = none ∨ resetSource (↑r) s.chip s.arr s.mem = some v) ∧
        v = false ∧ s.chip.on Fld.H_RST_TREE ↑r = true ∧ s.chip.get Fld.H_RST_CNT ↑r = 0 :=
  ⟨false, 3, w [(.RIM_RST_CTL_SRC, 3, 3), (.H_RST_TREE, 3, 1)], by decide +kernel⟩

theorem witness_RimFaultsAndTrees_17 :
    ∃ (v : Bool) (r : Fin 4) (s : State),
    s.chip.get Fld.RIM_RST_CTL_SRC ↑r < 2 ∨
      s.chip.get Fld.RIM_RST_CTL_SRC ↑r = 2 ∧ v = false ∧ s.chip.inputOff (s.chip.get Fld.RIM_RST_CTL_BANK ↑r) 2 = true ∨
        s.chip.get Fld.RIM_RST_CTL_SRC ↑r = 3 ∧ resetSource (↑r) s.chip s.arr s.mem = some !v :=
  ⟨false, 3, w [(.RIM_RST_CTL_SRC, 3, 1)], by decide +kernel⟩


/-! RimLoaderCommands -/

theorem witness_RimLoaderCommands_1 :
    ∃ (who : Init) (s : State),
    (s.seen who).chip.regMay who { blk := Blk.rim, inst := 0, off := 260 } true = true ∧
      (s.seen who).chip.cmdPending CmdReg.rimLd 0 = false ∧
        (s.seen who).chip.get Fld.RIM_LD_PARAM_SRC 0 < 2 ∧ (s.seen who).chip.streaming = false ∧ (s.seen who).chip.on Fld.H_ABSENT 0 = false :=
  ⟨svc, w [], by decide +kernel⟩

theorem witness_RimLoaderCommands_2 :
    ∃ (who : Init) (k : Fin 12) (s : State) (x : Nat),
    (s.seen who).chip.regMay who { blk := Blk.rim, inst := 0, off := 260 } true = true ∧
      (s.seen who).chip.cmdPending CmdReg.rimLd 0 = true ∧
        (s.seen who).chip.get Fld.CQ_CMD (CmdReg.rimLd.idx 0) = 1 ∧ (s.seen who).chip.sector ↑k = sectLoading ∧ x / 1048576 = ↑k :=
  ⟨svc, 11, w (rimLoads ++ [(.CQ_PEND, CmdReg.rimLd.idx 0, 1), (.CQ_CMD, CmdReg.rimLd.idx 0, 1), (.RIM_SECT_STATE_STATE, 11, sectLoading)]), 12582911, by decide +kernel⟩

theorem witness_RimLoaderCommands_3 :
    ∃ (who : Init) (k : Fin 12) (s : State) (x : Nat),
    (s.seen who).chip.regMay who { blk := Blk.rim, inst := 0, off := 260 } true = true ∧
      (s.seen who).chip.cmdPending CmdReg.rimLd 0 = true ∧
        (s.seen who).chip.get Fld.CQ_CMD (CmdReg.rimLd.idx 0) = 1 ∧ (s.seen who).chip.sector ↑k ≠ sectLoading ∧ x / 1048576 = ↑k :=
  ⟨svc, 11, w (rimLoads ++ [(.CQ_PEND, CmdReg.rimLd.idx 0, 1), (.CQ_CMD, CmdReg.rimLd.idx 0, 1)]), 12582911, by decide +kernel⟩

theorem witness_RimLoaderCommands_4 :
    ∃ (who : Init) (k : Fin 12) (s : State),
    (s.seen who).chip.regMay who { blk := Blk.rim, inst := 0, off := 260 } true = true ∧
      (s.seen who).chip.cmdPending CmdReg.rimLd 0 = false ∧ (s.seen who).chip.get Fld.RIM_SECT_OWN_OWNER ↑k = ownerModule :=
  ⟨svc, 11, w [(.RIM_SECT_OWN_OWNER, 11, 16)], by decide +kernel⟩

theorem witness_RimLoaderCommands_5 :
    ∃ (k : Fin 12) (s : State) (f : Nat),
    s.chip.cmdPending CmdReg.rimLd 0 = true ∧ s.chip.get Fld.CQ_CMD (CmdReg.rimLd.idx 0) = 3 ∧ s.chip.get Fld.H_CLR_SECT 0 = ↑k ∧ f / 8192 = ↑k :=
  ⟨11, w [(.CQ_PEND, CmdReg.rimLd.idx 0, 1), (.CQ_CMD, CmdReg.rimLd.idx 0, 3), (.H_CLR_SECT, 0, 11)], 98303, by decide +kernel⟩

theorem witness_RimLoaderCommands_6 :
    ∃ (k : Fin 12) (s : State),
    s.chip.sector ↑k = sectStarting ∧ s.chip.due Fld.H_SECT_DUE ↑k = true :=
  ⟨11, w [(.RIM_SECT_STATE_STATE, 11, sectStarting), (.H_SECT_DUE, 11, 1000001)], by decide +kernel⟩


/-! RimStreams -/

theorem witness_RimStreams_1 :
    ∃ (w : Word32) (s : State),
    s.chip.streaming = true ∧
      s.chip.get Fld.H_RS_STATE 0 = 1 ∧
        (s.chip.get Fld.RIM_LD_STATUS_ORIGIN 0 = 1 ∨ s.chip.get Fld.H_RS_WORD 0 + 1 ≤ min s.chip.streamLimit s.chip.flashWords) ∧
          s.chip.get Fld.RIM_LD_STATUS_ORIGIN 0 ≠ 2 ∧ w ≠ 2781043260#32 :=
  ⟨5, w (rimLoads ++ [(.H_RS_STATE, 0, 1)]), by decide +kernel⟩

theorem witness_RimStreams_2 :
    ∃ (arg : BitVec 24) (s : State),
    StreamReads 1 s.chip ∧ s.chip.get Fld.RIM_LD_STATUS_ORIGIN 0 = 1 ∧ arg.toNat < 256 :=
  ⟨255, w rimLoads, by and_intros <;> first | decide +kernel | (constructor <;> decide +kernel)⟩

theorem witness_RimStreams_3 :
    ∃ (arg : BitVec 24) (s : State),
    StreamReads 1 s.chip ∧ arg.toNat ≤ 11 ∧ s.chip.mayLoad arg.toNat = true :=
  ⟨11, w (rimLoads ++ [(.RIM_SECT_OWN_OWNER, 11, 16)]), by and_intros <;> first | decide +kernel | (constructor <;> decide +kernel)⟩

theorem witness_RimStreams_4 :
    ∃ (arg : BitVec 24) (s : State) (k : Nat),
    StreamReads 1 s.chip ∧ s.chip.get Fld.H_RS_SECT 0 = k + 1 ∧ k < 12 ∧ arg.toNat ≤ 8191 :=
  ⟨8191, w (rimLoads ++ [(.H_RS_SECT, 0, 12)]), 11, by and_intros <;> first | decide +kernel | (constructor <;> decide +kernel)⟩

theorem witness_RimStreams_5 :
    ∃ (id : Word32) (s : State),
    StreamReads 2 s.chip ∧ BitVec.toNat id = s.chip.get Fld.RIM_ID_ID 0 :=
  ⟨77, w (rimLoads ++ [(.RIM_ID_ID, 0, 77)]), by and_intros <;> first | decide +kernel | (constructor <;> decide +kernel)⟩

theorem witness_RimStreams_6 :
    ∃ (id : Word32) (s : State),
    StreamReads 2 s.chip ∧ BitVec.toNat id ≠ s.chip.get Fld.RIM_ID_ID 0 :=
  ⟨78, w (rimLoads ++ [(.RIM_ID_ID, 0, 77)]), by and_intros <;> first | decide +kernel | (constructor <;> decide +kernel)⟩

theorem witness_RimStreams_7 :
    ∃ (s : State),
    s.chip.streaming = true ∧ s.chip.get Fld.RIM_LD_STATUS_ORIGIN 0 = 1 :=
  ⟨w rimLoads, by decide +kernel⟩

theorem witness_RimStreams_8
    (taps : ∀ f d, Config.frameTaps f d = []) (bus : ∀ f d, Config.frameDrivers f d = []) :
    ∃ (k : Nat) (data : List Word32) (s : State) (w : Nat),
    s.chip.get Fld.H_RS_SECT 0 = k + 1 ∧
      k < 12 ∧
        StreamReads 34 s.chip ∧
          s.chip.framesOk 1 = true ∧
            data.length = 33 ∧
              (List.map BitVec.toNat data).getD 32 0 =
                  frameCrc (s.chip.get Fld.H_RS_PTR 0) (List.flatMap (toBytes 4) (List.take 32 (List.map BitVec.toNat data))) ∧
                s.chip.frameRefusal s.mem k (s.chip.get Fld.H_RS_PTR 0) (List.flatMap (toBytes 4) (List.take 32 (List.map BitVec.toNat data))) = 0 ∧ w < 16 :=
  ⟨1, goodFrame, rimW [], 15, by decide +kernel, by decide +kernel, by constructor <;> decide +kernel, by decide +kernel, by decide +kernel, by decide +kernel, by
    have none : (rimW []).mem.constDrivers 1 ((rimW []).chip.get .H_RS_PTR 0) (((goodFrame.map BitVec.toNat).take 32).flatMap (toBytes 4)) = [] := by
      simp [Mem.constDrivers, bus]
    simp [Chip.frameRefusal, taps, none, clashes], by decide⟩

theorem witness_RimStreams_9
    (taps : ∀ f d, Config.frameTaps f d = [0]) :
    ∃ (k : Nat) (data : List Word32) (s : State),
    s.chip.get Fld.H_RS_SECT 0 = k + 1 ∧
      k < 12 ∧
        StreamReads 34 s.chip ∧
          s.chip.framesOk 1 = true ∧
            data.length = 33 ∧
              (List.map BitVec.toNat data).getD 32 0 =
                  frameCrc (s.chip.get Fld.H_RS_PTR 0) (List.flatMap (toBytes 4) (List.take 32 (List.map BitVec.toNat data))) ∧
                s.chip.frameRefusal s.mem k (s.chip.get Fld.H_RS_PTR 0) (List.flatMap (toBytes 4) (List.take 32 (List.map BitVec.toNat data))) ≠ 0 :=
  ⟨1, goodFrame, rimW [], by decide +kernel, by decide +kernel, by constructor <;> decide +kernel, by decide +kernel, by decide +kernel, by decide +kernel, by
    have own : 15 < (rimW []).chip.get .RIM_SECT_OWN_OWNER 1 := by decide +kernel
    simp [Chip.frameRefusal, taps, own, rimTapCode]⟩

theorem witness_RimStreams_10 :
    ∃ (k : Nat) (data : List Word32) (s : State),
    s.chip.get Fld.H_RS_SECT 0 = k + 1 ∧
      k < 12 ∧
        StreamReads 34 s.chip ∧
          s.chip.framesOk 1 = true ∧
            data.length = 33 ∧
              (List.map BitVec.toNat data).getD 32 0 ≠
                frameCrc (s.chip.get Fld.H_RS_PTR 0) (List.flatMap (toBytes 4) (List.take 32 (List.map BitVec.toNat data))) :=
  ⟨1, badFrame, w (rimLoads ++ [(.H_RS_SECT, 0, 2), (.H_RS_PTR, 0, 8193), (.RIM_SECT_STATE_STATE, 1, 1)]), by and_intros <;> first | decide +kernel | (constructor <;> decide +kernel)⟩

theorem witness_RimStreams_11
    (taps : ∀ f d, Config.frameTaps f d = []) (bus : ∀ f d, Config.frameDrivers f d = []) :
    ∃ (k : Nat) (arg : BitVec 24) (s : State) (i : Nat),
    s.chip.get Fld.H_RS_SECT 0 = k + 1 ∧
      k < 12 ∧
        StreamReads 1 s.chip ∧
          s.chip.framesOk arg.toNat = true ∧
            s.chip.get Fld.H_RS_LAST 0 ≠ 0 ∧
              s.chip.rimFrame.length = 128 ∧
                (∀ i < arg.toNat,
                    s.chip.frameRefusal
                        { cistern := s.mem.cistern, deep := s.mem.deep, sram := s.mem.sram, vault := s.mem.vault,
                          rim := Memory.writeN s.mem.rim (s.chip.get Fld.H_RS_PTR 0 * 128) (List.replicate i s.chip.rimFrame).flatten, rimRef := s.mem.rimRef,
                          rimErr := s.mem.rimErr, cisErr := s.mem.cisErr, deepErr := s.mem.deepErr, sramErr := s.mem.sramErr }
                        k (s.chip.get Fld.H_RS_PTR 0 + i) s.chip.rimFrame =
                      0) ∧
                  i < arg.toNat :=
  ⟨1, 3, wc (fun c => { c with rimFrame := List.replicate 128 7 }) (rimLoads ++ [(.H_RS_SECT, 0, 2), (.H_RS_PTR, 0, 8193), (.RIM_SECT_STATE_STATE, 1, 1), (.H_RS_LAST, 0, 8193)]), 2, by decide +kernel, by decide +kernel, by constructor <;> decide +kernel, by decide +kernel, by decide +kernel, by decide +kernel, (fun i _ => by
    have none : ∀ (l : List Nat), l.flatMap (fun _ => ([] : List Nat)) = [] := fun l => by induction l <;> simp_all
    simp only [Chip.frameRefusal, taps, Mem.constDrivers, bus, none, List.append_nil, List.any_nil, Bool.false_eq_true, if_false]
    rfl), by decide⟩

theorem witness_RimStreams_12 :
    ∃ (crc : Word32) (s : State) (j : Nat) (n : Nat),
    s.chip.streaming = true ∧
      s.chip.get Fld.H_RS_STATE 0 = 2 ∧
        s.chip.get Fld.RIM_LD_STATUS_ORIGIN 0 ≠ 2 ∧
          (s.chip.get Fld.RIM_LD_STATUS_ORIGIN 0 = 1 ∨ s.chip.get Fld.H_RS_WORD 0 + 2 ≤ min s.chip.streamLimit s.chip.flashWords) ∧
            BitVec.toNat crc = crcDone ((s.chip.streamWords [134217728]).get Fld.H_RS_CRC 0) ∧ j < 12 ∧ n < 65536 ∧ s.chip.sector j = sectLoading :=
  ⟨BitVec.ofNat 32 (crcDone (((w (rimLoads ++ [(.RIM_SECT_STATE_STATE, 11, sectLoading)])).chip.streamWords [134217728]).get .H_RS_CRC 0)), w (rimLoads ++ [(.RIM_SECT_STATE_STATE, 11, sectLoading)]), 11, 65535, by decide +kernel⟩

theorem witness_RimStreams_13 :
    ∃ (crc : Word32) (s : State) (j : Nat),
    s.chip.streaming = true ∧
      s.chip.get Fld.H_RS_STATE 0 = 2 ∧
        s.chip.get Fld.RIM_LD_STATUS_ORIGIN 0 ≠ 2 ∧
          (s.chip.get Fld.RIM_LD_STATUS_ORIGIN 0 = 1 ∨ s.chip.get Fld.H_RS_WORD 0 + 2 ≤ min s.chip.streamLimit s.chip.flashWords) ∧
            BitVec.toNat crc ≠ crcDone ((s.chip.streamWords [134217728]).get Fld.H_RS_CRC 0) ∧ j < 12 :=
  ⟨BitVec.ofNat 32 (crcDone (((w rimLoads).chip.streamWords [134217728]).get .H_RS_CRC 0) + 1), w rimLoads, 11, by decide +kernel⟩


/-! PinsAndBankSupplies -/

theorem witness_PinsAndBankSupplies_1 :
    ∃ (b : Fin 12) (n : Fin 32) (s : State) (j : Nat),
    s.chip.due Fld.H_PIN_PEND (↑b * 32 + ↑n) = true ∧ s.chip.on Fld.H_PIN_MOVE (↑b * 32 + ↑n) = true ∧ j ∈ s.chip.pinsWith (↑b * 32 + ↑n) :=
  ⟨11, 31, w [(.H_PIN_PEND, 383, 1000001), (.H_PIN_MOVE, 383, 1)], 383, by decide +kernel⟩

theorem witness_PinsAndBankSupplies_2 :
    ∃ (b : Fin 12) (n : Fin 32) (s : State),
    s.chip.due Fld.H_PIN_PEND (↑b * 32 + ↑n) = true ∧ s.chip.on Fld.H_PIN_MOVE (↑b * 32 + ↑n) = false :=
  ⟨11, 31, w [(.H_PIN_PEND, 383, 1000001)], by decide +kernel⟩

theorem witness_PinsAndBankSupplies_3 :
    ∃ (b : Fin 12) (n : Fin 32) (s : State) (j : Nat),
    s.chip.due Fld.H_PIN_IDLE (↑b * 32 + ↑n) = true ∧
      (s.chip.due Fld.H_PIN_PEND (↑b * 32 + ↑n) && s.chip.on Fld.H_PIN_MOVE (↑b * 32 + ↑n)) = false ∧ j ∈ s.chip.pinsWith (↑b * 32 + ↑n) :=
  ⟨11, 31, w [(.H_PIN_IDLE, 383, 1000001)], 383, by decide +kernel⟩

theorem witness_PinsAndBankSupplies_4 :
    ∃ (b : Fin 12) (s : State),
    s.chip.get Fld.IOB_BANK_STATUS_PGOOD ↑b = 0 ∧ s.chip.on Fld.H_ABSENT 0 = false :=
  ⟨11, w [], by decide +kernel⟩

theorem witness_PinsAndBankSupplies_5 :
    ∃ (b : Fin 12) (s : State),
    s.chip.due Fld.H_PG_SETTLE ↑b = true ∧ s.chip.on Fld.IOB_BANK_STATUS_PGOOD ↑b = true :=
  ⟨11, w [(.IOB_BANK_STATUS_PGOOD, 11, 1), (.H_PG_SETTLE, 11, 1000001)], by decide +kernel⟩

theorem witness_PinsAndBankSupplies_6 :
    ∃ (b : Fin 12) (s : State) (m : Nat),
    s.chip.on Fld.IOB_BANK_STATUS_PGOOD ↑b = true ∧ m < 32 :=
  ⟨11, w [(.IOB_BANK_STATUS_PGOOD, 11, 1)], 31, by decide +kernel⟩

theorem witness_PinsAndBankSupplies_7 :
    ∃ (b : Fin 12) (s : State) (r : Nat),
    s.chip.on Fld.IOB_BANK_STATUS_PGOOD ↑b = true ∧ r < 4 ∧ s.chip.get Fld.RIM_RST_CTL_SRC r = 2 ∧ s.chip.get Fld.RIM_RST_CTL_BANK r = ↑b :=
  ⟨11, w [(.IOB_BANK_STATUS_PGOOD, 11, 1), (.RIM_RST_CTL_SRC, 3, 2), (.RIM_RST_CTL_BANK, 3, 11)], 3, by decide +kernel⟩


/-! BankLockAndAgentGpio -/

theorem witness_BankLockAndAgentGpio_1 :
    ∃ (who : Init) (b : Fin 12) (s₀ : State),
    (s₀.seen who).chip.regMay who { blk := Blk.iob, inst := ↑b, off := 8 } true = true :=
  ⟨svc, 11, w [], by decide +kernel⟩

theorem witness_BankLockAndAgentGpio_2 :
    ∃ (k : Fin 8) (i : Nat),
    4 ≤ ↑k ∧ i < 16 :=
  ⟨4, 15, by decide +kernel⟩


/-! LanesLock -/

theorem witness_LanesLock_1 :
    ∃ (q : Fin 16) (l : Fin 4) (bits : List Bool) (s : State),
    (s.chip.laneEn (↑q * 4 + ↑l) = true ∧
        s.chip.on Fld.LQ_LANE_STATUS_SIGDET (↑q * 4 + ↑l) = true ∧
          (s.chip.laneBuf (↑q * 4 + ↑l)).line = [] ∧
            bits.length = rateD (s.chip.laneRate (↑q * 4 + ↑l)) ∧
              s.chip.get Fld.LQ_LANE_CTL_RXINV (↑q * 4 + ↑l) = 0 ∧ s.chip.get Fld.LQ_PRBS_CTL_CHK_EN (↑q * 4 + ↑l) = 0) ∧
      s.chip.laneEnc (↑q * 4 + ↑l) = enc64b66b ∧
        ((s.chip.laneBuf (↑q * 4 + ↑l)).group ++ bits).length = 66 ∧
          s.chip.laneHunts (↑q * 4 + ↑l) enc64b66b = true ∧
            (bitsNat (List.take 2 ((s.chip.laneBuf (↑q * 4 + ↑l)).group ++ bits)) = 1 ∨
                bitsNat (List.take 2 ((s.chip.laneBuf (↑q * 4 + ↑l)).group ++ bits)) = 2) ∧
              s.chip.get Fld.H_HUNT (↑q * 4 + ↑l) = 63 :=
  ⟨15, 3, good66, laneW [(.H_HUNT, 63, 63)], by decide +kernel⟩

theorem witness_LanesLock_2 :
    ∃ (q : Fin 16) (l : Fin 4) (bits : List Bool) (s : State),
    (s.chip.laneEn (↑q * 4 + ↑l) = true ∧
        s.chip.on Fld.LQ_LANE_STATUS_SIGDET (↑q * 4 + ↑l) = true ∧
          (s.chip.laneBuf (↑q * 4 + ↑l)).line = [] ∧
            bits.length = rateD (s.chip.laneRate (↑q * 4 + ↑l)) ∧
              s.chip.get Fld.LQ_LANE_CTL_RXINV (↑q * 4 + ↑l) = 0 ∧ s.chip.get Fld.LQ_PRBS_CTL_CHK_EN (↑q * 4 + ↑l) = 0) ∧
      s.chip.laneEnc (↑q * 4 + ↑l) = enc64b66b ∧
        ((s.chip.laneBuf (↑q * 4 + ↑l)).group ++ bits).length = 66 ∧
          s.chip.laneHunts (↑q * 4 + ↑l) enc64b66b = true ∧
            (bitsNat (List.take 2 ((s.chip.laneBuf (↑q * 4 + ↑l)).group ++ bits)) = 1 ∨
                bitsNat (List.take 2 ((s.chip.laneBuf (↑q * 4 + ↑l)).group ++ bits)) = 2) ∧
              s.chip.get Fld.H_HUNT (↑q * 4 + ↑l) < 63 :=
  ⟨15, 3, good66, laneW [(.H_HUNT, 63, 62)], by decide +kernel⟩

theorem witness_LanesLock_3 :
    ∃ (q : Fin 16) (l : Fin 4) (bits : List Bool) (s : State),
    (s.chip.laneEn (↑q * 4 + ↑l) = true ∧
        s.chip.on Fld.LQ_LANE_STATUS_SIGDET (↑q * 4 + ↑l) = true ∧
          (s.chip.laneBuf (↑q * 4 + ↑l)).line = [] ∧
            bits.length = rateD (s.chip.laneRate (↑q * 4 + ↑l)) ∧
              s.chip.get Fld.LQ_LANE_CTL_RXINV (↑q * 4 + ↑l) = 0 ∧ s.chip.get Fld.LQ_PRBS_CTL_CHK_EN (↑q * 4 + ↑l) = 0) ∧
      s.chip.laneEnc (↑q * 4 + ↑l) = enc64b66b ∧
        ((s.chip.laneBuf (↑q * 4 + ↑l)).group ++ bits).length = 66 ∧
          s.chip.laneHunts (↑q * 4 + ↑l) enc64b66b = true ∧
            ¬(bitsNat (List.take 2 ((s.chip.laneBuf (↑q * 4 + ↑l)).group ++ bits)) = 1 ∨
                bitsNat (List.take 2 ((s.chip.laneBuf (↑q * 4 + ↑l)).group ++ bits)) = 2) :=
  ⟨15, 3, List.replicate 66 false, laneW [], by decide +kernel⟩

theorem witness_LanesLock_4 :
    ∃ (q : Fin 16) (l : Fin 4) (bits : List Bool) (s : State),
    (s.chip.laneEn (↑q * 4 + ↑l) = true ∧
        s.chip.on Fld.LQ_LANE_STATUS_SIGDET (↑q * 4 + ↑l) = true ∧
          (s.chip.laneBuf (↑q * 4 + ↑l)).line = [] ∧
            bits.length = rateD (s.chip.laneRate (↑q * 4 + ↑l)) ∧
              s.chip.get Fld.LQ_LANE_CTL_RXINV (↑q * 4 + ↑l) = 0 ∧ s.chip.get Fld.LQ_PRBS_CTL_CHK_EN (↑q * 4 + ↑l) = 0) ∧
      s.chip.laneEnc (↑q * 4 + ↑l) = enc64b66b ∧
        ((s.chip.laneBuf (↑q * 4 + ↑l)).group ++ bits).length = 66 ∧
          s.chip.on Fld.LQ_LANE_STATUS_LOCK (↑q * 4 + ↑l) = true ∧
            s.chip.get Fld.H_WIN_BAD (↑q * 4 + ↑l) < 16 ∧
              (bitsNat (List.take 2 ((s.chip.laneBuf (↑q * 4 + ↑l)).group ++ bits)) = 1 ∨
                bitsNat (List.take 2 ((s.chip.laneBuf (↑q * 4 + ↑l)).group ++ bits)) = 2) :=
  ⟨15, 3, good66, laneW [(.LQ_LANE_STATUS_LOCK, 63, 1), (.H_WIN_BAD, 63, 15)], by decide +kernel⟩

theorem witness_LanesLock_5 :
    ∃ (q : Fin 16) (l : Fin 4) (bits : List Bool) (s : State),
    (s.chip.laneEn (↑q * 4 + ↑l) = true ∧
        s.chip.on Fld.LQ_LANE_STATUS_SIGDET (↑q * 4 + ↑l) = true ∧
          (s.chip.laneBuf (↑q * 4 + ↑l)).line = [] ∧
            bits.length = rateD (s.chip.laneRate (↑q * 4 + ↑l)) ∧
              s.chip.get Fld.LQ_LANE_CTL_RXINV (↑q * 4 + ↑l) = 0 ∧ s.chip.get Fld.LQ_PRBS_CTL_CHK_EN (↑q * 4 + ↑l) = 0) ∧
      s.chip.laneEnc (↑q * 4 + ↑l) = enc64b66b ∧
        ((s.chip.laneBuf (↑q * 4 + ↑l)).group ++ bits).length = 66 ∧
          s.chip.on Fld.LQ_LANE_STATUS_LOCK (↑q * 4 + ↑l) = true ∧
            s.chip.get Fld.H_WIN_BAD (↑q * 4 + ↑l) < 16 ∧
              ¬(bitsNat (List.take 2 ((s.chip.laneBuf (↑q * 4 + ↑l)).group ++ bits)) = 1 ∨
                    bitsNat (List.take 2 ((s.chip.laneBuf (↑q * 4 + ↑l)).group ++ bits)) = 2) ∧
                s.chip.get Fld.H_WIN_BAD (↑q * 4 + ↑l) < 15 :=
  ⟨15, 3, List.replicate 66 false, laneW [(.LQ_LANE_STATUS_LOCK, 63, 1), (.H_WIN_BAD, 63, 14)], by decide +kernel⟩

theorem witness_LanesLock_6 :
    ∃ (q : Fin 16) (l : Fin 4) (bits : List Bool) (s : State),
    (s.chip.laneEn (↑q * 4 + ↑l) = true ∧
        s.chip.on Fld.LQ_LANE_STATUS_SIGDET (↑q * 4 + ↑l) = true ∧
          (s.chip.laneBuf (↑q * 4 + ↑l)).line = [] ∧
            bits.length = rateD (s.chip.laneRate (↑q * 4 + ↑l)) ∧
              s.chip.get Fld.LQ_LANE_CTL_RXINV (↑q * 4 + ↑l) = 0 ∧ s.chip.get Fld.LQ_PRBS_CTL_CHK_EN (↑q * 4 + ↑l) = 0) ∧
      s.chip.laneEnc (↑q * 4 + ↑l) = enc64b66b ∧
        ((s.chip.laneBuf (↑q * 4 + ↑l)).group ++ bits).length = 66 ∧
          s.chip.on Fld.LQ_LANE_STATUS_LOCK (↑q * 4 + ↑l) = true ∧
            s.chip.get Fld.H_WIN_BAD (↑q * 4 + ↑l) < 16 ∧
              ¬(bitsNat (List.take 2 ((s.chip.laneBuf (↑q * 4 + ↑l)).group ++ bits)) = 1 ∨
                    bitsNat (List.take 2 ((s.chip.laneBuf (↑q * 4 + ↑l)).group ++ bits)) = 2) ∧
                s.chip.get Fld.H_WIN_BAD (↑q * 4 + ↑l) = 15 :=
  ⟨15, 3, List.replicate 66 true, laneW [(.LQ_LANE_STATUS_LOCK, 63, 1), (.H_WIN_BAD, 63, 15)], by decide +kernel⟩

theorem witness_LanesLock_7 :
    ∃ (q : Fin 16) (l : Fin 4) (bits : List Bool) (s : State) (k : Nat),
    (s.chip.laneEn (↑q * 4 + ↑l) = true ∧
        s.chip.on Fld.LQ_LANE_STATUS_SIGDET (↑q * 4 + ↑l) = true ∧
          (s.chip.laneBuf (↑q * 4 + ↑l)).line = [] ∧
            bits.length = rateD (s.chip.laneRate (↑q * 4 + ↑l)) ∧
              s.chip.get Fld.LQ_LANE_CTL_RXINV (↑q * 4 + ↑l) = 0 ∧ s.chip.get Fld.LQ_PRBS_CTL_CHK_EN (↑q * 4 + ↑l) = 0) ∧
      s.chip.laneEnc (↑q * 4 + ↑l) = enc8b10b ∧
        s.chip.laneHunts (↑q * 4 + ↑l) enc8b10b = true ∧
          commaAt 0 ((s.chip.laneBuf (↑q * 4 + ↑l)).group ++ bits).length ((s.chip.laneBuf (↑q * 4 + ↑l)).group ++ bits) = some k ∧
            ((s.chip.laneBuf (↑q * 4 + ↑l)).group ++ bits).length < k + 10 :=
  ⟨15, 3, List.replicate 15 false ++ List.replicate 5 true, lane10 [], 13, by decide +kernel⟩

theorem witness_LanesLock_8 :
    ∃ (q : Fin 16) (l : Fin 4) (bits : List Bool) (s : State),
    (s.chip.laneEn (↑q * 4 + ↑l) = true ∧
        s.chip.on Fld.LQ_LANE_STATUS_SIGDET (↑q * 4 + ↑l) = true ∧
          (s.chip.laneBuf (↑q * 4 + ↑l)).line = [] ∧
            bits.length = rateD (s.chip.laneRate (↑q * 4 + ↑l)) ∧
              s.chip.get Fld.LQ_LANE_CTL_RXINV (↑q * 4 + ↑l) = 0 ∧ s.chip.get Fld.LQ_PRBS_CTL_CHK_EN (↑q * 4 + ↑l) = 0) ∧
      s.chip.laneEnc (↑q * 4 + ↑l) = enc8b10b ∧
        s.chip.laneHunts (↑q * 4 + ↑l) enc8b10b = true ∧
          commaAt 0 ((s.chip.laneBuf (↑q * 4 + ↑l)).group ++ bits).length ((s.chip.laneBuf (↑q * 4 + ↑l)).group ++ bits) = none :=
  ⟨15, 3, List.replicate 20 false, lane10 [], by decide +kernel⟩

theorem witness_LanesLock_9 :
    ∃ (q : Fin 16) (l : Fin 4) (bits : List Bool) (s : State) (x : List Bool) (y : List Bool) (b : Nat × Bool) (b' : Nat × Bool),
    (s.chip.laneEn (↑q * 4 + ↑l) = true ∧
        s.chip.on Fld.LQ_LANE_STATUS_SIGDET (↑q * 4 + ↑l) = true ∧
          (s.chip.laneBuf (↑q * 4 + ↑l)).line = [] ∧
            bits.length = rateD (s.chip.laneRate (↑q * 4 + ↑l)) ∧
              s.chip.get Fld.LQ_LANE_CTL_RXINV (↑q * 4 + ↑l) = 0 ∧ s.chip.get Fld.LQ_PRBS_CTL_CHK_EN (↑q * 4 + ↑l) = 0) ∧
      s.chip.laneEnc (↑q * 4 + ↑l) = enc8b10b ∧
        s.chip.on Fld.LQ_LANE_STATUS_LOCK (↑q * 4 + ↑l) = true ∧
          s.chip.get Fld.LQ_LANE_CTL_ALIGN (↑q * 4 + ↑l) = 0 ∧
            (s.chip.laneBuf (↑q * 4 + ↑l)).group ++ bits = x ++ y ∧
              x.length = 10 ∧
                y.length = 10 ∧
                  s.chip.get Fld.H_WIN_BAD (↑q * 4 + ↑l) < 4 ∧
                    dec10 x (s.chip.on Fld.H_RX_RD (↑q * 4 + ↑l)) = some b ∧ dec10 y (rdAfter x (s.chip.on Fld.H_RX_RD (↑q * 4 + ↑l))) = some b' :=
  ⟨15, 3, d00 ++ d00, lane10 [(.LQ_LANE_STATUS_LOCK, 63, 1), (.H_WIN_BAD, 63, 3)], d00, d00, (0, false), (0, false), by decide +kernel⟩

theorem witness_LanesLock_10 :
    ∃ (q : Fin 16) (l : Fin 4) (bits : List Bool) (s : State) (x : List Bool) (y : List Bool),
    (s.chip.laneEn (↑q * 4 + ↑l) = true ∧
        s.chip.on Fld.LQ_LANE_STATUS_SIGDET (↑q * 4 + ↑l) = true ∧
          (s.chip.laneBuf (↑q * 4 + ↑l)).line = [] ∧
            bits.length = rateD (s.chip.laneRate (↑q * 4 + ↑l)) ∧
              s.chip.get Fld.LQ_LANE_CTL_RXINV (↑q * 4 + ↑l) = 0 ∧ s.chip.get Fld.LQ_PRBS_CTL_CHK_EN (↑q * 4 + ↑l) = 0) ∧
      s.chip.laneEnc (↑q * 4 + ↑l) = enc8b10b ∧
        s.chip.on Fld.LQ_LANE_STATUS_LOCK (↑q * 4 + ↑l) = true ∧
          s.chip.get Fld.LQ_LANE_CTL_ALIGN (↑q * 4 + ↑l) = 0 ∧
            (s.chip.laneBuf (↑q * 4 + ↑l)).group ++ bits = x ++ y ∧
              x.length = 10 ∧
                y.length = 10 ∧
                  s.chip.get Fld.H_WIN_BAD (↑q * 4 + ↑l) < 4 ∧
                    dec10 x (s.chip.on Fld.H_RX_RD (↑q * 4 + ↑l)) = none ∧ s.chip.get Fld.H_WIN_BAD (↑q * 4 + ↑l) = 3 ∧ commaAt 0 10 y = none :=
  ⟨15, 3, List.replicate 10 true ++ List.replicate 10 false, lane10 [(.LQ_LANE_STATUS_LOCK, 63, 1), (.H_WIN_BAD, 63, 3)], List.replicate 10 true, List.replicate 10 false, by decide +kernel⟩

theorem witness_LanesLock_11 :
    ∃ (q : Fin 16) (l : Fin 4) (s : State),
    s.chip.laneEnc (↑q * 4 + ↑l) ≠ enc64b66b ∨ s.chip.laneEn (↑q * 4 + ↑l) = false ∨ s.chip.get Fld.LQ_LANE_STATUS_SIGDET (↑q * 4 + ↑l) = 0 :=
  ⟨15, 3, w [(.LQ_LANE_CTL_EN, 63, 1), (.LQ_LANE_STATUS_SIGDET, 63, 1)], by decide +kernel⟩

theorem witness_LanesLock_12 :
    ∃ (q : Fin 16) (l : Fin 4) (s : State),
    s.chip.laneEn (↑q * 4 + ↑l) = true ∧ s.chip.on Fld.LQ_LANE_STATUS_SIGDET (↑q * 4 + ↑l) = true :=
  ⟨15, 3, w [(.LQ_LANE_CTL_EN, 63, 1), (.LQ_LANE_STATUS_SIGDET, 63, 1)], by decide +kernel⟩

theorem witness_LanesLock_13 :
    ∃ (q : Fin 16) (l : Fin 4) (s : State),
    s.chip.get Fld.LQ_LANE_STATUS_SIGDET (↑q * 4 + ↑l) = 0 ∧ s.chip.laneEn (↑q * 4 + ↑l) = true ∧ s.chip.laneEnc (↑q * 4 + ↑l) = encRaw :=
  ⟨15, 3, w [(.LQ_LANE_CTL_EN, 63, 1), (.LQ_LANE_CTL_ENC, 63, 0)], by decide +kernel⟩

theorem witness_LanesLock_14 :
    ∃ (q : Fin 16) (l : Fin 4) (s : State),
    s.chip.on Fld.LQ_LANE_STATUS_SIGDET (↑q * 4 + ↑l) = true ∧ s.chip.on Fld.LQ_LANE_STATUS_LOCK (↑q * 4 + ↑l) = true :=
  ⟨15, 3, laneW [(.LQ_LANE_STATUS_LOCK, 63, 1)], by decide +kernel⟩


/-! PrbsAndSparing -/

theorem witness_PrbsAndSparing_1 :
    ∃ (q : Fin 16) (l : Fin 4) (raw : List Bool) (first n : Nat) (s : State),
    s.chip.on Fld.LQ_PRBS_CTL_CHK_EN (↑q * 4 + ↑l) = true ∧
      s.chip.laneEn (↑q * 4 + ↑l) = true ∧
        s.chip.on Fld.LQ_LANE_STATUS_SIGDET (↑q * 4 + ↑l) = true ∧
          (s.chip.laneBuf (↑q * 4 + ↑l)).line = [] ∧
            (List.take n (List.drop first raw)).length = rateD (s.chip.laneRate (↑q * 4 + ↑l)) ∧
              s.chip.get Fld.LQ_PRBS_STATUS_CHK_LOCK (↑q * 4 + ↑l) = 0 ∧
                List.map (fun (b : Bool) => b ^^ s.chip.on Fld.LQ_PRBS_CTL_INV (↑q * 4 + ↑l))
                      (if ratePam4 (s.chip.laneRate (↑q * 4 + ↑l)) = true then
                        grayPairs (List.map (fun (b : Bool) => b ^^ s.chip.on Fld.LQ_LANE_CTL_RXINV (↑q * 4 + ↑l)) (List.take n (List.drop first raw)))
                      else List.map (fun (b : Bool) => b ^^ s.chip.on Fld.LQ_LANE_CTL_RXINV (↑q * 4 + ↑l)) (List.take n (List.drop first raw))) =
                    (patBits (s.chip.get Fld.LQ_PRBS_CTL_PAT (↑q * 4 + ↑l)) (List.take n (List.drop first raw)).length (s.chip.get Fld.H_CHK (↑q * 4 + ↑l))).1 ∧
                  s.chip.get Fld.H_CHK_RUN (↑q * 4 + ↑l) < 64 ∧
                    64 ≤ s.chip.get Fld.H_CHK_RUN (↑q * 4 + ↑l) + (List.take n (List.drop first raw)).length ∧
                      s.chip.get Fld.LQ_PRBS_ERR_COUNT (↑q * 4 + ↑l) < 2 ^ 32 ∧ s.chip.get Fld.H_PRBS_BITS (↑q * 4 + ↑l) < 2 ^ 64 :=
  ⟨15, 3, true :: (patBits 2 20 1).1, 1, 20, chkW [(.H_CHK_RUN, 63, 63)], by decide +kernel⟩

theorem witness_PrbsAndSparing_2 :
    ∃ (q : Fin 16) (l : Fin 4) (raw : List Bool) (first n : Nat) (s : State),
    s.chip.on Fld.LQ_PRBS_CTL_CHK_EN (↑q * 4 + ↑l) = true ∧
      s.chip.laneEn (↑q * 4 + ↑l) = true ∧
        s.chip.on Fld.LQ_LANE_STATUS_SIGDET (↑q * 4 + ↑l) = true ∧
          (s.chip.laneBuf (↑q * 4 + ↑l)).line = [] ∧
            (List.take n (List.drop first raw)).length = rateD (s.chip.laneRate (↑q * 4 + ↑l)) ∧
              s.chip.get Fld.LQ_PRBS_STATUS_CHK_LOCK (↑q * 4 + ↑l) = 0 ∧
                List.map (fun (b : Bool) => b ^^ s.chip.on Fld.LQ_PRBS_CTL_INV (↑q * 4 + ↑l))
                      (if ratePam4 (s.chip.laneRate (↑q * 4 + ↑l)) = true then
                        grayPairs (List.map (fun (b : Bool) => b ^^ s.chip.on Fld.LQ_LANE_CTL_RXINV (↑q * 4 + ↑l)) (List.take n (List.drop first raw)))
                      else List.map (fun (b : Bool) => b ^^ s.chip.on Fld.LQ_LANE_CTL_RXINV (↑q * 4 + ↑l)) (List.take n (List.drop first raw))) =
                    (patBits (s.chip.get Fld.LQ_PRBS_CTL_PAT (↑q * 4 + ↑l)) (List.take n (List.drop first raw)).length (s.chip.get Fld.H_CHK (↑q * 4 + ↑l))).1 ∧
                  s.chip.get Fld.H_CHK_RUN (↑q * 4 + ↑l) + (List.take n (List.drop first raw)).length < 64 :=
  ⟨15, 3, true :: (patBits 2 20 1).1, 1, 20, chkW [(.H_CHK_RUN, 63, 43)], by decide +kernel⟩

theorem witness_PrbsAndSparing_3 :
    ∃ (q : Fin 16) (l : Fin 4) (raw : List Bool) (first n : Nat) (s : State),
    s.chip.on Fld.LQ_PRBS_CTL_CHK_EN (↑q * 4 + ↑l) = true ∧
      s.chip.laneEn (↑q * 4 + ↑l) = true ∧
        s.chip.on Fld.LQ_LANE_STATUS_SIGDET (↑q * 4 + ↑l) = true ∧
          (s.chip.laneBuf (↑q * 4 + ↑l)).line = [] ∧
            (List.take n (List.drop first raw)).length = rateD (s.chip.laneRate (↑q * 4 + ↑l)) ∧
              s.chip.get Fld.LQ_PRBS_STATUS_CHK_LOCK (↑q * 4 + ↑l) = 1 ∧
                s.chip.get Fld.H_CHK_WIN (↑q * 4 + ↑l) + (List.take n (List.drop first raw)).length < 1024 ∧
                  s.chip.get Fld.H_CHK_BAD (↑q * 4 + ↑l) +
                      (List.filter (fun (x : Bool × Bool) => decide (x.1 ≠ x.2))
                          ((List.map (fun (b : Bool) => b ^^ s.chip.on Fld.LQ_PRBS_CTL_INV (↑q * 4 + ↑l))
                                (if ratePam4 (s.chip.laneRate (↑q * 4 + ↑l)) = true then
                                  grayPairs (List.map (fun (b : Bool) => b ^^ s.chip.on Fld.LQ_LANE_CTL_RXINV (↑q * 4 + ↑l)) (List.take n (List.drop first raw)))
                                else List.map (fun (b : Bool) => b ^^ s.chip.on Fld.LQ_LANE_CTL_RXINV (↑q * 4 + ↑l)) (List.take n (List.drop first raw)))).zip
                            (patBits (s.chip.get Fld.LQ_PRBS_CTL_PAT (↑q * 4 + ↑l)) (List.take n (List.drop first raw)).length (s.chip.get Fld.H_CHK (↑q * 4 + ↑l))).1)).length <
                    64 :=
  ⟨15, 3, true :: (patBits 2 20 1).1, 1, 20, chkW [(.LQ_PRBS_STATUS_CHK_LOCK, 63, 1), (.H_CHK_WIN, 63, 1003), (.H_CHK_BAD, 63, 63)], by decide +kernel⟩

theorem witness_PrbsAndSparing_4 :
    ∃ (q : Fin 16) (l : Fin 4) (raw : List Bool) (first n : Nat) (s : State),
    s.chip.on Fld.LQ_PRBS_CTL_CHK_EN (↑q * 4 + ↑l) = true ∧
      s.chip.laneEn (↑q * 4 + ↑l) = true ∧
        s.chip.on Fld.LQ_LANE_STATUS_SIGDET (↑q * 4 + ↑l) = true ∧
          (s.chip.laneBuf (↑q * 4 + ↑l)).line = [] ∧
            (List.take n (List.drop first raw)).length = rateD (s.chip.laneRate (↑q * 4 + ↑l)) ∧
              s.chip.get Fld.LQ_PRBS_STATUS_CHK_LOCK (↑q * 4 + ↑l) = 1 ∧
                s.chip.get Fld.H_CHK_WIN (↑q * 4 + ↑l) + (List.take n (List.drop first raw)).length < 1024 ∧
                  s.chip.get Fld.H_CHK_BAD (↑q * 4 + ↑l) < 64 ∧
                    64 ≤
                      s.chip.get Fld.H_CHK_BAD (↑q * 4 + ↑l) +
                        (List.filter (fun (x : Bool × Bool) => decide (x.1 ≠ x.2))
                            ((List.map (fun (b : Bool) => b ^^ s.chip.on Fld.LQ_PRBS_CTL_INV (↑q * 4 + ↑l))
                                  (if ratePam4 (s.chip.laneRate (↑q * 4 + ↑l)) = true then
                                    grayPairs (List.map (fun (b : Bool) => b ^^ s.chip.on Fld.LQ_LANE_CTL_RXINV (↑q * 4 + ↑l)) (List.take n (List.drop first raw)))
                                  else List.map (fun (b : Bool) => b ^^ s.chip.on Fld.LQ_LANE_CTL_RXINV (↑q * 4 + ↑l)) (List.take n (List.drop first raw)))).zip
                              (patBits (s.chip.get Fld.LQ_PRBS_CTL_PAT (↑q * 4 + ↑l)) (List.take n (List.drop first raw)).length (s.chip.get Fld.H_CHK (↑q * 4 + ↑l))).1)).length :=
  ⟨15, 3, true :: (patBits 2 20 1).1.map not, 1, 20, chkW [(.LQ_PRBS_STATUS_CHK_LOCK, 63, 1), (.H_CHK_WIN, 63, 1003), (.H_CHK_BAD, 63, 44)], by decide +kernel⟩

theorem witness_PrbsAndSparing_5 :
    ∃ (who : Init) (q : Fin 16) (l : Fin 4) (s : State),
    (s.seen who).chip.regMay who { blk := Blk.lq, inst := ↑q, off := 280 + ↑l * 64 } false = true :=
  ⟨.host 3, 15, 3, w [], by decide +kernel⟩

theorem witness_PrbsAndSparing_6 :
    ∃ (who : Init) (q : Fin 16) (l : Fin 4) (s : State),
    (s.seen who).chip.regMay who { blk := Blk.lq, inst := ↑q, off := 272 + ↑l * 64 } true = true ∧
      (s.seen who).chip.get Fld.LQ_PRBS_CTL_PAT (↑q * 4 + ↑l) ≤ 5 ∧
        (s.seen who).chip.get Fld.LQ_PRBS_CTL_INJ (↑q * 4 + ↑l) < 2 ∧
          (s.seen who).chip.get Fld.LQ_PRBS_CTL_INJ_RATE (↑q * 4 + ↑l) < 16 ∧
            (s.seen who).chip.get Fld.LQ_PRBS_CTL_INV (↑q * 4 + ↑l) < 2 ∧
              (s.seen who).chip.get Fld.LQ_PRBS_CTL_CHK_EN (↑q * 4 + ↑l) < 2 ∧
                (s.seen who).chip.get Fld.LQ_PRBS_CTL_GEN_EN (↑q * 4 + ↑l) < 2 ∧
                  (s.seen who).chip.ethLane (↑q * 4 + ↑l) = false ∧
                    ((s.seen who).chip.get Fld.LQ_PRBS_CTL_GEN_EN (↑q * 4 + ↑l) = 0 ∧ (s.seen who).chip.get Fld.LQ_PRBS_CTL_CHK_EN (↑q * 4 + ↑l) = 0 ∨
                      patOk ((s.seen who).chip.laneRate (↑q * 4 + ↑l)) ((s.seen who).chip.get Fld.LQ_PRBS_CTL_PAT (↑q * 4 + ↑l)) = true) :=
  ⟨svc, 15, 3, w [(.LQ_PRBS_CTL_PAT, 63, 2), (.LQ_QUAD_CTL_PLLA, 15, 3)], by decide +kernel⟩

theorem witness_PrbsAndSparing_7 :
    ∃ (who : Init) (q : Fin 16) (l : Fin 4) (s : State),
    (s.seen who).chip.regMay who { blk := Blk.lq, inst := ↑q, off := 272 + ↑l * 64 } true = true ∧
      (s.seen who).chip.get Fld.LQ_PRBS_CTL_PAT (↑q * 4 + ↑l) ≤ 5 ∧
        (s.seen who).chip.get Fld.LQ_PRBS_CTL_INJ (↑q * 4 + ↑l) < 2 ∧
          (s.seen who).chip.get Fld.LQ_PRBS_CTL_INJ_RATE (↑q * 4 + ↑l) < 16 ∧
            (s.seen who).chip.get Fld.LQ_PRBS_CTL_INV (↑q * 4 + ↑l) < 2 ∧
              (s.seen who).chip.get Fld.LQ_PRBS_CTL_CHK_EN (↑q * 4 + ↑l) < 2 ∧
                (s.seen who).chip.get Fld.LQ_PRBS_CTL_GEN_EN (↑q * 4 + ↑l) < 2 ∧ (s.seen who).chip.ethLane (↑q * 4 + ↑l) = true :=
  ⟨svc, 0, 1, w [(.LQ_PRBS_CTL_PAT, 1, 5), (.ETH_CTL_EN, 1, 1)], by decide +kernel⟩

theorem witness_PrbsAndSparing_8 :
    ∃ (who : Init) (q : Fin 16) (s : State),
    (s.seen who).chip.regMay who { blk := Blk.lq, inst := ↑q, off := 0 } true = true :=
  ⟨svc, 15, w [], by decide +kernel⟩

theorem witness_PrbsAndSparing_9 :
    ∃ (q : Fin 16) (l : Fin 4) (s : State),
    s.chip.laneFailed (↑q * 4 + ↑l) = true ∧ s.chip.get Fld.LQ_QUAD_STATUS_SPARE_USED ↑q = 0 :=
  ⟨15, 3, w [(.LQ_QUAD_CTL_PROTECT, 15, 8)], by decide +kernel⟩

theorem witness_PrbsAndSparing_10 :
    ∃ (q : Fin 16) (s : State),
    s.chip.get Fld.LQ_QUAD_STATUS_SPARE_USED ↑q ≠ 0 :=
  ⟨15, w [(.LQ_QUAD_STATUS_SPARE_USED, 15, 1)], by decide +kernel⟩


/-! EthernetFramesAndStamps -/

theorem witness_EthernetFramesAndStamps_1 :
    ∃ (p : Fin 2) (f : List Byte) (s : State),
    s.chip.ethLink ↑p = false ∨ be16 f 12 = 34824 ∨ 9216 < f.length :=
  ⟨1, frame0, w [(.ETH_CTL_EN, 1, 1)], by decide +kernel⟩

theorem witness_EthernetFramesAndStamps_2 :
    ∃ (p : Fin 2) (f : List Byte) (s : State),
    s.chip.ethLink ↑p = true ∧ be16 f 12 ≠ 34824 ∧ f.length ≤ 9216 ∧ s.chip.get Fld.ETH_RX_IDX_HW ↑p = s.chip.get Fld.ETH_RX_IDX_SW ↑p :=
  ⟨1, List.replicate 9216 3, w [(.ETH_CTL_EN, 1, 1), (.LQ_LANE_STATUS_LOCK, 1, 1), (.ETH_CTL_MODE, 1, 1), (.LQ_QUAD_CTL_PLLA, 0, 4)], by decide +kernel⟩

theorem witness_EthernetFramesAndStamps_3 :
    ∃ (p : Fin 2) (f : List Byte) (s : State) (j : Nat),
    s.chip.ethLink ↑p = true ∧
      be16 f 12 ≠ 34824 ∧
        f.length ≤ 9216 ∧
          s.chip.get Fld.ETH_RX_IDX_HW ↑p ≠ s.chip.get Fld.ETH_RX_IDX_SW ↑p ∧
            (ethDesc (s.chip.get Fld.ETH_RX_RING_OFFSET ↑p * 64) (s.chip.get Fld.ETH_RX_IDX_HW ↑p) s.chip s.mem).2 = (s.chip, s.mem) ∧
              (ethDesc (s.chip.get Fld.ETH_RX_RING_OFFSET ↑p * 64) (s.chip.get Fld.ETH_RX_IDX_HW ↑p) s.chip s.mem).1.flags % 2 = 1 ∧
                ethBanks (ethDesc (s.chip.get Fld.ETH_RX_RING_OFFSET ↑p * 64) (s.chip.get Fld.ETH_RX_IDX_HW ↑p) s.chip s.mem).1.buf
                      (ethDesc (s.chip.get Fld.ETH_RX_RING_OFFSET ↑p * 64) (s.chip.get Fld.ETH_RX_IDX_HW ↑p) s.chip s.mem).1.len =
                    true ∧
                  ((ethDesc (s.chip.get Fld.ETH_RX_RING_OFFSET ↑p * 64) (s.chip.get Fld.ETH_RX_IDX_HW ↑p) s.chip s.mem).1.at' + 16 ≤
                        (ethDesc (s.chip.get Fld.ETH_RX_RING_OFFSET ↑p * 64) (s.chip.get Fld.ETH_RX_IDX_HW ↑p) s.chip s.mem).1.buf ∨
                      (ethDesc (s.chip.get Fld.ETH_RX_RING_OFFSET ↑p * 64) (s.chip.get Fld.ETH_RX_IDX_HW ↑p) s.chip s.mem).1.buf +
                          (ethDesc (s.chip.get Fld.ETH_RX_RING_OFFSET ↑p * 64) (s.chip.get Fld.ETH_RX_IDX_HW ↑p) s.chip s.mem).1.len ≤
                        (ethDesc (s.chip.get Fld.ETH_RX_RING_OFFSET ↑p * 64) (s.chip.get Fld.ETH_RX_IDX_HW ↑p) s.chip s.mem).1.at') ∧
                    s.mem.sramErr = [] ∧
                      j < min f.length (ethDesc (s.chip.get Fld.ETH_RX_RING_OFFSET ↑p * 64) (s.chip.get Fld.ETH_RX_IDX_HW ↑p) s.chip s.mem).1.len :=
  ⟨0, frame0, ethW 100 [(.ETH_RX_IDX_SW, 0, 1), (.LQ_LANE_STATUS_LOCK, 0, 1), (.ETH_CTL_MODE, 0, 1), (.LQ_QUAD_CTL_PLLA, 0, 4)], 63, by decide +kernel⟩

theorem witness_EthernetFramesAndStamps_4 :
    ∃ (p : Fin 2) (f : List Byte) (s : State) (x : Nat),
    s.chip.ethLink ↑p = true ∧
      be16 f 12 ≠ 34824 ∧
        f.length ≤ 9216 ∧
          s.chip.get Fld.ETH_RX_IDX_HW ↑p ≠ s.chip.get Fld.ETH_RX_IDX_SW ↑p ∧
            (ethDesc (s.chip.get Fld.ETH_RX_RING_OFFSET ↑p * 64) (s.chip.get Fld.ETH_RX_IDX_HW ↑p) s.chip s.mem).2 = (s.chip, s.mem) ∧
              (ethDesc (s.chip.get Fld.ETH_RX_RING_OFFSET ↑p * 64) (s.chip.get Fld.ETH_RX_IDX_HW ↑p) s.chip s.mem).1.flags % 2 = 1 ∧
                ethBanks (ethDesc (s.chip.get Fld.ETH_RX_RING_OFFSET ↑p * 64) (s.chip.get Fld.ETH_RX_IDX_HW ↑p) s.chip s.mem).1.buf
                      (ethDesc (s.chip.get Fld.ETH_RX_RING_OFFSET ↑p * 64) (s.chip.get Fld.ETH_RX_IDX_HW ↑p) s.chip s.mem).1.len =
                    true ∧
                  ((ethDesc (s.chip.get Fld.ETH_RX_RING_OFFSET ↑p * 64) (s.chip.get Fld.ETH_RX_IDX_HW ↑p) s.chip s.mem).1.at' + 16 ≤
                        (ethDesc (s.chip.get Fld.ETH_RX_RING_OFFSET ↑p * 64) (s.chip.get Fld.ETH_RX_IDX_HW ↑p) s.chip s.mem).1.buf ∨
                      (ethDesc (s.chip.get Fld.ETH_RX_RING_OFFSET ↑p * 64) (s.chip.get Fld.ETH_RX_IDX_HW ↑p) s.chip s.mem).1.buf +
                          (ethDesc (s.chip.get Fld.ETH_RX_RING_OFFSET ↑p * 64) (s.chip.get Fld.ETH_RX_IDX_HW ↑p) s.chip s.mem).1.len ≤
                        (ethDesc (s.chip.get Fld.ETH_RX_RING_OFFSET ↑p * 64) (s.chip.get Fld.ETH_RX_IDX_HW ↑p) s.chip s.mem).1.at') ∧
                    s.mem.sramErr = [] ∧
                      ¬((ethDesc (s.chip.get Fld.ETH_RX_RING_OFFSET ↑p * 64) (s.chip.get Fld.ETH_RX_IDX_HW ↑p) s.chip s.mem).1.buf ≤ x ∧
                            x <
                              (ethDesc (s.chip.get Fld.ETH_RX_RING_OFFSET ↑p * 64) (s.chip.get Fld.ETH_RX_IDX_HW ↑p) s.chip s.mem).1.buf +
                                min f.length (ethDesc (s.chip.get Fld.ETH_RX_RING_OFFSET ↑p * 64) (s.chip.get Fld.ETH_RX_IDX_HW ↑p) s.chip s.mem).1.len) ∧
                        ¬((ethDesc (s.chip.get Fld.ETH_RX_RING_OFFSET ↑p * 64) (s.chip.get Fld.ETH_RX_IDX_HW ↑p) s.chip s.mem).1.at' + 4 ≤ x ∧
                            x < (ethDesc (s.chip.get Fld.ETH_RX_RING_OFFSET ↑p * 64) (s.chip.get Fld.ETH_RX_IDX_HW ↑p) s.chip s.mem).1.at' + 16) :=
  ⟨0, frame0, ethW 100 [(.ETH_RX_IDX_SW, 0, 1), (.LQ_LANE_STATUS_LOCK, 0, 1), (.ETH_CTL_MODE, 0, 1), (.LQ_QUAD_CTL_PLLA, 0, 4)], 0x400080, by decide +kernel⟩

theorem witness_EthernetFramesAndStamps_5 :
    ∃ (p : Fin 2) (s : State) (x : Nat),
    s.chip.ethOption ↑p = true ∧
      (ethDesc (s.chip.get Fld.ETH_TX_RING_OFFSET ↑p * 64) (s.chip.get Fld.ETH_TX_IDX_HW ↑p) s.chip s.mem).1.len ≤ 9216 ∧
        s.chip.get Fld.ETH_TX_IDX_HW ↑p ≠ s.chip.get Fld.ETH_TX_IDX_SW ↑p ∧
          (ethDesc (s.chip.get Fld.ETH_TX_RING_OFFSET ↑p * 64) (s.chip.get Fld.ETH_TX_IDX_HW ↑p) s.chip s.mem).2 = (s.chip, s.mem) ∧
            (ethDesc (s.chip.get Fld.ETH_TX_RING_OFFSET ↑p * 64) (s.chip.get Fld.ETH_TX_IDX_HW ↑p) s.chip s.mem).1.flags % 2 = 1 ∧
              ethBanks (ethDesc (s.chip.get Fld.ETH_TX_RING_OFFSET ↑p * 64) (s.chip.get Fld.ETH_TX_IDX_HW ↑p) s.chip s.mem).1.buf
                    (ethDesc (s.chip.get Fld.ETH_TX_RING_OFFSET ↑p * 64) (s.chip.get Fld.ETH_TX_IDX_HW ↑p) s.chip s.mem).1.len =
                  true ∧
                (sramRead ((ethDesc (s.chip.get Fld.ETH_TX_RING_OFFSET ↑p * 64) (s.chip.get Fld.ETH_TX_IDX_HW ↑p) s.chip s.mem).1.len + 1)
                        (ethDesc (s.chip.get Fld.ETH_TX_RING_OFFSET ↑p * 64) (s.chip.get Fld.ETH_TX_IDX_HW ↑p) s.chip s.mem).1.buf
                        (ethDesc (s.chip.get Fld.ETH_TX_RING_OFFSET ↑p * 64) (s.chip.get Fld.ETH_TX_IDX_HW ↑p) s.chip s.mem).1.len s.chip s.mem).status =
                    Status.ok ∧
                  (sramRead ((ethDesc (s.chip.get Fld.ETH_TX_RING_OFFSET ↑p * 64) (s.chip.get Fld.ETH_TX_IDX_HW ↑p) s.chip s.mem).1.len + 1)
                          (ethDesc (s.chip.get Fld.ETH_TX_RING_OFFSET ↑p * 64) (s.chip.get Fld.ETH_TX_IDX_HW ↑p) s.chip s.mem).1.buf
                          (ethDesc (s.chip.get Fld.ETH_TX_RING_OFFSET ↑p * 64) (s.chip.get Fld.ETH_TX_IDX_HW ↑p) s.chip s.mem).1.len s.chip s.mem).chip =
                      s.chip ∧
                    (sramRead ((ethDesc (s.chip.get Fld.ETH_TX_RING_OFFSET ↑p * 64) (s.chip.get Fld.ETH_TX_IDX_HW ↑p) s.chip s.mem).1.len + 1)
                            (ethDesc (s.chip.get Fld.ETH_TX_RING_OFFSET ↑p * 64) (s.chip.get Fld.ETH_TX_IDX_HW ↑p) s.chip s.mem).1.buf
                            (ethDesc (s.chip.get Fld.ETH_TX_RING_OFFSET ↑p * 64) (s.chip.get Fld.ETH_TX_IDX_HW ↑p) s.chip s.mem).1.len s.chip s.mem).mem =
                        s.mem ∧
                      ptpEvent
                            (sramRead ((ethDesc (s.chip.get Fld.ETH_TX_RING_OFFSET ↑p * 64) (s.chip.get Fld.ETH_TX_IDX_HW ↑p) s.chip s.mem).1.len + 1)
                                (ethDesc (s.chip.get Fld.ETH_TX_RING_OFFSET ↑p * 64) (s.chip.get Fld.ETH_TX_IDX_HW ↑p) s.chip s.mem).1.buf
                                (ethDesc (s.chip.get Fld.ETH_TX_RING_OFFSET ↑p * 64) (s.chip.get Fld.ETH_TX_IDX_HW ↑p) s.chip s.mem).1.len s.chip s.mem).data =
                          none ∧
                        s.mem.sramErr = [] ∧
                          ¬((ethDesc (s.chip.get Fld.ETH_TX_RING_OFFSET ↑p * 64) (s.chip.get Fld.ETH_TX_IDX_HW ↑p) s.chip s.mem).1.at' + 4 ≤ x ∧
                              x < (ethDesc (s.chip.get Fld.ETH_TX_RING_OFFSET ↑p * 64) (s.chip.get Fld.ETH_TX_IDX_HW ↑p) s.chip s.mem).1.at' + 16) :=
  ⟨0, ethW 20 [(.ETH_TX_IDX_SW, 0, 1)], 0x500010, by decide +kernel⟩

theorem witness_EthernetFramesAndStamps_6 :
    ∃ (k : Fin 8) (sec : Bool) (ns : BitVec 30),
    (sec || decide (↑k < 4)) = true ∧ ns.toNat ≤ 999999999 :=
  ⟨3, false, 999999999, by decide +kernel⟩

theorem witness_EthernetFramesAndStamps_7 :
    ∃ (k : Fin 8) (sec : Bool) (ns : BitVec 30),
    (sec || decide (↑k < 4)) = true ∧ 999999999 < ns.toNat :=
  ⟨4, true, 1000000000, by decide +kernel⟩

theorem witness_EthernetFramesAndStamps_8 :
    ∃ (p : Fin 2) (k : Fin 8) (sec : Bool) (s : State) (e : Nat × Nat),
    (sec || decide (↑k < 4)) = true ∧ List.find? (fun (e : Nat × Nat) => decide (e.1 = ↑p)) (s.seen (Init.core k sec)).chip.txTs = some e :=
  ⟨1, 0, false, wc (fun c => { c with txTs := [(0, 5), (1, 6)] }) [], (1, 6), by decide +kernel⟩


/-! PortResetsAndHostLosses -/

theorem witness_PortResetsAndHostLosses_1 :
    ∃ (n : Fin 4) (s : State),
    s.chip.portExists ↑n = true ∧ s.chip.on Fld.H_PERST ↑n = false :=
  ⟨3, w [], by decide +kernel⟩

theorem witness_PortResetsAndHostLosses_2 :
    ∃ (n : Fin 4) (s : State),
    s.chip.on Fld.H_LINKUP ↑n = true :=
  ⟨3, w [(.H_LINKUP, 3, 1)], by decide +kernel⟩

theorem witness_PortResetsAndHostLosses_3 :
    ∃ (n : Fin 4) (s : State),
    s.chip.due Fld.H_LINK_DUE ↑n = true ∧ s.chip.on Fld.H_LINKUP ↑n = false :=
  ⟨3, w [(.H_LINKUP, 3, 0), (.H_LINK_DUE, 3, 1000001)], by decide +kernel⟩

theorem witness_PortResetsAndHostLosses_4 :
    ∃ (n : Fin 4) (speed : Fin 7) (width : Fin 17) (s : State),
    s.chip.mayTrain ↑n = true ∧ s.chip.on Fld.H_LINKUP ↑n = false ∧ 1 ≤ ↑speed ∧ s.chip.widthOk ↑width = true :=
  ⟨3, 6, 8, w [(.FLT_SRC_BOOT, 0, 0)], by decide +kernel⟩


/-! DmaChannels -/

theorem witness_DmaChannels_1 :
    ∃ (n : Fin 4) (j : Fin 8) (pi : BitVec 16) (who : Init) (s : State),
    (match who with
      | Init.host k => k = n ∧ (s.seen who).chip.hostGone who = false
      | Init.core k sec => (sec || decide (↑k < 4)) = true) ∧
      (s.seen who).chip.get Fld.H_QUIESCE 0 = 0 ∧ pi.toNat < (s.seen who).chip.dmaRing (↑n * 8 + ↑j) :=
  ⟨3, 7, 15, svc, w [], rfl, by decide +kernel⟩

theorem witness_DmaChannels_2 :
    ∃ (n : Fin 4) (j : Fin 8) (pi : BitVec 16) (who : Init) (s : State),
    (match who with
      | Init.host k => k = n ∧ (s.seen who).chip.hostGone who = false
      | Init.core k sec => (sec || decide (↑k < 4)) = true) ∧
      (s.seen who).chip.get Fld.H_QUIESCE 0 = 0 ∧ (s.seen who).chip.dmaRing (↑n * 8 + ↑j) ≤ pi.toNat :=
  ⟨3, 7, 16, svc, w [], rfl, by decide +kernel⟩

theorem witness_DmaChannels_3 :
    ∃ (n : Fin 4) (j : Fin 8) (who : Init) (s : State),
    (match who with
      | Init.host k => k = n ∧ (s.seen who).chip.hostGone who = false
      | Init.core k sec => (sec || decide (↑k < 4)) = true) ∧
      (s.seen who).chip.on Fld.DMA_CH_CTL_EN (↑n * 8 + ↑j) = true ∧
        (s.seen who).chip.dmaItem (↑n * 8 + ↑j) = none ∧
          (s.seen who).chip.get Fld.H_DMA_NEXT (↑n * 8 + ↑j) = (s.seen who).chip.get Fld.DMA_CH_PI_PI (↑n * 8 + ↑j) :=
  ⟨1, 3, svc, w [(.DMA_CH_CTL_EN, 11, 1)], rfl, by decide +kernel⟩

theorem witness_DmaChannels_4 :
    ∃ (n : Fin 4) (j : Fin 8) (who : Init) (s : State) (x : DmaItem),
    (match who with
      | Init.host k => k = n ∧ (s.seen who).chip.hostGone who = false
      | Init.core k sec => (sec || decide (↑k < 4)) = true) ∧
      (s.seen who).chip.on Fld.DMA_CH_CTL_EN (↑n * 8 + ↑j) = true ∧ (s.seen who).chip.dmaItem (↑n * 8 + ↑j) = some x ∧ x.issued < x.len ∧ x.stopped = false :=
  ⟨1, 3, svc, wc (fun c => { c with dma := [{ item1 with issued := 3 }] }) [(.DMA_CH_CTL_EN, 11, 1)], { item1 with issued := 3 }, rfl, by decide +kernel⟩

theorem witness_DmaChannels_5 :
    ∃ (n : Fin 4) (j : Fin 8) (b : List Byte) (s : State) (d : DmaDesc) (tag : Nat) (y : Nat),
    s.chip.power ≠ pwrWatch ∧
      s.chip.on Fld.DMA_CH_CTL_EN (↑n * 8 + ↑j) = true ∧
        s.chip.on Fld.DMA_CH_CTL_ABORT (↑n * 8 + ↑j) = false ∧
          s.chip.dmaItem (↑n * 8 + ↑j) = none ∧
            s.chip.get Fld.H_DMA_NEXT (↑n * 8 + ↑j) ≠ s.chip.get Fld.DMA_CH_PI_PI (↑n * 8 + ↑j) ∧
              dmaDecode b = some d ∧
                dmaDescOk d = true ∧
                  bit d.ctrl 0 = 1 ∧
                    d.design % 8 + d.length ≤ 8 ∧
                      s.chip.freeTag (↑n * 8 + ↑j) = some tag ∧
                        s.chip.get Fld.PTN_CFG_BIND (bits d.ctrl 7 4) = ↑n ∧
                          s.chip.place (bits d.ctrl 7 4) d.design false = Place.cistern y ∧
                            s.chip.cutOff routerHub (y / 524288) = false ∧ NatMap.find 0 s.mem.cisErr (y / 8) = 0 :=
  ⟨1, 3, desc0, w (part0 ++ [(.DMA_CH_CTL_EN, 11, 1), (.H_DMA_NEXT, 11, 1), (.DMA_CH_PI_PI, 11, 3)]), ⟨0x1000, 0x3000100000, 8, 1, 5⟩, 0x8B00, 0x100000, by decide +kernel⟩

theorem witness_DmaChannels_6 :
    ∃ (n : Fin 4) (j : Fin 8) (b : List Byte) (s : State),
    s.chip.power ≠ pwrWatch ∧
      s.chip.on Fld.DMA_CH_CTL_EN (↑n * 8 + ↑j) = true ∧
        s.chip.on Fld.DMA_CH_CTL_ABORT (↑n * 8 + ↑j) = false ∧
          s.chip.dmaItem (↑n * 8 + ↑j) = none ∧
            s.chip.get Fld.H_DMA_NEXT (↑n * 8 + ↑j) ≠ s.chip.get Fld.DMA_CH_PI_PI (↑n * 8 + ↑j) ∧ ∀ (d : DmaDesc), dmaDecode b = some d → dmaDescOk d = false :=
  ⟨1, 3, toBytes 32 0, w [(.DMA_CH_CTL_EN, 11, 1), (.DMA_CH_PI_PI, 11, 1)], by decide +kernel, by decide +kernel, by decide +kernel, by decide +kernel, by decide +kernel, fun d h => by
    rw [show dmaDecode (toBytes 32 0) = some ⟨0, 0, 0, 0, 0⟩ by decide +kernel] at h
    rw [← Option.some.inj h]; decide +kernel⟩

theorem witness_DmaChannels_7 :
    ∃ (n : Fin 4) (j : Fin 8) (s : State) (x : DmaItem),
    s.chip.dmaItem (↑n * 8 + ↑j) = some x ∧
      s.chip.dmaBusy (↑n * 8 + ↑j) = false ∧
        x.len ≤ x.issued ∧ x.status = 0 ∧ x.aborted = false ∧ bit x.ctrl 1 = 0 ∧ s.chip.on Fld.DMA_CH_CTL_ABORT (↑n * 8 + ↑j) = false :=
  ⟨1, 3, wc (fun c => { c with dma := [item1] }) [], item1, by decide +kernel⟩


/-! PostsTakesAndThreads -/

theorem witness_PostsTakesAndThreads_1 :
    ∃ (k : Fin 8) (sec : Bool) (s : State),
    (s.seen (Init.core k sec)).chip.posts = [] ∧
      (s.seen (Init.core k sec)).chip.sump = [] ∧ (s.seen (Init.core k sec)).chip.tokens.length < 4096 ∧ (s.seen (Init.core k sec)).chip.icQuiet :=
  ⟨7, true, wc (fun c => { c with tokens := List.replicate 4095 tok0 }) [], by decide +kernel, by decide +kernel, by decide +kernel, quiet_of (by decide +kernel)⟩

theorem witness_PostsTakesAndThreads_2 :
    ∃ (k : Fin 8) (sec : Bool) (s : State),
    (s.seen (Init.core k sec)).chip.posts = [] ∧ (s.seen (Init.core k sec)).chip.postPlace = 2 :=
  ⟨7, true, wc (fun c => { c with tokens := List.replicate 4096 tok0 }) [(.SCH_CTL_SUMP_EN, 0, 1), (.SCH_SUMP_LEN, 0, 1)], by decide +kernel⟩

theorem witness_PostsTakesAndThreads_3 :
    ∃ (k : Fin 8) (sec : Bool) (s : State),
    (s.seen (Init.core k sec)).chip.posts ≠ [] ∨ (s.seen (Init.core k sec)).chip.postPlace = 0 :=
  ⟨7, true, wc (fun c => { c with posts := [tok0] }) [], by decide +kernel⟩

theorem witness_PostsTakesAndThreads_4 :
    ∃ (s : State),
    s.chip.posts = [] ∧ s.chip.icQuiet :=
  ⟨w [], by decide +kernel, quiet_of (by decide +kernel)⟩

theorem witness_PostsTakesAndThreads_5 :
    ∃ (s : State) (x : Token) (xs : List Token),
    s.chip.posts = x :: xs ∧ x.since + s.chip.get Fld.SCH_CTL_BPWAIT 0 * Chip.us ≤ s.chip.now ∧ x.src < 8 :=
  ⟨wc (fun c => { c with posts := [tok0] }) [], tok0, [], by decide +kernel⟩

theorem witness_PostsTakesAndThreads_6 :
    ∃ (s : State) (x : Token) (xs : List Token),
    s.chip.posts = x :: xs ∧ x.since + s.chip.get Fld.SCH_CTL_BPWAIT 0 * Chip.us ≤ s.chip.now ∧ s.chip.icQuiet :=
  ⟨wc (fun c => { c with posts := [tok0] }) [], tok0, [], by decide +kernel, by decide +kernel, quiet_of (by decide +kernel)⟩

theorem witness_PostsTakesAndThreads_7 :
    ∃ (k : Fin 8) (sec : Bool) (s : State),
    (s.seen (Init.core k sec)).chip.get Fld.SCH_RUNNING ↑k ≠ 0 :=
  ⟨7, true, w [(.SCH_RUNNING, 7, 1)], by decide +kernel⟩

theorem witness_PostsTakesAndThreads_8 :
    ∃ (k : Fin 8) (sec : Bool) (s : State),
    (s.seen (Init.core k sec)).chip.get Fld.SCH_RUNNING ↑k = 0 ∧
      (s.seen (Init.core k sec)).chip.posts = [] ∧
        (s.seen (Init.core k sec)).chip.sump = [] ∧ (s.seen (Init.core k sec)).chip.get Fld.SCH_SLOT ↑k = 0 ∧ (s.seen (Init.core k sec)).chip.icQuiet :=
  ⟨7, true, w [], by decide +kernel, by decide +kernel, by decide +kernel, by decide +kernel, quiet_of (by decide +kernel)⟩

theorem witness_PostsTakesAndThreads_9 :
    ∃ (k : Fin 8) (sec : Bool) (s : State) (j : Nat) (i : Nat) (x : Token),
    (s.seen (Init.core k sec)).chip.get Fld.SCH_RUNNING ↑k = 0 ∧
      (s.seen (Init.core k sec)).chip.posts = [] ∧
        (s.seen (Init.core k sec)).chip.sump = [] ∧
          (s.seen (Init.core k sec)).chip.get Fld.SCH_SLOT ↑k = j + 1 ∧
            (∀ i < 8, (s.seen (Init.core k sec)).chip.get Fld.SCH_SLOT i = j + 1 → i = ↑k) ∧
              i < 8 ∧ bitB ((s.seen (Init.core k sec)).chip.get Fld.SCH_THR_CFG_WAIT j) i = true ∧ (s.seen (Init.core k sec)).chip.tokenOf j i = some x :=
  ⟨7, true, wc (fun c => { c with tokens := [tok0] }) [(.SCH_SLOT, 7, 1024), (.SCH_THR_CFG_WAIT, 1023, 128)], 1023, 7, tok0, by decide +kernel⟩

theorem witness_PostsTakesAndThreads_10 :
    ∃ (k : Fin 8) (sec : Bool) (s : State) (j : Nat) (i : Nat),
    (s.seen (Init.core k sec)).chip.get Fld.SCH_RUNNING ↑k = 0 ∧
      (s.seen (Init.core k sec)).chip.posts = [] ∧
        (s.seen (Init.core k sec)).chip.sump = [] ∧
          (s.seen (Init.core k sec)).chip.get Fld.SCH_SLOT ↑k = j + 1 ∧
            (∀ i < 8, (s.seen (Init.core k sec)).chip.get Fld.SCH_SLOT i = j + 1 → i = ↑k) ∧
              i < 8 ∧ bitB ((s.seen (Init.core k sec)).chip.get Fld.SCH_THR_CFG_WAIT j) i = false :=
  ⟨7, true, w [(.SCH_SLOT, 7, 1024), (.SCH_THR_CFG_WAIT, 1023, 128)], 1023, 6, by decide +kernel⟩

theorem witness_PostsTakesAndThreads_11 :
    ∃ (k : Fin 8) (sec : Bool) (th : BitVec 10) (s : State),
    (s.seen (Init.core k sec)).chip.get Fld.SCH_RUNNING ↑k = th.toNat + 1 :=
  ⟨7, true, 1023, w [(.SCH_RUNNING, 7, 1024)], by decide +kernel⟩

theorem witness_PostsTakesAndThreads_12 :
    ∃ (k : Fin 8) (sec : Bool) (th : BitVec 10) (s : State),
    (s.seen (Init.core k sec)).chip.get Fld.SCH_RUNNING ↑k ≠ th.toNat + 1 :=
  ⟨7, true, 1023, w [], by decide +kernel⟩


/-! InterruptSources -/

theorem witness_InterruptSources_1 :
    ∃ (src : BitVec 10) (s : State),
    src ≠ 0 ∧ s.chip.sourceLive src.toNat = true ∧ s.chip.get Fld.IC_SRC_CFG_MODE src.toNat = 0 :=
  ⟨300, w [(.RIM_SECT_OWN_OWNER, 0, 16), (.RIM_SECT_STATE_STATE, 0, 3)], by decide +kernel⟩

theorem witness_InterruptSources_2 :
    ∃ (src : BitVec 10) (s : State),
    src ≠ 0 ∧
      s.chip.sourceLive src.toNat = true ∧
        s.chip.get Fld.IC_SRC_CFG_MODE src.toNat = 1 ∧
          s.chip.on Fld.IC_EN_BIT src.toNat = true ∧
            s.chip.on Fld.IC_ACTIVE_BIT src.toNat = false ∧
              s.chip.on Fld.IC_SRC_CFG_PRIO src.toNat = true ∧
                s.chip.instances Fld.IC_PEND_BIT = [] ∧ s.chip.posts = [] ∧ s.chip.sump = [] ∧ s.chip.tokens.length < 4096 :=
  ⟨300, w [(.RIM_SECT_OWN_OWNER, 0, 16), (.RIM_SECT_STATE_STATE, 0, 3), (.IC_SRC_CFG_MODE, 300, 1), (.IC_EN_BIT, 300, 1), (.IC_SRC_CFG_PRIO, 300, 3)], by decide +kernel⟩

theorem witness_InterruptSources_3 :
    ∃ (k : Fin 8) (sec : Bool) (w : Fin 32) (mask : Word32) (s : State) (i : Nat),
    i < 32 ∧ bitB (BitVec.toNat mask) i = true ∧ 32 * ↑w + i ≠ 0 ∧ (s.seen (Init.core k sec)).chip.get Fld.IC_SRC_CFG_MODE (32 * ↑w + i) = 0 :=
  ⟨7, true, 31, 0x80000000, w [], 31, by decide +kernel⟩

theorem witness_InterruptSources_4 :
    ∃ (k : Fin 8) (sec : Bool) (tg : Fin 16) (s : State),
    ownsTarget (↑k) sec ↑tg = true ∧
      (s.seen (Init.core k sec)).chip.icTop ↑tg ≠ 0 ∧ ((s.seen (Init.core k sec)).chip.icTop ↑tg < 252 ∨ 254 < (s.seen (Init.core k sec)).chip.icTop ↑tg) :=
  ⟨2, false, 5, w [(.IC_PEND_BIT, 1023, 1), (.IC_EN_BIT, 1023, 1), (.IC_SRC_CFG_PRIO, 1023, 7), (.IC_SRC_CFG_TARGETS, 1023, 32)], by decide +kernel⟩

theorem witness_InterruptSources_5 :
    ∃ (k : Fin 8) (sec : Bool) (tg : Fin 16) (s : State),
    ownsTarget (↑k) sec ↑tg = true ∧ (s.seen (Init.core k sec)).chip.icTop ↑tg = 0 :=
  ⟨2, false, 5, w [], by decide +kernel⟩

theorem witness_InterruptSources_6 :
    ∃ (src : BitVec 10) (k : Fin 8) (sec : Bool) (tg : Fin 16) (s : State),
    ownsTarget (↑k) sec ↑tg = true ∧
      (s.seen (Init.core k sec)).chip.on Fld.IC_ACTIVE_BIT src.toNat = true ∧
        (s.seen (Init.core k sec)).chip.get Fld.IC_CLAIMED_BY src.toNat = ↑tg + 1 ∧ (s.seen (Init.core k sec)).chip.get Fld.IC_SRC_CFG_MODE src.toNat = 0 :=
  ⟨300, 2, false, 5, w [(.IC_ACTIVE_BIT, 300, 1), (.IC_CLAIMED_BY, 300, 6)], by decide +kernel⟩

theorem witness_InterruptSources_7 :
    ∃ (src : BitVec 10) (k : Fin 8) (sec : Bool) (tg : Fin 16) (s : State),
    ownsTarget (↑k) sec ↑tg = true ∧ (s.seen (Init.core k sec)).chip.on Fld.IC_ACTIVE_BIT src.toNat = false :=
  ⟨300, 2, false, 5, w [], by decide +kernel⟩

theorem witness_InterruptSources_8 :
    ∃ (k : Fin 8) (sec : Bool) (tg : Fin 16),
    ownsTarget (↑k) sec ↑tg = false :=
  ⟨2, false, 7, by decide +kernel⟩


/-! CoresAndTheirTrace -/

theorem witness_CoresAndTheirTrace_1 :
    ∃ (k : Fin 8) (sec : Bool) (s : State),
    s.chip.get Fld.H_LP ↑k ≠ 1 ∧ s.chip.trcEnabled ↑k = false ∧ s.chip.on Fld.H_SEC ↑k = sec :=
  ⟨7, true, w [(.H_SEC, 7, 1)], by decide +kernel⟩

theorem witness_CoresAndTheirTrace_2 :
    ∃ (k : Fin 8) (sec : Bool) (s : State),
    s.chip.get Fld.H_LP ↑k ≠ 1 ∧
      s.chip.trcEnabled ↑k = true ∧
        s.chip.on Fld.TRC_CTL_STALL 0 = false ∧ s.chip.trc.length ≤ 250 ∧ s.chip.get Fld.H_TRC_LOSTN ↑k = 0 ∧ s.chip.on Fld.H_SEC ↑k = false ∧ sec = true :=
  ⟨7, true, w [(.TRC_CTL_EN, 0, 1), (.TRC_CTL_SRC_EN, 0, 0x3ff)], by decide +kernel⟩

theorem witness_CoresAndTheirTrace_3 :
    ∃ (k : Fin 8) (sec : Bool) (s : State),
    s.chip.get Fld.H_LP ↑k ≠ 1 ∧
      s.chip.trcEnabled ↑k = true ∧
        s.chip.on Fld.TRC_CTL_STALL 0 = false ∧
          s.chip.trc.length ≤ 250 ∧ s.chip.get Fld.H_TRC_LOSTN ↑k = 0 ∧ s.chip.on Fld.H_SEC ↑k = true ∧ s.chip.secAllowed = false ∧ sec = false :=
  ⟨7, false, w [(.TRC_CTL_EN, 0, 1), (.TRC_CTL_SRC_EN, 0, 0x3ff), (.H_SEC, 7, 1), (.LC_STATE_STATE, 0, 3)], by decide +kernel⟩

theorem witness_CoresAndTheirTrace_4 :
    ∃ (k : Fin 8) (tg : Fin 8) (sec : Bool) (s : State),
    (s.seen (Init.core k sec)).chip.coreMay k sec { blk := Blk.cc, inst := ↑tg, off := 0 } = true :=
  ⟨1, 7, false, w [], by decide +kernel⟩

theorem witness_CoresAndTheirTrace_5
    (free : ∀ n, Config.freeValue n = 0) :
    ∃ (k : Fin 8) (sec : Bool) (s : State),
    (sec || decide (↑k < 4)) = true ∧
      (s.seen (Init.core k sec)).chip.trcEnabled (16 + ↑k) = true ∧
        (s.seen (Init.core k sec)).chip.secHidden (16 + ↑k) = false ∧
          (s.seen (Init.core k sec)).chip.trc.length < 256 ∧ (s.seen (Init.core k sec)).chip.get Fld.H_TRC_LOSTN (16 + ↑k) = 0 :=
  ⟨3, false, w [(.TRC_CTL_EN, 0, 1), (.TRC_CTL_SRC_EN, 0, 0x3ff)], by
    simp only [State.seen, initSeen, Chip.coreRuns, Chip.fresh, free]
    decide +kernel⟩

theorem witness_CoresAndTheirTrace_6 :
    ∃ (k : Fin 8) (sec : Bool) (s : State),
    (sec || decide (↑k < 4)) = true ∧ ((s.seen (Init.core k sec)).chip.trcEnabled (16 + ↑k) = false ∨ (s.seen (Init.core k sec)).chip.secHidden (16 + ↑k) = true) :=
  ⟨7, true, w [], by decide +kernel⟩

theorem witness_CoresAndTheirTrace_7 :
    ∃ (k : Fin 8) (st : Fin 4) (s : State),
    s.chip.mayRest ↑k ↑st = true ∧ s.chip.on Fld.TRC_CTL_EN 0 = true ∧ s.chip.trc = [] :=
  ⟨7, 1, w [(.TRC_CTL_EN, 0, 1)], by decide +kernel⟩

theorem witness_CoresAndTheirTrace_8 :
    ∃ (k : Fin 8) (st : Fin 4) (s : State) (x : TrcPacket),
    s.chip.mayRest ↑k ↑st = true ∧ x ∈ s.chip.trc ∧ packetOf (↑k) x = false :=
  ⟨7, 0, wc (fun c => { c with trc := [⟨5, 0, 0, 3, 1⟩] }) [(.TRC_CTL_LPWAIT, 0, 1)], ⟨5, 0, 0, 3, 1⟩, by decide +kernel⟩

theorem witness_CoresAndTheirTrace_9 :
    ∃ (k : Fin 8) (st : Fin 4) (s : State),
    s.chip.mayRest ↑k ↑st = false :=
  ⟨7, 0, w [], by decide +kernel⟩


/-! MailboxMessages -/

theorem witness_MailboxMessages_1 :
    ∃ (who : Init) (n : Fin 64) (s : State) (w : Nat),
    (s.seen who).chip.mbxEndOf who ↑n = some MbxEnd.sender ∧ (s.seen who).chip.hostGone who = false ∧ w < 16 :=
  ⟨.host 1, 8, w [], 15, by decide +kernel⟩

theorem witness_MailboxMessages_2 :
    ∃ (who : Init) (n : Fin 64) (s : State),
    (s.seen who).chip.mbxEndOf who ↑n = some MbxEnd.sender ∧ (s.seen who).chip.hostGone who = false ∧ (s.seen who).chip.get Fld.MBX_STATUS_FULL ↑n = 0 :=
  ⟨.host 1, 8, w [], by decide +kernel⟩

theorem witness_MailboxMessages_3 :
    ∃ (who : Init) (n : Fin 64) (s : State),
    (s.seen who).chip.mbxEndOf who ↑n = some MbxEnd.sender ∧ (s.seen who).chip.hostGone who = false ∧ (s.seen who).chip.get Fld.MBX_STATUS_FULL ↑n ≠ 0 :=
  ⟨.host 1, 8, w [(.MBX_STATUS_FULL, 8, 1)], by decide +kernel⟩

theorem witness_MailboxMessages_4 :
    ∃ (who : Init) (n : Fin 64) (s : State) (w : Nat),
    (s.seen who).chip.mbxEndOf who ↑n = some MbxEnd.receiver ∧ w < 16 :=
  ⟨.host 1, 9, w [], 15, by decide +kernel⟩

theorem witness_MailboxMessages_5 :
    ∃ (who : Init) (n : Fin 64) (s : State),
    (s.seen who).chip.mbxEndOf who ↑n = some MbxEnd.receiver ∧ (s.seen who).chip.get Fld.MBX_STATUS_SNAP ↑n ≠ 0 :=
  ⟨.host 1, 9, w [(.MBX_STATUS_SNAP, 9, 1)], by decide +kernel⟩

theorem witness_MailboxMessages_6 :
    ∃ (who : Init) (n : Fin 64) (s : State),
    (s.seen who).chip.mbxEndOf who ↑n = some MbxEnd.receiver ∧ (s.seen who).chip.get Fld.MBX_STATUS_SNAP ↑n = 0 :=
  ⟨.host 1, 9, w [], by decide +kernel⟩

theorem witness_MailboxMessages_7 :
    ∃ (who : Init) (n : Fin 64) (s : State),
    (s.seen who).chip.mbxEndOf who ↑n = none :=
  ⟨.host 2, 9, w [], by decide +kernel⟩


/-! UteusSessions -/

theorem witness_UteusSessions_1 :
    ∃ (n : Fin 4) (j : Fin 8) (id : BitVec 16) (lo : BitVec 16) (hi : BitVec 16) (ka : BitVec 16) (heads : List UtHead) (s : State),
    UtFree s.chip ↑n ↑j ∧ UtWhole s.chip (↑n) (↑j) utHello id.toNat heads ∧ max lo.toNat fwMin ≤ min hi.toNat fwMax ∧ (ka = 0 ∨ 100 ≤ ka.toNat ∧ ka.toNat ≤ 60000) :=
  ⟨1, 2, 1, 0x100, 0x103, 60000, head1, w ut, by and_intros <;> first | decide +kernel | (constructor <;> decide +kernel)⟩

theorem witness_UteusSessions_2 :
    ∃ (n : Fin 4) (j : Fin 8) (id : BitVec 16) (lo : BitVec 16) (hi : BitVec 16) (heads : List UtHead) (s : State),
    UtFree s.chip ↑n ↑j ∧ UtWhole s.chip (↑n) (↑j) utHello id.toNat heads ∧ min hi.toNat fwMax < max lo.toNat fwMin :=
  ⟨1, 2, 1, 0x104, 0x400, head1, w ut, by and_intros <;> first | decide +kernel | (constructor <;> decide +kernel)⟩

theorem witness_UteusSessions_3 :
    ∃ (n : Fin 4) (j : Fin 8) (id : BitVec 16) (heads : List UtHead) (s : State),
    UtFree s.chip ↑n ↑j ∧ UtWhole s.chip (↑n) (↑j) utFwStatus id.toNat heads ∧ utSince utFwStatus ≤ s.chip.get Fld.H_UT_VER ↑n :=
  ⟨1, 2, 1, head1, w ut, by and_intros <;> first | decide +kernel | (constructor <;> decide +kernel)⟩

theorem witness_UteusSessions_4 :
    ∃ (n : Fin 4) (j : Fin 8) (id : BitVec 16) (heads : List UtHead) (s : State),
    UtFree s.chip ↑n ↑j ∧ UtWhole s.chip (↑n) (↑j) utFwStatus id.toNat heads ∧ s.chip.get Fld.H_UT_VER ↑n = 0 :=
  ⟨1, 2, 1, head1, w (ut ++ [(.H_UT_VER, 1, 0)]), by and_intros <;> first | decide +kernel | (constructor <;> decide +kernel)⟩

theorem witness_UteusSessions_5 :
    ∃ (n : Fin 4) (j : Fin 8) (heads : List UtHead) (s : State) (x : UtHead) (xs : List UtHead),
    UtFree s.chip ↑n ↑j ∧ s.chip.utAsm = [] ∧ heads = x :: xs ∧ utReserved x = true :=
  ⟨1, 2, [⟨2, 0, 0, 0, false⟩], w ut, ⟨2, 0, 0, 0, false⟩, [], by and_intros <;> first | decide +kernel | (constructor <;> decide +kernel)⟩

theorem witness_UteusSessions_6 :
    ∃ (n : Fin 4) (j : Fin 8) (heads : List UtHead) (s : State) (x : UtHead) (xs : List UtHead),
    UtFree s.chip ↑n ↑j ∧ s.chip.utAsm = [] ∧ heads = x :: xs ∧ utReserved x = false ∧ x.frag ≠ 0 :=
  ⟨1, 2, [⟨0, 1, 0, 0, false⟩], w ut, ⟨0, 1, 0, 0, false⟩, [], by and_intros <;> first | decide +kernel | (constructor <;> decide +kernel)⟩

theorem witness_UteusSessions_7 :
    ∃ (n : Fin 4) (j : Fin 8) (heads : List UtHead) (s : State) (x : UtHead) (xs : List UtHead),
    UtFree s.chip ↑n ↑j ∧ s.chip.utAsm = [] ∧ heads = x :: xs ∧ utReserved x = false ∧ x.frag = 0 ∧ x.flags = 1 ∧ xs = [] :=
  ⟨1, 2, headPart, w ut, ⟨1, 0, 0, 0, false⟩, [], by and_intros <;> first | decide +kernel | (constructor <;> decide +kernel)⟩

theorem witness_UteusSessions_8 :
    ∃ (n : Fin 4) (s : State),
    s.chip.portExists ↑n = true ∧
      s.chip.utWait = [] ∧
        s.chip.fwOut = [] ∧ s.chip.get Fld.H_FW_DOWN 0 = 0 ∧ s.chip.get Fld.MBX_STATUS_COLLISION (s.chip.utChannel (↑n) (s.chip.utPairs - 1)) = 0 :=
  ⟨1, w ut, by decide +kernel⟩

theorem witness_UteusSessions_9 :
    ∃ (n : Fin 4) (data : List Byte) (s : State),
    s.chip.portExists ↑n = true ∧
      s.chip.utWait = [] ∧ s.chip.fwOut = [] ∧ s.chip.get Fld.H_FW_DOWN 0 = 0 ∧ s.chip.get Fld.MBX_STATUS_FULL (s.chip.eventChannel ↑n) = 0 ∧ data.length ≤ 50 :=
  ⟨1, [1, 2, 3], w ut, by decide +kernel⟩

theorem witness_UteusSessions_10 :
    ∃ (n : Fin 4) (s : State),
    s.chip.get Fld.H_UT_VER ↑n ≠ 0 ∧ s.chip.get Fld.H_UT_KA ↑n ≠ 0 ∧ s.chip.get Fld.H_UT_LAST ↑n - 1 + 2 * s.chip.get Fld.H_UT_KA ↑n * 1000 * Chip.us ≤ s.chip.now :=
  ⟨1, { w [(.H_UT_VER, 1, 0x103), (.H_UT_KA, 1, 100), (.H_UT_LAST, 1, 1)] with chip := { (w [(.H_UT_VER, 1, 0x103), (.H_UT_KA, 1, 100), (.H_UT_LAST, 1, 1)]).chip with now := 10 ^ 10 } }, by decide +kernel⟩


/-! UteusRequests -/

theorem witness_UteusRequests_1 :
    ∃ (n : Fin 4) (j : Fin 8) (id : BitVec 16) (p : Fin 16) (heads : List UtHead) (s : State),
    UtFree s.chip ↑n ↑j ∧
      259 ≤ s.chip.get Fld.H_UT_VER ↑n ∧
        s.chip.power = pwrOn ∧ s.chip.get Fld.H_QUIESCE 0 = 0 ∧ ¬s.chip.get Fld.PTN_CFG_BIND ↑p = ↑n ∧ UtWhole s.chip (↑n) (↑j) utPartRelease id.toNat heads :=
  ⟨1, 2, 1, 3, head1, w ut, by and_intros <;> first | decide +kernel | (constructor <;> decide +kernel)⟩

theorem witness_UteusRequests_2 :
    ∃ (n : Fin 4) (j : Fin 8) (id : BitVec 16) (p : Fin 16) (heads : List UtHead) (s : State),
    UtFree s.chip ↑n ↑j ∧
      259 ≤ s.chip.get Fld.H_UT_VER ↑n ∧
        s.chip.power = pwrOn ∧ s.chip.get Fld.H_QUIESCE 0 = 0 ∧ ¬s.chip.get Fld.PTN_CFG_BIND ↑p = ↑n ∧ UtWhole s.chip (↑n) (↑j) utPartBind id.toNat heads :=
  ⟨1, 2, 1, 3, head1, w ut, by and_intros <;> first | decide +kernel | (constructor <;> decide +kernel)⟩

theorem witness_UteusRequests_3 :
    ∃ (n : Fin 4) (j : Fin 8) (id : BitVec 16) (p : Fin 16) (heads : List UtHead) (s : State),
    UtFree s.chip ↑n ↑j ∧
      259 ≤ s.chip.get Fld.H_UT_VER ↑n ∧
        s.chip.power = pwrOn ∧ s.chip.get Fld.H_QUIESCE 0 = 0 ∧ ¬s.chip.get Fld.PTN_CFG_BIND ↑p = ↑n ∧ UtWhole s.chip (↑n) (↑j) utImageLoad id.toNat heads :=
  ⟨1, 2, 1, 3, head1, w ut, by and_intros <;> first | decide +kernel | (constructor <;> decide +kernel)⟩

theorem witness_UteusRequests_4 :
    ∃ (n : Fin 4) (j : Fin 8) (id : BitVec 16) (p : Fin 16) (bind : BitVec 3) (alt : BitVec 3) (loss : BitVec 2) (fb : Bool) (heads : List UtHead) (s : State),
    UtFree s.chip ↑n ↑j ∧
      259 ≤ s.chip.get Fld.H_UT_VER ↑n ∧
        s.chip.power = pwrOn ∧
          s.chip.get Fld.H_QUIESCE 0 = 0 ∧
            s.chip.get Fld.PTN_CFG_BIND ↑p = ↑n ∧
              UtWhole s.chip (↑n) (↑j) utPartBind id.toNat heads ∧
                s.chip.get Fld.PTN_CFG_FIRST ↑p < 64 ∧
                  s.chip.get Fld.PTN_CFG_COUNT ↑p < 128 ∧
                    s.chip.ptnCfgOk (↑p)
                        (s.chip.get Fld.PTN_CFG_FIRST ↑p + s.chip.get Fld.PTN_CFG_COUNT ↑p * 2 ^ 8 + bind.toNat * 2 ^ 16 + alt.toNat * 2 ^ 20 +
                            loss.toNat * 2 ^ 24 +
                          b2n fb * 2 ^ 26) =
                      true :=
  ⟨1, 2, 1, 0, 4, 2, 1, true, head1, w (ut ++ part0), by and_intros <;> first | decide +kernel | (constructor <;> decide +kernel)⟩

theorem witness_UteusRequests_5 :
    ∃ (n : Fin 4) (j : Fin 8) (id : BitVec 16) (p : Fin 16) (v : Word32) (first : BitVec 8) (heads : List UtHead) (s : State),
    UtFree s.chip ↑n ↑j ∧
      259 ≤ s.chip.get Fld.H_UT_VER ↑n ∧
        s.chip.power = pwrOn ∧
          s.chip.get Fld.H_QUIESCE 0 = 0 ∧
            s.chip.get Fld.PTN_CFG_BIND ↑p = ↑n ∧
              UtWhole s.chip (↑n) (↑j) utDmMap id.toNat heads ∧
                s.chip.pumpIdle ↑p = true ∧
                  first.toNat < 192 ∧
                    bitB (BitVec.toNat v) 31 = true ∧
                      s.chip.dmMapFree (↑p * 192 + first.toNat) (bits (BitVec.toNat v) 10 8) (bits (BitVec.toNat v) 4 0) = true ∧
                        bits (BitVec.toNat v) 10 8 / 2 < s.chip.dies :=
  ⟨1, 2, 1, 0, 0x80000717, 191, head1, w (ut ++ part0 ++ [(.PMP_STATUS_STATE, 0, psHalt)]), by and_intros <;> first | decide +kernel | (constructor <;> decide +kernel)⟩

theorem witness_UteusRequests_6 :
    ∃ (n : Fin 4) (j : Fin 8) (id : BitVec 16) (p : Fin 16) (heads : List UtHead) (s : State),
    UtFree s.chip ↑n ↑j ∧
      259 ≤ s.chip.get Fld.H_UT_VER ↑n ∧
        s.chip.power = pwrOn ∧
          s.chip.get Fld.H_QUIESCE 0 = 0 ∧
            s.chip.get Fld.PTN_CFG_BIND ↑p = ↑n ∧ UtWhole s.chip (↑n) (↑j) utSymbolQuery id.toNat heads ∧ s.chip.pumpState ↑p = psEmpty :=
  ⟨1, 2, 1, 0, head1, w (ut ++ part0 ++ [(.PMP_STATUS_STATE, 0, psEmpty)]), by and_intros <;> first | decide +kernel | (constructor <;> decide +kernel)⟩

theorem witness_UteusRequests_7 :
    ∃ (n : Fin 4) (j : Fin 8) (id : BitVec 16) (p : Fin 16) (cfg : Word32) (heads : List UtHead) (s : State),
    UtFree s.chip ↑n ↑j ∧
      259 ≤ s.chip.get Fld.H_UT_VER ↑n ∧
        s.chip.power = pwrOn ∧
          s.chip.get Fld.H_QUIESCE 0 = 0 ∧
            UtWhole s.chip (↑n) (↑j) utPartCreate id.toNat heads ∧
              s.chip.ptnCfgOk (↑p) (utCfgValue (↑n) (BitVec.toNat cfg)) = true ∧
                s.chip.on Fld.PTN_CFG_ACTIVE ↑p = false ∧
                  s.chip.cmdPending CmdReg.ptn ↑p = false ∧
                    0 < bits (BitVec.toNat cfg) 14 8 ∧
                      bits (BitVec.toNat cfg) 5 0 + bits (BitVec.toNat cfg) 14 8 ≤ s.chip.bands ∧
                        ∀ q < 16,
                          s.chip.on Fld.PTN_CFG_ACTIVE q = true →
                            s.chip.get Fld.PTN_CFG_FIRST q + s.chip.get Fld.PTN_CFG_COUNT q ≤ bits (BitVec.toNat cfg) 5 0 ∨
                              bits (BitVec.toNat cfg) 5 0 + bits (BitVec.toNat cfg) 14 8 ≤ s.chip.get Fld.PTN_CFG_FIRST q :=
  ⟨1, 2, 1, 7, 0x0000013F, head1, w ut, by and_intros <;> first | decide +kernel | (constructor <;> decide +kernel)⟩

theorem witness_UteusRequests_8 :
    ∃ (n : Fin 4) (j : Fin 8) (id : BitVec 16) (p : Fin 16) (heads : List UtHead) (s : State),
    UtFree s.chip ↑n ↑j ∧
      259 ≤ s.chip.get Fld.H_UT_VER ↑n ∧
        s.chip.power = pwrOn ∧
          s.chip.get Fld.H_QUIESCE 0 = 0 ∧
            s.chip.get Fld.PTN_CFG_BIND ↑p = ↑n ∧
              UtWhole s.chip (↑n) (↑j) utPartRelease id.toNat heads ∧
                s.chip.cmdPending CmdReg.ptn ↑p = false ∧
                  s.chip.on Fld.PTN_CFG_ACTIVE ↑p = true ∧ (s.chip.pumpState ↑p = psEmpty ∨ s.chip.pumpState ↑p = psHalt) :=
  ⟨1, 2, 1, 0, head1, w (ut ++ part0 ++ [(.PMP_STATUS_STATE, 0, psHalt)]), by and_intros <;> first | decide +kernel | (constructor <;> decide +kernel)⟩

theorem witness_UteusRequests_9 :
    ∃ (n : Fin 4) (j : Fin 8) (id : BitVec 16) (p : Fin 16) (v : Word32) (heads : List UtHead) (s : State),
    UtFree s.chip ↑n ↑j ∧
      259 ≤ s.chip.get Fld.H_UT_VER ↑n ∧
        s.chip.power = pwrOn ∧
          s.chip.get Fld.H_QUIESCE 0 = 0 ∧
            s.chip.get Fld.PTN_CFG_BIND ↑p = ↑n ∧
              UtWhole s.chip (↑n) (↑j) utImageLoad id.toNat heads ∧
                s.chip.loading ↑p = false ∧ s.chip.on Fld.PTN_CFG_ACTIVE ↑p = true ∧ s.chip.pumpState ↑p = psEmpty ∧ bits (BitVec.toNat v) 26 24 ≤ 4 :=
  ⟨1, 2, 1, 0, 0x04000000, head1, w (ut ++ part0 ++ [(.PMP_STATUS_STATE, 0, psEmpty)]), by and_intros <;> first | decide +kernel | (constructor <;> decide +kernel)⟩

theorem witness_UteusRequests_10 :
    ∃ (n : Fin 4) (j : Fin 8) (id : BitVec 16) (p : Fin 16) (heads : List UtHead) (s : State),
    UtFree s.chip ↑n ↑j ∧
      259 ≤ s.chip.get Fld.H_UT_VER ↑n ∧
        s.chip.power = pwrOn ∧
          s.chip.get Fld.H_QUIESCE 0 = 0 ∧
            s.chip.get Fld.PTN_CFG_BIND ↑p = ↑n ∧
              UtWhole s.chip (↑n) (↑j) utImageAbort id.toNat heads ∧
                s.chip.loading ↑p = true ∧ s.chip.get Fld.LDR_STATUS_STEP ↑p < 14 ∧ s.chip.rimFed ↑p = false :=
  ⟨1, 2, 1, 0, head1, w (ut ++ part0 ++ loads ++ [(.LDR_STATUS_STEP, 0, 13)]), by and_intros <;> first | decide +kernel | (constructor <;> decide +kernel)⟩

theorem witness_UteusRequests_11 :
    ∃ (n : Fin 4) (j : Fin 8) (id : BitVec 16) (v : Word32) (heads : List UtHead) (s : State),
    UtFree s.chip ↑n ↑j ∧
      259 ≤ s.chip.get Fld.H_UT_VER ↑n ∧
        s.chip.power = pwrOn ∧
          s.chip.get Fld.H_QUIESCE 0 = 0 ∧
            UtWhole s.chip (↑n) (↑j) utMarchTest id.toNat heads ∧
              s.chip.cmdPending CmdReg.mt 0 = false ∧
                bits (BitVec.toNat v) 31 28 = 2 ∧
                  s.chip.mtUnitOk (bits (BitVec.toNat v) 27 26) (bits (BitVec.toNat v) 5 0) = true ∧
                    s.chip.mtPreservingOk (bits (BitVec.toNat v) 27 26) (bits (BitVec.toNat v) 5 0) = true :=
  ⟨1, 2, 1, 0x2C000007, head1, w ut, by and_intros <;> first | decide +kernel | (constructor <;> decide +kernel)⟩

theorem witness_UteusRequests_12 :
    ∃ (n : Fin 4) (j : Fin 8) (id : BitVec 16) (p : Fin 16) (heads : List UtHead) (s : State),
    UtFree s.chip ↑n ↑j ∧
      259 ≤ s.chip.get Fld.H_UT_VER ↑n ∧
        s.chip.power = pwrOn ∧
          s.chip.get Fld.H_QUIESCE 0 = 0 ∧
            UtWhole s.chip (↑n) (↑j) utStepRate id.toNat heads ∧
              s.chip.cmdPending CmdReg.pmp ↑p = false ∧
                s.chip.on Fld.PMP_RATE_CHANGING 0 = false ∧ (∀ q < 16, s.chip.pumpState q = psEmpty ∨ s.chip.pumpState q = psHalt) ∧ s.chip.otherHost ↑n = false :=
  ⟨1, 2, 1, 15, head1, w ut, by and_intros <;> first | decide +kernel | (constructor <;> decide +kernel)⟩

theorem witness_UteusRequests_13 :
    ∃ (n : Fin 4) (j : Fin 8) (id : BitVec 16) (p : Fin 16) (heads : List UtHead) (s : State),
    UtFree s.chip ↑n ↑j ∧
      259 ≤ s.chip.get Fld.H_UT_VER ↑n ∧
        s.chip.power = pwrOn ∧
          s.chip.get Fld.H_QUIESCE 0 = 0 ∧
            UtWhole s.chip (↑n) (↑j) utStepRate id.toNat heads ∧
              s.chip.cmdPending CmdReg.pmp ↑p = false ∧
                s.chip.on Fld.PMP_RATE_CHANGING 0 = false ∧ (∀ q < 16, s.chip.pumpState q = psEmpty ∨ s.chip.pumpState q = psHalt) ∧ s.chip.otherHost ↑n = true :=
  ⟨1, 2, 1, 15, head1, w (ut ++ [(.PTN_CFG_ACTIVE, 3, 1), (.PTN_CFG_BIND, 3, 0)]), by and_intros <;> first | decide +kernel | (constructor <;> decide +kernel)⟩


/-! TimekeeperEvents -/

theorem witness_TimekeeperEvents_1 :
    ∃ (d : Fin 2) (s : State),
    s.chip.tickNear = true ∧ s.chip.tkNext ↑d / 2 ^ 64 = (s.chip.get Fld.TK_NOW_WRAPS ↑d + 1) % 2 ^ 32 :=
  ⟨1, w [(.TK_NOW_NS, 1, 0xFFFFFFFF), (.TK_NOW_WRAPS, 1, 5)], by decide +kernel⟩

theorem witness_TimekeeperEvents_2 :
    ∃ (k : Fin 8) (sec : Bool) (d : Fin 2) (delta : Word32) (override : Bool) (s : State),
    (sec || decide (↑k < 4)) = true ∧
      (magnitude (BitVec.toNat delta) ≤ (s.seen (Init.core k sec)).chip.get Fld.TK_JUMP_THR_THR ↑d ∧
          (s.seen (Init.core k sec)).chip.get Fld.TK_JUMP_THR_THR ↑d ≠ 0 ∨
        override = true) :=
  ⟨2, false, 1, 50, false, w [(.TK_JUMP_THR_THR, 1, 50)], by decide +kernel⟩

theorem witness_TimekeeperEvents_3 :
    ∃ (k : Fin 8) (sec : Bool) (d : Fin 2) (delta : Word32) (s : State),
    (sec || decide (↑k < 4)) = true ∧
      ((s.seen (Init.core k sec)).chip.get Fld.TK_JUMP_THR_THR ↑d < magnitude (BitVec.toNat delta) ∨
        (s.seen (Init.core k sec)).chip.get Fld.TK_JUMP_THR_THR ↑d = 0) :=
  ⟨2, false, 1, 51, w [(.TK_JUMP_THR_THR, 1, 50)], by decide +kernel⟩

theorem witness_TimekeeperEvents_4 :
    ∃ (k : Fin 8) (sec : Bool) (s : State),
    (sec || decide (↑k < 4)) = true ∧ (s.seen (Init.core k sec)).chip.on Fld.TK_SEL_PEND 0 = false :=
  ⟨2, false, w [], by decide +kernel⟩

theorem witness_TimekeeperEvents_5 :
    ∃ (d : Fin 2) (s : State),
    s.chip.ppsSpaced = true ∧ s.chip.timing = true ∧ s.chip.on Fld.TK_ALIGN_ARM ↑d = false :=
  ⟨1, w [], by decide +kernel⟩

theorem witness_TimekeeperEvents_6 :
    ∃ (d : Fin 2) (s : State),
    s.chip.ppsSpaced = true ∧
      s.chip.timing = true ∧
        s.chip.on Fld.TK_ALIGN_ARM ↑d = true ∧
          s.chip.jumpRefused (↑d) ((s.chip.get Fld.TK_ALIGN_VALUE ↑d + 2 ^ 32 - s.chip.tkRaised ↑d / 2 ^ 32 % 2 ^ 32) % 2 ^ 32)
                (s.chip.on Fld.TK_ALIGN_OVERRIDE ↑d) =
              false ∧
            s.chip.get Fld.TK_ALIGN_VALUE ↑d < 2 ^ 32 :=
  ⟨1, w [(.TK_ALIGN_ARM, 1, 1), (.TK_ALIGN_OVERRIDE, 1, 1), (.TK_ALIGN_VALUE, 1, 0xFFFFFFFF), (.TK_NOW_NS, 1, 5)], by decide +kernel⟩

theorem witness_TimekeeperEvents_7 :
    ∃ (d : Fin 2) (s : State),
    s.chip.ppsSpaced = true ∧
      s.chip.timing = true ∧
        s.chip.on Fld.TK_ALIGN_ARM ↑d = true ∧
          s.chip.jumpRefused (↑d) ((s.chip.get Fld.TK_ALIGN_VALUE ↑d + 2 ^ 32 - s.chip.tkRaised ↑d / 2 ^ 32 % 2 ^ 32) % 2 ^ 32)
              (s.chip.on Fld.TK_ALIGN_OVERRIDE ↑d) =
            true :=
  ⟨1, w [(.TK_ALIGN_ARM, 1, 1), (.TK_ALIGN_VALUE, 1, 0x80000000), (.TK_NOW_NS, 1, 5)], by decide +kernel⟩

theorem witness_TimekeeperEvents_8 :
    ∃ (long : Bool) (s : State),
    s.chip.timing = true ∧ (long = false ∨ s.chip.ppsSpaced = false) :=
  ⟨false, w [], by decide +kernel⟩

theorem witness_TimekeeperEvents_9 :
    ∃ (s : State),
    s.chip.timing = false :=
  ⟨w [(.PWR_STATE_STATE, 0, 3)], by decide +kernel⟩

theorem witness_TimekeeperEvents_10 :
    ∃ (s : State),
    s.chip.on Fld.TK_SEL_PEND 0 = true ∧ s.chip.due Fld.H_SW_DUE 0 = true :=
  ⟨w [(.TK_SEL_PEND, 0, 1), (.H_SW_DUE, 0, 1000001)], by decide +kernel⟩

theorem witness_TimekeeperEvents_11 :
    ∃ (s : State),
    s.chip.tickNear = true ∧
      s.chip.get Fld.TK_PPS_OUT_EN 0 = 1 ∧
        s.chip.get Fld.TK_PPS_OUT_DOM 0 < 2 ∧
          crosses (s.chip.get Fld.TK_NOW_NS (s.chip.get Fld.TK_PPS_OUT_DOM 0)) (s.chip.tkNext (s.chip.get Fld.TK_PPS_OUT_DOM 0) / 2 ^ 32 % 2 ^ 32)
                (s.chip.get Fld.TK_PPS_OUT_NEXT 0) =
              true ∧
            s.chip.get Fld.TK_NOW_NS (s.chip.get Fld.TK_PPS_OUT_DOM 0) < 2 ^ 32 :=
  ⟨w [(.TK_PPS_OUT_EN, 0, 1), (.TK_PPS_OUT_NEXT, 0, 101), (.TK_NOW_NS, 0, 100)], by decide +kernel⟩

theorem witness_TimekeeperEvents_12 :
    ∃ (s : State),
    s.chip.due Fld.H_PPS_FALL 0 = true :=
  ⟨w [(.H_PPS_FALL, 0, 1000001)], by decide +kernel⟩

theorem witness_TimekeeperEvents_13 :
    ∃ (i : Fin 2) (s : State) (p : Nat),
    s.chip.tickNear = true ∧
      s.chip.get Fld.TK_CMP_ARM ↑i = 1 ∧
        s.chip.get Fld.TK_CMP_DOM ↑i < 2 ∧
          crosses (s.chip.get Fld.TK_NOW_NS (s.chip.get Fld.TK_CMP_DOM ↑i)) (s.chip.tkNext (s.chip.get Fld.TK_CMP_DOM ↑i) / 2 ^ 32 % 2 ^ 32)
                (s.chip.get Fld.TK_CMP_VALUE ↑i) =
              true ∧
            s.chip.get Fld.TK_NOW_NS (s.chip.get Fld.TK_CMP_DOM ↑i) < 2 ^ 32 ∧ p < 16 :=
  ⟨1, w [(.TK_CMP_ARM, 1, 1), (.TK_CMP_VALUE, 1, 101), (.TK_NOW_NS, 0, 100)], 15, by decide +kernel⟩

theorem witness_TimekeeperEvents_14 :
    ∃ (e : Fin 16) (s : State),
    sectStarting ≤ s.chip.sector (↑e % 12) ∧ s.chip.on Fld.TK_EVT_VALID ↑e = false :=
  ⟨15, w [(.RIM_SECT_STATE_STATE, 3, 2)], by decide +kernel⟩

theorem witness_TimekeeperEvents_15 :
    ∃ (e : Fin 16) (s : State),
    sectStarting ≤ s.chip.sector (↑e % 12) ∧ s.chip.on Fld.TK_EVT_VALID ↑e = true :=
  ⟨15, w [(.RIM_SECT_STATE_STATE, 3, 3), (.TK_EVT_VALID, 15, 1)], by decide +kernel⟩


/-! PowerCommands -/

theorem witness_PowerCommands_1 :
    ∃ (k : Fin 8) (sec : Bool) (s₀ : State),
    (s₀.seen (Init.core k sec)).chip.regMay (Init.core k sec) { blk := Blk.svc, inst := 0, off := 1028 } true = true ∧
      (s₀.seen (Init.core k sec)).chip.cmdPending CmdReg.pwr 0 = false ∧
        (s₀.seen (Init.core k sec)).chip.power = pwrOn ∧ (s₀.seen (Init.core k sec)).chip.idleBusy = false :=
  ⟨2, false, w [], by decide +kernel⟩

theorem witness_PowerCommands_2 :
    ∃ (k : Fin 8) (sec : Bool) (s₀ : State),
    (s₀.seen (Init.core k sec)).chip.regMay (Init.core k sec) { blk := Blk.svc, inst := 0, off := 1028 } true = true ∧
      (s₀.seen (Init.core k sec)).chip.cmdPending CmdReg.pwr 0 = false ∧
        ((s₀.seen (Init.core k sec)).chip.power = pwrOn ∨ (s₀.seen (Init.core k sec)).chip.power = pwrIdle) ∧ (s₀.seen (Init.core k sec)).chip.idleBusy = false :=
  ⟨2, false, w [(.PWR_STATE_STATE, 0, pwrIdle)], by decide +kernel⟩

theorem witness_PowerCommands_3 :
    ∃ (k : Fin 8) (sec : Bool) (s₀ : State),
    (s₀.seen (Init.core k sec)).chip.regMay (Init.core k sec) { blk := Blk.svc, inst := 0, off := 1028 } true = true ∧
      (s₀.seen (Init.core k sec)).chip.cmdPending CmdReg.pwr 0 = false ∧
        ((s₀.seen (Init.core k sec)).chip.power = pwrOn ∨ (s₀.seen (Init.core k sec)).chip.power = pwrIdle) ∧ (s₀.seen (Init.core k sec)).chip.sleepBusy = false :=
  ⟨2, false, w [], by decide +kernel⟩

theorem witness_PowerCommands_4 :
    ∃ (k : Fin 8) (sec : Bool) (s₀ : State),
    (s₀.seen (Init.core k sec)).chip.regMay (Init.core k sec) { blk := Blk.svc, inst := 0, off := 1028 } true = true ∧
      (s₀.seen (Init.core k sec)).chip.cmdPending CmdReg.pwr 0 = false ∧ (s₀.seen (Init.core k sec)).chip.power = pwrIdle :=
  ⟨2, false, w [(.PWR_STATE_STATE, 0, pwrIdle)], by decide +kernel⟩

theorem witness_PowerCommands_5 :
    ∃ (k : Fin 8) (sec : Bool) (s₀ : State) (p : Nat),
    (s₀.seen (Init.core k sec)).chip.regMay (Init.core k sec) { blk := Blk.svc, inst := 0, off := 1028 } true = true ∧
      (s₀.seen (Init.core k sec)).chip.cmdPending CmdReg.pwr 0 = false ∧
        ((s₀.seen (Init.core k sec)).chip.power = pwrOn ∨ (s₀.seen (Init.core k sec)).chip.power = pwrIdle) ∧
          p < 16 ∧ (s₀.seen (Init.core k sec)).chip.cmdPending CmdReg.pmp p = false ∧ (s₀.seen (Init.core k sec)).chip.pumpState p = psWait :=
  ⟨2, false, w [(.PMP_STATUS_STATE, 15, psWait)], 15, by decide +kernel⟩

theorem witness_PowerCommands_6 :
    ∃ (k : Fin 8) (sec : Bool) (s₀ : State) (p : Nat),
    (s₀.seen (Init.core k sec)).chip.regMay (Init.core k sec) { blk := Blk.svc, inst := 0, off := 1028 } true = true ∧
      (s₀.seen (Init.core k sec)).chip.cmdPending CmdReg.pwr 0 = false ∧
        ((s₀.seen (Init.core k sec)).chip.power = pwrOn ∨ (s₀.seen (Init.core k sec)).chip.power = pwrIdle) ∧
          p < 16 ∧
            (s₀.seen (Init.core k sec)).chip.cmdPending CmdReg.pmp p = false ∧
              ((s₀.seen (Init.core k sec)).chip.pumpState p = psRun ∨ (s₀.seen (Init.core k sec)).chip.pumpState p = psHold) :=
  ⟨2, false, w [(.PMP_STATUS_STATE, 15, psHold)], 15, by decide +kernel⟩

theorem witness_PowerCommands_7 :
    ∃ (k : Fin 8) (sec : Bool) (s₀ : State) (ch : Nat),
    (s₀.seen (Init.core k sec)).chip.regMay (Init.core k sec) { blk := Blk.svc, inst := 0, off := 1028 } true = true ∧
      (s₀.seen (Init.core k sec)).chip.cmdPending CmdReg.pwr 0 = false ∧
        ((s₀.seen (Init.core k sec)).chip.power = pwrOn ∨ (s₀.seen (Init.core k sec)).chip.power = pwrIdle) ∧
          ch < 32 ∧ (s₀.seen (Init.core k sec)).chip.on Fld.DMA_CH_CTL_EN ch = true ∧ (s₀.seen (Init.core k sec)).chip.dmaItem ch = none :=
  ⟨2, false, w [(.DMA_CH_CTL_EN, 31, 1)], 31, by decide +kernel⟩

theorem witness_PowerCommands_8 :
    ∃ (k : Fin 8) (sec : Bool) (s₀ : State),
    (s₀.seen (Init.core k sec)).chip.regMay (Init.core k sec) { blk := Blk.svc, inst := 0, off := 1028 } true = true ∧
      (s₀.seen (Init.core k sec)).chip.cmdPending CmdReg.pwr 0 = false ∧ (s₀.seen (Init.core k sec)).chip.power ≠ pwrOn :=
  ⟨2, false, w [(.PWR_STATE_STATE, 0, pwrIdle)], by decide +kernel⟩

theorem witness_PowerCommands_9 :
    ∃ (k : Fin 8) (sec : Bool) (s₀ : State),
    (s₀.seen (Init.core k sec)).chip.regMay (Init.core k sec) { blk := Blk.svc, inst := 0, off := 1028 } true = true ∧
      (s₀.seen (Init.core k sec)).chip.cmdPending CmdReg.pwr 0 = false ∧
        (s₀.seen (Init.core k sec)).chip.power = pwrOn ∧ (s₀.seen (Init.core k sec)).chip.idleBusy = true :=
  ⟨2, false, w part0, by decide +kernel⟩

theorem witness_PowerCommands_10 :
    ∃ (k : Fin 8) (sec : Bool) (s₀ : State),
    (s₀.seen (Init.core k sec)).chip.regMay (Init.core k sec) { blk := Blk.svc, inst := 0, off := 1028 } true = true ∧
      (s₀.seen (Init.core k sec)).chip.cmdPending CmdReg.pwr 0 = false ∧
        ¬((s₀.seen (Init.core k sec)).chip.power = pwrOn ∨ (s₀.seen (Init.core k sec)).chip.power = pwrIdle) :=
  ⟨2, false, w [(.PWR_STATE_STATE, 0, pwrWatch)], by decide +kernel⟩

theorem witness_PowerCommands_11 :
    ∃ (k : Fin 8) (sec : Bool) (s₀ : State),
    (s₀.seen (Init.core k sec)).chip.regMay (Init.core k sec) { blk := Blk.svc, inst := 0, off := 1028 } true = true ∧
      (s₀.seen (Init.core k sec)).chip.cmdPending CmdReg.pwr 0 = false ∧
        ((s₀.seen (Init.core k sec)).chip.power = pwrOn ∨ (s₀.seen (Init.core k sec)).chip.power = pwrIdle) ∧ (s₀.seen (Init.core k sec)).chip.idleBusy = true :=
  ⟨2, false, w (part0 ++ [(.PWR_STATE_STATE, 0, pwrIdle)]), by decide +kernel⟩

theorem witness_PowerCommands_12 :
    ∃ (k : Fin 8) (sec : Bool) (s₀ : State),
    (s₀.seen (Init.core k sec)).chip.regMay (Init.core k sec) { blk := Blk.svc, inst := 0, off := 1028 } true = true ∧
      (s₀.seen (Init.core k sec)).chip.cmdPending CmdReg.pwr 0 = false ∧
        ((s₀.seen (Init.core k sec)).chip.power = pwrOn ∨ (s₀.seen (Init.core k sec)).chip.power = pwrIdle) ∧ (s₀.seen (Init.core k sec)).chip.sleepBusy = true :=
  ⟨2, false, w part0, by decide +kernel⟩

theorem witness_PowerCommands_13 :
    ∃ (k : Fin 8) (sec : Bool) (s₀ : State),
    (s₀.seen (Init.core k sec)).chip.regMay (Init.core k sec) { blk := Blk.svc, inst := 0, off := 1028 } true = true ∧
      (s₀.seen (Init.core k sec)).chip.cmdPending CmdReg.pwr 0 = false ∧ (s₀.seen (Init.core k sec)).chip.power ≠ pwrIdle :=
  ⟨2, false, w [], by decide +kernel⟩


/-! PowerEvents -/

theorem witness_PowerEvents_1 :
    ∃ (s : State),
    s.chip.get Fld.H_QUIESCE 0 = 1 ∧ s.chip.pumpsRest = true ∧ tagsUsed s.chip s.arr = 0 ∧ s.chip.cmdPending CmdReg.pwr 0 = true ∧ s.chip.on Fld.TRC_CTL_EN 0 = true :=
  ⟨w [(.H_QUIESCE, 0, 1), (.CQ_PEND, CmdReg.pwr.idx 0, 1), (.TRC_CTL_EN, 0, 1)], by decide +kernel⟩

theorem witness_PowerEvents_2 :
    ∃ (s : State),
    0 < tagsUsed s.chip s.arr :=
  ⟨txW [], by decide +kernel⟩

theorem witness_PowerEvents_3 :
    ∃ (s : State) (p : Nat),
    s.chip.get Fld.H_QUIESCE 0 = 1 ∧ s.chip.due Fld.H_Q_DUE 0 = true ∧ p < 16 :=
  ⟨w (part0 ++ [(.H_QUIESCE, 0, 1), (.H_Q_DUE, 0, 1000001)]), 15, by decide +kernel⟩

theorem witness_PowerEvents_4 :
    ∃ (s : State),
    s.chip.on Fld.H_EXIT 0 = false ∧ s.chip.power = pwrIdle :=
  ⟨w [(.PWR_STATE_STATE, 0, pwrIdle)], by decide +kernel⟩

theorem witness_PowerEvents_5 :
    ∃ (raw : BitVec 96) (s : State),
    s.chip.on Fld.H_EXIT 0 = false ∧
      s.chip.power = pwrWatch ∧
        s.chip.due Fld.H_WATCH_DUE 0 = true ∧
          ((s.chip.watchVector raw.toNat).xor (s.chip.watchBits Fld.PWR_WATCH_VAL_BITS)).land (s.chip.watchBits Fld.PWR_WATCH_MASK_BITS) = 0 :=
  ⟨2 ^ 95, w [(.PWR_STATE_STATE, 0, pwrWatch), (.H_WATCH_DUE, 0, 1000001)], by decide +kernel⟩

theorem witness_PowerEvents_6 :
    ∃ (raw : BitVec 96) (s : State),
    s.chip.on Fld.H_EXIT 0 = false ∧
      s.chip.power = pwrWatch ∧
        s.chip.due Fld.H_WATCH_DUE 0 = true ∧
          ((s.chip.watchVector raw.toNat).xor (s.chip.watchBits Fld.PWR_WATCH_VAL_BITS)).land (s.chip.watchBits Fld.PWR_WATCH_MASK_BITS) ≠ 0 ∧
            s.chip.get Fld.H_WATCH_CNT 0 + 1 ≠ s.chip.get Fld.PWR_WATCH_CTL_COUNT 0 :=
  ⟨0, watchW 5, by decide +kernel⟩

theorem witness_PowerEvents_7 :
    ∃ (raw : BitVec 96) (s : State),
    s.chip.on Fld.H_EXIT 0 = false ∧
      s.chip.power = pwrWatch ∧
        s.chip.due Fld.H_WATCH_DUE 0 = true ∧
          ((s.chip.watchVector raw.toNat).xor (s.chip.watchBits Fld.PWR_WATCH_VAL_BITS)).land (s.chip.watchBits Fld.PWR_WATCH_MASK_BITS) ≠ 0 ∧
            s.chip.get Fld.H_WATCH_CNT 0 + 1 = s.chip.get Fld.PWR_WATCH_CTL_COUNT 0 :=
  ⟨0, watchW 1, by decide +kernel⟩

theorem witness_PowerEvents_8 :
    ∃ (s : State) (goal : Nat),
    s.chip.get Fld.H_EXIT 0 = goal + 1 ∧ s.chip.waiting = [] ∧ s.chip.get Fld.H_QUIESCE 0 ≠ 2 ∧ (goal = 0 ∨ s.chip.on Fld.TRC_CTL_EN 0 = false) :=
  ⟨w [(.PWR_STATE_STATE, 0, pwrWatch), (.H_EXIT, 0, 2)], 1, by decide +kernel⟩

theorem witness_PowerEvents_9 :
    ∃ (s : State) (goal : Nat) (k : Nat),
    s.chip.get Fld.H_EXIT 0 = goal + 1 ∧ s.chip.waiting = [] ∧ s.chip.get Fld.H_QUIESCE 0 ≠ 2 ∧ k < 8 ∧ goal = 0 ∧ s.chip.get Fld.H_LP k = s.chip.power + 1 :=
  ⟨w [(.PWR_STATE_STATE, 0, pwrWatch), (.H_EXIT, 0, 1), (.H_LP, 7, pwrWatch + 1)], 0, 7, by decide +kernel⟩

theorem witness_PowerEvents_10 :
    ∃ (s : State) (goal : Nat),
    s.chip.get Fld.H_EXIT 0 = goal + 1 ∧
      s.chip.waiting = [] ∧
        s.chip.get Fld.H_QUIESCE 0 ≠ 2 ∧ s.chip.power = pwrWatch ∧ s.chip.cmdPending CmdReg.pwr 0 = true ∧ s.chip.get Fld.H_EXIT_CAUSE 0 < 16 :=
  ⟨w [(.PWR_STATE_STATE, 0, pwrWatch), (.H_EXIT, 0, 2), (.H_EXIT_CAUSE, 0, 15), (.CQ_PEND, CmdReg.pwr.idx 0, 1)], 1, by decide +kernel⟩

theorem witness_PowerEvents_11 :
    ∃ (level : Bool) (n : Fin 4) (s : State),
    s.chip.power = pwrSleep ∧
      s.chip.on Fld.H_WAKE_CAUSE 0 = false ∧ bitB (s.chip.get Fld.PWR_WAKE_CTL_EN 0) ↑n = true ∧ bit (s.chip.get Fld.PWR_WAKE_CTL_POL 0) ↑n = b2n level :=
  ⟨true, 3, w [(.PWR_STATE_STATE, 0, pwrSleep), (.PWR_WAKE_CTL_EN, 0, 8), (.PWR_WAKE_CTL_POL, 0, 8)], by decide +kernel⟩

theorem witness_PowerEvents_12 :
    ∃ (addr : BitVec 7) (s : State),
    s.chip.power = pwrSleep ∧
      s.chip.on Fld.H_WAKE_CAUSE 0 = false ∧ s.chip.on Fld.PWR_WAKE_CTL_MGMT_EN 0 = true ∧ s.chip.get Fld.PWR_WAKE_CTL_MGMT_ADDR 0 = addr.toNat :=
  ⟨0x7F, w [(.PWR_STATE_STATE, 0, pwrSleep), (.PWR_WAKE_CTL_MGMT_EN, 0, 1), (.PWR_WAKE_CTL_MGMT_ADDR, 0, 0x7F)], by decide +kernel⟩

theorem witness_PowerEvents_13 :
    ∃ (s : State) (w : Nat),
    s.chip.power = pwrSleep ∧ s.chip.get Fld.H_WAKE_CAUSE 0 = w + 1 ∧ w < 16 ∧ s.chip.get Fld.H_QUIESCE 0 ≠ 2 ∧ s.chip.cmdPending CmdReg.pwr 0 = true :=
  ⟨w [(.PWR_STATE_STATE, 0, pwrSleep), (.H_WAKE_CAUSE, 0, 15), (.CQ_PEND, CmdReg.pwr.idx 0, 1)], 14, by decide +kernel⟩

theorem witness_PowerEvents_14 :
    ∃ (temp : BitVec 8),
    125 ≤ temp.toNat :=
  ⟨125, by decide +kernel⟩

theorem witness_PowerEvents_15 :
    ∃ (die : Fin 5) (temp : BitVec 8) (s : State),
    temp.toNat < 125 ∧ s.chip.get Fld.H_THERM ↑die ≠ s.chip.thermFlags temp.toNat ∧ s.chip.get Fld.IC_SRC_CFG_MODE 249 = 0 :=
  ⟨4, 124, w [], by decide +kernel⟩

theorem witness_PowerEvents_16 :
    ∃ (s : State),
    s.chip.get Fld.IC_SRC_CFG_MODE 247 = 0 :=
  ⟨w [], by decide +kernel⟩

theorem witness_PowerEvents_17 :
    ∃ (s : State),
    s.chip.on Fld.PMP_RATE_CHANGING 0 = true ∧
      s.chip.cmdPending CmdReg.pmp (s.chip.get Fld.H_RATE_PART 0) = true ∧
        s.chip.get Fld.CQ_CMD (CmdReg.pmp.idx (s.chip.get Fld.H_RATE_PART 0)) = 5 ∧ s.chip.get Fld.IC_SRC_CFG_MODE 248 = 0 :=
  ⟨w [(.PMP_RATE_CHANGING, 0, 1), (.H_RATE_PART, 0, 2), (.CQ_PEND, CmdReg.pmp.idx 2, 1), (.CQ_CMD, CmdReg.pmp.idx 2, 5)], by decide +kernel⟩


/-! ModuleResets -/

theorem witness_ModuleResets_1 :
    ∃ (s : State) (f : Fld),
    s.chip.on Fld.H_RST_N 0 = false ∧ f ∉ resetKeeps ∧ f ≠ Fld.H_TK_AT ∧ f ≠ Fld.H_THERM ∧ f ≠ Fld.PWR_STATE_STATE ∧ f ≠ Fld.H_RST_N :=
  ⟨w [], .PMP_STATUS_STATE, by decide +kernel⟩

theorem witness_ModuleResets_2 :
    ∃ (s : State) (f : Fld),
    s.chip.on Fld.H_RST_N 0 = false ∧ f ∈ [Fld.PWR_WAKE_CTL_EN, Fld.PWR_WAKE_CTL_POL, Fld.PWR_WAKE_CTL_MGMT_EN, Fld.PWR_WAKE_CTL_MGMT_ADDR, Fld.LC_STATE_REFUSED] :=
  ⟨w [], .LC_STATE_REFUSED, by decide +kernel⟩

theorem witness_ModuleResets_3 :
    ∃ (s : State),
    s.chip.on Fld.H_RST_N 0 = true :=
  ⟨w [(.H_RST_N, 0, 1)], by decide +kernel⟩

theorem witness_ModuleResets_4 :
    ∃ (s : State) (f : Fld),
    s.chip.due Fld.H_LC_DUE 0 = true ∧ f ∉ resetKeeps ∧ f ≠ Fld.H_TK_AT ∧ f ≠ Fld.H_THERM ∧ f ≠ Fld.PWR_STATE_STATE ∧ f ≠ Fld.H_RST_N :=
  ⟨w [(.H_LC_DUE, 0, 1000001), (.LC_STATE_PEND, 0, 3)], .PMP_STATUS_STATE, by decide +kernel⟩

theorem witness_ModuleResets_5 :
    ∃ (s : State) (f : Fld),
    s.chip.due Fld.H_LC_DUE 0 = true ∧ f ∈ [Fld.PWR_WAKE_CTL_EN, Fld.PWR_WAKE_CTL_POL, Fld.PWR_WAKE_CTL_MGMT_EN, Fld.PWR_WAKE_CTL_MGMT_ADDR, Fld.LC_STATE_REFUSED] :=
  ⟨w [(.H_LC_DUE, 0, 1000001), (.LC_STATE_PEND, 0, 3)], .LC_STATE_REFUSED, by decide +kernel⟩

theorem witness_ModuleResets_6 :
    ∃ (u : StartUp) (s : State) (pr : Bool × Bool),
    s.chip.on Fld.H_WARM 0 = false ∧
      s.chip.power ≠ pwrOff ∧
        u.fusesOk = true ∧
          u.pllsOk = true ∧ u.sramBad.toNat % 4 = 0 ∧ s.chip.bootPair u = some pr ∧ u.stream = none ∧ u.parts = [] ∧ fwListed (startFw u) pr = true :=
  ⟨startUp0, w [], (false, true), by decide +kernel⟩

theorem witness_ModuleResets_7 :
    ∃ (u : StartUp) (s : State) (pr : Bool × Bool) (j : Nat),
    s.chip.on Fld.H_WARM 0 = false ∧
      s.chip.power ≠ pwrOff ∧
        u.fusesOk = true ∧ u.pllsOk = true ∧ u.sramBad.toNat % 4 = 0 ∧ s.chip.bootPair u = some pr ∧ u.stream = none ∧ u.parts = [] ∧ j < 2 * s.chip.dies :=
  ⟨startUp0, w [], (false, true), 0, by decide +kernel⟩

theorem witness_ModuleResets_8 :
    ∃ (u : StartUp) (s : State) (pr : Bool × Bool) (j : Nat),
    s.chip.on Fld.H_WARM 0 = false ∧
      s.chip.power ≠ pwrOff ∧
        u.fusesOk = true ∧ u.pllsOk = true ∧ u.sramBad.toNat % 4 = 0 ∧ s.chip.bootPair u = some pr ∧ u.stream = none ∧ u.parts = [] ∧ j < 8 :=
  ⟨startUp0, w [], (false, true), 7, by decide +kernel⟩

theorem witness_ModuleResets_9 :
    ∃ (u : StartUp) (s : State) (pr : Bool × Bool) (j : Nat),
    s.chip.on Fld.H_WARM 0 = false ∧
      s.chip.power ≠ pwrOff ∧
        u.fusesOk = true ∧
          u.pllsOk = true ∧
            u.sramBad.toNat % 4 = 0 ∧
              s.chip.bootPair u = some pr ∧
                u.stream = none ∧ u.parts = [] ∧ u.recordOk = true ∧ j < 12 ∧ bit u.sectors.toNat j = 1 ∧ s.chip.sector j = sectEmpty :=
  ⟨{ startUp0 with sectors := 0x800 }, w [], (false, true), 11, by decide +kernel⟩

theorem witness_ModuleResets_10 :
    ∃ (u : StartUp) (s : State),
    s.chip.on Fld.H_WARM 0 = false ∧ s.chip.power ≠ pwrOff ∧ u.fusesOk = true ∧ u.pllsOk = true ∧ u.sramBad.toNat % 4 = 0 ∧ s.chip.bootPair u = none :=
  ⟨{ startUp0 with fw := ⟨none, none, none, none, [], true, none, none⟩ }, w [], by decide +kernel⟩

theorem witness_ModuleResets_11 :
    ∃ (u : StartUp),
    u.fusesOk = false ∨ u.pllsOk = false :=
  ⟨{ startUp0 with pllsOk := false }, by decide +kernel⟩

theorem witness_ModuleResets_12 :
    ∃ (s : State) (b : Nat),
    s.chip.on Fld.H_ABSENT 0 = false ∧ s.chip.on Fld.H_QUIESCE 0 = false ∧ (s.chip.power = pwrOn ∨ s.chip.power = pwrIdle) ∧ b < 12 :=
  ⟨w [(.PWR_STATE_STATE, 0, pwrIdle)], 11, by decide +kernel⟩

theorem witness_ModuleResets_13 :
    ∃ (s : State) (n : Nat),
    s.chip.on Fld.H_ABSENT 0 = false ∧
      s.chip.on Fld.H_QUIESCE 0 = false ∧ (s.chip.power = pwrOn ∨ s.chip.power = pwrIdle) ∧ n < 4 ∧ s.chip.portExists n = true ∧ s.chip.on Fld.H_LOST n = false :=
  ⟨w [(.PWR_STATE_STATE, 0, pwrIdle)], 3, by decide +kernel⟩


/-! LifeCycleTamperAndDebug -/

theorem witness_LifeCycleTamperAndDebug_1 :
    ∃ (k : Fin 8) (key : Word32) (s : State) (target : Nat) (j : Nat),
    (s.seen (Init.core k true)).chip.get Fld.H_LC_KEY 0 = BitVec.toNat key + 1 ∧
      target < 6 ∧ BitVec.toNat key = 1279459328 + target ∧ (s.seen (Init.core k true)).chip.lcAllowed target = true ∧ 32 ≤ j :=
  ⟨7, 0x4C430005, w [(.H_LC_KEY, 0, 0x4C430006), (.LC_STATE_STATE, 0, 2)], 5, 32, by decide +kernel⟩

theorem witness_LifeCycleTamperAndDebug_2 :
    ∃ (k : Fin 8) (key : Word32) (s : State) (target : Nat) (j : Nat),
    (s.seen (Init.core k true)).chip.get Fld.H_LC_KEY 0 = BitVec.toNat key + 1 ∧
      target < 6 ∧ BitVec.toNat key = 1279459328 + target ∧ (s.seen (Init.core k true)).chip.lcAllowed target = true ∧ 512 ≤ j :=
  ⟨7, 0x4C430005, w [(.H_LC_KEY, 0, 0x4C430006), (.LC_STATE_STATE, 0, 2)], 5, 512, by decide +kernel⟩

theorem witness_LifeCycleTamperAndDebug_3 :
    ∃ (k : Fin 8) (key : Word32) (s : State),
    (s.seen (Init.core k true)).chip.get Fld.H_LC_KEY 0 = BitVec.toNat key + 1 ∧
      ∀ target < 6, BitVec.toNat key ≠ 1279459328 + target ∨ (s.seen (Init.core k true)).chip.lcAllowed target = false :=
  ⟨7, 0x4C430002, w [(.H_LC_KEY, 0, 0x4C430003), (.LC_STATE_STATE, 0, 2)], by decide +kernel⟩

theorem witness_LifeCycleTamperAndDebug_4 :
    ∃ (k : Fin 8) (key : Word32) (s : State),
    (s.seen (Init.core k true)).chip.get Fld.H_LC_KEY 0 ≠ BitVec.toNat key + 1 :=
  ⟨7, 0x4C430005, w [], by decide +kernel⟩

theorem witness_LifeCycleTamperAndDebug_5 :
    ∃ (s : State),
    s.chip.get Fld.IC_SRC_CFG_MODE 250 = 0 :=
  ⟨w [], by decide +kernel⟩

theorem witness_LifeCycleTamperAndDebug_6 :
    ∃ (s : State),
    s.chip.power = pwrSleep ∧ s.chip.on Fld.H_WAKE_CAUSE 0 = false :=
  ⟨w [(.PWR_STATE_STATE, 0, pwrSleep)], by decide +kernel⟩

theorem witness_LifeCycleTamperAndDebug_7 :
    ∃ (s : State),
    s.chip.on Fld.H_WIPE 0 = true ∧ s.chip.waiting = [] ∧ s.chip.get Fld.IC_SRC_CFG_MODE 251 = 0 :=
  ⟨w [(.H_WIPE, 0, 1)], by decide +kernel⟩

theorem witness_LifeCycleTamperAndDebug_8 :
    ∃ (s : State),
    s.chip.power < pwrSleep :=
  ⟨w [], by decide +kernel⟩

theorem witness_LifeCycleTamperAndDebug_9 :
    ∃ (s : State),
    s.chip.power ≠ pwrOff :=
  ⟨w [], by decide +kernel⟩

theorem witness_LifeCycleTamperAndDebug_10 :
    ∃ (data : Word64) (s : State) (x : Instr × Jtag),
    (s.chip.power = pwrOn ∨ s.chip.power = pwrIdle) ∧
      x ∈
        [(Instr.samplePreload data, Jtag.sample), (Instr.extest data, Jtag.extest), (Instr.highz data, Jtag.highz), (Instr.clamp data, Jtag.clamp),
          (Instr.extestPulse data, Jtag.extestPulse), (Instr.extestTrain data, Jtag.extestTrain)] :=
  ⟨0x123456789ABCDEF, w [], (.highz 0x123456789ABCDEF, .highz), by decide +kernel⟩


/-! ResetValues -/

theorem witness_ResetValues_1 :
    ∃ (p : Nat),
    p < 16 :=
  ⟨15, by decide +kernel⟩


end Sys2Proof.Tests
end

