-- ==== Sys2Proof/WellFormed.lean ====
section
/-! DEFINITION. Which commands are well-formed: what a sender can put on the wires the spec gives. The meanings are total, so an ill-formed
command does no harm; a statement about the commands a sender can send takes `Instr.wf` as its premise. -/

namespace Sys2Proof

/-- What start-up meets is consistent: the failing SRAM words lie in failing banks (R389, step 3), the failing words of step 9 name a store of a band, a manifest
has at most 64 entries (R362), and a partition at most 192 of DM_MAP. -/
def StartUp.wf (u : StartUp) : Bool :=
  u.sramFails.all (fun e => decide (e.1 < 8) && u.sramBad.getLsbD e.1 && decide (e.2 < 2 ^ 18)) &&
  u.bandFails.all (fun e => decide (e.1 < 3) && decide (e.2.1 < 64)) && decide (u.fw.manifest.length ≤ 64) && u.parts.all fun x => decide (x.map.length ≤ 192)

/-- Whether a command is one that the interfaces of the module can carry. -/
def Instr.wf : Instr → Bool
  | .registerWrite _ _ size value => decide (value.toNat < 2 ^ (8 * 2 ^ size.val))
  | .rcRead _ _ _ => true
  | .lowHalfRead _ _ => true
  | .highHalfRead _ _ => true
  | .lowHalfWrite _ _ _ => true
  | .highHalfWrite _ _ _ => true
  | .nop _ => true
  | .eval _ => true
  | .evalc _ => true
  | .mput _ => true
  | .stop _ => true
  | .trig _ => true
  | .out _ => true
  | .xev _ => true
  | .undefinedOpcode _ => true
  | .cread _ _ => true
  | .cwrite _ _ => true
  | .dread _ _ => true
  | .dwrite _ _ => true
  | .tick src rising => (match src with | .divider _ => rising | .pin => true | .clock code => decide (0 < code.toNat))
  | .elasticLateRelease _ => true
  | .holdRelease _ => true
  | .holdLong _ => true
  | .start _ _ => true
  | .halt _ _ => true
  | .step _ _ _ => true
  | .prime _ _ => true
  | .setrate _ _ _ => true
  | .rampComplete _ => true
  | .rateChangeComplete => true
  | .avsTimeout => true
  | .resultRead _ _ => true
  | .create _ _ => true
  | .release _ _ => true
  | .releaseClearComplete _ => true
  | .reset _ _ => true
  | .primingComplete _ => true
  | .rebind _ => true
  | .deepReturnArrival _ _ _ => true
  | .networkRead _ _ len => decide (len.val ≠ 0)
  | .networkWrite _ _ data => decide (1 ≤ data.length ∧ data.length ≤ 256)
  | .atomicAdd _ _ wide value => wide || decide (value.toNat < 2 ^ 32)
  | .atomicSwap _ _ wide value => wide || decide (value.toNat < 2 ^ 32)
  | .channelCommandTimeout _ _ => true
  | .destructiveTest _ _ _ _ => true
  | .preservingTest _ _ _ _ => true
  | .marchTestComplete fails => decide (fails.Nodup)
  | .ldrLoad _ _ => true
  | .ldrAbort _ _ => true
  | .imageSourceRead _ bytes => (match bytes with | none => true | some b => decide (b ≠ []))
  | .rimSectionHandoff _ => true
  | .arm _ _ => true
  | .disarm _ _ => true
  | .disarmComplete _ => true
  | .force _ _ => true
  | .recordDrain _ _ => true
  | .rateFall _ => true
  | .xtrigInEdge _ _ => true
  | .triggerLineArrival _ _ => true
  | .xtrigOutPulseEnd _ => true
  | .busContention _ _ drivers _ => decide (2 ≤ drivers.length ∧ drivers.Nodup)
  | .busEvtClear _ _ => true
  | .clockSourceLoss _ => true
  | .scrubFrame _ _ => true
  | .rimLdLoad _ => true
  | .rimLdAbort _ => true
  | .clear _ _ => true
  | .clearComplete => true
  | .syncWord _ => true
  | .streamNop op _ => !([1, 2, 3, 4, 5, 6, 8].contains op.toNat)
  | .devid _ _ => true
  | .select _ => true
  | .sector _ => true
  | .faddr _ => true
  | .write _ _ => true
  | .repeatFrames _ => true
  | .endStream _ _ => true
  | .loadBusTimeout => true
  | .sectorStartupComplete _ => true
  | .pinFunctionChange _ _ => true
  | .pinSwitchComplete _ _ => true
  | .iobLock _ _ _ => true
  | .agpWrite _ _ _ _ _ => true
  | .pgoodRise _ _ => true
  | .pgoodSettle _ => true
  | .pgoodFall _ => true
  | .blockLock _ _ => true
  | .lockLoss _ _ => true
  | .commaAlign _ _ => true
  | .adaptationComplete _ _ => true
  | .prbsCheckerLock _ _ _ _ _ => true
  | .prbsErrRead _ _ _ => true
  | .inj _ _ _ => true
  | .laneFailure _ _ => true
  | .revert _ _ => true
  | .frameReceive _ frame _ => decide (1 ≤ frame.length)
  | .frameTransmit _ => true
  | .epochArm _ _ _ ns => decide (ns.toNat < 10 ^ 9)
  | .txTsRead _ _ _ => true
  | .perstAssert _ => true
  | .perstDeassert _ => true
  | .linkDown _ => true
  | .linkReturnTimeout _ => true
  | .surpriseRemoval _ => true
  | .functionLevelReset _ => true
  | .dmaChPi _ _ _ _ => true
  | .descriptor _ _ _ count data => decide (data.length ≤ 256 * count.toNat)
  | .descriptorComplete _ _ _ => true
  | .dmaAbort _ _ _ _ => true
  | .bar2Access _ off len data => decide (off.toNat + len.val ≤ 2 ^ 36) && (match data with | none => decide (len.val ≠ 0) | some d => decide (d.length = len.val ∧ len.val ≠ 0))
  | .bar2SelWrite _ _ _ => true
  | .transactionCompletion _ _ _ => true
  | .netTimeout _ => true
  | .linkFail _ => true
  | .schPost _ _ _ _ => true
  | .sumpRefill => true
  | .postDrop => true
  | .schTake _ _ => true
  | .schDone _ _ _ => true
  | .sourceEvent _ => true
  | .icPendSet _ _ _ _ => true
  | .icClaim _ _ _ => true
  | .icComplete _ _ _ _ => true
  | .icinv _ _ _ => true
  | .coreReset _ _ _ => true
  | .trcSw _ _ _ => true
  | .traceFlush _ _ => true
  | .flushIncomplete _ _ => true
  | .doorbell _ _ => true
  | .snapshot _ _ => true
  | .take _ _ => true
  | .hello _ pair _ _ _ _ => decide (pair.val < 7)
  | .keepalive _ => true
  | .keepaliveLapse _ => true
  | .partCreate _ _ _ _ _ => true
  | .partRelease _ _ _ _ => true
  | .partBind _ _ _ _ _ _ _ _ => true
  | .dmMap _ _ _ _ first vals => decide (first.toNat + vals.length ≤ 192 ∧ 1 ≤ vals.length)
  | .imageLoad _ _ _ _ _ _ => true
  | .imageAbort _ _ _ _ => true
  | .marchTest _ _ _ _ => true
  | .symbolQuery _ _ _ _ name => decide (name ≠ [])
  | .fwStatus _ _ _ => true
  | .stepRate _ _ _ _ _ => true
  | .event _ _ data => decide (data.length ≤ 3326)
  | .wrap _ => true
  | .tkStep _ _ _ _ _ => true
  | .ppsInEdge _ => true
  | .req _ _ => true
  | .swNopps => true
  | .ppsOutRise => true
  | .ppsOutFall => true
  | .compareFire _ => true
  | .rimEventTap _ => true
  | .idle _ _ => true
  | .watch _ _ => true
  | .sleep _ _ _ => true
  | .on _ _ => true
  | .quiesce _ _ => true
  | .quiesceComplete => true
  | .quiescePumpLimit => true
  | .demandExit _ => true
  | .watchSample _ => true
  | .wakePin _ _ => true
  | .mgmtAddressMatch _ => true
  | .wakeComplete => true
  | .thresholdCrossing _ _ => true
  | .thermalTrip => true
  | .powerOn => true
  | .resetN => true
  | .brownOut => true
  | .startUp u => u.wf
  | .pmbAlert => true
  | .presentDeassert => true
  | .presentAssert => true
  | .lcCmd _ _ _ => true
  | .lifeCycleReset => true
  | .tamper => true
  | .wipeComplete => true
  | .dbgCert cert => decide (cert.sig.length = 96)
  | .bypass => true
  | .idcode => true
  | .samplePreload _ => true
  | .extest _ => true
  | .highz _ => true
  | .clamp _ => true
  | .extestPulse _ => true
  | .extestTrain _ => true
  | .goldenEntryWrite _ => true
  | .repairFail _ _ => true
  | .fltLogRead _ _ => true
  | .fetchWhileNotRunning _ _ => true
  | .rampHoldDecision _ _ => true
  | .xtrigOutRise _ => true
  | .vccioMeasurement _ _ => true
  | .resetTreeChange _ _ => true
  | .signalDetect _ _ _ => true
  | .pllLock _ _ => true
  | .linkReturn _ speed width => decide (1 ≤ speed.val ∧ speed.val ≤ 6) && [1, 2, 4, 8, 16].contains width.val
  | .powerStateExitComplete => true
  | .powerRemoval => true

end Sys2Proof
end

