-- ==== Sys2Proof/Tests/Slice0.lean ====
section
/-! SUPPORT. The model's own tests: one ill-formed command for each check of `Instr.wf`, and the spec's worked examples. Each test names the rule whose
example it is; its numbers are the spec's, or follow from its tables by hand. -/

namespace Sys2Proof.Tests
open Sys2Proof Sys2Proof.Machine

/-! Well-formed commands -/

theorem test_wf_register_write : (Instr.registerWrite svc 0xF00040 2 (2 ^ 32)).wf = false ∧ (Instr.registerWrite svc 0xF00040 2 (2 ^ 32 - 1)).wf = true := by decide
theorem test_wf_network_read : (Instr.networkRead svc (.sram 0) 0).wf = false ∧ (Instr.networkRead svc (.sram 0) 256).wf = true := by decide
theorem test_wf_network_write : (Instr.networkWrite svc (.sram 0) []).wf = false ∧ (Instr.networkWrite svc (.sram 0) [1]).wf = true := by decide
theorem test_wf_atomic_add : (Instr.atomicAdd svc (.sram 0) false (2 ^ 32)).wf = false ∧ (Instr.atomicAdd svc (.sram 0) true (2 ^ 32)).wf = true := by decide
theorem test_wf_atomic_swap : (Instr.atomicSwap svc (.sram 0) false (2 ^ 32)).wf = false := by decide
theorem test_wf_march_test : (Instr.marchTestComplete [(3, 4), (3, 4)]).wf = false ∧ (Instr.marchTestComplete [(3, 4), (3, 5)]).wf = true := by decide
theorem test_wf_image_source : (Instr.imageSourceRead 0 (some [])).wf = false ∧ (Instr.imageSourceRead 0 none).wf = true := by decide
theorem test_wf_bus_contention : (Instr.busContention 0 0 [5] 300).wf = false ∧ (Instr.busContention 0 0 [5, 5] 300).wf = false ∧ (Instr.busContention 0 0 [5, 6] 300).wf = true := by decide
theorem test_wf_stream_nop : (Instr.streamNop 4 0).wf = false ∧ (Instr.streamNop 0 0).wf = true := by decide
theorem test_wf_tick : (Instr.tick (.clock 0) true).wf = false ∧ (Instr.tick (.divider 0) false).wf = false ∧ (Instr.tick (.clock 1) false).wf = true := by decide
theorem test_wf_frame : (Instr.frameReceive 0 [] true).wf = false := by decide
theorem test_wf_epoch : (Instr.epochArm 0 true 0 1000000000).wf = false ∧ (Instr.epochArm 0 true 0 999999999).wf = true := by decide
theorem test_wf_descriptor : (Instr.descriptor 0 0 desc0 0 [1]).wf = false := by decide
theorem test_wf_bar2 : (Instr.bar2Access 0 (2 ^ 36 - 1) 2 none).wf = false ∧ (Instr.bar2Access 0 0 0 none).wf = false ∧ (Instr.bar2Access 0 0 2 (some [1])).wf = false ∧
    (Instr.bar2Access 0 (2 ^ 36 - 1) 1 none).wf = true := by decide
theorem test_wf_hello : (Instr.hello 0 7 ⟨0, head1⟩ 0 0 0).wf = false := by decide
theorem test_wf_dm_map : (Instr.dmMap 0 0 ⟨0, head1⟩ 0 191 [1, 2]).wf = false ∧ (Instr.dmMap 0 0 ⟨0, head1⟩ 0 191 [1]).wf = true := by decide
theorem test_wf_symbol_query : (Instr.symbolQuery 0 0 ⟨0, head1⟩ 0 []).wf = false := by decide
theorem test_wf_event : (Instr.event 0 0 (List.replicate 3327 0)).wf = false := by decide +kernel
theorem test_wf_start_up : (Instr.startUp { startUp0 with sramFails := [(1, 2)] }).wf = false ∧ (Instr.startUp { startUp0 with bandFails := [(3, 0, 0)] }).wf = false ∧
    (Instr.startUp startUp0).wf = true := by decide
theorem test_wf_certificate : (Instr.dbgCert ⟨true, 5, 2, 7, 3, [1]⟩).wf = false := by decide
theorem test_wf_link_return : (Instr.linkReturn 0 0 4).wf = false ∧ (Instr.linkReturn 0 1 3).wf = false ∧ (Instr.linkReturn 0 6 16).wf = true := by decide

/-- The table gives its rows no bits, so no word spells a command. -/
theorem test_no_word_decodes (nbits word : Nat) : decodeTableWord nbits word = none := rfl

/-! Words and codes -/

/-- The four words of the counter example of the Boolean processor chapter. -/
theorem test_words_of_the_counter :
    Word.make 0x00AA 0x0007 0x1FF0 0x1FF0 0x1304 2 1 0 0 = 0x00AA003FFC3FE1304280 ∧
    Word.make 0x0078 0x0007 0x0006 0x0005 0x1FF2 1 0 0 0 = 0x0078003801800BFF2100 ∧
    Word.make 0x0006 0x0007 0x0006 0x1FF0 0x1FF2 1 0 0 0 = 0x0006003801BFE1FF2100 ∧
    Word.make 0x0001 0x0007 0x1FF0 0x1FF0 0x1FF2 1 0 0 0 = 0x0001003FFC3FE1FF2100 := by decide +kernel

/-- The check bits that the table after R38 gives. -/
theorem test_check_bits : encodeWord 1 = 1 + 2 ^ 80 * 0x83 ∧ encodeWord 0x100 = 0x100 + 2 ^ 80 * 0x0D := by decide +kernel

/-- The step-21 tile slot of the exchange example: V = 1, SRC = 0x121, DST = 0x205. -/
theorem test_tile_slot : (Unit'.tile 0x1A).slot ((Unit'.tile 0x1A).withParity 0x148605) 0 = (1, 0x121, 0x205) := by decide +kernel

/-- R21: BP 0x1_4D71 lies in tile 0x14D and band 0x29. -/
theorem test_indices : (w [(.PTN_CFG_ACTIVE, 3, 1), (.PTN_CFG_FIRST, 3, 0x29), (.PTN_CFG_COUNT, 3, 1)]).chip.bpOwner 0x14D71 = some 3 ∧
    (w [(.PTN_CFG_ACTIVE, 3, 1), (.PTN_CFG_FIRST, 3, 0x29), (.PTN_CFG_COUNT, 3, 1)]).chip.tileOwner 0x14D = some 3 := by decide +kernel

/-- R120: COUNT = 16 spans one die from FIRST = 16 and two from FIRST = 24. -/
theorem test_shapes : (w [(.PTN_CFG_FIRST, 0, 16), (.PTN_CFG_COUNT, 0, 16)]).chip.partDies 0 = 1 ∧
    (w [(.PTN_CFG_FIRST, 0, 24), (.PTN_CFG_COUNT, 0, 16)]).chip.partDies 0 = 2 := by decide +kernel

/-- R201: records of 192 bytes for W = 1,000, of 8,256 for W = 65,536 and of 64 for W = 0. -/
theorem test_record_lengths : recordLen 1000 = 192 ∧ recordLen 65536 = 8256 ∧ recordLen 0 = 64 := by decide

/-- R99: with INT = 82 and FRAC = 0x4DF5 tick 100 falls in period floor(8230.45...) after the start. -/
theorem test_divider : (w [(.PMP_TDIV_INT, 0, 0x52), (.PMP_TDIV_FRAC, 0, 0x4DF5), (.H_DIV_START, 0, 7)]).chip.divPeriod 0 100 = 7 + 8230 := by decide +kernel

/-- IEEE 802.3's CRC-32 of the nine digits (R247). -/
theorem test_crc : crc32 ([0x31, 0x32, 0x33, 0x34, 0x35, 0x36, 0x37, 0x38, 0x39]) = 0xCBF43926 := by decide +kernel

/-- R282: IEEE 802.3's K28.5 at negative and at positive running disparity begins with a comma, and reads back as the K group 0xBC. -/
theorem test_comma :
    bitsNat (enc10 0xBC true false).1.reverse = 0b0011111010 ∧ bitsNat (enc10 0xBC true true).1.reverse = 0b1100000101 ∧
    commaHere (enc10 0xBC true false).1 = true ∧ dec10 (enc10 0xBC true true).1 true = some (0xBC, true) := by decide +kernel

/-- R281: the descrambler undoes the scrambler. -/
theorem test_scrambler : (descramble 0x155 (scramble 0x155 (natBits 64 0x0123456789ABCDEF)).1).1 = natBits 64 0x0123456789ABCDEF := by decide +kernel

/-! Commands -/

/-- The state after a command. -/
def after (i : Instr) (s : State) : State := match exec i s with | .next t => t | _ => s

/-- Step 5 of the counter in cycle 2: index 1, so slot 5 takes 0; step 6 sets slot 6; step 7 clears slot 7. -/
def counter (step word : Nat) : State :=
  wa { fword := [(step, encodeWord word)], slotA := [(7, 1)], parA := [(0, 1)] } (part0 ++ [(.PMP_SLEN_STEP_NOW, 0, step), (.PMP_CYCLE_CYCLE, 0, 2)])
theorem test_counter_step5 : NatMap.find 0 (after (.eval 0) (counter 5 0x0078003801800BFF2100)).arr.slotA 5 = 0 := by decide +kernel
theorem test_counter_step6 : NatMap.find 0 (after (.eval 0) (counter 6 0x0006003801BFE1FF2100)).arr.slotA 6 = 1 := by decide +kernel
theorem test_counter_step7 : NatMap.find 0 (after (.eval 0) (counter 7 0x0001003FFC3FE1FF2100)).arr.slotA 7 = 0 := by decide +kernel

/-- R271: core 5 writes 0x0105_0104 to AGP_OUT_LO[3]; it owns pins 0 to 7 and core 6 pins 8 to 15. -/
def agpW : State := w ((List.range 16).map fun i => (.IOB_PIN_CFG_AGENT, 96 + i, if i < 8 then 1 else 2))
theorem test_agp_write :
    let t := (after (.agpWrite 5 false 3 .outLo 0x01050104) agpW).chip
    t.get .AGP_OUT_LO_VAL 3 = 4 ∧ t.get .AGP_DENY_CNT_COUNT 0 = 1 ∧ t.get .AGP_DENY_LOC_CORE 0 = 1 ∧ t.get .AGP_DENY_LOC_BANK 0 = 3 ∧ t.get .AGP_DENY_LOC_PIN 0 = 8 := by
  decide +kernel

/-- The interrupt example of R339: source 16 with PRIO 20 and targets 5 and 7, thresholds 10 and 4. -/
def irqW (l : List (Fld × Nat × Nat)) : State :=
  w ([(.IC_SRC_CFG_PRIO, 16, 20), (.IC_SRC_CFG_TARGETS, 16, 0xA0), (.IC_EN_BIT, 16, 1), (.IC_THRESH_THRESH, 5, 10), (.IC_THRESH_THRESH, 7, 4), (.IC_PEND_BIT, 16, 1)] ++ l)
theorem test_irq_presented : (irqW []).chip.icTop 7 = 16 ∧ (irqW []).chip.icTop 5 = 0 := by decide +kernel
theorem test_irq_claim :
    let t := (after (.icClaim 3 false 7) (irqW [])).chip
    t.resp.value = 16 ∧ t.get .IC_ACTIVE_BIT 16 = 1 ∧ t.get .IC_PEND_BIT 16 = 0 := by decide +kernel
theorem test_irq_complete :
    let t := (after (.icComplete 3 false 7 16) (irqW [(.IC_ACTIVE_BIT, 16, 1), (.IC_CLAIMED_BY, 16, 8), (.IC_THRESH_THRESH, 5, 2)])).chip
    t.get .IC_ACTIVE_BIT 16 = 0 ∧ t.icTop 5 = 16 := by decide +kernel

/-- The example of R366: |DELTA| = 900 is within the threshold of 1,000, and 5,000 is not. -/
theorem test_tk_step : (after (.tkStep 0 true 0 0xFFFFFC7C false) (w [(.TK_JUMP_THR_THR, 0, 1000)])).chip.get .TK_DSTATUS_STEP_REF 0 = 0 ∧
    (after (.tkStep 0 true 0 5000 false) (w [(.TK_JUMP_THR_THR, 0, 1000)])).chip.get .TK_DSTATUS_STEP_REF 0 = 1 := by decide +kernel

/-- A low-half read latches the high half (R16). -/
theorem test_two_part_read :
    let s := w [(.PTN_CFG_BIND, 0, 1), (.PMP_CYCLE_CYCLE, 0, 0x1FFFFFFFF)]
    let t := after (.lowHalfRead (.host 1) 0x400020) s
    t.chip.resp.value = 0xFFFFFFFF ∧
    (after (.highHalfRead (.host 1) 0x400024) { t with chip := t.chip.set .PMP_CYCLE_CYCLE 0 0x200000000 }).chip.resp.value = 1 := by decide +kernel

/-- R123: a host reads all ones from a block of a partition bound to another port (R15). -/
theorem test_other_port : (after (.resultRead (.host 2) (.pmp 0)) (w part0)).chip.resp.value = 0xFFFFFFFF := by decide +kernel

/-- R126: CREATE from a host is refused with PART_PERM (code 0x01 of R134). -/
theorem test_create_from_host :
    let t := (after (.create (.host 1) 0) (w [(.PTN_CFG_BIND, 0, 1)])).chip
    t.get .PTN_RESULT_OUTCOME 0 = refused ∧ t.get .PTN_RESULT_CODE 0 = 1 := by decide +kernel

/-- R22: a first band on an unpopulated die of a VDX-410 is not written. -/
theorem test_unpopulated :
    let s := { w [] with chip := { (w []).chip with grade := .vdx410 } }
    (after (.registerWrite svc 0x401000 2 0x00070110) s).chip.get .PTN_CFG_FIRST 0 = 0 := by decide +kernel

/-- R311: an atomic on deep memory completes with DM_NO_ATOMIC. -/
theorem test_no_atomic : (after (.atomicAdd svc (.design 0 0) true 1) (w (part0 ++ [(.DM_MAP_VALID, 0, 1)]))).chip.resp.status = .dmNoAtomic := by decide +kernel

/-- R245, R249: a stream whose first word is not the sync word fails with RIM_SYNC (0x01). -/
theorem test_no_sync : (after (.syncWord 0) (w (rimLoads ++ [(.H_RS_STATE, 0, 1)]))).chip.get .RIM_LD_STATUS_CODE 0 = 1 := by decide +kernel

/-- R353: the read of word 15 takes the message. -/
theorem test_mailbox_take : (after (.take (.host 1) 9) (w [(.MBX_STATUS_SNAP, 9, 1), (.H_MBX_SNAPSEQ, 9, 3), (.MBX_STATUS_SEQ, 9, 3), (.MBX_STATUS_FULL, 9, 1)])).chip.get .MBX_STATUS_FULL 9 = 0 := by
  decide +kernel

end Sys2Proof.Tests
end

section
/-! PROOFS. What a command reaches: its queue and layers (O3, O4), the idle step (O2), and the reset state (O60). -/

namespace Sys2Proof.Machine

/-- What a command of reach `r` leaves of state `s` in state `t`: the queue, and the layers it does not reach. -/
structure Within (r : Reach) (s t : State) : Prop where
  pending : t.pending = s.pending
  arr : r = .chip ∨ r = .memory → t.arr = s.arr
  mem : r = .chip ∨ r = .array → t.mem = s.mem

namespace Within

theorem onChip (r : Reach) (s : State) (f : Chip → Chip) : Within r s (s.onChip f) :=
  ⟨rfl, fun _ => rfl, fun _ => rfl⟩

theorem onArr (s : State) (f : Chip → Arr → Chip × Arr) : Within .array s (s.onArr f) :=
  ⟨rfl, by simp, fun _ => rfl⟩

theorem onMem (s : State) (f : Chip → Mem → Chip × Mem) : Within .memory s (s.onMem f) :=
  ⟨rfl, fun _ => rfl, by simp⟩

theorem onAll (s : State) (f : Chip → Arr → Mem → All) : Within .all s (s.onAll f) :=
  ⟨rfl, by simp, by simp⟩

/-- A row written on all layers that gives only registers a new value. -/
theorem onRegisters (s : State) (f : Chip → Arr → Mem → Chip) : Within .chip s (s.onAll fun c a m => (f c a m, a, m)) :=
  ⟨rfl, fun _ => rfl, fun _ => rfl⟩

theorem seen (who : Init) (s : State) : Within who.reach s (s.seen who) := by
  cases who with
  | host n => exact ⟨rfl, fun _ => rfl, fun _ => rfl⟩
  | core k sec => exact ⟨rfl, fun _ => rfl, by simp [Init.reach]⟩

theorem trans {r : Reach} {s t u : State} (h : Within r s t) (k : Within r t u) : Within r s u :=
  ⟨k.pending.trans h.pending, fun e => (k.arr e).trans (h.arr e), fun e => (k.mem e).trans (h.mem e)⟩

/-- What stays within some layers stays within all of them. -/
theorem all {r : Reach} {s t : State} (h : Within r s t) : Within .all s t := ⟨h.pending, by simp, by simp⟩

/-- An access of an initiator that itself acts on registers alone. -/
theorem seen_onChip (who : Init) (s : State) (f : Chip → Chip) : Within who.reach s ((s.seen who).onChip f) :=
  (seen who s).trans (onChip _ _ f)

theorem seen_onMem (who : Init) (s : State) (f : Chip → Mem → Chip × Mem) : Within .memory s ((s.seen who).onMem f) :=
  ⟨rfl, fun _ => rfl, by simp⟩

theorem seen_onAll (who : Init) (s : State) (f : Chip → Arr → Mem → All) : Within .all s ((s.seen who).onAll f) :=
  (seen who s).all.trans (onAll _ f)

end Within

/-- No source of ticks reaches the memories. -/
theorem tickFrom_mem (src : TickSource) (rising : Bool) (c : Chip) (a : Arr) (m : Mem) : (tickFrom src rising c a m).2.2 = m := by
  unfold tickFrom
  split <;> rfl

theorem Within.tick (src : TickSource) (rising : Bool) (s : State) : Within .array s (s.onAll (tickFrom src rising)) :=
  ⟨rfl, by simp, fun _ => tickFrom_mem _ _ _ _ _⟩

/-- Every command has a next state, and keeps to the layers of its reach. -/
theorem exec_within (i : Instr) (s : State) : Does i s (Within i.reach s) := by
  cases i with
  | holdLong | rateChangeComplete | avsTimeout | primingComplete | rebind | disarmComplete | rateFall | xtrigInEdge | triggerLineArrival |
    xtrigOutPulseEnd | clockSourceLoss | sectorStartupComplete | pinFunctionChange | pinSwitchComplete | pgoodRise | pgoodSettle | pgoodFall |
    blockLock | lockLoss | commaAlign | adaptationComplete | prbsCheckerLock | laneFailure | perstDeassert | linkDown | functionLevelReset |
    descriptorComplete | bar2SelWrite | sumpRefill | postDrop | sourceEvent | flushIncomplete | wrap | ppsInEdge | swNopps | ppsOutRise |
    ppsOutFall | compareFire | rimEventTap | demandExit | watchSample | wakePin | mgmtAddressMatch | pmbAlert | presentAssert | dbgCert | bypass
    | idcode | samplePreload | extest | highz | clamp | extestPulse | extestTrain | rampHoldDecision | xtrigOutRise | vccioMeasurement |
    signalDetect | pllLock | linkReturn =>
    exact ⟨_, rfl, .onChip _ _ _⟩
  | busContention | resetTreeChange =>
    exact ⟨_, rfl, .onRegisters _ _⟩
  | nop | eval | evalc | mput | stop | trig | out | xev | undefinedOpcode | elasticLateRelease | holdRelease | rampComplete | deepReturnArrival
    | channelCommandTimeout | transactionCompletion | linkFail | quiescePumpLimit | goldenEntryWrite | repairFail | fetchWhileNotRunning =>
    exact ⟨_, rfl, .onArr _ _⟩
  | tick src rising => exact ⟨_, rfl, .tick src rising s⟩
  | recordDrain | scrubFrame | clearComplete | loadBusTimeout | frameReceive | frameTransmit | descriptor | bar2Access | traceFlush |
    quiesceComplete | tamper | wipeComplete =>
    exact ⟨_, rfl, .onMem _ _⟩
  | syncWord | streamNop | devid | select | sector | faddr | write | repeatFrames | endStream =>
    exact ⟨_, rfl, .onMem _ _⟩
  | networkRead | networkWrite | atomicAdd | atomicSwap =>
    exact ⟨_, rfl, .seen_onMem _ _ _⟩
  | txTsRead | schPost | schTake | schDone | icPendSet | icClaim | icComplete | fltLogRead =>
    exact ⟨_, rfl, .seen_onChip (.core _ _) _ _⟩
  | resultRead | prbsErrRead | dmaChPi | dmaAbort | snapshot | take =>
    exact ⟨_, rfl, .seen_onChip _ _ _⟩
  | cread | cwrite | dread | dwrite | releaseClearComplete | marchTestComplete | imageSourceRead | rimSectionHandoff | perstAssert |
    linkReturnTimeout | surpriseRemoval | netTimeout | hello | keepalive | keepaliveLapse | partCreate | partRelease | partBind | dmMap |
    imageLoad | imageAbort | marchTest | symbolQuery | fwStatus | stepRate | event | wakeComplete | thresholdCrossing | thermalTrip | powerOn |
    resetN | brownOut | startUp | presentDeassert | lifeCycleReset | powerStateExitComplete | powerRemoval =>
    exact ⟨_, rfl, .onAll _ _⟩
  | registerWrite | rcRead | lowHalfRead | highHalfRead | lowHalfWrite | highHalfWrite | start | halt | step | prime | setrate | create |
    release | reset | destructiveTest | preservingTest | ldrLoad | ldrAbort | arm | disarm | force | busEvtClear | rimLdLoad | rimLdAbort |
    clear | iobLock | agpWrite | inj | revert | epochArm | icinv | coreReset | trcSw | doorbell | tkStep | req | idle | watch | sleep | on |
    quiesce | lcCmd =>
    exact ⟨_, rfl, .seen_onAll _ _ _⟩

/-- Settles O3: every command keeps within its reach, and no reach holds the queue. -/
theorem everyCommandCompletes : Obligations.EveryCommandCompletes := by
  intro i s
  obtain ⟨t, ht, hw⟩ := exec_within i s
  exact ⟨t, ht, hw.pending⟩

/-- Settles O4: `exec` answers one state, the one that keeps within the command's reach. -/
theorem commandsKeepToTheirLayers : Obligations.CommandsKeepToTheirLayers := by
  intro i s t h
  obtain ⟨u, hu, hw⟩ := exec_within i s
  obtain rfl : u = t := Host.Outcome.next.inj (hu.symm.trans h)
  exact ⟨fun hr => ⟨hw.arr (.inl hr), hw.mem (.inl hr)⟩, fun hr => hw.mem (.inr hr), fun hr => hw.arr (.inr hr)⟩

/-- Settles O2: with an empty queue `step` runs `tick` on the whole module. -/
theorem idleStepIsOnePeriod : Obligations.IdleStepIsOnePeriod := by
  rintro ⟨pending, chip, arr, mem⟩ (rfl : pending = [])
  rfl

/-- Settles O60: no field is listed in the reset state, so each reads as its reset value; every queue and memory is empty. -/
theorem resetValues : Obligations.ResetValues := by
  have hfld : ∀ (f : Fld) (j : Nat), State.reset.chip.get f j = f.reset := fun _ _ => rfl
  refine ⟨rfl, rfl, rfl, rfl, rfl, rfl, rfl, rfl, rfl, rfl, rfl, rfl, fun p _ => ⟨?_, ?_, ?_, ?_, ?_⟩, ?_, ?_, ?_, ?_, ?_, ?_, ?_, ?_, ?_, ?_, ?_, hfld⟩
  all_goals exact hfld _ _

end Sys2Proof.Machine
end

section
/-! PROOFS. Writes by access type (O14), and the path of a register access to its register and back (O15, O16, O17). -/

namespace Sys2Proof.Machine

/-! Access types -/

/-- A field that has a width holds what is written to it, cut to that width. -/
theorem Fld.clip_of_width {f : Fld} (h : 0 < f.width) (v : Nat) : f.clip v = v % 2 ^ f.width := by
  unfold Fld.clip
  rw [if_neg (by omega)]

/-- A write by an access type changes the field that it names only. -/
theorem Chip.writeField_get_ne (c : Chip) (k v : Nat) (x : FieldDef) {g : Fld} {j : Nat} (h : ¬(g = x.fld ∧ j = k * x.fc + x.fi)) :
    (c.writeField k v x).get g j = c.get g j := by
  unfold Chip.writeField
  split
  · exact Chip.get_set_ne _ _ h
  · exact Chip.get_set_ne _ _ h
  · exact Chip.get_set_ne _ _ h
  · rfl

/-- Settles O14, access type by access type. -/
theorem accessTypesOfFields : Obligations.AccessTypesOfFields := by
  intro c k v x hfit hwidth i b
  refine ⟨fun h => ?rw, fun h => ?w1c, fun h => ?w1s, fun h => ?kept, fun g j h => Chip.writeField_get_ne c k v x h⟩
  case rw => simp [Chip.writeField, h, Fld.clip_of_width hwidth, i, b]
  case w1c =>
    simp only [Chip.writeField, h, Chip.get_set_same, i, b]
    exact Fld.clip_lt (lt_of_le_of_lt (Nat.sub_le _ _) hfit)
  case w1s => simp [Chip.writeField, h, Fld.clip_of_width hwidth, i, b]
  case kept => rcases h with h | h | h <;> simp [Chip.writeField, h]

/-! Where an access lands -/

@[simp] theorem State.seen_host (s : State) (n : Fin 4) : s.seen (.host n) = s := rfl

/-- The partition block of partition `p` in BAR0 of a port. -/
theorem regPlace_host_part (n : Fin 4) {x p off : Nat} (hx : x = 0x400000 + p * 0x10000 + off) (hp : p < 16) (ho : off < 0x10000) :
    regPlace (.host n) x = some ⟨.part, p, off⟩ := by
  have hinst : (x - 0x400000) / 0x10000 = p := by omega
  have hoff : x % 0x10000 = off := by omega
  simp only [regPlace, hostBlock, sharedBlock]
  rw [if_neg (by omega), if_neg (by omega), if_neg (by omega), if_neg (by omega), if_pos (by omega), hinst, hoff]

/-- The DMA block in BAR0 of a port. -/
theorem regPlace_host_dma (n : Fin 4) {x off : Nat} (hx : x = 0xD00000 + off) (ho : off < 0x2000) :
    regPlace (.host n) x = some ⟨.dma, n.val, off⟩ := by
  have hoff : x - 0xD00000 = off := by omega
  simp only [regPlace, hostBlock]
  rw [if_neg (by omega), if_pos (by omega), hoff]

/-- An address that fits its 48 bits is carried whole. -/
theorem addr_toNat {x : Nat} (h : x < 2 ^ 48) : (BitVec.ofNat 48 x).toNat = x := by
  rw [BitVec.toNat_ofNat, Nat.mod_eq_of_lt h]

/-- An aligned access of four bytes to a register that is there reaches it. -/
theorem regAccess_four {who : Init} {x : Nat} {p : RegPlace} {h : RegHit} (hp : regPlace who x = some p) (hf : p.find (initCore who) = some h)
    (hx : x % 4 = 0) : regAccess who x 4 = some (p, h) := by
  simp [regAccess, hp, hf, hx]

/-- A permitted read of four bytes answers what `read32` gives. -/
theorem regRead_four {who : Init} {x base : Nat} {c : Chip} {a : Arr} {p : RegPlace} {h : RegHit} (hp : regPlace who x = some p)
    (hf : p.find (initCore who) = some h) (hx : x % 4 = 0) (hb : h.base x = base) (hm : c.regMay who p false = true)
    (ht : targetMay who h.reg.reg h.k = true) :
    regRead who x 4 c a = (read32 who h base c a).2.answer .ok (read32 who h base c a).1 := by
  simp [regRead, hp, hm, regAccess_four hp hf hx, ht, hb]

/-- A permitted write of four bytes, but one of SCH_POST, is answered OK and performed. -/
theorem regWrite_four {who : Init} {x base v : Nat} {c : Chip} {a : Arr} {m : Mem} {p : RegPlace} {h : RegHit} (hp : regPlace who x = some p)
    (hf : p.find (initCore who) = some h) (hx : x % 4 = 0) (hb : h.base x = base) (hm : c.regMay who p true = true)
    (ht : targetMay who h.reg.reg h.k = true) (hs : (h.reg.reg == .SCH_POST) = false) :
    regWrite who x 4 v c a m = write32 who p h base v (c.answer .ok) a m := by
  simp [regWrite, hp, hm, regAccess_four hp hf hx, ht, beq_eq_false_iff_ne.1 hs, hb]

/-- A write of four bytes to a 32-bit register writes it at once. -/
theorem write32_narrow {who : Init} {p : RegPlace} {h : RegHit} (hw : h.reg.wide = false) {v : Nat} (hv : v < 2 ^ 32) (base : Nat) (c : Chip)
    (a : Arr) (m : Mem) : write32 who p h base v c a m = writeReg who p.blk h.reg p.inst h.k v base c a m := by
  simp [write32, hw, Nat.mod_eq_of_lt (show v < 4294967296 from hv)]

/-! The registers that the statements name. A block that holds one copy of a register has that copy at its own number. -/

theorem find_PMP_HOLD_LIMIT (p core : Nat) : (⟨.part, p, 0x1C⟩ : RegPlace).find core = some ⟨Reg.def_PMP_HOLD_LIMIT, p, false⟩ := by
  have h : (⟨.part, p, 0x1C⟩ : RegPlace).find core = some ⟨Reg.def_PMP_HOLD_LIMIT, (p * 1 + 0) * 1 + 0, false⟩ := rfl
  simpa using h

theorem find_PMP_CYCLE_low (p core : Nat) : (⟨.part, p, 0x20⟩ : RegPlace).find core = some ⟨Reg.def_PMP_CYCLE, p, false⟩ := by
  have h : (⟨.part, p, 0x20⟩ : RegPlace).find core = some ⟨Reg.def_PMP_CYCLE, (p * 1 + 0) * 1 + 0, false⟩ := rfl
  simpa using h

theorem find_PMP_CYCLE_high (p core : Nat) : (⟨.part, p, 0x24⟩ : RegPlace).find core = some ⟨Reg.def_PMP_CYCLE, p, true⟩ := by
  have h : (⟨.part, p, 0x24⟩ : RegPlace).find core = some ⟨Reg.def_PMP_CYCLE, (p * 1 + 0) * 1 + 0, true⟩ := rfl
  simpa using h

theorem find_PMP_RESULT (p core : Nat) : (⟨.part, p, 0x60⟩ : RegPlace).find core = some ⟨Reg.def_PMP_RESULT, p, false⟩ := by
  have h : (⟨.part, p, 0x60⟩ : RegPlace).find core = some ⟨Reg.def_PMP_RESULT, (p * 1 + 0) * 1 + 0, false⟩ := rfl
  simpa using h

theorem find_GLB_LAT_SEL (n core : Nat) : (⟨.glb, n, 0x20⟩ : RegPlace).find core = some ⟨Reg.def_GLB_LAT_SEL, n, false⟩ := by
  have h : (⟨.glb, n, 0x20⟩ : RegPlace).find core = some ⟨Reg.def_GLB_LAT_SEL, (n * 1 + 0) * 1 + 0, false⟩ := rfl
  simpa using h

theorem find_NOC_TIMEOUT (core : Nat) : (⟨.noc, 0, 0x40⟩ : RegPlace).find core = some ⟨Reg.def_NOC_TIMEOUT, 0, false⟩ := rfl

/-- The registers of a DMA channel: eight copies in the block of a port. -/
theorem find_DMA_CH_DESC_BASE_low (n core : Nat) (ch : Fin 8) :
    (⟨.dma, n, 0x1008 + ch.val * 0x100⟩ : RegPlace).find core = some ⟨Reg.def_DMA_CH_DESC_BASE, n * 8 + ch.val, false⟩ := by
  fin_cases ch <;>
    simp [RegPlace.find, Blk.regs, Blk.regs_dma, RegDef.hit, Reg.def_DMA_PORT_STATUS, Reg.def_DMA_CH_CTL, Reg.def_DMA_CH_DESC_BASE]

theorem find_DMA_CH_DESC_BASE_high (n core : Nat) (ch : Fin 8) :
    (⟨.dma, n, 0x1008 + ch.val * 0x100 + 4⟩ : RegPlace).find core = some ⟨Reg.def_DMA_CH_DESC_BASE, n * 8 + ch.val, true⟩ := by
  fin_cases ch <;>
    simp [RegPlace.find, Blk.regs, Blk.regs_dma, RegDef.hit, Reg.def_DMA_PORT_STATUS, Reg.def_DMA_CH_CTL, Reg.def_DMA_CH_DESC_BASE]

/-! Commands that access a register -/

theorem bits_lt (v hi lo : Nat) : bits v hi lo < 2 ^ (hi + 1 - lo) := Nat.mod_lt _ (by positivity)

/-- What the write at an address gives is what the command leaves. -/
theorem exec_registerWrite_eq {who : Init} {x : BitVec 48} {size : Fin 4} {v : Word64} {s : State} {y : Nat} {c : Chip} {a : Arr} {m : Mem}
    (hx : x.toNat = y) (h : mapWrite who y (2 ^ size.val) v.toNat (s.seen who).chip (s.seen who).arr (s.seen who).mem = (c, a, m)) :
    exec (.registerWrite who x size v) s = .next { s.seen who with chip := c, arr := a, mem := m } := by
  subst hx
  show Host.Outcome.next ((s.seen who).onAll (mapWrite who x.toNat (2 ^ size.val) v.toNat)) = _
  rw [State.onAll, h]

/-! Rights of a host at blocks that the statements name -/

theorem Chip.regMay_host_part (c : Chip) (n : Fin 4) (p off : Nat) (w : Bool) :
    c.regMay (.host n) ⟨.part, p, off⟩ w = (decide (c.get .PTN_CFG_BIND p = n.val) && !(w && c.hostGone (.host n))) := rfl

/-- Nothing is left of a register write of a lost host (R131). -/
theorem regWrite_hostGone {n : Fin 4} {c : Chip} (h : c.hostGone (.host n) = true) (x k v : Nat) (a : Arr) (m : Mem) :
    regWrite (.host n) x k v c a m = (c, a, m) := by
  have hacc : ∀ y, c.accError (.host n) true y = c := fun y => by simp [Chip.accError, h]
  unfold regWrite
  split
  · rw [hacc]
  · simp [Chip.regMay, h, Chip.denied, hacc]

/-- A write of GLB_LAT_SEL by a host selects a unit (R183). -/
theorem regWrite_GLB_LAT_SEL {n : Fin 4} {c : Chip} (h : c.hostGone (.host n) = false) {v : Nat} (hv : v < 2 ^ 32) (a : Arr) (m : Mem) :
    regWrite (.host n) 0x20 4 v c a m = ((c.answer .ok).set .GLB_LAT_SEL_UNIT n (bits v 7 0), a, m) := by
  rw [regWrite_four rfl (find_GLB_LAT_SEL n _) rfl rfl (by simp [Chip.regMay, Chip.hostMay, h]) rfl rfl, write32_narrow rfl hv]
  simp [Reg.def_GLB_LAT_SEL, writeReg, Chip.writeGlb, Chip.writeFields, Chip.writeField]

/-- A write of PMP_HOLD_LIMIT by the host that the partition is bound to; FAULT_N follows it as any write of the block. -/
theorem regWrite_PMP_HOLD_LIMIT {n : Fin 4} {p : Nat} {c : Chip} (hp : p < 16) (hb : c.get .PTN_CFG_BIND p = n.val)
    (h : c.hostGone (.host n) = false) {v : Nat} (hv : v < 2 ^ 32) (a : Arr) (m : Mem) :
    regWrite (.host n) (0x40001C + p * 0x10000) 4 v c a m =
      (((c.answer .ok).set .PMP_HOLD_LIMIT_LIMIT p (bits v 15 0)).faultN, a, m) := by
  rw [regWrite_four (regPlace_host_part n (by omega) hp (by omega)) (find_PMP_HOLD_LIMIT p _) (by omega) rfl
    (by simp [Chip.regMay_host_part, hb, h]) rfl rfl, write32_narrow rfl hv]
  simp [Reg.def_PMP_HOLD_LIMIT, writeReg, writePart, faultAfter, Chip.writeFields, Chip.writeField]

/-- A write to the block of a partition of another port is an access error (R123). -/
theorem regWrite_part_unbound {n : Fin 4} {x p off : Nat} {c : Chip} (hx : x = 0x400000 + p * 0x10000 + off) (hp : p < 16) (ho : off < 0x10000)
    (hb : c.get .PTN_CFG_BIND p ≠ n.val) (k v : Nat) (a : Arr) (m : Mem) :
    regWrite (.host n) x k v c a m = (c.accError (.host n) true x, a, m) := by
  simp [regWrite, regPlace_host_part n hx hp ho, Chip.regMay_host_part, hb, Chip.denied]

/-- A write of NOC_TIMEOUT by a core with service rights: 0 is rejected (R314). -/
theorem mapWrite_NOC_TIMEOUT {k : Fin 8} {sec : Bool} (hr : k.val < 4 ∨ sec = true) {v : Nat} (hv : v < 2 ^ 32) (c : Chip) (a : Arr) (m : Mem) :
    mapWrite (.core k sec) 0xF00040 4 v c a m =
      (if bits v 15 0 = 0 then (c.answer .ok).set .NOC_STATUS_CFG_REJ 0 1 else (c.answer .ok).set .NOC_TIMEOUT_US 0 (bits v 15 0), a, m) := by
  have hmay : c.regMay (.core k sec) ⟨.noc, 0, 0x40⟩ true = true := by
    rcases hr with h | h <;> simp [Chip.regMay, Chip.coreMay, h]
  have hmap : mapWrite (.core k sec) 0xF00040 4 v c a m = regWrite (.core k sec) 0xF00040 4 v c a m := rfl
  rw [hmap, regWrite_four rfl (find_NOC_TIMEOUT _) rfl rfl hmay rfl rfl, write32_narrow rfl hv]
  by_cases h0 : bits v 15 0 = 0
  · simp [Reg.def_NOC_TIMEOUT, writeReg, Chip.writeNoc, Chip.writeIf, h0]
  · simp [Reg.def_NOC_TIMEOUT, writeReg, Chip.writeNoc, Chip.writeIf, Chip.writeFields, Chip.writeField, h0]

/-- Settles O15: each clause is what the write of its register gives. -/
theorem registerWritesByName : Obligations.RegisterWritesByName := by
  intro n p k sec x size v s hv
  have haddr : (BitVec.ofNat 48 (0x40001C + p.val * 0x10000)).toNat = 0x40001C + p.val * 0x10000 := addr_toNat (by omega)
  refine ⟨fun hgone => ?lost, fun hhere => ⟨?select, fun hbind => ?limit, fun hother => ?other⟩, fun hrights => ?timeout⟩
  case lost => exact exec_registerWrite_eq rfl (regWrite_hostGone hgone _ _ _ _ _)
  case select => exact exec_registerWrite_eq rfl (regWrite_GLB_LAT_SEL hhere hv _ _)
  case limit =>
    refine ⟨_, exec_registerWrite_eq haddr (regWrite_PMP_HOLD_LIMIT p.isLt hbind hhere hv s.arr s.mem), ?_, ?_, rfl, rfl, ?_⟩
    · simp [(Chip.faultN_quiet _).resp]
    · rw [Chip.faultN_get _ _ _ rfl, Chip.get_set_same]
      exact Fld.clip_lt (bits_lt _ _ _)
    · intro g j hsignal hother
      rw [Chip.faultN_get _ _ _ hsignal, Chip.get_set_ne _ _ (by simpa using hother), Chip.answer_get]
  case other =>
    exact ⟨_, exec_registerWrite_eq haddr (regWrite_part_unbound (off := 0x1C) (by omega) p.isLt (by omega) hother 4 v.toNat s.arr s.mem), rfl, rfl, rfl⟩
  case timeout => exact ⟨_, exec_registerWrite_eq rfl (mapWrite_NOC_TIMEOUT hrights hv _ _ _), rfl, rfl, rfl⟩

end Sys2Proof.Machine
end

section
/-! PROOFS. Two-part accesses (O16) and reads with effects (O17). -/

namespace Sys2Proof.Machine

/-! Reads at a host's address -/

/-- What a register read of a host gives is what RC_READ leaves. -/
theorem exec_rcRead_host {n : Fin 4} {x : BitVec 48} {s : State} {y : Nat} {c : Chip} (hx : x.toNat = y)
    (h : regRead (.host n) y 4 s.chip s.arr = c) : exec (.rcRead (.host n) x 2) s = .next { s with chip := c } := by
  subst hx h; rfl

theorem exec_lowHalfRead_host {n : Fin 4} {x : BitVec 48} {s : State} {y : Nat} {c : Chip} (hx : x.toNat = y)
    (h : regRead (.host n) y 4 s.chip s.arr = c) : exec (.lowHalfRead (.host n) x) s = .next { s with chip := c } := by
  subst hx h; rfl

theorem exec_highHalfRead_host {n : Fin 4} {x : BitVec 48} {s : State} {y : Nat} {c : Chip} (hx : x.toNat = y)
    (h : regRead (.host n) y 4 s.chip s.arr = c) : exec (.highHalfRead (.host n) x) s = .next { s with chip := c } := by
  subst hx h; rfl

theorem exec_lowHalfWrite_host {n : Fin 4} {x : BitVec 48} {v : Word32} {s : State} {y : Nat} {c : Chip} {a : Arr} {m : Mem} (hx : x.toNat = y)
    (h : regWrite (.host n) y 4 v.toNat s.chip s.arr s.mem = (c, a, m)) :
    exec (.lowHalfWrite (.host n) x v) s = .next { s with chip := c, arr := a, mem := m } := by
  subst hx
  show Host.Outcome.next (s.onAll (regWrite (.host n) x.toNat 4 v.toNat)) = _
  rw [State.onAll, h]

theorem exec_highHalfWrite_host {n : Fin 4} {x : BitVec 48} {v : Word32} {s : State} {y : Nat} {c : Chip} {a : Arr} {m : Mem} (hx : x.toNat = y)
    (h : regWrite (.host n) y 4 v.toNat s.chip s.arr s.mem = (c, a, m)) :
    exec (.highHalfWrite (.host n) x v) s = .next { s with chip := c, arr := a, mem := m } := by
  subst hx
  show Host.Outcome.next (s.onAll (regWrite (.host n) x.toNat 4 v.toNat)) = _
  rw [State.onAll, h]

/-! The latches and held halves of R16 -/

theorem Chip.find_setLatch (c : Chip) (k v : Nat) : NatMap.find 0 (c.setLatch k v).latch k = v + 1 := by
  simp [Chip.setLatch, NatMap.find_put]

theorem Chip.find_dropLatch (c : Chip) (k : Nat) : NatMap.find 0 (c.dropLatch k).latch k = 0 := NatMap.find_erase_same _ _ _

theorem Chip.find_hold (c : Chip) (k v : Nat) : NatMap.find 0 (c.hold k v).held k = v + 1 := by
  simp [Chip.hold, NatMap.find_put]

theorem Chip.find_dropHold (c : Chip) (k : Nat) : NatMap.find 0 (c.dropHold k).held k = 0 := NatMap.find_erase_same _ _ _

@[simp] theorem Chip.dropHold_get (c : Chip) (k : Nat) (f : Fld) (i : Nat) : (c.dropHold k).get f i = c.get f i := rfl

/-- The low half of a 64-bit register answers that half and latches the other (R16). -/
theorem read32_low_wide {who : Init} {h : RegHit} (hl : h.high = false) (hw : h.reg.wide = true) (base : Nat) (c : Chip) (a : Arr) :
    read32 who h base c a = ((c.readReg a who h.reg h.k true).1 % 2 ^ 32,
      (c.readReg a who h.reg h.k true).2.setLatch (latchKey who base) (bits (c.readReg a who h.reg h.k true).1 63 32)) := by
  simp [read32, hl, hw, half]

/-- The low half of a 32-bit register is the register. -/
theorem read32_narrow {who : Init} {h : RegHit} (hl : h.high = false) (hw : h.reg.wide = false) (base : Nat) (c : Chip) (a : Arr) :
    read32 who h base c a = ((c.readReg a who h.reg h.k true).1 % 2 ^ 32, (c.readReg a who h.reg h.k true).2) := by
  simp [read32, hl, hw, half]

/-- The high half with a latched value answers that value and consumes it (R16). -/
theorem read32_high_latched {who : Init} {h : RegHit} (hh : h.high = true) {base v : Nat} {c : Chip}
    (hv : NatMap.find 0 c.latch (latchKey who base) = v + 1) (a : Arr) :
    read32 who h base c a = (v, c.dropLatch (latchKey who base)) := by
  simp [read32, hh, hv]

/-- The high half with nothing latched answers the current one (R16). -/
theorem read32_high_unlatched {who : Init} {h : RegHit} (hh : h.high = true) {base : Nat} {c : Chip}
    (hv : NatMap.find 0 c.latch (latchKey who base) = 0) (a : Arr) :
    read32 who h base c a = (bits (c.readReg a who h.reg h.k false).1 63 32, (c.readReg a who h.reg h.k false).2) := by
  simp [read32, hh, hv, half]

/-- The address of a register from that of its high half. -/
theorem highBase {d : RegDef} {k x base : Nat} (h : x = base + 4) : (⟨d, k, true⟩ : RegHit).base x = base := by
  simp only [RegHit.base, if_true]
  omega

/-- A write of the low half of a 64-bit register is held, and changes nothing else (R16). -/
theorem write32_low_wide {who : Init} {p : RegPlace} {h : RegHit} (hl : h.high = false) (hw : h.reg.wide = true) {v : Nat} (hv : v < 2 ^ 32)
    (base : Nat) (c : Chip) (a : Arr) (m : Mem) : write32 who p h base v c a m = (c.hold (latchKey who base) v, a, m) := by
  simp [write32, hl, hw, Nat.mod_eq_of_lt (show v < 4294967296 from hv)]

/-- A write of the high half with a low half held writes both at once, and the held half is used up (R16). -/
theorem write32_high_held {who : Init} {p : RegPlace} {h : RegHit} (hh : h.high = true) (hw : h.reg.wide = true) {v : Nat} (hv : v < 2 ^ 32)
    {base low : Nat} {c : Chip} (hlow : NatMap.find 0 c.held (latchKey who base) = low + 1) (a : Arr) (m : Mem) :
    write32 who p h base v c a m = writeReg who p.blk h.reg p.inst h.k (low + v * 2 ^ 32) base (c.dropHold (latchKey who base)) a m := by
  simp [write32, hh, hw, hlow, Nat.mod_eq_of_lt (show v < 4294967296 from hv)]

theorem bits_high_half {v : Nat} (h : v < 2 ^ 64) : bits v 63 32 = v / 2 ^ 32 := by
  unfold bits
  omega

/-! PMP_CYCLE -/

/-- A read of PMP_CYCLE only shows the cycle. -/
theorem Chip.readReg_PMP_CYCLE {c : Chip} {p : Nat} (h : c.get .PMP_CYCLE_CYCLE p < 2 ^ 64) (a : Arr) (who : Init) (lo : Bool) :
    c.readReg a who Reg.def_PMP_CYCLE p lo = (c.get .PMP_CYCLE_CYCLE p, c) := by
  simp [Chip.readReg, Reg.def_PMP_CYCLE, Chip.regValue, Chip.view, Chip.readClear]
  omega

section
variable {n : Fin 4} {p : Nat} {c : Chip} (hp : p < 16) (hb : c.get .PTN_CFG_BIND p = n.val) (h : c.get .PMP_CYCLE_CYCLE p < 2 ^ 64) (a : Arr)
include hp hb h

theorem regRead_PMP_CYCLE_low :
    regRead (.host n) (0x400020 + p * 0x10000) 4 c a =
      (c.setLatch (latchKey (.host n) (0x400020 + p * 0x10000)) (c.get .PMP_CYCLE_CYCLE p / 2 ^ 32)).answer .ok (c.get .PMP_CYCLE_CYCLE p % 2 ^ 32) := by
  rw [regRead_four (regPlace_host_part n (by omega) hp (by omega)) (find_PMP_CYCLE_low p _) (by omega) rfl
    (by simp [Chip.regMay_host_part, hb]) rfl,
    read32_low_wide rfl rfl, Chip.readReg_PMP_CYCLE h, bits_high_half h]
  rfl

omit h in
theorem regRead_PMP_CYCLE_latched {v : Nat} (hv : NatMap.find 0 c.latch (latchKey (.host n) (0x400020 + p * 0x10000)) = v + 1) :
    regRead (.host n) (0x400024 + p * 0x10000) 4 c a = (c.dropLatch (latchKey (.host n) (0x400020 + p * 0x10000))).answer .ok v := by
  rw [regRead_four (regPlace_host_part n (by omega) hp (by omega)) (find_PMP_CYCLE_high p _) (by omega) (highBase (base := 0x400020 + p * 0x10000) (by omega))
    (by simp [Chip.regMay_host_part, hb]) rfl, read32_high_latched rfl hv]

theorem regRead_PMP_CYCLE_current (hv : NatMap.find 0 c.latch (latchKey (.host n) (0x400020 + p * 0x10000)) = 0) :
    regRead (.host n) (0x400024 + p * 0x10000) 4 c a = c.answer .ok (c.get .PMP_CYCLE_CYCLE p / 2 ^ 32) := by
  rw [regRead_four (regPlace_host_part n (by omega) hp (by omega)) (find_PMP_CYCLE_high p _) (by omega) (highBase (base := 0x400020 + p * 0x10000) (by omega))
    (by simp [Chip.regMay_host_part, hb]) rfl, read32_high_unlatched rfl hv, Chip.readReg_PMP_CYCLE h, bits_high_half h]

end

/-! DMA_CH_DESC_BASE -/

theorem Chip.regMay_host_dma {c : Chip} {n : Fin 4} (h : c.hostGone (.host n) = false) (off : Nat) (w : Bool) :
    c.regMay (.host n) ⟨.dma, n, off⟩ w = true := by
  simp [Chip.regMay, Chip.hostMay, h]

theorem regWrite_DESC_BASE_low {n : Fin 4} {ch : Fin 8} {c : Chip} (h : c.hostGone (.host n) = false) {v : Nat} (hv : v < 2 ^ 32) (a : Arr) (m : Mem) :
    regWrite (.host n) (0xD01008 + ch.val * 0x100) 4 v c a m =
      ((c.answer .ok).hold (latchKey (.host n) (0xD01008 + ch.val * 0x100)) v, a, m) := by
  rw [regWrite_four (regPlace_host_dma n (off := 0x1008 + ch.val * 0x100) (by omega) (by omega)) (find_DMA_CH_DESC_BASE_low n _ ch) (by omega)
    rfl (Chip.regMay_host_dma h _ _) rfl rfl, write32_low_wide rfl rfl hv]
  rfl

theorem regWrite_DESC_BASE_high {n : Fin 4} {ch : Fin 8} {c : Chip} (h : c.hostGone (.host n) = false) {low v : Nat} (hv : v < 2 ^ 32)
    (hen : c.get .DMA_CH_CTL_EN (n * 8 + ch.val) = 0)
    (hlow : NatMap.find 0 c.held (latchKey (.host n) (0xD01008 + ch.val * 0x100)) = low + 1) (a : Arr) (m : Mem) :
    regWrite (.host n) (0xD01008 + ch.val * 0x100 + 4) 4 v c a m =
      (((c.answer .ok).dropHold (latchKey (.host n) (0xD01008 + ch.val * 0x100))).set .DMA_CH_DESC_BASE_ADDR (n * 8 + ch.val)
        (bits (low + v * 2 ^ 32) 63 6), a, m) := by
  rw [regWrite_four (regPlace_host_dma n (off := 0x1008 + ch.val * 0x100 + 4) (by omega) (by omega)) (find_DMA_CH_DESC_BASE_high n _ ch) (by omega)
    (highBase rfl) (Chip.regMay_host_dma h _ _) rfl rfl, write32_high_held (c := c.answer .ok) rfl rfl hv hlow]
  simp [Reg.def_DMA_CH_DESC_BASE, writeReg, Chip.writeDma, Chip.writeDmaBase, Chip.on, hen]

/-- Settles O16: the three reads of PMP_CYCLE and the two writes of DMA_CH_DESC_BASE. -/
theorem twoPartAccesses : Obligations.TwoPartAccesses := by
  refine ⟨fun n p s hbind hcyc => ?reads, fun n ch lo hi s hen hhere => ?writes⟩
  case reads =>
    have hlo : (BitVec.ofNat 48 (0x400020 + p.val * 0x10000)).toNat = 0x400020 + p.val * 0x10000 := addr_toNat (by omega)
    have hhi : (BitVec.ofNat 48 (0x400024 + p.val * 0x10000)).toNat = 0x400024 + p.val * 0x10000 := addr_toNat (by omega)
    refine ⟨?low, fun v hv => ?latched, fun hv => ?current⟩
    case low =>
      exact ⟨_, exec_lowHalfRead_host hlo (regRead_PMP_CYCLE_low p.isLt hbind hcyc _), rfl, Chip.find_setLatch _ _ _, rfl, rfl, rfl⟩
    case latched =>
      exact ⟨_, exec_highHalfRead_host hhi (regRead_PMP_CYCLE_latched p.isLt hbind _ hv), rfl, Chip.find_dropLatch _ _, rfl, rfl, rfl⟩
    case current =>
      exact ⟨_, exec_highHalfRead_host hhi (regRead_PMP_CYCLE_current p.isLt hbind hcyc _ hv), rfl, rfl, rfl, rfl, rfl⟩
  case writes =>
    have hlo : (BitVec.ofNat 48 (0xD01008 + ch.val * 0x100)).toNat = 0xD01008 + ch.val * 0x100 := addr_toNat (by omega)
    have hhi : (BitVec.ofNat 48 (0xD01008 + ch.val * 0x100 + 4)).toNat = 0xD01008 + ch.val * 0x100 + 4 := addr_toNat (by omega)
    refine ⟨?low, fun hheld => ?high⟩
    case low => exact ⟨_, exec_lowHalfWrite_host hlo (regWrite_DESC_BASE_low hhere lo.isLt _ _), rfl, Chip.find_hold _ _ _, rfl, rfl, rfl⟩
    case high =>
      have hbits : bits (lo.toNat + hi.toNat * 2 ^ 32) 63 6 = (lo.toNat + hi.toNat * 2 ^ 32) / 2 ^ 6 := by
        have hl := lo.isLt
        have hh := hi.isLt
        unfold bits
        omega
      refine ⟨_, exec_highHalfWrite_host hhi (regWrite_DESC_BASE_high hhere hi.isLt hen hheld _ _), ?_, ?_, ?_, rfl, rfl⟩
      · rw [Chip.get_set_same, Fld.clip_lt (bits_lt _ _ _), hbits]
      · rw [Chip.set_held]
        exact Chip.find_dropHold _ _
      · intro g j hother
        rw [Chip.get_set_ne _ _ (by simpa using hother), Chip.dropHold_get, Chip.answer_get]

/-! PMP_RESULT -/

/-- A read of PMP_RESULT answers the low 32 bits of its fields put together, whatever the fields hold (R95). -/
theorem regRead_PMP_RESULT {n : Fin 4} {p : Nat} {c : Chip} (hp : p < 16) (hb : c.get .PTN_CFG_BIND p = n.val) (a : Arr) :
    regRead (.host n) (0x400060 + p * 0x10000) 4 c a = (c.readResult .pmp p).2.answer .ok ((c.readResult .pmp p).1 % 2 ^ 32) := by
  rw [regRead_four (regPlace_host_part n (by omega) hp (by omega)) (find_PMP_RESULT p _) (by omega) rfl (by simp [Chip.regMay_host_part, hb]) rfl,
    read32_narrow rfl rfl]
  rfl

theorem exec_resultRead_pmp {n : Fin 4} {p : Fin 16} {s : State} (hb : s.chip.get .PTN_CFG_BIND p = n.val) :
    exec (.resultRead (.host n) (.pmp p)) s =
      .next { s with chip := (s.chip.readResult .pmp p).2.answer .ok ((s.chip.readResult .pmp p).1 % 2 ^ 32) } := by
  rw [← regRead_PMP_RESULT p.isLt hb s.arr]
  rfl

/-- A state of port 0 and partition 0 in which PMP_RESULT.READY, a field of one bit, holds 2. -/
def wideReady : State :=
  { State.reset with chip := { State.reset.chip with fld := [(Fld.PMP_RESULT_READY.key 0, 2), (Fld.PTN_CFG_BIND.key 0, 0)] } }

/-- Refutes O17: its second clause bounds no field of the result, and a register of 32 bits answers no more than 32. Where READY holds 2, the fields put
together make 2 ^ 32, and the read answers 0. -/
theorem not_readsWithEffects : ¬ Obligations.ReadsWithEffects := by
  rintro ⟨-, hresult, -⟩
  obtain ⟨t, ht, -, hvalue, -⟩ := hresult 0 0 wideReady (by decide)
  rw [exec_resultRead_pmp (by decide)] at ht
  obtain rfl := Host.Outcome.next.inj ht
  exact absurd hvalue (by decide)

end Sys2Proof.Machine
end

section
/-! PROOFS. What the winding down of pumps, loads, ports and DMA channels leaves alone: whether the module is present, its bank supplies, its links and its
power state, and the pending power command (O58). -/

namespace Sys2Proof.Machine

/-! Tables with entries taken out by key -/

theorem NatMap.find_filter (d : Nat) (q : Nat → Bool) (m : NatMap) (k : Nat) :
    NatMap.find d (m.filter fun e => q e.1) k = if q k then NatMap.find d m k else d := by
  induction m with
  | nil => simp [NatMap.find]
  | cons e m ih =>
    obtain ⟨a, v⟩ := e
    by_cases hak : a = k
    · subst hak
      by_cases hq : q a <;> simp [hq, NatMap.find, ih]
    · by_cases hq : q a <;> simp [hq, NatMap.find, hak, ih]

theorem Fld.key_mod (f : Fld) (i : Nat) : f.key i % 1024 = f.ctorIdx := by
  have := f.ctorIdx_lt
  unfold Fld.key
  omega

theorem Fld.key_div (f : Fld) (i : Nat) : f.key i / 1024 = i := by
  have := f.ctorIdx_lt
  unfold Fld.key
  omega

theorem Fld.ctorIdx_eq_iff (f g : Fld) : f.ctorIdx = g.ctorIdx ↔ f = g := ⟨Fld.ctorIdx_inj, congrArg _⟩

/-- A field read after some places of a field have returned to its reset value. -/
theorem Chip.get_clearWhere (c : Chip) (f g : Fld) (p : Nat → Bool) (j : Nat) :
    (c.clearWhere f p).get g j = if g = f ∧ p j = true then g.reset else c.get g j := by
  unfold Chip.clearWhere Chip.get
  rw [NatMap.find_filter _ (fun k => !(k % 1024 = f.ctorIdx && p (k / 1024)))]
  by_cases h : g = f <;> cases hp : p j <;> simp [Fld.key_mod, Fld.key_div, Fld.ctorIdx_eq_iff, h, hp]

/-! Spared fields -/

/-- `d` has the fields of `c` that `K` names, its host port mode, its grade and its time. -/
structure Chip.Spares (K : Fld → Nat → Bool) (c d : Chip) : Prop where
  get : ∀ f i, K f i = true → d.get f i = c.get f i
  x16 : d.x16 = c.x16
  grade : d.grade = c.grade
  now : d.now = c.now

namespace Chip.Spares

variable {K : Fld → Nat → Bool} {c d e : Chip}

theorem refl (c : Chip) : Spares K c c := ⟨fun _ _ _ => rfl, rfl, rfl, rfl⟩

theorem trans (h : Spares K c d) (k : Spares K d e) : Spares K c e :=
  ⟨fun f i hf => (k.get f i hf).trans (h.get f i hf), k.x16.trans h.x16, k.grade.trans h.grade, k.now.trans h.now⟩

theorem mono {L : Fld → Nat → Bool} (h : Spares K c d) (hL : ∀ f i, L f i = true → K f i = true) : Spares L c d :=
  ⟨fun f i hf => h.get f i (hL f i hf), h.x16, h.grade, h.now⟩

theorem of_quiet (hK : ∀ f i, K f i = true → f.signal = false) (h : Quiet c d) : Spares K c d :=
  ⟨fun f i hf => h.get f i (hK f i hf), h.x16, h.grade, h.now⟩

theorem set {f : Fld} {i : Nat} (h : Spares K c d) (v : Nat) (hf : K f i = false) : Spares K c (d.set f i v) :=
  h.trans ⟨fun g j hg => Chip.get_set_ne d v (by rintro ⟨rfl, rfl⟩; simp [hf] at hg), rfl, rfl, rfl⟩

theorem set_both (h : Spares K c d) (f : Fld) (i v : Nat) : Spares K (c.set f i v) (d.set f i v) :=
  ⟨fun g j hg => by rw [Chip.get_set, Chip.get_set, h.get g j hg], h.x16, h.grade, h.now⟩

theorem dies (h : Spares K c d) : d.dies = c.dies := by
  unfold Chip.dies
  rw [h.grade]

theorem portExists (h : Spares K c d) (n : Nat) : d.portExists n = c.portExists n := by
  unfold Chip.portExists
  rw [h.x16]

theorem cond {p : Prop} [Decidable p] (h : Spares K c d) (k : Spares K c e) : Spares K c (if p then d else e) := by
  split
  · exact h
  · exact k

theorem fold {α : Type} (g : Chip → α → Chip) (l : List α) (c : Chip) (h : ∀ y ∈ l, ∀ d, Spares K d (g d y)) : Spares K c (l.foldl g c) := by
  induction l generalizing c with
  | nil => exact refl _
  | cons y l ih => exact (h y (by simp) c).trans (ih _ fun z hz => h z (by simp [hz]))

/-- A loop whose state has the registers as a part. -/
theorem foldOn {σ α : Type} (π : σ → Chip) (g : σ → α → σ) (l : List α) (x : σ) (h : ∀ y ∈ l, ∀ z, Spares K (π z) (π (g z y))) :
    Spares K (π x) (π (l.foldl g x)) := by
  induction l generalizing x with
  | nil => exact refl _
  | cons y l ih => exact (h y (by simp) x).trans (ih _ fun z hz => h z (by simp [hz]))

theorem unsetAll (fs : List Fld) (i : Nat) (c : Chip) (h : (fs.all fun f => !K f i) = true) : Spares K c (c.unsetAll fs i) :=
  fold _ fs c fun f hf d => (refl d).set _ (by simpa using List.all_eq_true.mp h f hf)

theorem clearWhere {f : Fld} (p : Nat → Bool) (hf : ∀ i, K f i = false) : Spares K c (c.clearWhere f p) :=
  ⟨fun g j hg => by rw [Chip.get_clearWhere, if_neg (by rintro ⟨rfl, -⟩; simp [hf] at hg)], rfl, rfl, rfl⟩

end Chip.Spares

/-! The steady fields -/

/-- The fields that winding down leaves alone: those of presence, supplies, links and power state, and the command queue from the power command's place on. -/
def Fld.steady (f : Fld) (i : Nat) : Bool :=
  match f with
  | .H_ABSENT | .IOB_BANK_STATUS_PGOOD | .H_LINKUP | .H_LOST | .H_QUIESCE | .PWR_STATE_STATE => true
  | .CQ_PEND | .CQ_CMD => decide (CmdReg.pwr.idx 0 ≤ i)
  | _ => false

theorem Fld.signal_of_steady (f : Fld) (i : Nat) (h : f.steady i = true) : f.signal = false := by
  unfold Fld.steady at h
  split at h <;> first | rfl | cases h

/-- `d` has the steady fields of `c`. -/
abbrev Chip.Steady (c d : Chip) : Prop := Chip.Spares Fld.steady c d

theorem Chip.Steady.of_quiet {c d : Chip} (h : Chip.Quiet c d) : Chip.Steady c d := Chip.Spares.of_quiet Fld.signal_of_steady h

theorem Chip.raise_steady (c : Chip) (s : Nat) : Chip.Steady c (c.raise s) := Chip.Steady.of_quiet (Chip.raise_quiet c s)

theorem Chip.pumpEvent_steady (c : Chip) {f : Fld} (n p : Nat) (hf : f.steady p = false) : Chip.Steady c (c.pumpEvent f n p) :=
  ((Chip.Spares.refl c).set 1 hf).trans (Chip.Steady.of_quiet (Chip.pumpEvent_quiet c f n p))

/-! Commands and their results -/

theorem CmdReg.owns_of_steady (r : CmdReg) (f : Fld) (i : Nat) (h : f.steady i = true) : r.owns f = false := by
  unfold Fld.steady at h
  split at h <;> first | cases h; done | cases r <;> rfl

theorem Chip.resultEvent_steady (c : Chip) (r : CmdReg) (i : Nat) : Chip.Steady c (c.resultEvent r i) := by
  cases r with
  | pmp => exact ((Chip.Spares.refl c).set _ rfl).trans (Chip.pumpEvent_steady _ _ _ rfl)
  | prb => exact .refl c
  | pwr => exact .refl c
  | ptn => exact Chip.raise_steady c _
  | ldr => exact Chip.raise_steady c _
  | mt => exact Chip.raise_steady c _
  | rimLd => exact Chip.raise_steady c _

theorem Chip.putResult_steady (c : Chip) (r : CmdReg) (i cmd seq outcome code : Nat) : Chip.Steady c (c.putResult r i cmd seq outcome code) := by
  have base : Chip.Spares (fun _ _ => false) c (c.resultBase r i cmd seq outcome code) :=
    (((((Chip.Spares.refl c).set _ rfl).set _ rfl).set _ rfl).set _ rfl).set _ rfl |>.set _ rfl
  have event := Chip.resultEvent_steady (c.resultBase r i cmd seq outcome code) r i
  exact ⟨fun f j hf => Chip.putResult_get c r i cmd seq outcome code f j (r.owns_of_steady f j hf) (f.signal_of_steady j hf),
    event.x16.trans base.x16, event.grade.trans base.grade, event.now.trans base.now⟩

theorem Chip.nextSeq_steady (c : Chip) (r : CmdReg) (i : Nat) : Chip.Steady c (c.nextSeq r i) :=
  ((Chip.Spares.refl c).set _ rfl).set 0 (by cases r <;> rfl)

theorem Chip.refuse_steady (c : Chip) (r : CmdReg) (i cmd code : Nat) : Chip.Steady c (c.refuse r i cmd code) :=
  (Chip.nextSeq_steady c r i).trans (Chip.putResult_steady _ _ _ _ _ _ _)

theorem Chip.cmdLost_steady (c : Chip) (r : CmdReg) (i : Nat) : Chip.Steady c (c.cmdLost r i) := (Chip.Spares.refl c).set 1 (by cases r <;> rfl)

section
variable {r : CmdReg} {i : Nat} (h : r.idx i < CmdReg.pwr.idx 0)
include h

theorem Fld.not_steady_of_lt : Fld.CQ_PEND.steady (r.idx i) = false ∧ Fld.CQ_CMD.steady (r.idx i) = false := by
  constructor <;> exact decide_eq_false (Nat.not_le.mpr h)

theorem Chip.accept_steady (c : Chip) (cmd : Nat) : Chip.Steady c (c.accept r i cmd) :=
  (((Chip.nextSeq_steady c r i).set _ rfl).set 1 (Fld.not_steady_of_lt h).1).set cmd (Fld.not_steady_of_lt h).2

theorem Chip.finish_steady (c : Chip) (outcome code : Nat) : Chip.Steady c (c.finish r i outcome code) :=
  .cond (((Chip.Spares.refl c).set 0 (Fld.not_steady_of_lt h).1).trans (Chip.putResult_steady _ _ _ _ _ _ _)) (.refl c)

end

theorem CmdReg.pmp_idx_lt {p : Nat} (hp : p < 16) : CmdReg.pmp.idx p < CmdReg.pwr.idx 0 := Nat.add_lt_add_left (m := 16) (by omega) _ |>.trans_le (by decide)
theorem CmdReg.ldr_idx_lt {p : Nat} (hp : p < 16) : CmdReg.ldr.idx p < CmdReg.pwr.idx 0 := Nat.add_lt_add_left (m := 16) (by omega) _ |>.trans_le (by decide)

/-! Pumps -/

theorem Chip.clearMarks_steady (c : Chip) (p : Nat) : Chip.Steady c (c.clearMarks p) := .clearWhere _ fun _ => rfl

theorem Chip.enterHalt_steady (c : Chip) (p cause : Nat) : Chip.Steady c (c.enterHalt p cause) := by
  have causes : ∀ d : Chip, Chip.Steady d (([(Fld.PMP_STOP_CAUSE_MASK, 1), (.PMP_STOP_CAUSE_OVERRUN, 2), (.PMP_STOP_CAUSE_LAG, 3), (.PMP_STOP_CAUSE_HALT_CMD, 5),
      (.PMP_STOP_CAUSE_DATA_PARITY, 6), (.PMP_STOP_CAUSE_REPAIR_FAIL, 7), (.PMP_STOP_CAUSE_HOST_LOSS, 8)] : List (Fld × Nat)).foldl
      (fun c x => if bitB cause x.2 then c.set x.1 p 1 else c) d) := fun d =>
    Chip.Spares.fold _ _ d fun x hx e => .cond ((Chip.Spares.refl e).set 1 (by fin_cases hx <;> rfl)) (.refl e)
  have marks := fun d => (Chip.clearMarks_steady d p).set (f := .H_DIV_ON) (i := p) 0 rfl
  exact ((((((Chip.Spares.refl c).set _ rfl).set _ rfl).trans (causes _)).set _ rfl).set _ rfl).trans (marks _) |>.trans (Chip.pumpEvent_steady _ _ _ rfl)

section
variable {p : Nat} (hp : p < 16)
include hp

theorem Chip.stopBetween_steady (c : Chip) (cause : Nat) : Chip.Steady c (c.stopBetween p cause) :=
  .cond ((Chip.enterHalt_steady c p cause).trans (Chip.finish_steady (CmdReg.pmp_idx_lt hp) _ _ _)) (Chip.enterHalt_steady c p cause)

theorem Chip.stopCause_steady (c : Chip) (n : Nat) : Chip.Steady c (c.stopCause p n) :=
  .cond ((Chip.Spares.refl c).set _ rfl) (.cond (Chip.stopBetween_steady hp c _) (.refl c))

theorem Chip.haltPending_steady (c : Chip) : Chip.Steady c (c.haltPending p) := by
  unfold Chip.haltPending
  split
  · exact .cond (Chip.stopBetween_steady hp c _) (Chip.finish_steady (CmdReg.pmp_idx_lt hp) c _ _)
  · exact Chip.stopCause_steady hp c 5
  · exact .refl c
  · exact Chip.cmdLost_steady c _ _

theorem Chip.pumpHalt_steady (c : Chip) : Chip.Steady c (c.pumpHalt p) :=
  have accepted := Chip.accept_steady (CmdReg.pmp_idx_lt hp) c 2
  .cond (Chip.refuse_steady c _ _ _ _) <| .cond (Chip.refuse_steady c _ _ _ _) <|
    .cond ((accepted.trans (Chip.enterHalt_steady _ _ _)).trans (Chip.finish_steady (CmdReg.pmp_idx_lt hp) _ _ _))
      (accepted.trans (Chip.stopCause_steady hp _ _))

/-- A HALT, as QUIESCE gives it to every pump. -/
theorem pmpCmd_halt_steady (count : Nat) (svc : Bool) (c : Chip) (a : Arr) : Chip.Steady c (pmpCmd p 2 count svc c a).1 := by
  unfold pmpCmd
  split
  · exact Chip.haltPending_steady hp c
  · exact Chip.pumpHalt_steady hp c

theorem Chip.partLoss_steady (n : Nat) (c : Chip) : Chip.Steady c (c.partLoss n p) := by
  have told : Chip.Steady c ((((((c.set .PMP_HOLD_REQ_HOST p 0).set .PTN_LOSS_LOST p 1).set .PTN_LOSS_PORT p n).set .PTN_LOSS_CYC_CYCLE p
      (c.get .PMP_CYCLE_CYCLE p))).raise (64 + p)) :=
    (((((Chip.Spares.refl c).set _ rfl).set _ rfl).set _ rfl).set _ rfl).trans (Chip.raise_steady _ _)
  unfold Chip.partLoss
  split
  · dsimp only
    split
    · exact told.trans (Chip.stopCause_steady hp _ 8)
    · exact told.set _ rfl
    · exact told
  · exact .refl c

end

theorem quiesceHalt_steady (c : Chip) (a : Arr) : Chip.Steady c (quiesceHalt c a).1 :=
  Chip.Spares.foldOn Prod.fst _ _ (c, a) fun p hp x => by
    dsimp only
    split
    · exact .refl _
    · exact pmpCmd_halt_steady (List.mem_range.mp hp) 0 true _ _

/-! DMA channels -/

theorem Chip.dmaStop_steady (c : Chip) (ch : Nat) : Chip.Steady c (c.dmaStop ch) :=
  (((Chip.Spares.refl c).set _ rfl).set _ rfl).trans (Chip.raise_steady _ _)

/-- An abort of a channel that has read no later descriptor. -/
theorem Chip.dmaAbort_steady (c : Chip) (ch : Nat) : Chip.Steady c (c.dmaAbort ch []) := by
  have marked : Chip.Steady c (c.set .DMA_CH_CTL_ABORT ch 1) := (Chip.Spares.refl c).set 1 rfl
  unfold Chip.dmaAbort
  split
  · exact .refl c
  · dsimp only
    split
    · exact marked.trans (.cond (Chip.dmaStop_steady _ ch) (.refl _))
    · exact marked.trans (.cond ⟨fun _ _ _ => rfl, rfl, rfl, rfl⟩ (.refl _))

theorem Chip.dmaLoss_steady (c : Chip) (n : Nat) : Chip.Steady c (c.dmaLoss n) := by
  unfold Chip.dmaLoss
  dsimp only
  refine Chip.Spares.trans ?_ (Chip.Spares.fold _ _ _ fun ch _ d => ?_)
  · exact ⟨fun _ _ _ => rfl, rfl, rfl, rfl⟩
  have stopped : Chip.Steady d ((((d.set .DMA_CH_CTL_EN ch 0).set .DMA_CH_CTL_ABORT ch 0).set .DMA_CH_STATUS_LOSS ch 1).set .H_DMA_NEXT ch (d.get .DMA_CH_STATUS_CI ch)) :=
    ((((Chip.Spares.refl d).set _ rfl).set _ rfl).set _ rfl).set _ rfl
  split
  · exact stopped.trans (Chip.raise_steady _ _)
  · exact stopped

theorem Chip.dmaReset_steady (c : Chip) (n : Nat) : Chip.Steady c (c.dmaReset n) := by
  unfold Chip.dmaReset
  refine (Chip.dmaLoss_steady c n).trans (Chip.Spares.fold _ _ _ fun ch _ d => ?_)
  exact Chip.Spares.unsetAll _ ch d (by rfl)

/-! Loads -/

theorem dropLoading_steady (c : Chip) (m : Mem) : Chip.Steady c (dropLoading c m).1 :=
  Chip.Spares.foldOn Prod.fst _ _ (c, m) fun k _ x => by
    split
    · exact (Chip.Spares.refl _).set _ rfl
    · exact .refl _

theorem streamFail_steady (code w : Nat) (c : Chip) (m : Mem) : Chip.Steady c (streamFail code w c m).1 := by
  unfold streamFail
  have failed := (((((((dropLoading_steady c m).set (f := .RIM_LD_STATUS_ERR) (i := 0) 1 rfl).set (f := .RIM_LD_STATUS_CODE) (i := 0) code rfl).set
    (f := .RIM_LD_ERR_LOC_WORD) (i := 0) w rfl).set (f := .RIM_LD_STATUS_BUSY) (i := 0) 0 rfl).set (f := .H_RS_STATE) (i := 0) 4 rfl)).trans (Chip.raise_steady _ 223)
  dsimp only
  split
  · exact failed
  · exact failed.trans (Chip.finish_steady (by decide) _ _ _)

theorem Chip.finish_get_of_not_owned (c : Chip) {r : CmdReg} {f : Fld} (i outcome code j : Nat) (hr : r.owns f = false) (hs : f.signal = false) (hf : f ≠ .CQ_PEND) :
    (c.finish r i outcome code).get f j = c.get f j := by
  unfold Chip.finish
  split
  · rw [Chip.putResult_get _ _ _ _ _ _ _ _ _ hr hs, Chip.get_set_ne _ _ fun h => hf h.1]
  · rfl

/-- A failed stream is no longer the one that a load waits for. -/
theorem streamFail_state (code w : Nat) (c : Chip) (m : Mem) : (streamFail code w c m).1.get .H_RS_STATE 0 = 4 := by
  unfold streamFail
  dsimp only
  split
  · rw [Chip.raise_get _ _ _ _ rfl, Chip.get_set_same]; rfl
  · rw [Chip.finish_get_of_not_owned _ _ _ _ _ rfl rfl (by decide), Chip.raise_get _ _ _ _ rfl, Chip.get_set_same]; rfl

theorem loadRefuse_steady {p : Nat} (hp : p < 16) (r : Refuse) (c : Chip) (a : Arr) (m : Mem) : Chip.Steady c (loadRefuse p r c a m).1 := by
  have dropped : ∀ d : Chip, Chip.Steady d (d.dropImage p) := fun d => ⟨fun _ _ _ => rfl, rfl, rfl, rfl⟩
  have cleared : Chip.Steady c (((c.unsetAll imageFields p).dropImage p).set .PMP_STATUS_STATE p psEmpty) :=
    ((Chip.Spares.unsetAll imageFields p c rfl).trans (dropped _)).set _ rfl
  unfold loadRefuse loadClear Chip.showRefuse
  exact (((cleared.set _ rfl).set _ rfl).set _ rfl).trans (Chip.finish_steady (CmdReg.ldr_idx_lt hp) _ _ _)

theorem sourceFail_steady {p : Nat} (hp : p < 16) (c : Chip) (a : Arr) (m : Mem) : Chip.Steady c (sourceFail p c a m).1 := by
  unfold sourceFail
  split
  · unfold rimSectionDone
    dsimp only
    rw [streamFail_state, if_neg (by decide)]
    exact (streamFail_steady _ _ c m).trans (loadRefuse_steady hp _ _ _ _)
  · exact loadRefuse_steady hp _ c a m

theorem sourcesLost_steady (n : Nat) (c : Chip) (a : Arr) (m : Mem) : Chip.Steady c (sourcesLost n c a m).1 :=
  Chip.Spares.foldOn Prod.fst _ _ (c, a, m) fun p hp x => by
    split
    · exact sourceFail_steady (List.mem_range.mp hp) _ _ _
    · exact .refl _

/-! Ports -/

theorem Chip.mbxReset_steady (c : Chip) (side : MbxEnd) (n : Nat) : Chip.Steady c (c.mbxReset side n) := by
  cases side with
  | sender =>
    exact Chip.Spares.trans (.cond ((Chip.Spares.refl c).set _ rfl) (.refl c)) (Chip.Spares.fold _ _ _ fun _ _ d => (Chip.Spares.refl d).set _ rfl)
  | receiver => exact Chip.Spares.set (.cond ((Chip.Spares.refl c).set _ rfl) (.refl c)) _ rfl

theorem Chip.mbxPortReset_steady (c : Chip) (k : Nat) : Chip.Steady c (c.mbxPortReset k) :=
  Chip.Spares.fold _ _ c fun n _ d => .cond (Chip.mbxReset_steady d _ n) (.refl d)

theorem Chip.msixReset_steady (c : Chip) (n : Nat) : Chip.Steady c (c.msixReset n) := by
  unfold Chip.msixReset
  refine Chip.Spares.trans (Chip.Spares.fold _ _ c fun f hf d => .clearWhere _ fun _ => ?_) (.clearWhere _ fun _ => rfl)
  fin_cases hf <;> rfl

theorem Chip.abandon_steady (c : Chip) (w : Nat) : Chip.Steady c (c.abandon w) := ⟨fun _ _ _ => rfl, rfl, rfl, rfl⟩

theorem Chip.portReset_steady (c : Chip) (n : Nat) : Chip.Steady c (c.portReset n) := by
  have blocks := ((Chip.msixReset_steady c n).trans (Chip.dmaReset_steady _ n)).trans (Chip.mbxPortReset_steady _ n)
  have latches : ∀ d : Chip, Chip.Steady d (d.dropLatches n) := fun d => ⟨fun _ _ _ => rfl, rfl, rfl, rfl⟩
  exact ((blocks.trans (latches _)).trans (Chip.abandon_steady _ n)).trans (.unsetAll _ n _ rfl)

theorem Chip.linkLeaves_steady (c : Chip) (n : Nat) : Chip.Steady (c.set .H_LINKUP n 0) (c.linkLeaves n) :=
  have left := (((Chip.Spares.refl (c.set .H_LINKUP n 0)).set _ rfl).set _ rfl).trans (Chip.portReset_steady _ n)
  .cond (left.trans (Chip.raise_steady _ _)) left

theorem Chip.sinkLost_steady (c : Chip) (n : Nat) : Chip.Steady c (c.sinkLost n) :=
  .cond ((((Chip.Spares.refl c).set _ rfl).set _ rfl).trans (Chip.raise_steady _ _)) (.refl c)

theorem Chip.hostLoss_steady (c : Chip) (n : Nat) (h : c.on .H_LOST n = false) : Chip.Steady (c.set .H_LOST n 1) (c.hostLoss n) := by
  unfold Chip.hostLoss
  rw [if_neg (by simp [h])]
  exact (Chip.raise_steady _ _).trans (Chip.Spares.fold _ _ _ fun p hp d => Chip.partLoss_steady (List.mem_range.mp hp) n d)

theorem portLost_steady (n : Nat) (c : Chip) (a : Arr) (m : Mem) (h : c.on .H_LOST n = false) : Chip.Steady (c.set .H_LOST n 1) (portLost n c a m).1 := by
  unfold portLost
  rw [if_neg (by simp [h])]
  exact (((Chip.hostLoss_steady c n h).trans (Chip.dmaLoss_steady _ n)).trans (Chip.sinkLost_steady _ n)).trans (Chip.abandon_steady _ n)
    |>.trans (sourcesLost_steady n _ a m)

end Sys2Proof.Machine
end

section
/-! PROOFS. What the registers hold after a module reset and its recorded cause (O58). -/

namespace Sys2Proof.Machine

/-! The registers that a module reset starts from -/

/-- The state before the life-cycle change, the nonce and the temperature flags: the fields that a reset keeps, and no other. -/
def Chip.keptOnly (c : Chip) : Chip :=
  { grade := c.grade, stepping := c.stepping, suffixN := c.suffixN, x16 := c.x16, lbSel := c.lbSel, now := c.now, free := c.free
    fld := c.fld.filter fun e => resetKeeps.any fun f => e.1 % 1024 = f.ctorIdx
    host := c.host, frames := c.frames, rails := c.rails }

/-- An accepted life-cycle change has been programmed. -/
def Chip.lcProgrammed (c : Chip) : Chip :=
  if c.on .LC_STATE_PEND 0 then (c.set .LC_STATE_STATE 0 (c.get .LC_STATE_PEND 0)).set .LC_STATE_PEND 0 0 else c

theorem Chip.keptOnly_get (c : Chip) (f : Fld) (j : Nat) : c.keptOnly.get f j = if f ∈ resetKeeps then c.get f j else f.reset := by
  unfold Chip.keptOnly Chip.get
  rw [NatMap.find_filter _ (fun k => resetKeeps.any fun g => k % 1024 = g.ctorIdx)]
  have named : (resetKeeps.any fun g => f.key j % 1024 = g.ctorIdx) = true ↔ f ∈ resetKeeps := by
    simp [Fld.key_mod, Fld.ctorIdx_eq_iff]
  simp only [named]

theorem Chip.lcProgrammed_get_pend (c : Chip) : c.lcProgrammed.get .LC_STATE_PEND 0 = 0 := by
  unfold Chip.lcProgrammed Chip.on
  split
  · exact Chip.get_set_same _ _ _ _
  · next h => simpa using h

theorem Chip.lcProgrammed_get_state (c : Chip) :
    c.lcProgrammed.get .LC_STATE_STATE 0 = if c.get .LC_STATE_PEND 0 = 0 then c.get .LC_STATE_STATE 0 else c.get .LC_STATE_PEND 0 % 16 := by
  unfold Chip.lcProgrammed Chip.on
  by_cases h : c.get .LC_STATE_PEND 0 = 0
  · simp [h]
  · simp [h, Chip.get_set]; rfl

/-! Fields outside a list -/

/-- Neither a signal nor one of the fields `W`. -/
def Fld.outside (W : List Fld) (f : Fld) (_ : Nat) : Bool := !(f.signal || W.contains f)

theorem Fld.outside_iff {W : List Fld} {f : Fld} {i : Nat} : f.outside W i = true ↔ f.signal = false ∧ f ∉ W := by simp [Fld.outside]

/-- `d` differs from `c` in signals and the fields `W` only. -/
abbrev Chip.Only (W : List Fld) (c d : Chip) : Prop := Chip.Spares (Fld.outside W) c d

namespace Chip.Only

variable {W V : List Fld} {c d : Chip}

theorem of_quiet (h : Quiet c d) : Only W c d := Chip.Spares.of_quiet (fun _ _ hf => (Fld.outside_iff.mp hf).1) h

theorem widen (h : Only W c d) (hs : W ⊆ V) : Only V c d :=
  h.mono fun _ _ hf => Fld.outside_iff.mpr ⟨(Fld.outside_iff.mp hf).1, fun hm => (Fld.outside_iff.mp hf).2 (hs hm)⟩

theorem set {f : Fld} {i : Nat} (h : Only W c d) (v : Nat) (hf : f ∈ W) : Only W c (d.set f i v) := Chip.Spares.set h v (by simp [Fld.outside, hf])

theorem get {f : Fld} (h : Only W c d) (i : Nat) (hs : f.signal = false) (hf : f ∉ W) : d.get f i = c.get f i :=
  Chip.Spares.get h f i (Fld.outside_iff.mpr ⟨hs, hf⟩)

end Chip.Only

/-! A module reset -/

/-- `d` differs from `c` in the fields `W` only. -/
abbrev Chip.Except (W : List Fld) (c d : Chip) : Prop := Chip.Spares (fun f _ => decide (f ∉ W)) c d

theorem Chip.Except.get {W : List Fld} {c d : Chip} {f : Fld} (h : Chip.Except W c d) (i : Nat) (hf : f ∉ W) : d.get f i = c.get f i :=
  Chip.Spares.get h f i (decide_eq_true hf)

theorem Chip.lcProgrammed_except (c : Chip) : Chip.Except [.LC_STATE_STATE, .LC_STATE_PEND] c c.lcProgrammed :=
  .cond (((Chip.Spares.refl c).set _ (by decide)).set _ (by decide)) (.refl c)

theorem Chip.moduleReset_eq (c : Chip) : c.moduleReset =
    (List.range 5).foldl (fun n k => n.set .H_THERM k (n.thermFlags (n.get .H_TEMP k))) ((c.keptOnly.lcProgrammed.set .H_TK_AT 0 (c.now / tkPeriod)).bump .H_NONCE 0) := rfl

theorem Chip.moduleReset_except (c : Chip) : Chip.Except [.H_TK_AT, .H_NONCE, .H_THERM] c.keptOnly.lcProgrammed c.moduleReset := by
  rw [Chip.moduleReset_eq]
  have started : Chip.Except [.H_TK_AT, .H_NONCE, .H_THERM] c.keptOnly.lcProgrammed ((c.keptOnly.lcProgrammed.set .H_TK_AT 0 (c.now / tkPeriod)).bump .H_NONCE 0) :=
    ((Chip.Spares.refl _).set _ (by decide)).set _ (by decide)
  exact started.trans (Chip.Spares.fold _ _ _ fun _ _ e => (Chip.Spares.refl e).set _ (by decide))

section
variable (c : Chip) {f : Fld} (j : Nat)

theorem Chip.moduleReset_get_reset (h : f ∉ resetKeeps) (hat : f ≠ .H_TK_AT) (htherm : f ≠ .H_THERM) : c.moduleReset.get f j = f.reset := by
  have lc : f ∉ [Fld.LC_STATE_STATE, .LC_STATE_PEND] := fun hm => h (by fin_cases hm <;> decide)
  have nonce : f ≠ .H_NONCE := fun e => h (by rw [e]; decide)
  rw [c.moduleReset_except.get j (by simp [*]), (Chip.lcProgrammed_except _).get j lc, Chip.keptOnly_get, if_neg h]

theorem Chip.moduleReset_get_kept (h : f ∈ resetKeeps) (hlc : f ∉ [Fld.LC_STATE_STATE, .LC_STATE_PEND]) (hn : f ≠ .H_NONCE) :
    c.moduleReset.get f j = c.get f j := by
  have world : f ∉ [Fld.H_TK_AT, .H_NONCE, .H_THERM] := by rintro hm; fin_cases hm <;> simp_all [resetKeeps]
  rw [c.moduleReset_except.get j world, (Chip.lcProgrammed_except _).get j hlc, Chip.keptOnly_get, if_pos h]

end

/-! The recorded causes -/

/-- What a cause of a module reset writes after it. -/
def causeFields : List Fld :=
  [.PWR_RST_CAUSE_TAMPER, .PWR_RST_CAUSE_LC, .PWR_RST_CAUSE_THERM, .PWR_RST_CAUSE_BROWNOUT, .PWR_RST_CAUSE_PIN, .PWR_RST_CAUSE_POR, .PWR_STATE_STATE, .H_RST_N,
   .H_LINK_FAIL, .DMC_STACK_STATUS_CH_FAIL]

/-- What every module reset of `c` leaves, whatever its cause. -/
structure Chip.IsReset (c d : Chip) : Prop where
  grade : d.grade = c.grade
  now : d.now = c.now
  cleared : ∀ f j, f ∉ resetKeeps → f ≠ .H_TK_AT → f ≠ .H_THERM → f ≠ .PWR_STATE_STATE → f ≠ .H_RST_N → d.get f j = ({} : Chip).get f j
  kept : ∀ f ∈ [Fld.PWR_WAKE_CTL_EN, .PWR_WAKE_CTL_POL, .PWR_WAKE_CTL_MGMT_EN, .PWR_WAKE_CTL_MGMT_ADDR, .LC_STATE_REFUSED], d.get f 0 = c.get f 0
  pend : d.get .LC_STATE_PEND 0 = 0
  state : d.get .LC_STATE_STATE 0 = if c.get .LC_STATE_PEND 0 = 0 then c.get .LC_STATE_STATE 0 else c.get .LC_STATE_PEND 0 % 16

theorem Chip.isReset_of_except {c d : Chip} (h : Chip.Except causeFields c.moduleReset d) : Chip.IsReset c d where
  grade := (h.grade.trans c.moduleReset_except.grade).trans (Chip.lcProgrammed_except _).grade
  now := (h.now.trans c.moduleReset_except.now).trans (Chip.lcProgrammed_except _).now
  cleared f j hk hat htherm hp hr := by
    have cause : f ∉ causeFields := fun hm => by fin_cases hm <;> simp_all [resetKeeps]
    rw [h.get j cause, Chip.moduleReset_get_reset c j hk hat htherm]
    rfl
  kept f hf := by
    rw [h.get 0 (by fin_cases hf <;> decide)]
    exact Chip.moduleReset_get_kept c 0 (by fin_cases hf <;> decide) (by fin_cases hf <;> decide) (by fin_cases hf <;> decide)
  pend := by rw [h.get 0 (by decide), c.moduleReset_except.get 0 (by decide), Chip.lcProgrammed_get_pend]
  state := by
    rw [h.get 0 (by decide), c.moduleReset_except.get 0 (by decide), Chip.lcProgrammed_get_state, Chip.keptOnly_get, Chip.keptOnly_get]
    rfl

theorem Chip.moduleReset_power (c : Chip) : c.moduleReset.power = pwrOn :=
  (Chip.moduleReset_get_reset c 0 (by decide) (by decide) (by decide)).trans rfl

section
variable (d : Chip)

theorem Chip.causePor_except : Chip.Except causeFields d d.causePor :=
  (((Chip.Spares.clearWhere _ fun _ => by decide).trans (.clearWhere _ fun _ => by decide)).set 1 (by decide)).set 1 (by decide)

theorem Chip.causePin_except : Chip.Except causeFields d d.causePin := (((Chip.Spares.refl d).set 1 (by decide)).set 0 (by decide)).set 1 (by decide)
theorem Chip.causeBrownout_except : Chip.Except causeFields d d.causeBrownout := (Chip.Spares.refl d).set 1 (by decide)
theorem Chip.causeTherm_except : Chip.Except causeFields d d.causeTherm := (Chip.Spares.refl d).set 1 (by decide)
theorem Chip.causeLc_except : Chip.Except causeFields d d.causeLc := (Chip.Spares.refl d).set 1 (by decide)
theorem Chip.causeOff_except : Chip.Except causeFields d d.causeOff := ((Chip.Spares.refl d).set pwrOff (by decide)).set 0 (by decide)

/-- After power-on nothing has failed. -/
theorem Chip.causePor_values : d.causePor.power = d.power ∧ d.causePor.get .PWR_RST_CAUSE_POR 0 = 1 ∧ d.causePor.get .H_RST_N 0 = 1 ∧
    ∀ j, d.causePor.get .DMC_STACK_STATUS_CH_FAIL j = 0 ∧ d.causePor.get .H_LINK_FAIL j = 0 := by
  refine ⟨?_, ?_, ?_, fun j => ⟨?_, ?_⟩⟩ <;> simp [Chip.power, Chip.causePor, Chip.get_set, Chip.get_clearWhere] <;> rfl

theorem Chip.causePin_values : d.causePin.power = d.power ∧ d.causePin.get .PWR_RST_CAUSE_TAMPER 0 = 0 ∧ d.causePin.get .PWR_RST_CAUSE_PIN 0 = 1 ∧
    d.causePin.get .H_RST_N 0 = 1 ∧
    ∀ j, d.causePin.get .DMC_STACK_STATUS_CH_FAIL j = d.get .DMC_STACK_STATUS_CH_FAIL j ∧ d.causePin.get .H_LINK_FAIL j = d.get .H_LINK_FAIL j := by
  refine ⟨?_, ?_, ?_, ?_, fun j => ⟨?_, ?_⟩⟩ <;> simp [Chip.power, Chip.causePin, Chip.get_set] <;> rfl

theorem Chip.causeOff_values : d.causeOff.power = pwrOff ∧ d.causeOff.get .PWR_RST_CAUSE_TAMPER 0 = 0 := by
  constructor <;> simp [Chip.power, Chip.causeOff, Chip.get_set] <;> rfl

/-- A recorded cause and no more. -/
theorem Chip.cause_values {f : Fld} (hf : f ∈ [Fld.PWR_RST_CAUSE_BROWNOUT, .PWR_RST_CAUSE_THERM, .PWR_RST_CAUSE_LC]) :
    (d.set f 0 1).power = d.power ∧ (d.set f 0 1).get .PWR_RST_CAUSE_TAMPER 0 = d.get .PWR_RST_CAUSE_TAMPER 0 ∧ (d.set f 0 1).get f 0 = 1 ∧
    ∀ j, (d.set f 0 1).get .DMC_STACK_STATUS_CH_FAIL j = d.get .DMC_STACK_STATUS_CH_FAIL j ∧ (d.set f 0 1).get .H_LINK_FAIL j = d.get .H_LINK_FAIL j := by
  have one : f.clip 1 = 1 := by fin_cases hf <;> rfl
  have other : f ∉ [Fld.PWR_STATE_STATE, .PWR_RST_CAUSE_TAMPER, .DMC_STACK_STATUS_CH_FAIL, .H_LINK_FAIL] := by fin_cases hf <;> decide
  simp only [List.mem_cons, List.not_mem_nil, or_false, not_or] at other
  obtain ⟨h1, h2, h3, h4⟩ := other
  unfold Chip.power
  simp [Chip.get_set, one, Ne.symm h1, Ne.symm h2, Ne.symm h3, Ne.symm h4]

end

/-- The latched tamper and the failed parts are among what a reset keeps. -/
theorem Chip.moduleReset_get_cause (c : Chip) (j : Nat) {f : Fld} (hf : f ∈ [Fld.PWR_RST_CAUSE_TAMPER, .DMC_STACK_STATUS_CH_FAIL, .H_LINK_FAIL]) :
    c.moduleReset.get f j = c.get f j :=
  Chip.moduleReset_get_kept c j (by fin_cases hf <;> decide) (by fin_cases hf <;> decide) (by fin_cases hf <;> decide)

end Sys2Proof.Machine
end

section
/-! PROOFS. What each part of start-up writes, and what it leaves for the next one (R362, R389; O58). -/

namespace Sys2Proof.Machine

/-! Loops over the places of a field -/

/-- A field written at every place of a list. -/
theorem Chip.get_foldl_set (f : Fld) (v : Nat → Nat) (l : List Nat) (c : Chip) (j : Nat) :
    (l.foldl (fun c k => c.set f k (v k)) c).get f j = if j ∈ l then f.clip (v j) else c.get f j := by
  induction l generalizing c with
  | nil => simp
  | cons k l ih =>
    rw [List.foldl_cons, ih, Chip.get_set]
    by_cases hk : j = k <;> simp [hk]

/-- A loop brings about what one of its rounds brings about and the others keep. -/
theorem foldl_reaches {σ α : Type} {J Q : σ → Prop} (g : σ → α → σ) (n : α) (keepJ : ∀ z k, J z → J (g z k)) (keepQ : ∀ z k, Q z → Q (g z k))
    (reach : ∀ z, J z → Q (g z n)) (l : List α) (hn : n ∈ l) (z : σ) (h : J z) : Q (l.foldl g z) := by
  have keepAll : ∀ (l : List α) z, Q z → Q (l.foldl g z) := fun l => by
    induction l with
    | nil => exact fun _ h => h
    | cons k l ih => exact fun z h => ih _ (keepQ z k h)
  induction l generalizing z with
  | nil => cases hn
  | cons k l ih =>
    rcases List.mem_cons.mp hn with rfl | hn
    · exact keepAll l _ (reach z h)
    · exact ih hn _ (keepJ z k h)

/-! The parts of start-up -/

/-- What the report of a march test writes. -/
def mtFailFields : List Fld := [.MT_FAIL_CNT_COUNT, .MT_FAIL_LOC_VALID, .MT_FAIL_LOC_TARGET, .MT_FAIL_LOC_UNIT, .MT_FAIL_LOC_WORD]

theorem Chip.mtFailures_only (c : Chip) (target : Nat) (fails : List (Nat × Nat)) : Chip.Only mtFailFields c (c.mtFailures target fails) := by
  cases fails with
  | nil => exact .refl c
  | cons x l =>
    have counted : Chip.Only mtFailFields c (c.count .MT_FAIL_CNT_COUNT 0 (x :: l).length) := Chip.Only.set (.refl c) _ (by decide)
    exact .cond counted ((((counted.set _ (by decide)).set _ (by decide)).set _ (by decide)).set _ (by decide))

theorem Chip.startBanks_only (c : Chip) (u : StartUp) : Chip.Only (.H_SRAM_BAD :: mtFailFields) c (c.startBanks u) :=
  ((Chip.mtFailures_only c _ _).widen (by simp)).trans (Chip.Spares.fold _ _ _ fun _ _ d => Chip.Only.set (.refl d) _ (by decide))

theorem Chip.startBanks_get (c : Chip) (u : StartUp) {j : Nat} (hj : j < 8) : (c.startBanks u).get .H_SRAM_BAD j = bit u.sramBad.toNat j := by
  unfold Chip.startBanks
  rw [Chip.get_foldl_set _ (fun k => bit u.sramBad.toNat k), if_pos (List.mem_range.mpr hj)]
  exact Nat.mod_eq_of_lt (Nat.mod_lt _ (by decide))

theorem Chip.startBoot_only (c : Chip) (u : StartUp) : Chip.Only [.H_FLASH_SIZE, .H_VAULT_SLOT] { c with x16 := u.recordOk && u.x16 } (c.startBoot u) := by
  have flash : Chip.Only [.H_FLASH_SIZE, .H_VAULT_SLOT] { c with x16 := u.recordOk && u.x16 }
      ({ c with x16 := u.recordOk && u.x16 }.set .H_FLASH_SIZE 0 u.flashSize.toNat) := Chip.Only.set (.refl _) _ (by decide)
  exact .cond flash (flash.trans (Chip.Spares.fold _ _ _ fun _ _ d => Chip.Only.set (.refl d) _ (by decide)))

theorem Chip.startBoot_get (c : Chip) (u : StartUp) {f : Fld} (j : Nat) (hs : f.signal = false) (hf : f ∉ [Fld.H_FLASH_SIZE, .H_VAULT_SLOT]) :
    (c.startBoot u).get f j = c.get f j := ((Chip.startBoot_only c u).get j hs hf).trans rfl

theorem Chip.startBoot_dies (c : Chip) (u : StartUp) : (c.startBoot u).dies = c.dies := (Chip.startBoot_only c u).dies

/-- What the boot of a firmware pair writes. -/
def firmwareFields : List Fld := [.H_FW_SEC, .H_FW_SVC, .H_FW_SLOTS, .H_FW_FLAGS, .H_FW_GOOD, .FLT_SRC_BOOT]

/-- The registers of a firmware pair, before FAULT_N follows. -/
def Chip.firmwareRegs (c : Chip) (u : StartUp) (pr : Bool × Bool) : Chip :=
  let f := startFw u
  let slots := b2n pr.1 + b2n pr.2 * 2
  let c := (((c.set .H_FW_SEC 0 (fwVersions f pr).1.toNat).set .H_FW_SVC 0 (fwVersions f pr).2.toNat).set .H_FW_SLOTS 0 slots).set .H_FW_FLAGS 0
    (fwFlags (c.get .LC_STATE_STATE 0) f)
  (if fwListed f pr then c.set .H_FW_GOOD 0 (slots + 1) else c).set .FLT_SRC_BOOT 0 0

theorem Chip.startFirmware_quiet (c : Chip) (u : StartUp) (pr : Bool × Bool) : Chip.Quiet (c.firmwareRegs u pr) (c.startFirmware u pr) := Chip.faultN_quiet _

theorem Chip.startFirmware_only (c : Chip) (u : StartUp) (pr : Bool × Bool) : Chip.Only firmwareFields c (c.startFirmware u pr) := by
  refine Chip.Spares.trans ?_ (Chip.Only.of_quiet (c.startFirmware_quiet u pr))
  have versions : Chip.Only firmwareFields c ((((c.set .H_FW_SEC 0 (fwVersions (startFw u) pr).1.toNat).set .H_FW_SVC 0 (fwVersions (startFw u) pr).2.toNat).set
      .H_FW_SLOTS 0 (b2n pr.1 + b2n pr.2 * 2)).set .H_FW_FLAGS 0 (fwFlags (c.get .LC_STATE_STATE 0) (startFw u))) :=
    (((Chip.Only.set (.refl c) _ (by decide)).set _ (by decide)).set _ (by decide)).set _ (by decide)
  exact Chip.Only.set (.cond (versions.set _ (by decide)) versions) _ (by decide)

section
variable (c : Chip) (u : StartUp) (pr : Bool × Bool)

theorem Chip.startFirmware_get_boot : (c.startFirmware u pr).get .FLT_SRC_BOOT 0 = 0 :=
  ((c.startFirmware_quiet u pr).get _ _ rfl).trans (Chip.get_set_same _ _ _ _)

theorem Chip.startFirmware_get_sec : (c.startFirmware u pr).get .H_FW_SEC 0 = (fwVersions (startFw u) pr).1.toNat := by
  rw [(c.startFirmware_quiet u pr).get _ _ rfl]
  unfold Chip.firmwareRegs
  dsimp only
  split <;> simp [Chip.get_set] <;> exact Nat.mod_eq_of_lt (BitVec.isLt _)

theorem Chip.startFirmware_get_svc : (c.startFirmware u pr).get .H_FW_SVC 0 = (fwVersions (startFw u) pr).2.toNat := by
  rw [(c.startFirmware_quiet u pr).get _ _ rfl]
  unfold Chip.firmwareRegs
  dsimp only
  split <;> simp [Chip.get_set] <;> exact Nat.mod_eq_of_lt (BitVec.isLt _)

theorem Chip.startFirmware_get_good (h : fwListed (startFw u) pr = true) :
    (c.startFirmware u pr).get .H_FW_GOOD 0 = b2n pr.1 + b2n pr.2 * 2 + 1 := by
  rw [(c.startFirmware_quiet u pr).get _ _ rfl]
  unfold Chip.firmwareRegs
  dsimp only
  rw [if_pos h]
  obtain ⟨a, b⟩ := pr
  simp only [Chip.get_set_ne _ _ (show ¬(Fld.H_FW_GOOD = .FLT_SRC_BOOT ∧ 0 = 0) by decide), Chip.get_set_same]
  cases a <;> cases b <;> rfl

end

/-- The recorded pair is the last known-good one. -/
theorem Chip.lastGood_of_get {c : Chip} (u : StartUp) (pr : Bool × Bool) (h : c.get .H_FW_GOOD 0 = b2n pr.1 + b2n pr.2 * 2 + 1) : c.lastGood u = some pr := by
  unfold Chip.lastGood
  rw [h]
  obtain ⟨a, b⟩ := pr
  cases a <;> cases b <;> rfl

/-- What bringing up the dies writes. -/
def dieFields : List Fld := .PWR_AVS_VDD_C :: .DMC_STACK_STATUS_STATE :: mtFailFields

/-- VDD_C is up. -/
def Chip.coreUp (c : Chip) : Chip := (c.toRail (.voltage 0 800)).set .PWR_AVS_VDD_C 0 800

theorem Chip.coreUp_only (c : Chip) : Chip.Only [.PWR_AVS_VDD_C] c c.coreUp :=
  have commanded : Chip.Only [.PWR_AVS_VDD_C] c (c.toRail (.voltage 0 800)) := ⟨fun _ _ _ => rfl, rfl, rfl, rfl⟩
  commanded.set _ (by decide)

/-- The stacks have trained. -/
def Chip.stacksUp (c : Chip) (u : StartUp) : Chip :=
  (List.range (2 * c.dies)).foldl (fun c k => c.set .DMC_STACK_STATUS_STATE k (if bit u.stackBad.toNat k = 1 then 3 else 2)) c

theorem Chip.stacksUp_only (c : Chip) (u : StartUp) : Chip.Only [.DMC_STACK_STATUS_STATE] c (c.stacksUp u) :=
  Chip.Spares.fold _ _ _ fun _ _ d => Chip.Only.set (.refl d) _ (by decide)

theorem Chip.startDies_tests (c : Chip) (u : StartUp) : Chip.Only mtFailFields (c.coreUp.stacksUp u) (c.startDies u) :=
  Chip.Spares.fold _ _ _ fun _ _ d => Chip.mtFailures_only d _ _

theorem Chip.startDies_only (c : Chip) (u : StartUp) : Chip.Only dieFields c (c.startDies u) :=
  (((Chip.coreUp_only c).widen (by simp [dieFields])).trans ((Chip.stacksUp_only _ u).widen (by simp [dieFields]))).trans
    ((Chip.startDies_tests c u).widen (by simp [dieFields]))

theorem Chip.startDies_get_vdd (c : Chip) (u : StartUp) : (c.startDies u).get .PWR_AVS_VDD_C 0 = 800 := by
  rw [(c.startDies_tests u).get 0 rfl (by decide), (Chip.stacksUp_only _ u).get 0 rfl (by decide)]
  exact Chip.get_set_same _ _ _ _

theorem Chip.startDies_get_stack (c : Chip) (u : StartUp) {j : Nat} (hj : j < 2 * c.dies) :
    (c.startDies u).get .DMC_STACK_STATUS_STATE j = if bit u.stackBad.toNat j = 1 then 3 else 2 := by
  have dies : c.coreUp.dies = c.dies := rfl
  rw [(c.startDies_tests u).get j rfl (by decide)]
  unfold Chip.stacksUp
  rw [Chip.get_foldl_set _ (fun k => if bit u.stackBad.toNat k = 1 then 3 else 2), dies, if_pos (List.mem_range.mpr hj)]
  split <;> rfl

/-! The pair that is booted -/

theorem Chip.bootPair_congr {c d : Chip} (u : StartUp) (hs : d.get .LC_STATE_STATE 0 = c.get .LC_STATE_STATE 0) (hg : d.get .H_FW_GOOD 0 = c.get .H_FW_GOOD 0) :
    d.bootPair u = c.bootPair u := by
  unfold Chip.bootPair Chip.lastGood
  rw [hs, hg]

/-- The chip when the boot ROM looks for a pair. -/
def Chip.beforeFirmware (c : Chip) (u : StartUp) : Chip := ((c.set .H_RST_N 0 0).startBanks u).startBoot u

section
variable (c : Chip) (u : StartUp)

/-- What start-up up to the choice of a pair writes. -/
def bootFields : List Fld := .H_RST_N :: .H_FLASH_SIZE :: .H_VAULT_SLOT :: .H_SRAM_BAD :: mtFailFields

theorem Chip.beforeFirmware_get {f : Fld} (j : Nat) (hs : f.signal = false) (hf : f ∉ bootFields) : (c.beforeFirmware u).get f j = c.get f j := by
  simp only [bootFields, List.mem_cons, not_or] at hf
  obtain ⟨hr, hflash, hvault, hbad, hmt⟩ := hf
  unfold Chip.beforeFirmware
  rw [Chip.startBoot_get _ u j hs (by simp [hflash, hvault]), (Chip.startBanks_only _ u).get j hs (by simp [hbad, hmt]), Chip.get_set_ne _ _ fun h => hr h.1]

theorem Chip.beforeFirmware_get_bad {j : Nat} (hj : j < 8) : (c.beforeFirmware u).get .H_SRAM_BAD j = bit u.sramBad.toNat j := by
  unfold Chip.beforeFirmware
  rw [Chip.startBoot_get _ u j rfl (by decide), Chip.startBanks_get _ u hj]

theorem Chip.beforeFirmware_get_resetN : (c.beforeFirmware u).get .H_RST_N 0 = 0 := by
  unfold Chip.beforeFirmware
  rw [Chip.startBoot_get _ u 0 rfl (by decide), (Chip.startBanks_only _ u).get 0 rfl (by decide), Chip.get_set_same]
  rfl

theorem Chip.beforeFirmware_x16 : (c.beforeFirmware u).x16 = (u.recordOk && u.x16) := by
  unfold Chip.beforeFirmware
  rw [(Chip.startBoot_only _ u).x16]

theorem Chip.beforeFirmware_dies : (c.beforeFirmware u).dies = c.dies := by
  have low : Chip.Only [.H_RST_N] c (c.set .H_RST_N 0 0) := Chip.Only.set (.refl c) 0 (by decide)
  unfold Chip.beforeFirmware
  rw [Chip.startBoot_dies, (Chip.startBanks_only _ u).dies, low.dies]

theorem Chip.beforeFirmware_bootPair : (c.beforeFirmware u).bootPair u = c.bootPair u :=
  Chip.bootPair_congr u (c.beforeFirmware_get u 0 rfl (by decide)) (c.beforeFirmware_get u 0 rfl (by decide))

theorem Chip.resetN_high_on : (c.set .H_RST_N 0 0).on .H_WARM 0 = c.on .H_WARM 0 := by
  unfold Chip.on
  rw [Chip.get_set_ne _ _ (by decide)]

theorem Chip.resetN_high_power : (c.set .H_RST_N 0 0).power = c.power := Chip.get_set_ne _ _ (by decide)

variable {c u} (hwarm : c.on .H_WARM 0 = false) (hoff : c.power ≠ pwrOff) (hfuse : u.fusesOk = true) (hpll : u.pllsOk = true) (hbank : u.sramBad.toNat % 4 = 0)
include hwarm hoff hfuse hpll hbank

theorem Chip.startUp_eq_of_none (h : c.bootPair u = none) : c.startUp u = c.beforeFirmware u := by
  rw [← Chip.beforeFirmware_bootPair c u] at h
  unfold Chip.beforeFirmware at h ⊢
  simp [Chip.startUp, Chip.resetN_high_on, Chip.resetN_high_power, hwarm, hoff, hfuse, hpll, hbank, h]

theorem Chip.startUp_eq_of_some {pr : Bool × Bool} (h : c.bootPair u = some pr) :
    c.startUp u = (((c.beforeFirmware u).startFirmware u pr).startDies u).set .H_WARM 0 1 := by
  rw [← Chip.beforeFirmware_bootPair c u] at h
  unfold Chip.beforeFirmware at h ⊢
  simp [Chip.startUp, Chip.resetN_high_on, Chip.resetN_high_power, hwarm, hoff, hfuse, hpll, hbank, h]

end

/-! The module's sectors -/

/-- What a write of RIM_SECT_OWN writes. -/
def sectOwnFields : List Fld := [.RIM_SECT_OWN_EDGE, .RIM_SECT_OWN_CFG_REJ, .RIM_SECT_OWN_OWNER]

theorem Chip.writeSectOwn_only (c : Chip) (k v : Nat) : Chip.Only sectOwnFields c (c.writeSectOwn Reg.def_RIM_SECT_OWN k v) :=
  .cond ((((Chip.Only.set (.refl c) _ (by decide)).set _ (by decide))).set _ (by decide)) (Chip.Only.set (.refl c) _ (by decide))

/-- A sector that is EMPTY becomes the module's. -/
theorem Chip.writeSectOwn_module (c : Chip) (k : Nat) (h : c.sector k = sectEmpty) :
    (c.writeSectOwn Reg.def_RIM_SECT_OWN k ownerModule).get .RIM_SECT_OWN_OWNER k = ownerModule := by
  have owner : bits ownerModule 4 0 = ownerModule := rfl
  unfold Chip.writeSectOwn Chip.writeIf
  rw [if_pos (by simp [h, owner])]
  simp [Chip.writeFields, Reg.def_RIM_SECT_OWN, Chip.writeField, owner]
  rfl

/-- A write for another sector, or for one that the module has already, leaves it with the module. -/
theorem Chip.writeSectOwn_keeps (c : Chip) (j k : Nat) (h : c.get .RIM_SECT_OWN_OWNER k = ownerModule) :
    (c.writeSectOwn Reg.def_RIM_SECT_OWN j ownerModule).get .RIM_SECT_OWN_OWNER k = ownerModule := by
  have owner : bits ownerModule 4 0 = ownerModule := rfl
  have clip : Fld.RIM_SECT_OWN_OWNER.clip ownerModule = ownerModule := rfl
  unfold Chip.writeSectOwn Chip.writeIf
  dsimp only
  split
  · by_cases hk : k = j <;> simp [Chip.writeFields, Reg.def_RIM_SECT_OWN, Chip.writeField, owner, clip, Chip.get_set, hk, h]
  · rw [Chip.get_set_ne _ _ (fun e => absurd e.1 (by decide)), h]

/-- The sectors that the record gives to the module. -/
def Chip.ownSectors (c : Chip) (u : StartUp) : Chip :=
  (List.range 12).foldl (fun c k => if bit u.sectors.toNat k = 1 then c.writeSectOwn Reg.def_RIM_SECT_OWN k ownerModule else c) c

theorem bootStream_of_none (u : StartUp) (c : Chip) (m : Mem) (h : u.stream = none) : bootStream u c m = (c.ownSectors u, m) := by
  unfold bootStream
  rw [h]
  rfl

theorem Chip.ownSectors_only (c : Chip) (u : StartUp) : Chip.Only sectOwnFields c (c.ownSectors u) :=
  Chip.Spares.fold _ _ c fun k _ d => .cond (d.writeSectOwn_only k ownerModule) (.refl d)

theorem Chip.ownSectors_get (c : Chip) (u : StartUp) {j : Nat} (hj : j < 12) (hb : bit u.sectors.toNat j = 1) (h : c.sector j = sectEmpty) :
    (c.ownSectors u).get .RIM_SECT_OWN_OWNER j = ownerModule := by
  have kept : ∀ (d : Chip) k, (if bit u.sectors.toNat k = 1 then d.writeSectOwn Reg.def_RIM_SECT_OWN k ownerModule else d).sector j = d.sector j := fun d k => by
    split
    · exact (d.writeSectOwn_only k ownerModule).get j rfl (by decide)
    · rfl
  refine foldl_reaches (J := fun d : Chip => d.sector j = sectEmpty) (Q := fun d : Chip => d.get .RIM_SECT_OWN_OWNER j = ownerModule) _ j
    (fun d k hd => (kept d k).trans hd) (fun d k hd => ?_) (fun d hd => ?_) _ (List.mem_range.mpr hj) c h
  · split
    · exact d.writeSectOwn_keeps k j hd
    · exact hd
  · rw [if_pos hb]
    exact d.writeSectOwn_module j hd

/-! Start-up as a whole -/

/-- Start-up of a module that was not warm, with no partition to create and no stream to load. -/
theorem startUpAll_eq (u : StartUp) (c : Chip) (a : Arr) (m : Mem) (hw : c.on .H_WARM 0 = false) (hs : u.stream = none) (hp : u.parts = []) :
    startUpAll u c a m = ((if (c.startUp u).on .H_WARM 0 = true ∧ u.recordOk = true then (c.startUp u).ownSectors u else c.startUp u), a, m) := by
  unfold startUpAll
  dsimp only
  rw [hp, hw, bootStream_of_none _ _ _ hs]
  cases (c.startUp u).on .H_WARM 0 <;> cases u.recordOk <;> simp

/-- Start-up that the boot ROM stops. -/
theorem startUpAll_of_cold (u : StartUp) (c : Chip) (a : Arr) (m : Mem) (h : (c.startUp u).on .H_WARM 0 = false) : startUpAll u c a m = (c.startUp u, a, m) := by
  unfold startUpAll
  simp [h]

end Sys2Proof.Machine
end

section
/-! PROOFS. The removal of the module from its slot, and module resets as a whole (R17, R387 to R391; O58). -/

namespace Sys2Proof.Machine

/-! Supplies of the banks -/

/-- The steady fields other than those of `W`. -/
def Fld.steadyBut (W : List Fld) (f : Fld) (i : Nat) : Bool := f.steady i && !W.contains f

theorem Chip.Steady.but {c d : Chip} (h : Chip.Steady c d) (W : List Fld) : Chip.Spares (Fld.steadyBut W) c d :=
  h.mono fun _ _ hf => (Bool.and_eq_true_iff.mp hf).1

theorem Chip.pinResets_steady (c : Chip) (b : Nat) : Chip.Steady c (c.pinResets b) :=
  Chip.Spares.fold _ _ c fun _ _ d => .cond (((Chip.Spares.refl d).set _ rfl).set _ rfl) (.refl d)

theorem Chip.pgoodFall_steady (c : Chip) (b : Nat) (h : c.on .IOB_BANK_STATUS_PGOOD b = true) : Chip.Steady (c.set .IOB_BANK_STATUS_PGOOD b 0) (c.pgoodFall b) := by
  unfold Chip.pgoodFall
  rw [if_pos h]
  exact (((Chip.Spares.refl _).set 0 rfl).trans (Chip.pinResets_steady _ b)).trans (Chip.raise_steady _ _)

theorem Chip.pgoodFall_but (c : Chip) (b : Nat) : Chip.Spares (Fld.steadyBut [.IOB_BANK_STATUS_PGOOD]) c (c.pgoodFall b) := by
  by_cases h : c.on .IOB_BANK_STATUS_PGOOD b = true
  · exact ((Chip.Spares.refl c).set 0 rfl).trans ((c.pgoodFall_steady b h).but _)
  · unfold Chip.pgoodFall
    rw [if_neg h]
    exact .refl c

theorem Chip.pgoodFall_get (c : Chip) (b k : Nat) :
    (c.pgoodFall b).get .IOB_BANK_STATUS_PGOOD k = if k = b then 0 else c.get .IOB_BANK_STATUS_PGOOD k := by
  by_cases h : c.on .IOB_BANK_STATUS_PGOOD b = true
  · rw [(c.pgoodFall_steady b h).get _ k rfl, Chip.get_set]
    simp only [true_and]
    rfl
  · unfold Chip.pgoodFall
    rw [if_neg h]
    split
    · next hk => subst hk; simpa [Chip.on] using h
    · rfl

/-- Every bank of the module loses its supply. -/
def Chip.banksFall (c : Chip) : Chip := (List.range 12).foldl Chip.pgoodFall c

theorem Chip.banksFall_but (c : Chip) : Chip.Spares (Fld.steadyBut [.IOB_BANK_STATUS_PGOOD]) c c.banksFall :=
  Chip.Spares.fold _ _ c fun b _ d => d.pgoodFall_but b

theorem Chip.banksFall_get (c : Chip) {b : Nat} (hb : b < 12) : c.banksFall.get .IOB_BANK_STATUS_PGOOD b = 0 :=
  foldl_reaches (J := fun _ => True) (Q := fun d : Chip => d.get .IOB_BANK_STATUS_PGOOD b = 0) _ b (fun _ _ _ => trivial)
    (fun d k h => by rw [Chip.pgoodFall_get, h]; simp) (fun d _ => by rw [Chip.pgoodFall_get, if_pos rfl]) _ (List.mem_range.mpr hb) c trivial

theorem Chip.bankState_of_unsupplied {c : Chip} {b : Nat} (h : c.get .IOB_BANK_STATUS_PGOOD b = 0) : c.bankState b = .powerOff := by
  simp [Chip.bankState, Chip.on, h]

/-! Ports held -/

theorem portHold_steady (n : Nat) (c : Chip) (a : Arr) (m : Mem) :
    (c.on .H_LOST n = true ∧ Chip.Steady (c.set .H_LINKUP n 0) (portHold n c a m).1) ∨
    (c.on .H_LOST n = false ∧ Chip.Steady ((c.set .H_LINKUP n 0).set .H_LOST n 1) (portHold n c a m).1) := by
  have left : Chip.Steady (c.set .H_LINKUP n 0) ((c.linkLeaves n).set .H_LINK_DUE n 0) := (c.linkLeaves_steady n).set 0 rfl
  have same : ((c.linkLeaves n).set .H_LINK_DUE n 0).on .H_LOST n = c.on .H_LOST n := by
    unfold Chip.on
    rw [left.get _ n rfl, Chip.get_set_ne _ _ (fun e => absurd e.1 (by decide))]
  cases h : c.on .H_LOST n with
  | true =>
    refine .inl ⟨rfl, ?_⟩
    unfold portHold portLost
    rw [if_pos (same.trans h)]
    exact left
  | false =>
    have lost := portLost_steady n ((c.linkLeaves n).set .H_LINK_DUE n 0) a m (same.trans h)
    exact .inr ⟨rfl, (left.set_both .H_LOST n 1).trans lost⟩

/-- The ports that exist are held, as PERST_N would hold them. -/
def holdPort (x : Chip × Arr × Mem) (n : Nat) : Chip × Arr × Mem := if x.1.portExists n then portHold n x.1 x.2.1 x.2.2 else x

theorem holdPort_but (x : Chip × Arr × Mem) (n : Nat) : Chip.Spares (Fld.steadyBut [.H_LINKUP, .H_LOST]) x.1 (holdPort x n).1 := by
  unfold holdPort
  split
  · rcases portHold_steady n x.1 x.2.1 x.2.2 with ⟨-, h⟩ | ⟨-, h⟩
    · exact ((Chip.Spares.refl _).set 0 rfl).trans (h.but _)
    · exact (((Chip.Spares.refl _).set 0 rfl).set 1 rfl).trans (h.but _)
  · exact .refl _

/-- Port `n` has no link and its host is lost. -/
def Chip.Held (n : Nat) (c : Chip) : Prop := c.get .H_LINKUP n = 0 ∧ c.get .H_LOST n = 1

theorem holdPort_held (x : Chip × Arr × Mem) (n k : Nat) (h : x.1.Held n) : (holdPort x k).1.Held n := by
  obtain ⟨hup, hlost⟩ := h
  have zero : Fld.H_LINKUP.clip 0 = 0 := rfl
  have one : Fld.H_LOST.clip 1 = 1 := rfl
  unfold holdPort
  split
  · unfold Chip.Held
    rcases portHold_steady k x.1 x.2.1 x.2.2 with ⟨-, h⟩ | ⟨-, h⟩ <;>
      rw [h.get _ n rfl, h.get _ n rfl] <;> by_cases hk : n = k <;> simp [Chip.get_set, hup, hlost, zero, one, hk]
    simpa [hk] using hlost
  · exact ⟨hup, hlost⟩

theorem holdPort_reaches (x : Chip × Arr × Mem) (n : Nat) (he : x.1.portExists n = true) (hl : x.1.on .H_LOST n = false) : (holdPort x n).1.Held n := by
  unfold holdPort
  rw [if_pos he]
  rcases portHold_steady n x.1 x.2.1 x.2.2 with ⟨h, -⟩ | ⟨-, h⟩
  · rw [hl] at h; cases h
  · unfold Chip.Held
    rw [h.get _ n rfl, h.get _ n rfl]
    simp [Chip.get_set]
    decide

theorem holdPort_lost_ne (x : Chip × Arr × Mem) {n k : Nat} (h : n ≠ k) : (holdPort x k).1.on .H_LOST n = x.1.on .H_LOST n := by
  unfold holdPort Chip.on
  split
  · rcases portHold_steady k x.1 x.2.1 x.2.2 with ⟨-, hs⟩ | ⟨-, hs⟩ <;> rw [hs.get _ n rfl] <;> simp [Chip.get_set, h]
  · rfl

theorem holdPort_portExists (x : Chip × Arr × Mem) (n k : Nat) : (holdPort x k).1.portExists n = x.1.portExists n :=
  (holdPort_but x k).portExists n

/-- Every port that exists is held. -/
def holdPorts (x : Chip × Arr × Mem) : Chip × Arr × Mem := (List.range 4).foldl holdPort x

theorem holdPorts_but (x : Chip × Arr × Mem) : Chip.Spares (Fld.steadyBut [.H_LINKUP, .H_LOST]) x.1 (holdPorts x).1 :=
  Chip.Spares.foldOn Prod.fst _ _ x fun n _ y => holdPort_but y n

/-- Port `n` exists and is held, or still has its host. -/
def Chip.Holdable (n : Nat) (c : Chip) : Prop := c.portExists n = true ∧ (c.on .H_LOST n = false ∨ c.Held n)

theorem holdPort_reaches_of_holdable (x : Chip × Arr × Mem) (n : Nat) (h : x.1.Holdable n) : (holdPort x n).1.Held n := by
  obtain ⟨he, hl | hh⟩ := h
  · exact holdPort_reaches x n he hl
  · exact holdPort_held x n n hh

theorem holdPort_holdable (x : Chip × Arr × Mem) (n k : Nat) (h : x.1.Holdable n) : (holdPort x k).1.Holdable n := by
  refine ⟨(holdPort_portExists x n k).trans h.1, ?_⟩
  by_cases hk : n = k
  · exact hk ▸ .inr (holdPort_reaches_of_holdable x n h)
  · obtain ⟨-, hl | hh⟩ := h
    · exact .inl ((holdPort_lost_ne x hk).trans hl)
    · exact .inr (holdPort_held x n k hh)

theorem holdPorts_held (x : Chip × Arr × Mem) {n : Nat} (hn : n < 4) (he : x.1.portExists n = true) (hl : x.1.on .H_LOST n = false) :
    (holdPorts x).1.Held n :=
  foldl_reaches (J := fun y : Chip × Arr × Mem => y.1.Holdable n) (Q := fun y => y.1.Held n) holdPort n (fun y k h => holdPort_holdable y n k h)
    (fun y k h => holdPort_held y n k h) (fun y h => holdPort_reaches_of_holdable y n h) _ (List.mem_range.mpr hn) x ⟨he, .inl hl⟩

/-! QUIESCE at a removal -/

/-- The chip when the procedure starts, with its limit running. -/
def Chip.quiescing (c : Chip) : Chip := (c.set .H_QUIESCE 0 1).setDue .H_Q_DUE 0 (c.get .PWR_CTL_QLIMIT 0 * Chip.us)

theorem quiesceStart_fst (c : Chip) (a : Arr) : (quiesceStart c a).1 = (List.range 32).foldl (fun c ch => c.dmaAbort ch []) (quiesceHalt c.quiescing a).1 := by
  simp only [quiesceStart, Chip.quiescing]

theorem quiesceStart_steady (c : Chip) (a : Arr) : Chip.Steady (c.set .H_QUIESCE 0 1) (quiesceStart c a).1 := by
  have due : Chip.Steady (c.set .H_QUIESCE 0 1) c.quiescing := (Chip.Spares.refl _).set _ rfl
  rw [quiesceStart_fst]
  exact (due.trans (quiesceHalt_steady _ a)).trans (Chip.Spares.fold _ _ _ fun ch _ d => d.dmaAbort_steady ch)

/-- A QUIESCE command of its own. -/
def removalQuiesce (c : Chip) (a : Arr) : Chip × Arr := quiesceStart ((c.set .H_QUIESCE 0 2).accept .pwr 0 5) a

section
variable (c : Chip) (a : Arr)

theorem removalQuiesce_but : Chip.Spares (Fld.steadyBut [.H_QUIESCE, .CQ_PEND, .CQ_CMD]) c (removalQuiesce c a).1 := by
  have accepted : Chip.Spares (Fld.steadyBut [.H_QUIESCE, .CQ_PEND, .CQ_CMD]) c ((c.set .H_QUIESCE 0 2).accept .pwr 0 5) := by
    have asked : Chip.Spares (Fld.steadyBut [.H_QUIESCE, .CQ_PEND, .CQ_CMD]) c (c.set .H_QUIESCE 0 2) := (Chip.Spares.refl c).set 2 rfl
    exact (((asked.trans ((Chip.nextSeq_steady _ _ _).but _)).set _ rfl).set _ rfl).set _ rfl
  exact (accepted.set 1 rfl).trans ((quiesceStart_steady _ a).but _)

theorem removalQuiesce_get_quiesce : (removalQuiesce c a).1.get .H_QUIESCE 0 = 1 :=
  ((quiesceStart_steady _ a).get _ 0 rfl).trans (Chip.get_set_same _ _ _ _)

theorem removalQuiesce_pending : (removalQuiesce c a).1.cmdPending .pwr 0 = true := by
  unfold Chip.cmdPending Chip.on
  rw [removalQuiesce, (quiesceStart_steady _ a).get _ _ rfl]
  simp [Chip.accept, Chip.get_set]
  decide

theorem removalQuiesce_get_cmd : (removalQuiesce c a).1.get .CQ_CMD (CmdReg.pwr.idx 0) = 5 := by
  rw [removalQuiesce, (quiesceStart_steady _ a).get _ _ rfl]
  simp [Chip.accept, Chip.get_set]
  rfl

theorem quiesceAsked_eq : quiesceAsked (c.set .H_QUIESCE 0 2) a = removalQuiesce c a := by
  unfold quiesceAsked
  rw [Chip.get_set_same, if_pos (by decide)]
  rfl

/-! Removal -/

/-- The chip and its memories once the supplies and the ports of the module are gone. -/
def released (c : Chip) (a : Arr) (m : Mem) : Chip × Arr × Mem := holdPorts ((c.set .H_ABSENT 0 1).banksFall, a, m)


/-- What the loss of supplies and ports leaves of the steady fields. -/
theorem released_get (m : Mem) {f : Fld} (i : Nat) (hf : f.steady i = true) (hw : f ∉ [Fld.IOB_BANK_STATUS_PGOOD, .H_LINKUP, .H_LOST]) :
    (released c a m).1.get f i = (c.set .H_ABSENT 0 1).get f i := by
  simp only [List.mem_cons, not_or] at hw
  obtain ⟨hg, hu, hl, -⟩ := hw
  unfold released
  rw [(holdPorts_but _).get f i (by simp [Fld.steadyBut, hf, hu, hl]), (Chip.banksFall_but _).get f i (by simp [Fld.steadyBut, hf, hg])]

theorem presentDeassert_eq (m : Mem) (ha : c.on .H_ABSENT 0 = false) (hq : c.on .H_QUIESCE 0 = false) (hp : c.power = pwrOn ∨ c.power = pwrIdle) :
    presentDeassert c a m =
      ((removalQuiesce (released c a m).1 (released c a m).2.1).1, (removalQuiesce (released c a m).1 (released c a m).2.1).2, (released c a m).2.2) := by
  have quiet : (released c a m).1.on .H_QUIESCE 0 = false := by
    unfold Chip.on
    rw [released_get c a m 0 rfl (by decide), Chip.get_set_ne _ _ (by decide)]
    exact hq
  have power : ∀ v, ((released c a m).1.set .H_QUIESCE 0 v).power = c.power := fun v => by
    unfold Chip.power
    rw [Chip.get_set_ne _ _ (by decide), released_get c a m 0 rfl (by decide), Chip.get_set_ne _ _ (by decide)]
  have awake : (released c a m).1.power = c.power := by
    unfold Chip.power
    rw [released_get c a m 0 rfl (by decide), Chip.get_set_ne _ _ (by decide)]
  have place : c.power ≠ pwrWatch ∧ c.power ≠ pwrSleep ∧ ¬pwrSleep < c.power := by rcases hp with h | h <;> rw [h] <;> decide
  obtain ⟨hwatch, hsleep, hoff⟩ := place
  have loops : (List.range 4).foldl (fun (x : Chip × Arr × Mem) n => if x.1.portExists n then portHold n x.1 x.2.1 x.2.2 else x)
      ((List.range 12).foldl Chip.pgoodFall (c.set .H_ABSENT 0 1), a, m) = released c a m := rfl
  unfold presentDeassert
  rw [if_neg (by simp [ha])]
  dsimp only
  rw [loops]
  simp [quiet, power, awake, hwatch, hsleep, hoff, quiesceAsked_eq]

end
end Sys2Proof.Machine
end

section
/-! PROOFS. Module resets, start-up and removal as the commands do them (O58). -/

namespace Sys2Proof.Machine

/-! Removal -/

section
variable (c : Chip) (a : Arr) (m : Mem)

theorem released_get_pgood {b : Nat} (hb : b < 12) : (released c a m).1.get .IOB_BANK_STATUS_PGOOD b = 0 := by
  have held := (holdPorts_but ((c.set .H_ABSENT 0 1).banksFall, a, m)).get .IOB_BANK_STATUS_PGOOD b rfl
  dsimp only at held
  rw [Chip.banksFall_get (c.set .H_ABSENT 0 1) hb] at held
  exact held

theorem released_held {n : Nat} (hn : n < 4) (he : c.portExists n = true) (hl : c.on .H_LOST n = false) : (released c a m).1.Held n := by
  have fallen := Chip.banksFall_but (c.set .H_ABSENT 0 1)
  refine holdPorts_held _ hn ?_ ?_
  · unfold Chip.portExists at he ⊢
    rw [fallen.x16]
    exact he
  · unfold Chip.on at hl ⊢
    rw [fallen.get _ n rfl, Chip.get_set_ne _ _ (fun e => absurd e.1 (by decide))]
    exact hl

end

/-- The removal of a module in ON or IDLE (R391). -/
theorem does_presentDeassert (s : State) (ha : s.chip.on .H_ABSENT 0 = false) (hq : s.chip.on .H_QUIESCE 0 = false)
    (hp : s.chip.power = pwrOn ∨ s.chip.power = pwrIdle) :
    Does .presentDeassert s fun t =>
      t.chip.get .H_ABSENT 0 = 1 ∧ (∀ b, b < 12 → t.chip.get .IOB_BANK_STATUS_PGOOD b = 0 ∧ t.chip.bankState b = .powerOff) ∧
      (∀ n, n < 4 → s.chip.portExists n = true → s.chip.on .H_LOST n = false → t.chip.get .H_LINKUP n = 0 ∧ t.chip.get .H_LOST n = 1) ∧
      t.chip.get .H_QUIESCE 0 = 1 ∧ t.chip.cmdPending .pwr 0 = true ∧ t.chip.get .CQ_CMD (CmdReg.pwr.idx 0) = 5 := by
  refine ⟨s.onAll presentDeassert, rfl, ?_⟩
  have chip : (s.onAll presentDeassert).chip = (removalQuiesce (released s.chip s.arr s.mem).1 (released s.chip s.arr s.mem).2.1).1 :=
by
    rw [State.onAll_chip, presentDeassert_eq s.chip s.arr s.mem ha hq hp]
  have asked := removalQuiesce_but (released s.chip s.arr s.mem).1 (released s.chip s.arr s.mem).2.1
  have supplies : ∀ b, b < 12 → (s.onAll presentDeassert).chip.get .IOB_BANK_STATUS_PGOOD b = 0 := fun b hb => by
    rw [chip, asked.get _ b rfl, released_get_pgood _ _ _ hb]
  refine ⟨?_, fun b hb => ⟨supplies b hb, Chip.bankState_of_unsupplied (supplies b hb)⟩, fun n hn he hl => ?_, ?_, ?_, ?_⟩
  · rw [chip, asked.get _ 0 rfl, released_get _ _ _ 0 rfl (by decide), Chip.get_set_same]
    rfl
  · rw [chip, asked.get _ n rfl, asked.get _ n rfl]
    exact released_held s.chip s.arr s.mem hn he hl
  · rw [chip, removalQuiesce_get_quiesce]
  · rw [chip, removalQuiesce_pending]
  · rw [chip, removalQuiesce_get_cmd]

/-! Start-up -/

/-- The chip once the pair `pr` runs and the dies are up. -/
def Chip.booted (c : Chip) (u : StartUp) (pr : Bool × Bool) : Chip := (((c.beforeFirmware u).startFirmware u pr).startDies u).set .H_WARM 0 1

section
variable (c : Chip) (u : StartUp) (pr : Bool × Bool) {f : Fld} (j : Nat)

theorem Chip.booted_get_dies (hf : f ≠ .H_WARM) : (c.booted u pr).get f j = (((c.beforeFirmware u).startFirmware u pr).startDies u).get f j :=
  Chip.get_set_ne _ _ fun e => hf e.1

theorem Chip.booted_get_firmware (hs : f.signal = false) (hf : f ∉ Fld.H_WARM :: dieFields) :
    (c.booted u pr).get f j = ((c.beforeFirmware u).startFirmware u pr).get f j := by
  simp only [List.mem_cons, not_or] at hf
  obtain ⟨hw, hd⟩ := hf
  rw [Chip.booted_get_dies c u pr j hw, (Chip.startDies_only _ u).get j hs hd]

theorem Chip.booted_only : Chip.Only (.H_WARM :: (dieFields ++ firmwareFields)) (c.beforeFirmware u) (c.booted u pr) :=
  have firmware := ((c.beforeFirmware u).startFirmware_only u pr).widen (V := .H_WARM :: (dieFields ++ firmwareFields)) (by simp)
  have dies := (((c.beforeFirmware u).startFirmware u pr).startDies_only u).widen (V := .H_WARM :: (dieFields ++ firmwareFields)) (by intro f hf; simp [hf])
  Chip.Only.set (firmware.trans dies) 1 List.mem_cons_self

end

section
variable (u : StartUp) (s : State) (hwarm : s.chip.on .H_WARM 0 = false) (hoff : s.chip.power ≠ pwrOff) (hfuse : u.fusesOk = true) (hpll : u.pllsOk = true)
  (hbank : u.sramBad.toNat % 4 = 0)
include hwarm hoff hfuse hpll hbank

/-- The boot ROM finds no pair. -/
theorem does_startUp_of_none (hpair : s.chip.bootPair u = none) :
    Does (.startUp u) s fun t =>
      t.chip.get .H_WARM 0 = 0 ∧ t.chip.get .H_RST_N 0 = 0 ∧ t.chip.get .FLT_SRC_BOOT 0 = s.chip.get .FLT_SRC_BOOT 0 ∧ t.arr = s.arr ∧ t.mem = s.mem := by
  have boot := Chip.startUp_eq_of_none hwarm hoff hfuse hpll hbank hpair
  have warm : (s.chip.beforeFirmware u).get .H_WARM 0 = 0 := by
    rw [Chip.beforeFirmware_get _ u 0 rfl (by decide)]
    simpa [Chip.on] using hwarm
  have whole := startUpAll_of_cold u s.chip s.arr s.mem (by rw [boot]; simp [Chip.on, warm])
  rw [boot] at whole
  refine ⟨s.onAll (startUpAll u), rfl, ?_⟩
  unfold State.onAll
  rw [whole]
  exact ⟨warm, Chip.beforeFirmware_get_resetN _ u, Chip.beforeFirmware_get _ u 0 rfl (by decide), rfl, rfl⟩

/-- The boot ROM starts the pair `pr`. -/
theorem does_startUp_of_some (pr : Bool × Bool) (hpair : s.chip.bootPair u = some pr) (hs : u.stream = none) (hp : u.parts = []) :
    Does (.startUp u) s fun t =>
        t.chip.get .H_WARM 0 = 1 ∧ t.chip.get .H_RST_N 0 = 0 ∧ t.chip.get .FLT_SRC_BOOT 0 = 0 ∧ t.chip.get .PWR_AVS_VDD_C 0 = 800 ∧
        t.chip.get .H_FW_SEC 0 = (fwVersions (startFw u) pr).1.toNat ∧ t.chip.get .H_FW_SVC 0 = (fwVersions (startFw u) pr).2.toNat ∧
        (fwListed (startFw u) pr = true → t.chip.lastGood u = some pr) ∧
        t.chip.x16 = (u.recordOk && u.x16) ∧ (∀ j, j < 2 * s.chip.dies → t.chip.get .DMC_STACK_STATUS_STATE j = if bit u.stackBad.toNat j = 1 then 3 else 2) ∧
        (∀ j, j < 8 → t.chip.get .H_SRAM_BAD j = bit u.sramBad.toNat j) ∧
        (u.recordOk = true → ∀ j, j < 12 → bit u.sectors.toNat j = 1 → s.chip.sector j = sectEmpty → t.chip.get .RIM_SECT_OWN_OWNER j = ownerModule) ∧
        t.arr = s.arr ∧ t.mem = s.mem := by
  have boot : s.chip.startUp u = s.chip.booted u pr := Chip.startUp_eq_of_some hwarm hoff hfuse hpll hbank hpair
  have warm : (s.chip.booted u pr).get .H_WARM 0 = 1 := (Chip.get_set_same _ _ _ _).trans rfl
  have whole := startUpAll_eq u s.chip s.arr s.mem hwarm hs hp
  rw [boot] at whole
  simp only [Chip.on, warm, ne_eq, one_ne_zero, not_false_eq_true, decide_true, true_and] at whole
  refine ⟨s.onAll (startUpAll u), rfl, ?_⟩
  unfold State.onAll
  rw [whole]
  have own : Chip.Only sectOwnFields (s.chip.booted u pr) (if u.recordOk = true then (s.chip.booted u pr).ownSectors u else s.chip.booted u pr) :=
    .cond (Chip.ownSectors_only _ u) (.refl _)
  have same {f : Fld} (j : Nat) (hs : f.signal = false) (hf : f ∉ sectOwnFields) := own.get j hs hf
  refine ⟨?_, ?_, ?_, ?_, ?_, ?_, fun hl => Chip.lastGood_of_get u pr ?_, ?_, fun j hj => ?_, fun j hj => ?_, fun hr j hj hb he => ?_, rfl, rfl⟩
  · rw [same 0 rfl (by decide), warm]
  · rw [same 0 rfl (by decide), (s.chip.booted_only u pr).get 0 rfl (by decide), Chip.beforeFirmware_get_resetN]
  · rw [same 0 rfl (by decide), Chip.booted_get_firmware _ u pr 0 rfl (by decide), Chip.startFirmware_get_boot]
  · rw [same 0 rfl (by decide), Chip.booted_get_dies _ u pr 0 (by decide), Chip.startDies_get_vdd]
  · rw [same 0 rfl (by decide), Chip.booted_get_firmware _ u pr 0 rfl (by decide), Chip.startFirmware_get_sec]
  · rw [same 0 rfl (by decide), Chip.booted_get_firmware _ u pr 0 rfl (by decide), Chip.startFirmware_get_svc]
  · rw [same 0 rfl (by decide), Chip.booted_get_firmware _ u pr 0 rfl (by decide), Chip.startFirmware_get_good _ u pr hl]
  · rw [own.x16, (s.chip.booted_only u pr).x16, Chip.beforeFirmware_x16]
  · have dies : j < 2 * ((s.chip.beforeFirmware u).startFirmware u pr).dies := by
      rw [(Chip.startFirmware_only _ u pr).dies, Chip.beforeFirmware_dies]
      exact hj
    rw [same j rfl (by decide), Chip.booted_get_dies _ u pr j (by decide), Chip.startDies_get_stack _ u dies]
  · rw [same j rfl (by decide), (s.chip.booted_only u pr).get j rfl (by decide), Chip.beforeFirmware_get_bad _ u hj]
  · rw [if_pos hr]
    refine Chip.ownSectors_get _ u hj hb ?_
    unfold Chip.sector at he ⊢
    rw [(s.chip.booted_only u pr).get j rfl (by decide), Chip.beforeFirmware_get _ u j rfl (by decide)]
    exact he

end

/-! Module resets -/

/-- RESET_N goes high and nothing else happens where the fuses or the PLLs fail. -/
theorem exec_startUp_of_fail (u : StartUp) (s : State) (h : u.fusesOk = false ∨ u.pllsOk = false) :
    exec (.startUp u) s = .next { s with chip := s.chip.set .H_RST_N 0 0 } := by
  have boot : s.chip.startUp u = s.chip.set .H_RST_N 0 0 := by
    unfold Chip.startUp
    rcases h with h | h <;> simp [h]
  have whole : startUpAll u s.chip s.arr s.mem = (s.chip.set .H_RST_N 0 0, s.arr, s.mem) := by
    unfold startUpAll
    dsimp only
    rw [boot, Chip.resetN_high_on]
    cases s.chip.on .H_WARM 0 <;> simp
  show Host.Outcome.next (s.onAll (startUpAll u)) = _
  unfold State.onAll
  rw [whole]

/-- Settles O58. Each reset keeps what `Chip.IsReset` says and adds its cause; start-up and removal go through their parts in order. -/
theorem moduleResets : Obligations.ModuleResets := by
  intro u s kept latch failed old
  have kept_of : ∀ d, Chip.Except causeFields s.chip.moduleReset d → kept { s with chip := d, arr := {}, mem := {} } := fun d hd =>
    have h := Chip.isReset_of_except hd
    ⟨rfl, rfl, rfl, h.grade, h.now, h.cleared, h.kept, h.pend, h.state⟩
  have power := s.chip.moduleReset_power
  have tamper := s.chip.moduleReset_get_cause 0 (f := .PWR_RST_CAUSE_TAMPER) (by decide)
  have parts : ∀ j, s.chip.moduleReset.get .DMC_STACK_STATUS_CH_FAIL j = s.chip.get .DMC_STACK_STATUS_CH_FAIL j ∧
      s.chip.moduleReset.get .H_LINK_FAIL j = s.chip.get .H_LINK_FAIL j := fun j =>
    ⟨s.chip.moduleReset_get_cause j (by decide), s.chip.moduleReset_get_cause j (by decide)⟩
  have recorded : ∀ f ∈ [Fld.PWR_RST_CAUSE_BROWNOUT, .PWR_RST_CAUSE_THERM, .PWR_RST_CAUSE_LC], ∀ t : State, t.chip = s.chip.moduleReset.set f 0 1 →
      t.chip.power = pwrOn ∧ latch t old ∧ t.chip.get f 0 = 1 ∧ failed t := fun f hf t ht => by
    obtain ⟨hp, ht', hf', hj⟩ := s.chip.moduleReset.cause_values hf
    rw [← ht] at hp ht' hf' hj
    exact ⟨hp.trans power, ht'.trans tamper, hf', fun j => ⟨(hj j).1.trans (parts j).1, (hj j).2.trans (parts j).2⟩⟩
  refine ⟨⟨_, rfl, kept_of _ (Chip.causePor_except _), ?_⟩, ⟨_, rfl, kept_of _ (Chip.causePin_except _), ?_⟩, fun hr => ?_, fun hr => ?_,
    ⟨_, rfl, kept_of _ (Chip.causeTherm_except _), recorded _ (by decide) _ rfl⟩, ⟨_, rfl, kept_of _ (Chip.causeOff_except _), Chip.causeOff_values _⟩, fun hd => ?_,
    fun hwarm hoff hfuse hpll hbank => ⟨fun pr hpr hs hp => does_startUp_of_some u s hwarm hoff hfuse hpll hbank pr hpr hs hp,
      does_startUp_of_none u s hwarm hoff hfuse hpll hbank⟩,
    exec_startUp_of_fail u s, does_presentDeassert s, ?_⟩
  · obtain ⟨hp, hpor, hlow, hj⟩ := s.chip.moduleReset.causePor_values
    exact ⟨hp.trans power, hpor, hlow, hj⟩
  · obtain ⟨hp, htamper, hpin, hlow, hj⟩ := s.chip.moduleReset.causePin_values
    exact ⟨hp.trans power, htamper, hpin, hlow, fun j => ⟨(hj j).1.trans (parts j).1, (hj j).2.trans (parts j).2⟩⟩
  · have reset : brownOut s.chip s.arr s.mem = resetAll Chip.causeBrownout s.chip := if_neg (by simp [hr])
    refine ⟨{ s with chip := s.chip.moduleReset.causeBrownout, arr := {}, mem := {} }, ?_, kept_of _ (Chip.causeBrownout_except _), recorded _ (by decide) _ rfl⟩
    show Host.Outcome.next (s.onAll brownOut) = _
    unfold State.onAll
    rw [reset]
    rfl
  · have held : brownOut s.chip s.arr s.mem = (s.chip, s.arr, s.mem) := if_pos hr
    show Host.Outcome.next (s.onAll brownOut) = _
    unfold State.onAll
    rw [held]
  · have reset : lifeCycleReset s.chip s.arr s.mem = resetAll Chip.causeLc s.chip := if_pos hd
    refine ⟨{ s with chip := s.chip.moduleReset.causeLc, arr := {}, mem := {} }, ?_, kept_of _ (Chip.causeLc_except _), recorded _ (by decide) _ rfl⟩
    show Host.Outcome.next (s.onAll lifeCycleReset) = _
    unfold State.onAll
    rw [reset]
    rfl
  · exact ⟨_, rfl, (Chip.get_set_same _ _ _ _).trans rfl, fun g j hg => Chip.get_set_ne _ _ fun e => hg (by simp [e]), rfl, rfl⟩

end Sys2Proof.Machine
end

section
/-! PROOFS. The word code (R38, R39): the syndrome and the parity of a stored word are sums over its bits, so an error pattern shows as it is (O6). -/

namespace Sys2Proof.Machine

/-! Parity -/

theorem parityN_xor (n x y : Nat) : parityN n (x ^^^ y) = (parityN n x + parityN n y) % 2 := by
  induction n generalizing x y with
  | zero => rfl
  | succ n ih =>
    simp only [parityN, Nat.xor_div_two, ih, Nat.xor_mod_two_eq]
    omega

theorem parityN_zero (n : Nat) : parityN n 0 = 0 := by
  induction n with
  | zero => rfl
  | succ n ih => simp [parityN, ih]

theorem parityN_two_pow {n i : Nat} (h : i < n) : parityN n (2 ^ i) = 1 := by
  induction n generalizing i with
  | zero => omega
  | succ n ih =>
    cases i with
    | zero => simp [parityN, parityN_zero]
    | succ i => simp [parityN, Nat.pow_succ, ih (Nat.lt_of_succ_lt_succ h)]

/-- The parity of the lowest `n` bits does not see the bits above them. -/
theorem parityN_add_mul (n v k : Nat) : parityN n (v + k * 2 ^ n) = parityN n v := by
  induction n generalizing v with
  | zero => rfl
  | succ n ih =>
    have shift : k * 2 ^ (n + 1) = k * 2 ^ n * 2 := by rw [Nat.pow_succ, Nat.mul_assoc]
    rw [parityN, shift, Nat.add_mul_div_right _ _ Nat.two_pos, Nat.add_mul_mod_self_right, ih, parityN]

theorem parityN_succ (n v : Nat) : parityN (n + 1) v = (parityN n v + v / 2 ^ n) % 2 := by
  induction n generalizing v with
  | zero => simp [parityN]
  | succ n ih =>
    rw [parityN, ih, parityN, Nat.div_div_eq_div_mul, ← Nat.pow_succ', Nat.succ_eq_add_one]
    omega

/-! The check bits -/

/-- The exclusive OR of the positions `ps` of the bits of `d` that are set. -/
def xorPositions : List Nat → Nat → Nat
  | [], _ => 0
  | p :: ps, d => (if d % 2 = 1 then p else 0) ^^^ xorPositions ps (d / 2)

theorem hamming_eq (d : Nat) : hamming d = xorPositions dataPositions d := by
  have fold : ∀ (ps : List Nat) (d acc : Nat),
      (ps.foldl (fun (a : Nat × Nat) pos => (a.1 / 2, if a.1 % 2 = 1 then Nat.xor a.2 pos else a.2)) (d, acc)).2 = acc ^^^ xorPositions ps d := by
    intro ps
    induction ps with
    | nil => intro d acc; simp [xorPositions]
    | cons p ps ih =>
      intro d acc
      rw [List.foldl_cons, ih, xorPositions, ← Nat.xor_assoc]
      split
      · rfl
      · rw [Nat.xor_zero]
  unfold hamming
  rw [fold, Nat.zero_xor]

theorem xorPositions_xor (ps : List Nat) (x y : Nat) : xorPositions ps (x ^^^ y) = xorPositions ps x ^^^ xorPositions ps y := by
  induction ps generalizing x y with
  | nil => exact (Nat.xor_self 0).symm
  | cons p ps ih =>
    have bitsum : (if (x ^^^ y) % 2 = 1 then p else 0) = (if x % 2 = 1 then p else 0) ^^^ (if y % 2 = 1 then p else 0) := by
      rw [Nat.xor_mod_two_eq]
      rcases Nat.mod_two_eq_zero_or_one x with hx | hx <;> rcases Nat.mod_two_eq_zero_or_one y with hy | hy <;> simp [Nat.add_mod, hx, hy]
    simp only [xorPositions, Nat.xor_div_two, ih, bitsum]
    ac_rfl

theorem xorPositions_zero (ps : List Nat) : xorPositions ps 0 = 0 := by
  induction ps with
  | nil => rfl
  | cons p ps ih => simp [xorPositions, ih]

theorem xorPositions_two_pow (ps : List Nat) {i : Nat} (h : i < ps.length) : xorPositions ps (2 ^ i) = ps[i] := by
  induction ps generalizing i with
  | nil => simp at h
  | cons p ps ih =>
    cases i with
    | zero => simp [xorPositions, xorPositions_zero]
    | succ i => simp [xorPositions, Nat.pow_succ, ih (Nat.lt_of_succ_lt_succ h)]

theorem xorPositions_lt {n : Nat} (ps : List Nat) (h : ∀ p ∈ ps, p < 2 ^ n) (d : Nat) : xorPositions ps d < 2 ^ n := by
  induction ps generalizing d with
  | nil => exact Nat.two_pow_pos n
  | cons p ps ih =>
    obtain ⟨hp, hps⟩ := List.forall_mem_cons.1 h
    refine Nat.xor_lt_two_pow ?_ (ih hps _)
    split
    · exact hp
    · exact Nat.two_pow_pos n

theorem mem_dataPositions {n : Nat} : n ∈ dataPositions ↔ n < 88 ∧ 2 < n ∧ n ∉ [4, 8, 16, 32, 64] := by
  simp [dataPositions]

theorem hamming_lt (d : Nat) : hamming d < 2 ^ 7 := by
  rw [hamming_eq]
  exact xorPositions_lt _ (fun p hp => by have := (mem_dataPositions.1 hp).1; omega) d

/-! The syndrome -/

/-- The exclusive OR of the check bits that a stored word has and those that its data bits give. -/
def syndrome (w : Nat) : Nat := hamming (w % 2 ^ 80) ^^^ bits w 86 80

theorem checkWord_eq (w : Nat) : checkWord w =
    if parityN 88 w = 0 then if syndrome w = 0 then .good else .bad
    else if 88 ≤ syndrome w then .bad
    else if syndrome w ∈ dataPositions then .corrected (encodeWord (w % 2 ^ 80 ^^^ 2 ^ dataPositions.idxOf (syndrome w)))
    else .corrected (encodeWord (w % 2 ^ 80)) := rfl

theorem syndrome_xor (x y : Nat) : syndrome (x ^^^ y) = syndrome x ^^^ syndrome y := by
  have check : bits (x ^^^ y) 86 80 = bits x 86 80 ^^^ bits y 86 80 := by
    simp only [bits, Nat.xor_div_two_pow, Nat.xor_mod_two_pow]
  simp only [syndrome, hamming_eq, Nat.xor_mod_two_pow, xorPositions_xor, check]
  ac_rfl

/-- The code positions of the 88 stored bits: the data bits, C0 to C6, and the parity bit, which no check bit covers. -/
def codePositions : List Nat := dataPositions ++ [1, 2, 4, 8, 16, 32, 64, 0]

theorem length_dataPositions : dataPositions.length = 80 := by decide

theorem length_codePositions : codePositions.length = 88 := by rw [codePositions, List.length_append, length_dataPositions]; rfl

theorem nodup_codePositions : codePositions.Nodup := by
  refine List.nodup_append.2 ⟨List.nodup_range.filter _, by decide, fun x hx y hy => ?_⟩
  have hx := mem_dataPositions.1 hx
  rintro rfl
  simp only [List.mem_cons, List.not_mem_nil, or_false, not_or] at hx hy
  omega

theorem syndrome_two_pow {i : Nat} (h : i < codePositions.length) : syndrome (2 ^ i) = codePositions[i] := by
  by_cases hi : i < 80
  · have data : 2 ^ i % 2 ^ 80 = 2 ^ i := Nat.mod_eq_of_lt (Nat.pow_lt_pow_right (by decide) hi)
    have check : bits (2 ^ i) 86 80 = 0 := by
      rw [bits, Nat.div_eq_of_lt (Nat.pow_lt_pow_right (by decide) hi), Nat.zero_mod]
    have hd : i < dataPositions.length := length_dataPositions ▸ hi
    rw [syndrome, data, check, Nat.xor_zero, hamming_eq, xorPositions_two_pow _ hd]
    exact (List.getElem_append_left hd).symm
  · obtain ⟨k, rfl⟩ : ∃ k, i = 80 + k := ⟨i - 80, by omega⟩
    have hk : k < 8 := by rw [length_codePositions] at h; omega
    have data : 2 ^ (80 + k) % 2 ^ 80 = 0 := Nat.mod_eq_zero_of_dvd (Nat.pow_dvd_pow _ (by omega))
    have check : bits (2 ^ (80 + k)) 86 80 = 2 ^ k % 2 ^ 7 := by
      rw [bits, Nat.pow_add, Nat.mul_div_cancel_left _ (by decide)]
    have tail : ∀ k (hk : k < 8), 2 ^ k % 2 ^ 7 = [1, 2, 4, 8, 16, 32, 64, 0][k] := by decide
    rw [syndrome, data, check, hamming_eq, xorPositions_zero, Nat.zero_xor, tail k hk]
    simp only [codePositions]
    rw [List.getElem_append_right (by rw [length_dataPositions]; omega)]
    simp [length_dataPositions]

/-! The stored word -/

section
variable {d : Nat} (hd : d < 2 ^ 80)
include hd

theorem encodeWord_eq : encodeWord d = d + hamming d * 2 ^ 80 + parityN 87 (d + hamming d * 2 ^ 80) * 2 ^ 87 := by
  simp only [encodeWord, Nat.mod_eq_of_lt hd]

theorem encodeWord_data : encodeWord d % 2 ^ 80 = d := by
  have := hamming_lt d
  rw [encodeWord_eq hd]
  omega

theorem encodeWord_syndrome : syndrome (encodeWord d) = 0 := by
  have := hamming_lt d
  have check : bits (encodeWord d) 86 80 = hamming d := by
    rw [encodeWord_eq hd, bits]
    omega
  rw [syndrome, encodeWord_data hd, check, Nat.xor_self]

theorem encodeWord_parity : parityN 88 (encodeWord d) = 0 := by
  have fits : d + hamming d * 2 ^ 80 < 2 ^ 87 := by have := hamming_lt d; omega
  rw [encodeWord_eq hd, parityN_succ, parityN_add_mul, Nat.add_mul_div_right _ _ (Nat.two_pow_pos 87), Nat.div_eq_of_lt fits]
  omega

/-- A stored word with the bits of `e` wrong has the syndrome and the parity of `e`. -/
theorem syndrome_encodeWord_xor (e : Nat) : syndrome (encodeWord d ^^^ e) = syndrome e := by
  rw [syndrome_xor, encodeWord_syndrome hd, Nat.zero_xor]

theorem parityN_encodeWord_xor (e : Nat) : parityN 88 (encodeWord d ^^^ e) = parityN 88 e % 2 := by
  rw [parityN_xor, encodeWord_parity hd, Nat.zero_add]

theorem checkWord_encodeWord : checkWord (encodeWord d) = .good := by
  rw [checkWord_eq, encodeWord_parity hd, encodeWord_syndrome hd]
  rfl

theorem checkWord_of_one_wrong {i : Nat} (hi : i < 88) : checkWord (encodeWord d ^^^ 2 ^ i) = .corrected (encodeWord d) := by
  have hc : i < codePositions.length := length_codePositions ▸ hi
  have parity : parityN 88 (encodeWord d ^^^ 2 ^ i) = 1 := by rw [parityN_encodeWord_xor hd, parityN_two_pow hi]
  have syn : syndrome (encodeWord d ^^^ 2 ^ i) = codePositions[i] := by rw [syndrome_encodeWord_xor hd, syndrome_two_pow hc]
  have data : (encodeWord d ^^^ 2 ^ i) % 2 ^ 80 = d ^^^ 2 ^ i % 2 ^ 80 := by rw [Nat.xor_mod_two_pow, encodeWord_data hd]
  rw [checkWord_eq, if_neg (by omega), syn, data]
  by_cases hd80 : i < 80
  · have hdata : i < dataPositions.length := length_dataPositions ▸ hd80
    have pos : codePositions[i] = dataPositions[i] := List.getElem_append_left hdata
    have mem : dataPositions[i] ∈ dataPositions := List.getElem_mem hdata
    have idx : dataPositions.idxOf dataPositions[i] = i := (List.nodup_range.filter _).idxOf_getElem i hdata
    have low : 2 ^ i % 2 ^ 80 = 2 ^ i := Nat.mod_eq_of_lt (Nat.pow_lt_pow_right (by decide) hd80)
    have small := (mem_dataPositions.1 mem).1
    rw [pos, if_neg (by omega), if_pos mem, idx, low, Nat.xor_assoc, Nat.xor_self, Nat.xor_zero]
  · have low : 2 ^ i % 2 ^ 80 = 0 := Nat.mod_eq_zero_of_dvd (Nat.pow_dvd_pow 2 (by omega))
    have tail : codePositions[i] ∈ [1, 2, 4, 8, 16, 32, 64, 0] := by
      simp only [codePositions]
      rw [List.getElem_append_right (by rw [length_dataPositions]; omega)]
      exact List.getElem_mem _
    have check : ∀ n ∈ [1, 2, 4, 8, 16, 32, 64, 0], ¬88 ≤ n ∧ n ∉ dataPositions := by decide
    obtain ⟨small, unlisted⟩ := check _ tail
    rw [if_neg small, if_neg unlisted, low, Nat.xor_zero]

theorem checkWord_of_two_wrong {i j : Nat} (hi : i < 88) (hj : j < 88) (hij : i ≠ j) :
    checkWord (encodeWord d ^^^ 2 ^ i ^^^ 2 ^ j) = .bad := by
  have hci : i < codePositions.length := length_codePositions ▸ hi
  have hcj : j < codePositions.length := length_codePositions ▸ hj
  have parity : parityN 88 (encodeWord d ^^^ 2 ^ i ^^^ 2 ^ j) = 0 := by
    rw [Nat.xor_assoc, parityN_encodeWord_xor hd, parityN_xor, parityN_two_pow hi, parityN_two_pow hj]
  have syn : syndrome (encodeWord d ^^^ 2 ^ i ^^^ 2 ^ j) = codePositions[i] ^^^ codePositions[j] := by
    rw [Nat.xor_assoc, syndrome_encodeWord_xor hd, syndrome_xor, syndrome_two_pow hci, syndrome_two_pow hcj]
  have differ : codePositions[i] ^^^ codePositions[j] ≠ 0 := fun h =>
    hij ((nodup_codePositions.getElem_inj_iff).1 (Nat.xor_eq_zero_iff.1 h))
  rw [checkWord_eq, if_pos parity, syn, if_neg differ]

end

/-- Settles O6: an error pattern shows by its parity and its syndrome, and no two single errors have one syndrome. -/
theorem wordCheckCorrectsOneDetectsTwo : Obligations.WordCheckCorrectsOneDetectsTwo := fun _ hd =>
  ⟨checkWord_encodeWord hd, fun _ hi => checkWord_of_one_wrong hd hi, fun _ _ hi hj hij => checkWord_of_two_wrong hd hi hj hij⟩

/-- Refutes O7: the premise keeps one slot of the word to a bit. Where another slot of the word holds 3, the stored byte is a sum with a carry, and the write of slot 2
moves the byte from 6 to 10, of equal parity, while the parity bit changes. -/
theorem not_slotWriteKeepsParity : ¬ Obligations.SlotWriteKeepsParity := by
  intro h
  obtain ⟨-, standing⟩ := h [(1, 3)] [] 0 2 1 (by decide) (by decide)
  exact absurd (standing 0) (by decide)

end Sys2Proof.Machine
end

section
/-! PROOFS. The canonical form of the memories (O5): one part replaced, and what agents, probes, pumps and partitions do to them. -/

namespace Sys2Proof.Machine

/-! One memory of the module replaced. An error mark is no part of the canonical form. -/

section
variable {m : Mem} {d : List Host.Cell} (h : m.wf = true)
include h

theorem Mem.cistern_wf : Memory.wf m.cistern = true := ((Mem.wf_iff m).1 h).1
theorem Mem.deep_wf : Memory.wf m.deep = true := ((Mem.wf_iff m).1 h).2.1
theorem Mem.sram_wf : Memory.wf m.sram = true := ((Mem.wf_iff m).1 h).2.2.1
theorem Mem.vault_wf : Memory.wf m.vault = true := ((Mem.wf_iff m).1 h).2.2.2.1
theorem Mem.rim_wf : Memory.wf m.rim = true := ((Mem.wf_iff m).1 h).2.2.2.2

variable (hd : Memory.wf d = true)
include hd

theorem Mem.wf_setCistern : ({ m with cistern := d } : Mem).wf = true := by
  obtain ⟨_, hdeep, hsram, hvault, hrim⟩ := (Mem.wf_iff m).1 h
  exact (Mem.wf_iff _).2 ⟨hd, hdeep, hsram, hvault, hrim⟩

theorem Mem.wf_setDeep : ({ m with deep := d } : Mem).wf = true := by
  obtain ⟨hcistern, _, hsram, hvault, hrim⟩ := (Mem.wf_iff m).1 h
  exact (Mem.wf_iff _).2 ⟨hcistern, hd, hsram, hvault, hrim⟩

theorem Mem.wf_setSram : ({ m with sram := d } : Mem).wf = true := by
  obtain ⟨hcistern, hdeep, _, hvault, hrim⟩ := (Mem.wf_iff m).1 h
  exact (Mem.wf_iff _).2 ⟨hcistern, hdeep, hd, hvault, hrim⟩

theorem Mem.wf_setVault : ({ m with vault := d } : Mem).wf = true := by
  obtain ⟨hcistern, hdeep, hsram, _, hrim⟩ := (Mem.wf_iff m).1 h
  exact (Mem.wf_iff _).2 ⟨hcistern, hdeep, hsram, hd, hrim⟩

theorem Mem.wf_setRim : ({ m with rim := d } : Mem).wf = true := by
  obtain ⟨hcistern, hdeep, hsram, hvault, _⟩ := (Mem.wf_iff m).1 h
  exact (Mem.wf_iff _).2 ⟨hcistern, hdeep, hsram, hvault, hd⟩

end

/-! Memory port agents -/

section
variable (p g : Nat) (c : Chip) (a : Arr) {m : Mem} (h : m.wf = true)
include h

theorem issueCread_wf : (issueCread p g c a m).2.2.wf = true := by
  unfold issueCread
  dsimp only
  exact readCis_wf _ _ _ _ _ _ h

theorem issueCwrite_wf : (issueCwrite p g c a m).2.2.wf = true := by
  unfold issueCwrite
  exact writeCis_wf _ _ _ _ _ _ h

theorem issueDread_wf : (issueDread p g c a m).2.2.wf = true := by
  unfold issueDread
  dsimp only
  split
  · dsimp only
    split
    · exact h
    · exact readDeep_wf _ _ _ _ _ _ _ _ h
  · exact h

theorem issueDwrite_wf : (issueDwrite p g c a m).2.2.wf = true := by
  unfold issueDwrite
  dsimp only
  split
  · dsimp only
    split
    · exact h
    · exact writeDeep_wf _ _ _ _ _ _ _ _ h
  · exact h

theorem agentIssue_wf (s : Nat) : (agentIssue p s g c a m).2.2.wf = true := by
  unfold agentIssue
  split
  · exact h
  · split
    · exact issueCread_wf _ _ _ _ h
    · exact issueCwrite_wf _ _ _ _ h
    · exact issueDread_wf _ _ _ _ h
    · exact issueDwrite_wf _ _ _ _ h
    · exact h

theorem agentsExec_wf (s : Nat) : (agentsExec p s c a m).2.2.wf = true :=
  List.foldlRecOn (motive := fun x : Chip × Arr × Mem => x.2.2.wf = true) _ _ h fun x hx g _ => agentIssue_wf p g x.1 x.2.1 hx s

theorem agentCommand_wf (kind : Nat) : (agentCommand kind g c a m).2.2.wf = true := by
  unfold agentCommand
  split
  · exact h
  · dsimp only
    split
    · exact agentsExec_wf _ _ _ h _
    · exact h

/-! A step of a partition -/

theorem arrayStep_wf (s : Nat) : (arrayStep p s c a m).2.2.wf = true := by
  unfold arrayStep
  dsimp only
  exact agentsExec_wf p _ _ h s

theorem stepExecute_wf : (stepExecute p c a m).2.2.wf = true := by
  unfold stepExecute
  extract_lets s n c'
  generalize hx : arrayStep p s c' a m = x
  have hm : x.2.2.wf = true := hx ▸ arrayStep_wf p c' a h s
  obtain ⟨c, a, m⟩ := x
  dsimp only
  split
  · exact hm
  · exact hm

theorem holdPeriod_wf : (holdPeriod p c a m).2.2.wf = true := by
  unfold holdPeriod
  dsimp only
  split
  · exact stepExecute_wf _ _ _ h
  · exact h

theorem partPeriod_wf : (partPeriod p c a m).2.2.wf = true := by
  unfold partPeriod
  dsimp only
  split
  · exact stepExecute_wf _ _ _ h
  · split
    · exact holdPeriod_wf _ _ _ h
    · split
      · exact h
      · split <;> exact h

end

/-! Probe records -/

section
variable (c : Chip) {m : Mem} (h : m.wf = true)
include h

theorem drainBytes_wf (r : ProbeRec) (n tag : Nat) : (drainBytes c m r n tag).2.wf = true := by
  unfold drainBytes
  dsimp only
  split
  · exact h
  · exact designWrite_wf _ _ _ _ _ _ _ h

theorem recordDrain_wf (p n : Nat) : (recordDrain p n c m).2.wf = true := by
  unfold recordDrain
  split
  · exact h
  · exact h
  · exact drainBytes_wf c h _ _ _

theorem recordDrainAwake_wf (p n : Nat) : (recordDrainAwake p n c m).2.wf = true := by
  unfold recordDrainAwake
  split
  · exact h
  · exact recordDrain_wf c h p n

end

/-! Clearing -/

section
variable {m : Mem} (h : m.wf = true)
include h

theorem Mem.clearGranule_wf (x : Nat) : (m.clearGranule x).wf = true := Mem.wf_setDeep h (Memory.wf_clearRange _ _ (Mem.deep_wf h))

theorem Mem.clearCisterns_wf (c : Chip) (p : Nat) : (m.clearCisterns c p).wf = true :=
  Mem.wf_setCistern h (Memory.wf_clearRange _ _ (Mem.cistern_wf h))

theorem Mem.clearPart_wf (c : Chip) (p : Nat) : (m.clearPart c p).wf = true :=
  List.foldlRecOn (motive := fun m : Mem => m.wf = true) _ _ (Mem.clearCisterns_wf h c p) fun _ hm x _ => Mem.clearGranule_wf hm x

theorem Mem.clearGranules_wf (c : Chip) (p lo n : Nat) : (m.clearGranules c p lo n).wf = true :=
  List.foldlRecOn (motive := fun m : Mem => m.wf = true) _ _ h fun _ hm _ _ => Mem.clearGranule_wf hm _

theorem Mem.clearSector_wf (k : Nat) : (m.clearSector k).wf = true := Mem.wf_setRim h (Memory.wf_clearRange _ _ (Mem.rim_wf h))

theorem releaseComplete_wf (p : Nat) (c : Chip) (a : Arr) : (releaseComplete p c a m).2.2.wf = true := by
  unfold releaseComplete
  split
  · exact Mem.clearPart_wf h c p
  · exact h

theorem mtClear_wf (target unit : Nat) (a : Arr) : (mtClear target unit a m).2.wf = true := by
  unfold mtClear
  dsimp only
  split
  · exact h
  · exact h
  · exact Mem.wf_setCistern h (Memory.wf_clearRange _ _ (Mem.cistern_wf h))
  · exact Mem.wf_setSram h (Memory.wf_clearRange _ _ (Mem.sram_wf h))

theorem mtComplete_wf (fails : List (Nat × Nat)) (c : Chip) (a : Arr) : (mtComplete fails c a m).2.2.wf = true := by
  unfold mtComplete
  split
  · dsimp only
    split
    · exact mtClear_wf h _ _ _
    · exact h
  · exact h

end

end Sys2Proof.Machine
end

section
/-! PROOFS. The canonical form of the rim configuration memory: the scrubber and the streams of the rim loader (O5). -/

namespace Sys2Proof.Machine

/-! The scrubber -/

theorem Mem.flipBit_wf {m : Mem} (h : m.wf = true) (f e : Nat) : (m.flipBit f e).wf = true := by
  unfold Mem.flipBit
  refine Mem.wf_setRim h ?_
  split
  · exact Memory.wf_write _ _ (Mem.rim_wf h)
  · exact Mem.rim_wf h

theorem scrubWord_wf (f : Nat) {r : Mem × Nat × Bool} (h : r.1.wf = true) (w : Nat) : (scrubWord f r w).1.wf = true := by
  unfold scrubWord
  split
  · exact h
  · exact Mem.flipBit_wf h _ _
  · exact h

theorem scrubWords_wf (f : Nat) {r : Mem × Nat × Bool} (h : r.1.wf = true) (ws : List Nat) : (ws.foldl (scrubWord f) r).1.wf = true :=
  List.foldlRecOn (motive := fun r : Mem × Nat × Bool => r.1.wf = true) _ _ h fun _ hr w _ => scrubWord_wf f hr w

theorem Mem.flipBits_wf {m : Mem} (h : m.wf = true) (f : Nat) (es : List Nat) : (es.foldl (fun m e => m.flipBit f e) m).wf = true :=
  List.foldlRecOn (motive := fun m : Mem => m.wf = true) _ _ h fun _ hm e _ => Mem.flipBit_wf hm f e

section
variable (c : Chip) {m : Mem} (h : m.wf = true)
include h

theorem scrubFrame_wf (errs : List Nat) : (scrubFrame errs c m).2.wf = true := by
  unfold scrubFrame
  split
  · exact h
  · dsimp only
    split
    · exact h
    · exact scrubWords_wf _ (Mem.flipBits_wf h _ _) _

/-! The stream -/

theorem dropLoading_wf : (dropLoading c m).2.wf = true :=
  List.foldlRecOn (motive := fun x : Chip × Mem => x.2.wf = true) _ _ h fun x hx k _ => by
    split
    · exact Mem.clearSector_wf hx k
    · exact hx

theorem streamFail_wf (code w : Nat) : (streamFail code w c m).2.wf = true := by
  unfold streamFail
  dsimp only
  exact dropLoading_wf c h

theorem streamDry_wf (w : Nat) : (streamDry w c m).2.wf = true := streamFail_wf c h _ w

theorem badCommand_wf : (badCommand c m).2.wf = true := streamFail_wf c h _ _

theorem streamCommand_wf (w : Nat) (data : List Nat) {act : List Nat → Chip → Mem → Chip × Mem}
    (hact : ∀ d c {m : Mem}, m.wf = true → (act d c m).2.wf = true) : (streamCommand w data act c m).2.wf = true := by
  unfold streamCommand
  dsimp only
  split
  · exact h
  split
  · exact streamFail_wf c h _ _
  split
  · exact streamDry_wf c h _
  split
  · exact h
  · exact hact _ _ h

theorem streamSync_wf (w : Nat) : (streamSync w c m).2.wf = true := by
  unfold streamSync
  split
  · exact h
  split
  · exact streamCommand_wf c h _ _ fun _ c _ h => badCommand_wf c h
  split
  · exact streamDry_wf c h _
  split
  · exact h
  · exact streamFail_wf c h _ _

theorem streamNop_wf (op arg : Nat) : (streamNop op arg c m).2.wf = true :=
  streamCommand_wf c h _ _ fun _ c _ h => by
    split
    · exact h
    · exact badCommand_wf c h

theorem streamDevid_wf (arg : Nat) (id : List Nat) : (streamDevid arg id c m).2.wf = true :=
  streamCommand_wf c h _ _ fun _ c _ h => by
    split
    · exact badCommand_wf c h
    split
    · exact streamDry_wf c h _
    split
    · exact h
    · exact streamFail_wf c h _ _

theorem streamSelect_wf (arg : Nat) : (streamSelect arg c m).2.wf = true := by
  unfold streamSelect
  split
  · exact h
  split
  · exact streamFail_wf c h _ _
  split
  · exact streamDry_wf c h _
  split
  · split
    · exact badCommand_wf c h
    · exact h
  · exact h

theorem streamSector_wf (arg : Nat) : (streamSector arg c m).2.wf = true :=
  streamCommand_wf c h _ _ fun _ c _ h => by
    split
    · exact badCommand_wf c h
    split
    · exact streamFail_wf c h _ _
    · exact Mem.clearSector_wf h arg

theorem streamFaddr_wf (arg : Nat) : (streamFaddr arg c m).2.wf = true :=
  streamCommand_wf c h _ _ fun _ c _ h => by
    split
    · exact badCommand_wf c h
    split
    · exact badCommand_wf c h
    · exact h

theorem writeFrame_wf (d : List Byte) : (writeFrame d c m).2.wf = true := Mem.wf_setRim h (Memory.wf_writeN _ _ (Mem.rim_wf h))

theorem writeFrames_wf (k n i : Nat) (ws : List Nat) : (writeFrames k n i ws c m).2.wf = true := by
  induction n generalizing i ws c m with
  | zero => exact h
  | succ n ih =>
    rw [writeFrames]
    dsimp only
    split
    · exact streamDry_wf c h _
    split
    · exact streamFail_wf c h _ _
    split
    · exact ih _ (writeFrame_wf c h _) _ _
    · exact streamFail_wf c h _ _

theorem streamWrite_wf (arg : Nat) (data : List Nat) : (streamWrite arg data c m).2.wf = true :=
  streamCommand_wf c h _ _ fun _ c _ h => by
    split
    · exact badCommand_wf c h
    · exact writeFrames_wf c h _ _ _ _

theorem repeatFrames_wf (k n : Nat) (d : List Byte) : (repeatFrames k d n c m).2.wf = true := by
  induction n generalizing c m with
  | zero => exact h
  | succ n ih =>
    rw [repeatFrames]
    split
    · exact ih _ (writeFrame_wf c h d)
    · exact streamFail_wf c h _ _

theorem streamRepeat_wf (arg : Nat) : (streamRepeat arg c m).2.wf = true :=
  streamCommand_wf c h _ _ fun _ c _ h => by
    split
    · exact badCommand_wf c h
    · exact repeatFrames_wf c h _ _ _

theorem streamEnd_wf (arg : Nat) (crc : List Nat) : (streamEnd arg crc c m).2.wf = true := by
  unfold streamEnd
  dsimp only
  split
  · exact h
  split
  · exact streamFail_wf c h _ _
  split
  · exact streamDry_wf c h _
  split
  · split
    · exact badCommand_wf c h
    · exact h
  split
  · exact streamDry_wf c h _
  split
  · exact streamFail_wf _ h _ _
  · exact h

theorem loadBusTimeout_wf : (loadBusTimeout c m).2.wf = true := by
  unfold loadBusTimeout
  split
  · exact streamFail_wf c h _ _
  · exact h

theorem streamNext_wf (ws : List Nat) : (streamNext ws c m).2.wf = true := by
  unfold streamNext
  split
  · exact streamDry_wf c h _
  dsimp only
  split
  · exact streamSync_wf c h _
  split
  · exact streamDevid_wf c h _ _
  · exact streamSelect_wf c h _
  · exact streamSector_wf c h _
  · exact streamFaddr_wf c h _
  · exact streamWrite_wf c h _ _
  · exact streamRepeat_wf c h _
  · exact streamEnd_wf c h _ _
  · exact streamNop_wf c h _ _

/-! RIM_LD_CMD -/

theorem rimAbort_wf : (rimAbort c m).2.wf = true := by
  unfold rimAbort
  dsimp only
  exact dropLoading_wf c h

theorem rimCleared_wf : (rimCleared c m).2.wf = true := by
  unfold rimCleared
  split
  · exact Mem.clearSector_wf h _
  · exact h

theorem rimLdCmd_wf (code sector : Nat) : (rimLdCmd code sector c m).2.wf = true := by
  unfold rimLdCmd
  split
  · split
    · exact rimAbort_wf c h
    · exact h
  · split <;> exact h

end

end Sys2Proof.Machine
end

section
/-! PROOFS. The canonical form of the memories: image loads, the loss of hosts, the service Ethernet ports, DMA, trace and network accesses (O5). -/

namespace Sys2Proof.Machine

section
variable (p : Nat) (c : Chip) (a : Arr) {m : Mem} (h : m.wf = true)
include h

/-! Image loads -/

theorem loadClear_wf (step : Nat) : (loadClear p step c a m).2.2.wf = true := by
  unfold loadClear
  dsimp only
  split
  · exact Mem.clearGranules_wf h _ _ _ _
  · exact h

theorem Chip.rimDrop_wf : (c.rimDrop p m).2.wf = true := by
  unfold Chip.rimDrop
  split
  · dsimp only
    exact dropLoading_wf c h
  · exact h

theorem loadRefuse_wf (r : Refuse) : (loadRefuse p r c a m).2.2.wf = true := by
  unfold loadRefuse
  dsimp only
  exact loadClear_wf p c a h r.step

theorem loadAbort_wf : (loadAbort p c a m).2.2.wf = true := by
  unfold loadAbort
  dsimp only
  exact loadClear_wf p _ a (Chip.rimDrop_wf p c h) _

theorem ldrCmd_wf (code : Nat) (svc : Bool) : (ldrCmd p code svc c a m).2.2.wf = true := by
  unfold ldrCmd
  split
  · split
    · exact loadAbort_wf p c a h
    · exact h
  · split <;> exact h

theorem loadPrime_wf : (loadPrime p c a m).2.2.wf = true := by
  unfold loadPrime
  split
  · exact loadRefuse_wf p c a h _
  · exact h

theorem loadCheck_wf : (loadCheck p c a m).2.2.wf = true := by
  unfold loadCheck
  dsimp only
  split
  · exact loadPrime_wf p c a h
  split
  · exact loadRefuse_wf p c a h _
  split
  · exact h
  split
  · exact h
  split
  · exact loadRefuse_wf p c a h _
  · exact h

theorem loadFeed_wf (fuel : Nat) (bs : List Byte) : (loadFeed p fuel bs c a m).2.2.wf = true := by
  induction fuel generalizing bs c a m with
  | zero => exact h
  | succ fuel ih =>
    rw [loadFeed]
    dsimp only
    split
    · exact h
    split
    · split
      · exact loadRefuse_wf p c a h _
      split
      · exact h
      · exact ih _ _ h _
    · split
      · exact loadCheck_wf p c a h
      · exact ih _ _ (loadCheck_wf p c a h) _

theorem imageArrive_wf (bs : List Byte) : (imageArrive p bs c a m).2.2.wf = true := loadFeed_wf p c a h _ bs

theorem rimSectionDone_wf (s : Sect) : (rimSectionDone p s c a m).2.2.wf = true := by
  unfold rimSectionDone
  split
  · exact imageArrive_wf p _ a h _
  · exact loadRefuse_wf p c a h _

theorem imageStream_wf : (imageStream c a m).2.2.wf = true := by
  unfold imageStream
  dsimp only
  split
  · split
    · split
      · exact streamNext_wf c h _
      · exact rimSectionDone_wf _ _ a (streamNext_wf c h _) _
    · exact h
  · exact h

theorem rimHandoff_wf : (rimHandoff p c a m).2.2.wf = true := by
  unfold rimHandoff
  split <;> exact h

theorem sourceFail_wf : (sourceFail p c a m).2.2.wf = true := by
  unfold sourceFail
  dsimp only
  split
  · exact rimSectionDone_wf p _ a (streamFail_wf c h _ _) _
  · exact loadRefuse_wf p c a h _

theorem sourceRead_wf (bs : Option (List Byte)) : (sourceRead p bs c a m).2.2.wf = true := by
  unfold sourceRead
  split
  · split
    · exact imageArrive_wf p c a h _
    · exact sourceFail_wf p c a h
  · exact h

theorem sourcesLost_wf (n : Nat) : (sourcesLost n c a m).2.2.wf = true := by
  unfold sourcesLost
  exact List.foldlRecOn (motive := fun x : Chip × Arr × Mem => x.2.2.wf = true) _ _ h fun x hx p _ => by
    split
    · exact sourceFail_wf p x.1 x.2.1 hx
    · exact hx

theorem releaseDone_wf : (releaseDone p c a m).2.2.wf = true := releaseComplete_wf h p c a

/-! Hosts and their ports -/

theorem portLost_wf (n : Nat) : (portLost n c a m).2.2.wf = true := by
  unfold portLost
  split
  · exact h
  · exact sourcesLost_wf _ a h n

theorem portHold_wf (n : Nat) : (portHold n c a m).2.2.wf = true := portLost_wf _ a h n

theorem perstAssert_wf (n : Nat) : (perstAssert n c a m).2.2.wf = true := by
  unfold perstAssert
  split
  · exact h
  · exact portHold_wf _ a h n

theorem linkTimeout_wf (n : Nat) : (linkTimeout n c a m).2.2.wf = true := by
  unfold linkTimeout
  split
  · exact portLost_wf _ a h n
  · exact h

theorem surpriseRemoval_wf (n : Nat) : (surpriseRemoval n c a m).2.2.wf = true := by
  unfold surpriseRemoval
  split
  · exact portLost_wf c a h n
  · exact h

theorem holdPorts_wf : (holdPorts (c, a, m)).2.2.wf = true :=
  List.foldlRecOn (motive := fun x : Chip × Arr × Mem => x.2.2.wf = true) _ _ h fun x hx n _ => by
    unfold holdPort
    split
    · exact portHold_wf x.1 x.2.1 hx n
    · exact hx

end

section
variable (c : Chip) {m : Mem} (h : m.wf = true)
include h

/-! Service Ethernet ports -/

theorem ethDesc_wf (base i : Nat) : (ethDesc base i c m).2.2.wf = true := by
  unfold ethDesc
  exact sramRead_wf _ _ _ _ h

theorem EthDesc.finish_wf (d : EthDesc) (len flags time : Nat) : (d.finish len flags time c m).2.wf = true := by
  unfold EthDesc.finish
  exact sramWrite_wf _ _ _ _ h

theorem ethStore_wf (f : List Byte) (fcsOk : Bool) (d : EthDesc) : (ethStore f fcsOk d c m).2.wf = true := by
  unfold ethStore
  dsimp only
  split
  · exact EthDesc.finish_wf c h _ _ _ _
  · exact EthDesc.finish_wf _ (sramWrite_wf _ _ _ _ h) _ _ _ _

theorem frameReceive_wf (p : Nat) (f : List Byte) (fcsOk : Bool) : (frameReceive p f fcsOk c m).2.wf = true := by
  have desc := ethDesc_wf c h (c.get .ETH_RX_RING_OFFSET p * 64) (c.get .ETH_RX_IDX_HW p)
  unfold frameReceive
  dsimp only
  split
  · exact h
  split
  · exact h
  split
  · exact desc
  · dsimp only
    exact ethStore_wf _ desc _ _ _

theorem frameTransmit_wf (p : Nat) : (frameTransmit p c m).2.wf = true := by
  have desc := ethDesc_wf c h (c.get .ETH_TX_RING_OFFSET p * 64) (c.get .ETH_TX_IDX_HW p)
  unfold frameTransmit
  dsimp only
  split
  · exact h
  split
  · exact desc
  split
  · dsimp only
    exact EthDesc.finish_wf _ desc _ _ _ _
  · dsimp only
    exact EthDesc.finish_wf _ (sramRead_wf _ _ _ _ desc) _ _ _ _

/-! DMA -/

theorem dmaAccess_wf (x : DmaItem) (a n : Nat) (data : List Byte) : (dmaAccess x a n data c m).mem.wf = true := by
  unfold dmaAccess
  dsimp only
  split
  · exact h
  split
  · exact h
  split
  · exact netRead_wf _ _ _ _ _ h
  · exact netWrite_wf _ _ _ _ _ h

theorem dmaIssue_wf (ch k : Nat) (data : List Byte) : (dmaIssue ch k data c m).2.wf = true := by
  induction k generalizing data c m with
  | zero => exact h
  | succ k ih =>
    rw [dmaIssue]
    split
    · dsimp only
      split
      · exact h
      split
      · exact h
      · exact ih _ (dmaAccess_wf c h _ _ _ _) _
    · exact h

theorem dmaDescriptor_wf (ch : Nat) (b : List Byte) (count : Nat) (data : List Byte) : (dmaDescriptor ch b count data c m).2.wf = true := by
  unfold dmaDescriptor
  split
  · exact h
  split
  · split
    · exact h
    · exact dmaIssue_wf c h _ _ _
  split
  · exact h
  split
  · exact h
  · exact dmaIssue_wf _ h _ _ _

theorem dmaDescriptorAwake_wf (ch : Nat) (b : List Byte) (count : Nat) (data : List Byte) : (dmaDescriptorAwake ch b count data c m).2.wf = true := by
  unfold dmaDescriptorAwake
  split
  · exact h
  · exact dmaDescriptor_wf c h _ _ _ _

/-! Trace -/

theorem sinkWrite_wf (k : TrcPacket) : (sinkWrite k c m).2.wf = true := by
  unfold sinkWrite
  extract_lets i at' next c₁ c₂
  split
  · exact h
  · exact sramWrite_wf _ _ _ _ h

theorem trcDrain_wf : (trcDrain c m).2.wf = true := by
  unfold trcDrain
  split
  · exact h
  split
  · exact sinkWrite_wf _ h _
  · exact h

theorem trcDrainN_wf (n : Nat) : (trcDrainN n c m).2.wf = true := by
  induction n generalizing c m with
  | zero => exact h
  | succ n ih => exact ih _ (trcDrain_wf c h)

theorem trcStall_wf : (trcStall c m).2.wf = true := by
  unfold trcStall
  split
  · exact trcDrainN_wf c h _
  · exact h

theorem initSeen_wf (who : Init) : (initSeen who c m).2.wf = true := by
  unfold initSeen
  split
  · exact h
  · dsimp only
    split
    · exact trcStall_wf c h
    · exact h

theorem traceFlush_wf (k st : Nat) : (traceFlush k st c m).2.wf = true := by
  unfold traceFlush
  dsimp only
  split
  · exact trcDrainN_wf c h _
  · exact h

theorem flushAll_wf : (flushAll c m).2.wf = true := by
  unfold flushAll
  exact trcDrainN_wf c h _

theorem servicePeriod_wf : (servicePeriod c m).2.wf = true := by
  unfold servicePeriod
  dsimp only
  exact trcDrain_wf _ h

/-! Network accesses -/

theorem designAccess_wf (op : NetOp) (p x : Nat) (svc : Bool) : (designAccess op p x svc c m).mem.wf = true := by
  cases op with
  | read n => exact netRead_wf _ _ _ _ _ h
  | write d => exact netWrite_wf _ _ _ _ _ h
  | atomic n add v => exact netAtomic_wf _ _ _ _ _ _ h

theorem sramAccess_wf (op : NetOp) (x : Nat) : (sramAccess op x c m).mem.wf = true := by
  cases op with
  | read n => exact sramRead_wf _ _ _ _ h
  | write d => exact sramWrite_wf _ _ _ _ h
  | atomic n add v =>
    unfold sramAccess
    dsimp only
    split
    · exact h
    · exact sramWrite_wf _ _ _ _ (sramRead_wf _ _ _ _ h)

theorem vaultPut_wf (x : Nat) (d : List Byte) : (vaultPut c m x d).wf = true := Mem.wf_setVault h (Memory.wf_writeN _ _ (Mem.vault_wf h))

theorem vaultAccess_wf (op : NetOp) (x : Nat) : (vaultAccess op x c m).mem.wf = true := by
  cases op with
  | read n => exact h
  | write d => exact vaultPut_wf c h _ _
  | atomic n add v =>
    unfold vaultAccess
    dsimp only
    split
    · exact h
    · exact vaultPut_wf c h _ _

theorem netAccess_wf (who : Init) (t : Target) (op : NetOp) : (netAccess who t op c m).mem.wf = true := by
  unfold netAccess
  split
  · split <;> exact h
  · split
    · exact designAccess_wf c h _ _ _ _
    · exact sramAccess_wf c h _ _
    · exact vaultAccess_wf c h _ _

theorem netIssue_wf (who : Init) (t : Target) (op : NetOp) (paced : Bool) : (netIssue who t op paced c m).2.wf = true := by
  unfold netIssue
  dsimp only
  split
  · exact h
  split
  · exact h
  split
  · exact h
  split
  · exact h
  split
  · exact h
  · exact netAccess_wf c h _ _ _

theorem bar2Txn_wf (n : Fin 4) (x : Nat) (op : NetOp) : (bar2Txn n x op c m).mem.wf = true := by
  unfold bar2Txn
  extract_lets hit
  have access : hit.mem.wf = true := by
    dsimp only [hit]
    split
    · exact h
    · exact netAccess_wf c h _ _ _
  split
  · split
    · exact access
    · exact access
  · split
    · exact access
    · exact access

theorem bar2Piece_wf (n : Fin 4) (x : Nat) (op : NetOp) : (bar2Piece n x op c m).mem.wf = true := by
  unfold bar2Piece
  split
  · exact h
  split
  · exact h
  · exact bar2Txn_wf c h _ _ _

theorem bar2Read_wf (n : Fin 4) (f x len : Nat) : (bar2Read n f x len c m).mem.wf = true := by
  induction f generalizing x len c m with
  | zero => exact h
  | succ f ih =>
    rw [bar2Read]
    dsimp only
    split
    · exact h
    · dsimp only
      exact ih _ (bar2Piece_wf c h _ _ _) _ _

theorem bar2Write_wf (n : Fin 4) (f x : Nat) (d : List Byte) : (bar2Write n f x d c m).mem.wf = true := by
  induction f generalizing x d c m with
  | zero => exact h
  | succ f ih =>
    rw [bar2Write]
    dsimp only
    split
    · exact h
    · dsimp only
      exact ih _ (bar2Piece_wf c h _ _ _) _ _

theorem bar2Access_wf (n : Fin 4) (x len : Nat) (data : Option (List Byte)) : (bar2Access n x len data c m).2.wf = true := by
  unfold bar2Access
  dsimp only
  split
  · split
    · exact h
    · exact bar2Read_wf c h _ _ _ _
  · split
    · exact h
    split
    · exact h
    · exact bar2Write_wf c h _ _ _ _

omit h in
theorem reissue_wf {x : Chip × Mem} (hx : x.2.wf = true) (d : Deferred) : (reissue x d).2.wf = true := by
  unfold reissue
  split
  · exact netIssue_wf _ hx _ _ _ _
  · exact netIssue_wf _ hx _ _ _ _
  · exact netIssue_wf _ hx _ _ _ _
  · exact bar2Access_wf _ hx _ _ _ _
  · exact bar2Access_wf _ hx _ _ _ _
  · exact hx

theorem resume_wf : (resume c m).2.wf = true :=
  List.foldlRecOn (motive := fun x : Chip × Mem => x.2.wf = true) _ _ h fun _ hx d _ => reissue_wf hx d

theorem netTimeoutAny_wf (g : Nat) (a : Arr) : (netTimeoutAny g c a m).2.2.wf = true := by
  unfold netTimeoutAny
  split
  · split
    · exact resume_wf _ h
    · exact h
  · exact h

end

end Sys2Proof.Machine
end

section
/-! PROOFS. The canonical form of the memories: commands that wait, power states, resets, start-up and register writes (O5). -/

namespace Sys2Proof.Machine

/-! The memories of a result that is taken apart -/

theorem wf_of_eq_triple {x : All} {c : Chip} {a : Arr} {m : Mem} (hx : x.2.2.wf = true) (e : x = (c, a, m)) : m.wf = true := by
  subst e
  exact hx

theorem wf_of_eq_pair {x : Chip × Mem} {c : Chip} {m : Mem} (hx : x.2.wf = true) (e : x = (c, m)) : m.wf = true := by
  subst e
  exact hx

section
variable (c : Chip) (a : Arr) {m : Mem} (h : m.wf = true)
include h

/-! Commands that wait for a power-state exit -/

theorem onDemand_wf (r : CmdReg) (i code : Nat) (d : Deferred) {run : Chip → Arr → Mem → Chip × Arr × Mem}
    (hrun : ∀ c a {m : Mem}, m.wf = true → (run c a m).2.2.wf = true) : (onDemand r i code d run c a m).2.2.wf = true := by
  unfold onDemand
  dsimp only
  split
  · exact h
  · exact hrun c a h

theorem pmpWrite_wf (p code count : Nat) (svc : Bool) : (pmpWrite p code count svc c a m).2.2.wf = true := by
  unfold pmpWrite
  dsimp only
  split
  · exact onDemand_wf c a h _ _ _ _ fun _ _ _ h => h
  · exact h

theorem ptnWrite_wf (p code : Nat) (svc : Bool) : (ptnWrite p code svc c a m).2.2.wf = true := by
  unfold ptnWrite
  dsimp only
  split
  · exact h
  · exact onDemand_wf c a h _ _ _ _ fun _ _ _ h => h

theorem ldrWrite_wf (p code : Nat) (svc : Bool) : (ldrWrite p code svc c a m).2.2.wf = true := by
  unfold ldrWrite
  split
  · exact h
  split
  · exact onDemand_wf c a h _ _ _ _ fun c a _ h => ldrCmd_wf p c a h _ _
  · exact ldrCmd_wf p c a h _ _

theorem mtWrite_wf (code target unit : Nat) : (mtWrite code target unit c a m).2.2.wf = true := by
  unfold mtWrite
  dsimp only
  split
  · exact h
  · exact onDemand_wf _ a h _ _ _ _ fun _ _ _ h => h

omit h in
theorem runDeferred_wf {x : Chip × Arr × Mem} (hx : x.2.2.wf = true) (d : Deferred) : (runDeferred x d).2.2.wf = true := by
  obtain ⟨c, a, m⟩ := x
  replace hx : m.wf = true := hx
  have issued : ∀ d, (reissue (c, m) d).2.wf = true := reissue_wf (x := (c, m)) hx
  unfold runDeferred
  dsimp only
  split
  · split <;> exact hx
  · split <;> exact hx
  · split
    · exact ldrCmd_wf _ _ a hx _ _
    · exact hx
  · split <;> exact hx
  all_goals exact issued _

/-! Power states -/

theorem restCores_wf (st : Nat) : (restCores st c m).2.wf = true := by
  unfold restCores
  exact List.foldlRecOn (motive := fun x : Chip × Mem => x.2.wf = true) _ _ h fun x hx k _ => by
    split
    · exact hx
    · exact traceFlush_wf x.1 hx k st

theorem coresExit_wf (old new : Nat) : (coresExit old new c m).2.wf = true := by
  unfold coresExit
  split
  · exact restCores_wf _ h _
  · exact h

theorem quiesceComplete_wf : (quiesceComplete c a m).2.wf = true := by
  unfold quiesceComplete
  split
  · dsimp only
    exact flushAll_wf c h
  · exact h

theorem pwrCmdIdle_wf : (pwrCmdIdle c m).2.wf = true := by
  unfold pwrCmdIdle
  split
  · exact h
  split
  · exact h
  · exact restCores_wf _ h _

theorem pwrCmdWatch_wf : (pwrCmdWatch c m).2.wf = true := by
  unfold pwrCmdWatch
  split
  · exact h
  split
  · exact h
  · exact restCores_wf _ h _

theorem sleepEnter_wf : (sleepEnter c a m).2.2.wf = true := by
  unfold sleepEnter
  split
  next c₁ m₁ e₁ =>
  have flushed := wf_of_eq_pair (flushAll_wf c h) e₁
  split
  next c₂ m₂ e₂ =>
  have rested := wf_of_eq_pair (restCores_wf _ flushed 3) e₂
  split
  next c₃ a₃ m₃ e₃ =>
  have held := wf_of_eq_triple (holdPorts_wf _ _ rested) e₃
  exact Mem.wf_setDeep (Mem.wf_setCistern held Memory.wf_nil) Memory.wf_nil

theorem pwrCmdSleep_wf (ack : Bool) : (pwrCmdSleep ack c a m).2.2.wf = true := by
  unfold pwrCmdSleep
  split
  · exact h
  split
  · exact h
  split
  · exact h
  · exact sleepEnter_wf c a h

theorem pwrCmd_wf (code : Nat) (ack : Bool) : (pwrCmd code ack c a m).2.2.wf = true := by
  unfold pwrCmd
  split
  · exact h
  split
  · exact pwrCmdIdle_wf c h
  · exact pwrCmdWatch_wf c h
  · exact pwrCmdSleep_wf c a h ack
  · exact h
  · exact h
  · exact h

theorem exitComplete_wf : (exitComplete c a m).2.2.wf = true := by
  unfold exitComplete
  split
  · exact h
  · dsimp only
    exact List.foldlRecOn (motive := fun x : Chip × Arr × Mem => x.2.2.wf = true) _ _ (coresExit_wf _ h _ _) fun _ hx d _ => runDeferred_wf hx d

theorem wakeComplete_wf : (wakeComplete c a m).2.2.wf = true := by
  unfold wakeComplete
  split
  · exact h
  · dsimp only
    exact coresExit_wf _ h _ _

/-! Resets, start-up and removal. A reset leaves every memory empty. -/

omit h in
theorem resetAll_wf (cause : Chip → Chip) : (resetAll cause c).2.2.wf = true := Mem.wf_reset

theorem dieTemperature_wf (d t : Nat) : (dieTemperature d t c a m).2.2.wf = true := by
  unfold dieTemperature
  split
  · exact resetAll_wf _ _
  · exact h

theorem brownOut_wf : (brownOut c a m).2.2.wf = true := by
  unfold brownOut
  split
  · exact h
  · exact resetAll_wf _ _

theorem lifeCycleReset_wf : (lifeCycleReset c a m).2.2.wf = true := by
  unfold lifeCycleReset
  split
  · exact resetAll_wf _ _
  · exact h

theorem presentDeassert_wf : (presentDeassert c a m).2.2.wf = true := by
  unfold presentDeassert
  split
  · exact h
  extract_lets fallen
  have held := holdPorts_wf fallen a h
  unfold holdPorts holdPort at held
  generalize List.foldl _ (fallen, a, m) _ = x at held ⊢
  obtain ⟨c, a, m⟩ := x
  dsimp only at held ⊢
  split
  · exact held
  split
  · exact held
  split
  · exact held
  · exact held

theorem bootStream_wf (u : StartUp) : (bootStream u c m).2.wf = true := by
  unfold bootStream
  dsimp only
  split
  · exact h
  · exact rimLdCmd_wf _ h _ _

omit h in
theorem bootPart_wf {x : All} (hx : x.2.2.wf = true) (b : BootPart) : (bootPart x b).2.2.wf = true := by
  unfold bootPart
  dsimp only
  exact ldrWrite_wf _ _ (ptnWrite_wf _ _ hx _ _ _) _ _ _

theorem startUpAll_wf (u : StartUp) : (startUpAll u c a m).2.2.wf = true := by
  unfold startUpAll
  dsimp only
  split
  · exact h
  · exact List.foldlRecOn (motive := fun x : All => x.2.2.wf = true) _ _ (bootStream_wf _ h u) fun _ hx b _ => bootPart_wf hx b

/-! Life cycle and vault -/

theorem wipe_wf : (wipe c m).2.wf = true := by
  unfold wipe
  exact Mem.wf_setVault h Memory.wf_nil

theorem wipeDone_wf : (wipeDone c m).2.wf = true := by
  unfold wipeDone
  split
  · exact resume_wf _ h
  · exact h

theorem tamper_wf : (tamper c m).2.wf = true := by
  unfold tamper
  dsimp only
  exact wipe_wf c h

theorem lcCmd_wf (key : Nat) : (lcCmd key c m).2.wf = true := by
  unfold lcCmd
  dsimp only
  split
  · exact h
  split
  · dsimp only
    exact wipe_wf _ h
  · exact h

/-! Register writes -/

theorem writePart_wf (who : Init) (d : RegDef) (k v addr : Nat) : (writePart who d k v addr c a m).2.2.wf = true := by
  unfold writePart
  split
  · exact pmpWrite_wf c a h _ _ _ _
  · exact ptnWrite_wf c a h _ _ _
  · exact ldrWrite_wf c a h _ _ _
  all_goals exact h

theorem writeRim_wf (d : RegDef) (k v : Nat) : (writeRim d k v c a m).2.wf = true := by
  unfold writeRim
  split
  · exact rimLdCmd_wf c h _ _
  all_goals exact h

theorem writeDmc_wf (d : RegDef) (k v : Nat) : (writeDmc d k v c a m).2.2.wf = true := by
  unfold writeDmc
  split
  · exact mtWrite_wf c a h _ _ _
  all_goals exact h

theorem writeTrc_wf (d : RegDef) (k v : Nat) : (writeTrc d k v c m).2.wf = true := by
  unfold writeTrc
  split <;> exact h

theorem writeSvc_wf (who : Init) (d : RegDef) (k v : Nat) : (writeSvc who d k v c a m).2.2.wf = true := by
  unfold writeSvc
  split
  case h_1 => exact pwrCmd_wf _ a h _ _
  case h_7 =>
    split
    · exact lcCmd_wf c h v
    · exact h
  all_goals exact h

omit h in
theorem faultAfter_wf {x : All} (hx : x.2.2.wf = true) : (faultAfter x).2.2.wf = true := by
  obtain ⟨c, a, m⟩ := x
  replace hx : m.wf = true := hx
  exact hx

theorem writeReg_wf (who : Init) (b : Blk) (d : RegDef) (i k v addr : Nat) : (writeReg who b d i k v addr c a m).2.2.wf = true := by
  cases b with
  | part =>
    unfold writeReg
    exact faultAfter_wf (writePart_wf c a h who d k v addr)
  | rim => exact writeRim_wf c a h d k v
  | dmc => exact writeDmc_wf c a h d k v
  | trc => exact writeTrc_wf c h d k v
  | svc =>
    unfold writeReg
    exact faultAfter_wf (writeSvc_wf c a h who d k v)
  | mbx =>
    unfold writeReg
    dsimp only
    split <;> exact h
  | prb | iob | lq | eth | dma | msix | glb | noc | sch | ic | agp | cc | tk => exact h

theorem write32_wf (who : Init) (x : RegPlace) (r : RegHit) (base v : Nat) : (write32 who x r base v c a m).2.2.wf = true := by
  unfold write32
  dsimp only
  split
  · exact writeReg_wf c a h _ _ _ _ _ _ _
  split
  · exact writeReg_wf _ a h _ _ _ _ _ _ _
  · exact h

theorem write64_wf (who : Init) (x : RegPlace) (r : RegHit) (base v : Nat) : (write64 who x r base v c a m).2.2.wf = true :=
  writeReg_wf _ a h _ _ _ _ _ _ _

theorem regWrite_wf (who : Init) (x n v : Nat) : (regWrite who x n v c a m).2.2.wf = true := by
  unfold regWrite
  split
  · exact h
  split
  · exact h
  split
  · exact h
  split
  · exact h
  dsimp only
  split
  · exact write64_wf _ a h _ _ _ _ _
  · exact write32_wf _ a h _ _ _ _ _

theorem mapWrite_wf (who : Init) (x n v : Nat) : (mapWrite who x n v c a m).2.2.wf = true := by
  unfold mapWrite
  split
  · exact netIssue_wf c h _ _ _ _
  · exact regWrite_wf c a h _ _ _ _

theorem mapRead_wf (who : Init) (x n : Nat) : (mapRead who x n c a m).2.2.wf = true := by
  unfold mapRead
  split
  · exact netIssue_wf c h _ _ _ _
  · exact h

theorem byRegister_wf (who : Init) (b : Blk) (i off : Nat) {act : Chip → Arr → Mem → All}
    (hact : ∀ c a {m : Mem}, m.wf = true → (act c a m).2.2.wf = true) : (byRegister who b i off act c a m).2.2.wf = true := by
  unfold byRegister
  split
  · exact hact _ a h
  · exact h

/-! Requests of the hosts to the firmware -/

theorem utRequest_wf (n j id typ : Nat) (heads : List UtHead) {act : Chip → Arr → Mem → All}
    (hact : ∀ c a {m : Mem}, m.wf = true → (act c a m).2.2.wf = true) : (utRequest n j id typ heads act c a m).2.2.wf = true := by
  unfold utRequest
  split
  · exact h
  dsimp only
  split
  · exact h
  split
  · exact h
  split
  · exact h
  split
  · exact h
  split
  · exact h
  · exact hact _ a h

theorem utNaming_wf (n j id typ p : Nat) (heads : List UtHead) {act : Chip → Arr → Mem → All}
    (hact : ∀ c a {m : Mem}, m.wf = true → (act c a m).2.2.wf = true) : (utNaming n j id typ p heads act c a m).2.2.wf = true :=
  utRequest_wf c a h n j id typ heads fun c a _ h => by
    split
    · exact hact c a h
    · exact h

theorem utHelloAct_wf (n j id lo hi ka : Nat) : (utHelloAct n j id lo hi ka c a m).2.2.wf = true := by
  unfold utHelloAct
  dsimp only
  split <;> exact h

theorem utKeepaliveTake_wf (n : Nat) : (utKeepaliveTake n c a m).2.2.wf = true := by
  unfold utKeepaliveTake
  split <;> exact h

theorem keepaliveLapse_wf (n : Nat) : (keepaliveLapse n c a m).2.2.wf = true := by
  unfold keepaliveLapse
  dsimp only
  split
  · exact portLost_wf _ a h n
  · exact h

theorem utCreateAct_wf (n j id p v : Nat) : (utCreateAct n j id p v c a m).2.2.wf = true := by
  unfold utCreateAct
  split
  · exact ptnWrite_wf _ a h _ _ _
  · exact h

theorem utRateAct_wf (n j id p rate : Nat) : (utRateAct n j id p rate c a m).2.2.wf = true := by
  unfold utRateAct
  split
  · exact h
  · exact pmpWrite_wf c a h _ _ _ _

theorem utEventPost_wf (n code : Nat) (data : List Byte) : (utEventPost n code data c a m).2.2.wf = true := by
  unfold utEventPost
  split <;> exact h

/-! A period of the module -/

omit h in
theorem partsPeriod_wf {x : All} (hx : x.2.2.wf = true) : (partsPeriod x).2.2.wf = true := by
  unfold partsPeriod
  exact List.foldlRecOn (motive := fun x : All => x.2.2.wf = true) _ _ hx fun x hx p _ => partPeriod_wf p x.1 x.2.1 hx

omit h in
theorem exitPeriod_wf {x : All} (hx : x.2.2.wf = true) : (exitPeriod x).2.2.wf = true := by
  unfold exitPeriod
  split
  · exact exitComplete_wf _ _ hx
  · exact hx

omit h in
theorem wakePeriod_wf {x : All} (hx : x.2.2.wf = true) : (wakePeriod x).2.2.wf = true := by
  unfold wakePeriod
  split
  · exact wakeComplete_wf _ _ hx
  · exact hx

omit h in
theorem bootStart_wf {x : All} (hx : x.2.2.wf = true) (p : Nat) : (bootStart x p).2.2.wf = true := by
  unfold bootStart
  dsimp only
  split
  · exact hx
  split
  · exact pmpWrite_wf _ _ hx _ _ _ _
  · exact hx

omit h in
theorem bootStarts_wf {x : All} (hx : x.2.2.wf = true) : (bootStarts x).2.2.wf = true := by
  unfold bootStarts
  exact List.foldlRecOn (motive := fun x : All => x.2.2.wf = true) _ _ hx fun _ hx p _ => bootStart_wf hx p

end

/-! One period -/

/-- `f` leaves the memories in their canonical form. -/
def KeepsWf (f : Chip → Arr → Mem → All) : Prop := ∀ (c : Chip) (a : Arr) (m : Mem), m.wf = true → (f c a m).2.2.wf = true

theorem KeepsWf.intro {f : Chip → Arr → Mem → All} (h : ∀ (c : Chip) (a : Arr) (m : Mem), m.wf = true → (f c a m).2.2.wf = true) : KeepsWf f := h

/-- The parts of a period are named by variables first: the kernel would otherwise evaluate them. -/
theorem keepsWf_tick : KeepsWf tick := by
  obtain ⟨parts, hparts, parts_wf⟩ : ∃ f, partsPeriod = f ∧ ∀ x : All, x.2.2.wf = true → (f x).2.2.wf = true :=
    ⟨_, rfl, fun _ => partsPeriod_wf⟩
  obtain ⟨image, himage, image_wf⟩ : ∃ f, imageStream = f ∧ ∀ c a m, m.wf = true → (f c a m).2.2.wf = true :=
    ⟨_, rfl, fun c a _ => imageStream_wf c a⟩
  obtain ⟨service, hservice, service_wf⟩ : ∃ f, servicePeriod = f ∧ ∀ c m, m.wf = true → (f c m).2.wf = true :=
    ⟨_, rfl, fun c _ => servicePeriod_wf c⟩
  obtain ⟨boots, hboots, boots_wf⟩ : ∃ f, bootStarts = f ∧ ∀ x : All, x.2.2.wf = true → (f x).2.2.wf = true :=
    ⟨_, rfl, fun _ => bootStarts_wf⟩
  obtain ⟨starts, hstarts⟩ : ∃ f, periodStart = f := ⟨_, rfl⟩
  delta tick
  rw [hparts, himage, hservice, hboots, hstarts]
  refine KeepsWf.intro fun c a m h => ?_
  extract_lets c₁ a₁ c₂
  split
  next c₃ a₃ m₃ e₃ =>
  have h₃ := wf_of_eq_triple (parts_wf (c₂, a₁, m) h) e₃
  split
  next c₄ a₄ m₄ e₄ =>
  have h₄ := wf_of_eq_triple (image_wf c₃ a₃ m₃ h₃) e₄
  extract_lets c₅'
  split
  next c₅ m₅ e₅ =>
  have h₅ := wf_of_eq_pair (service_wf _ _ h₄) e₅
  split
  next c₆ a₆ m₆ e₆ =>
  exact wf_of_eq_triple (boots_wf _ (wakePeriod_wf (exitPeriod_wf (x := (c₅, a₄, m₅)) h₅))) e₆

end Sys2Proof.Machine
end

section
/-! PROOFS. The canonical form of the memories: every command, and every step (O5). -/

namespace Sys2Proof.Machine

/-! Effects on a part of the state -/

theorem State.sound_seen (who : Init) {s : State} (h : s.Sound) : (s.seen who).Sound := initSeen_wf s.chip h who

theorem State.sound_seen_onChip (who : Init) {s : State} (h : s.Sound) (f : Chip → Chip) : ((s.seen who).onChip f).Sound := State.sound_seen who h

theorem State.sound_onMem {s : State} (h : s.Sound) {f : Chip → Mem → Chip × Mem} (hf : ∀ c {m : Mem}, m.wf = true → (f c m).2.wf = true) :
    (s.onMem f).Sound := hf _ h

theorem State.sound_onStream {s : State} (h : s.Sound) {f : Chip → Mem → Chip × Mem} (hf : ∀ c {m : Mem}, m.wf = true → (f c m).2.wf = true) :
    (s.onStream f).Sound :=
  State.sound_onMem h fun c _ h => by
    split
    · exact h
    · exact hf c h

theorem State.sound_onAll {s : State} (h : s.Sound) {f : Chip → Arr → Mem → All}
    (hf : ∀ c a {m : Mem}, m.wf = true → (f c a m).2.2.wf = true) : (s.onAll f).Sound := hf _ _ h

theorem State.sound_access (who : Init) {s : State} (h : s.Sound) {f : Chip → Arr → Mem → All}
    (hf : ∀ c a {m : Mem}, m.wf = true → (f c a m).2.2.wf = true) : ((s.seen who).onAll f).Sound :=
  State.sound_onAll (State.sound_seen who h) hf

theorem State.sound_register (who : Init) (b : Blk) (i off : Nat) {s : State} (h : s.Sound) {act : Chip → Arr → Mem → All}
    (hact : ∀ c a {m : Mem}, m.wf = true → (act c a m).2.2.wf = true) : ((s.seen who).onAll (byRegister who b i off act)).Sound :=
  State.sound_access who h fun c a _ h => byRegister_wf c a h who b i off hact

theorem State.sound_network (who : Init) (x : Target) (op : NetOp) (paced : Bool) {s : State} (h : s.Sound) :
    ((s.seen who).onMem (netIssue who x op paced)).Sound :=
  State.sound_onMem (State.sound_seen who h) fun c _ h => netIssue_wf c h who x op paced

/-! Every command -/

/-- A command that does not reach the memories. -/
theorem exec_sound_of_reach {i : Instr} {s : State} (hi : i.reach = .chip ∨ i.reach = .array) (h : s.Sound) : Does i s State.Sound := by
  obtain ⟨t, ht, hw⟩ := exec_within i s
  exact ⟨t, ht, (congrArg Mem.wf (hw.mem hi)).trans h⟩

theorem exec_sound (i : Instr) (s : State) (h : s.Sound) : Does i s State.Sound := by
  cases i with
  | holdLong | rateChangeComplete | avsTimeout | primingComplete | rebind | disarmComplete | rateFall | xtrigInEdge | triggerLineArrival |
    xtrigOutPulseEnd | clockSourceLoss | sectorStartupComplete | pinFunctionChange | pinSwitchComplete | pgoodRise | pgoodSettle | pgoodFall |
    blockLock | lockLoss | commaAlign | adaptationComplete | prbsCheckerLock | laneFailure | perstDeassert | linkDown | functionLevelReset |
    descriptorComplete | bar2SelWrite | sumpRefill | postDrop | sourceEvent | flushIncomplete | wrap | ppsInEdge | swNopps | ppsOutRise |
    ppsOutFall | compareFire | rimEventTap | demandExit | watchSample | wakePin | mgmtAddressMatch | pmbAlert | presentAssert | dbgCert | bypass
    | idcode | samplePreload | extest | highz | clamp | extestPulse | extestTrain | rampHoldDecision | xtrigOutRise | vccioMeasurement |
    signalDetect | pllLock | linkReturn | busContention | resetTreeChange =>
    exact exec_sound_of_reach (.inl rfl) h
  | nop | eval | evalc | mput | stop | trig | out | xev | undefinedOpcode | elasticLateRelease | holdRelease | rampComplete | deepReturnArrival
    | channelCommandTimeout | transactionCompletion | linkFail | quiescePumpLimit | goldenEntryWrite | repairFail | fetchWhileNotRunning | tick =>
    exact exec_sound_of_reach (.inr rfl) h
  | txTsRead | schPost | schTake | schDone | icPendSet | icClaim | icComplete | fltLogRead =>
    exact ⟨_, rfl, State.sound_seen_onChip (.core _ _) h _⟩
  | resultRead who | prbsErrRead who | dmaChPi who | dmaAbort who | snapshot who | take who => exact ⟨_, rfl, State.sound_seen_onChip who h _⟩
  | recordDrain p n => exact ⟨_, rfl, State.sound_onMem h fun c _ h => recordDrainAwake_wf c h _ _⟩
  | scrubFrame => exact ⟨_, rfl, State.sound_onMem h fun c _ h => scrubFrame_wf c h _⟩
  | clearComplete => exact ⟨_, rfl, State.sound_onMem h rimCleared_wf⟩
  | loadBusTimeout => exact ⟨_, rfl, State.sound_onMem h loadBusTimeout_wf⟩
  | frameReceive => exact ⟨_, rfl, State.sound_onMem h fun c _ h => frameReceive_wf c h _ _ _⟩
  | frameTransmit => exact ⟨_, rfl, State.sound_onMem h fun c _ h => frameTransmit_wf c h _⟩
  | descriptor => exact ⟨_, rfl, State.sound_onMem h fun c _ h => dmaDescriptorAwake_wf c h _ _ _ _⟩
  | bar2Access => exact ⟨_, rfl, State.sound_onMem h fun c _ h => bar2Access_wf c h _ _ _ _⟩
  | traceFlush => exact ⟨_, rfl, State.sound_onMem h fun c _ h => traceFlush_wf c h _ _⟩
  | quiesceComplete => exact ⟨_, rfl, State.sound_onMem h fun c _ h => quiesceComplete_wf c _ h⟩
  | tamper => exact ⟨_, rfl, State.sound_onMem h tamper_wf⟩
  | wipeComplete => exact ⟨_, rfl, State.sound_onMem h wipeDone_wf⟩
  | syncWord => exact ⟨_, rfl, State.sound_onStream h fun c _ h => streamSync_wf c h _⟩
  | streamNop => exact ⟨_, rfl, State.sound_onStream h fun c _ h => streamNop_wf c h _ _⟩
  | devid => exact ⟨_, rfl, State.sound_onStream h fun c _ h => streamDevid_wf c h _ _⟩
  | select => exact ⟨_, rfl, State.sound_onStream h fun c _ h => streamSelect_wf c h _⟩
  | sector => exact ⟨_, rfl, State.sound_onStream h fun c _ h => streamSector_wf c h _⟩
  | faddr => exact ⟨_, rfl, State.sound_onStream h fun c _ h => streamFaddr_wf c h _⟩
  | write => exact ⟨_, rfl, State.sound_onStream h fun c _ h => streamWrite_wf c h _ _⟩
  | repeatFrames => exact ⟨_, rfl, State.sound_onStream h fun c _ h => streamRepeat_wf c h _⟩
  | endStream => exact ⟨_, rfl, State.sound_onStream h fun c _ h => streamEnd_wf c h _ _⟩
  | networkRead | networkWrite | atomicAdd | atomicSwap => exact ⟨_, rfl, State.sound_network _ _ _ _ h⟩
  | cread | cwrite | dread | dwrite => exact ⟨_, rfl, State.sound_onAll h fun c a _ h => agentCommand_wf _ c a h _⟩
  | releaseClearComplete => exact ⟨_, rfl, State.sound_onAll h fun c a _ h => releaseDone_wf _ c a h⟩
  | marchTestComplete => exact ⟨_, rfl, State.sound_onAll h fun c a _ h => mtComplete_wf h _ c a⟩
  | imageSourceRead => exact ⟨_, rfl, State.sound_onAll h fun c a _ h => sourceRead_wf _ c a h _⟩
  | rimSectionHandoff => exact ⟨_, rfl, State.sound_onAll h fun c a _ h => rimHandoff_wf _ c a h⟩
  | perstAssert => exact ⟨_, rfl, State.sound_onAll h fun c a _ h => perstAssert_wf c a h _⟩
  | linkReturnTimeout => exact ⟨_, rfl, State.sound_onAll h fun c a _ h => linkTimeout_wf c a h _⟩
  | surpriseRemoval => exact ⟨_, rfl, State.sound_onAll h fun c a _ h => surpriseRemoval_wf c a h _⟩
  | netTimeout => exact ⟨_, rfl, State.sound_onAll h fun c a _ h => netTimeoutAny_wf c h _ a⟩
  | hello => exact ⟨_, rfl, State.sound_onAll h fun c a _ h => utRequest_wf c a h _ _ _ _ _ fun c a _ h => utHelloAct_wf c a h _ _ _ _ _ _⟩
  | keepalive => exact ⟨_, rfl, State.sound_onAll h fun c a _ h => utKeepaliveTake_wf c a h _⟩
  | keepaliveLapse => exact ⟨_, rfl, State.sound_onAll h fun c a _ h => keepaliveLapse_wf c a h _⟩
  | partCreate =>
    exact ⟨_, rfl, State.sound_onAll h fun c a _ h => utRequest_wf c a h _ _ _ _ _ fun c a _ h => utCreateAct_wf c a h _ _ _ _ _⟩
  | partRelease =>
    exact ⟨_, rfl, State.sound_onAll h fun c a _ h => utNaming_wf c a h _ _ _ _ _ _ fun c a _ h => ptnWrite_wf c a h _ _ _⟩
  | partBind | dmMap | symbolQuery => exact ⟨_, rfl, State.sound_onAll h fun c a _ h => utNaming_wf c a h _ _ _ _ _ _ fun _ _ _ h => h⟩
  | imageLoad =>
    exact ⟨_, rfl, State.sound_onAll h fun c a _ h => utNaming_wf c a h _ _ _ _ _ _ fun _ a _ h => ldrWrite_wf _ a h _ 1 true⟩
  | imageAbort =>
    exact ⟨_, rfl, State.sound_onAll h fun c a _ h => utNaming_wf c a h _ _ _ _ _ _ fun c a _ h => ldrWrite_wf c a h _ 2 true⟩
  | marchTest => exact ⟨_, rfl, State.sound_onAll h fun c a _ h => utRequest_wf c a h _ _ _ _ _ fun c a _ h => mtWrite_wf c a h _ _ _⟩
  | fwStatus => exact ⟨_, rfl, State.sound_onAll h fun c a _ h => utRequest_wf c a h _ _ _ _ _ fun _ _ _ h => h⟩
  | stepRate => exact ⟨_, rfl, State.sound_onAll h fun c a _ h => utRequest_wf c a h _ _ _ _ _ fun c a _ h => utRateAct_wf c a h _ _ _ _ _⟩
  | event => exact ⟨_, rfl, State.sound_onAll h fun c a _ h => utEventPost_wf c a h _ _ _⟩
  | wakeComplete => exact ⟨_, rfl, State.sound_onAll h fun c a _ h => wakeComplete_wf c a h⟩
  | thresholdCrossing => exact ⟨_, rfl, State.sound_onAll h fun c a _ h => dieTemperature_wf c a h _ _⟩
  | thermalTrip | powerOn | resetN | powerRemoval => exact ⟨_, rfl, State.sound_onAll h fun c _ _ _ => resetAll_wf c _⟩
  | brownOut => exact ⟨_, rfl, State.sound_onAll h fun c a _ h => brownOut_wf c a h⟩
  | startUp => exact ⟨_, rfl, State.sound_onAll h fun c a _ h => startUpAll_wf c a h _⟩
  | presentDeassert => exact ⟨_, rfl, State.sound_onAll h fun c a _ h => presentDeassert_wf c a h⟩
  | lifeCycleReset => exact ⟨_, rfl, State.sound_onAll h fun c a _ h => lifeCycleReset_wf c a h⟩
  | powerStateExitComplete => exact ⟨_, rfl, State.sound_onAll h fun c a _ h => exitComplete_wf c a h⟩
  | registerWrite who | lowHalfWrite who | highHalfWrite who =>
    exact ⟨_, rfl, State.sound_access who h fun c a _ h => mapWrite_wf c a h who _ _ _⟩
  | rcRead who | lowHalfRead who | highHalfRead who => exact ⟨_, rfl, State.sound_access who h fun c a _ h => mapRead_wf c a h who _ _⟩
  | doorbell who => exact ⟨_, rfl, State.sound_access who h fun c a _ h => regWrite_wf c a h who _ _ _⟩
  | start who | halt who | step who | prime who | setrate who =>
    exact ⟨_, rfl, State.sound_register who _ _ _ h fun c a _ h => faultAfter_wf (pmpWrite_wf c a h _ _ _ _)⟩
  | create who | release who | reset who =>
    exact ⟨_, rfl, State.sound_register who _ _ _ h fun c a _ h => faultAfter_wf (ptnWrite_wf c a h _ _ _)⟩
  | destructiveTest | preservingTest => exact ⟨_, rfl, State.sound_register (.core _ _) _ _ _ h fun c a _ h => mtWrite_wf c a h _ _ _⟩
  | ldrLoad who | ldrAbort who => exact ⟨_, rfl, State.sound_register who _ _ _ h fun c a _ h => ldrWrite_wf c a h _ _ _⟩
  | rimLdLoad who | rimLdAbort who | clear who => exact ⟨_, rfl, State.sound_register who _ _ _ h fun c _ _ h => rimLdCmd_wf c h _ _⟩
  | idle | watch | sleep | on | quiesce => exact ⟨_, rfl, State.sound_register (.core _ _) _ _ _ h fun c a _ h => pwrCmd_wf c a h _ _⟩
  | lcCmd => exact ⟨_, rfl, State.sound_register (.core _ _) _ _ _ h fun c a _ h => writeSvc_wf c a h _ _ _ _⟩
  | arm who | disarm who | force who | busEvtClear who | iobLock who | inj who | revert who =>
    exact ⟨_, rfl, State.sound_register who _ _ _ h fun _ _ _ h => h⟩
  | agpWrite | epochArm | icinv | coreReset | trcSw | tkStep | req => exact ⟨_, rfl, State.sound_register (.core _ _) _ _ _ h fun _ _ _ h => h⟩

/-- Settles O5: every command and every period is sound, each by the memory writes that it makes. -/
theorem stepKeepsMemoriesSound : Obligations.StepKeepsMemoriesSound := by
  rintro ⟨pending, chip, arr, mem⟩ t hs ht
  cases pending with
  | nil =>
    obtain rfl := Host.Outcome.next.inj ((idleStepIsOnePeriod _ rfl).symm.trans ht)
    exact State.sound_onAll hs fun c a _ h => keepsWf_tick c a _ h
  | cons i rest =>
    obtain ⟨u, hu, sound⟩ := exec_sound i ⟨rest, chip, arr, mem⟩ hs
    obtain rfl : u = t := Host.Outcome.next.inj (hu.symm.trans ht)
    exact sound

end Sys2Proof.Machine
end

section
/-! PROOFS. One Boolean processor's step: its operands, what it publishes, its slot write and its opcodes (O8 to O10), and slot reads that fail parity (O11). -/

namespace Sys2Proof.Machine

/-! The command of an opcode -/

/-- A BP that runs word `w` executes its opcode on the registers of its begun step. -/
theorem bpCommand_of_runs {op : BpOp} {b p w : Nat} {s : State} (h : BpRuns op b p w s) :
    bpCommand op b s.chip s.arr = bpEffect (bpBegun b p w s.chip) s.arr p b (s.chip.stepNow p) w := by
  obtain ⟨owner, run, fresh, word, kind⟩ := h
  simp [bpCommand, owner, run, word, kind, bpExec, fresh, bpBegun]

/-- The next state of a BP's command, from the effect of its opcode. -/
theorem onArr_bpCommand {op : BpOp} {b p w : Nat} {s : State} (h : BpRuns op b p w s) {c : Chip} {a : Arr}
    (he : bpEffect (bpBegun b p w s.chip) s.arr p b (s.chip.stepNow p) w = (c, a)) :
    s.onArr (bpCommand op b) = { s with chip := c, arr := a } := by
  unfold State.onArr
  rw [bpCommand_of_runs h, he]

/-- The opcode of a word that has a kind. -/
theorem Word.op_eq_two_iff (w : Nat) : Word.op w = 2 ↔ Word.kind w = .evalc := by
  unfold Word.kind
  constructor
  · intro e
    simp [e]
  · split <;> simp_all

theorem bpBegun_get_of_ne {f : Fld} (hdone : f ≠ .H_STEP_DONE) (hcount : f ≠ .PTN_ENC_FAULT_COUNT) (b p w : Nat) (c : Chip) (j : Nat) :
    (bpBegun b p w c).get f j = c.get f j := by
  unfold bpBegun Chip.encFault
  split
  · exact Chip.get_set_ne _ _ fun e => hdone e.1
  · exact (Chip.get_set_ne _ _ fun e => hcount e.1).trans (Chip.get_set_ne _ _ fun e => hdone e.1)

theorem bpBegun_mirror (b p w : Nat) (c : Chip) (j : Nat) : (bpBegun b p w c).on .H_DS_MIRROR j = c.on .H_DS_MIRROR j := by
  unfold Chip.on
  rw [bpBegun_get_of_ne (by decide) (by decide)]

/-! What a word computes -/

section
variable {c : Chip} {a : Arr} {p b st w va vb vc vd : Nat} (h : OperandsRead c a p b st w va vb vc vd)
include h

theorem evalWord_of_reads (hop : Word.kind w ≠ .evalc) :
    evalWord c a p b st w = ⟨bit (Word.tt w) (8 * vd + 4 * vc + 2 * vb + va), vd, c, a⟩ := by
  have hop : Word.op w ≠ 2 := fun e => hop ((Word.op_eq_two_iff w).1 e)
  simp [evalWord, h.opa, h.opb, h.opc, h.opd, hop]

theorem evalWord_enabled (hop : Word.kind w = .evalc) (hd : vd = 1) :
    evalWord c a p b st w = ⟨bit (Word.tt w) (4 * vc + 2 * vb + va), 1, c, a⟩ := by
  simp [evalWord, h.opa, h.opb, h.opc, h.opd, (Word.op_eq_two_iff w).2 hop, hd]

theorem evalWord_disabled (hop : Word.kind w = .evalc) (hd : vd = 0) {old : Nat} (hold : readSlot c a p b st = (old, c, a)) :
    evalWord c a p b st w = ⟨old, 0, c, a⟩ := by
  simp [evalWord, h.opa, h.opb, h.opc, h.opd, (Word.op_eq_two_iff w).2 hop, hd, hold]

end

/-! What a step publishes -/

theorem publish_pvec (a : Arr) (p b st w v : Nat) (send : Bool) (k : Nat) : NatMap.find 0 (publish a p b st w v send).pvec k =
    if Word.prb w = 1 ∧ 0 < NatMap.find 0 a.pmap (b * 4096 + st) ∧ k = p * 65536 + (NatMap.find 0 a.pmap (b * 4096 + st) - 1) then v
    else NatMap.find 0 a.pvec k := by
  by_cases hprb : Word.prb w = 1
  · cases hpos : NatMap.find 0 a.pmap (b * 4096 + st) with
    | zero => cases send <;> simp [publish, hprb, hpos]
    | succ pos => cases send <;> simp [publish, hprb, hpos, NatMap.find_put]
  · cases send <;> simp [publish, hprb]

/-- Publishing changes the lane, the sends and the probe vector alone. -/
theorem publish_eq (a : Arr) (p b st w v : Nat) (send : Bool) : publish a p b st w v send =
    { a with drives := (b, v) :: a.drives, sends := if send then (b / 32 * 64 + Word.port w, v) :: a.sends else a.sends,
             pvec := (publish a p b st w v send).pvec } := by
  unfold publish
  cases send <;> dsimp only <;> split <;> rfl

/-- What is staged beside the lane, the sends and the probe vector does not matter to what is published. -/
theorem publish_published {a a₁ : Arr} (hdrives : a₁.drives = a.drives) (hsends : a₁.sends = a.sends) (hpvec : a₁.pvec = a.pvec)
    (hpmap : a₁.pmap = a.pmap) (p b st w v : Nat) (send : Bool) : Published a (publish a₁ p b st w v send) p b st w v send where
  drives := by rw [publish_eq, hdrives]
  sends := by rw [publish_eq, hsends]
  probe k := by rw [publish_pvec, hpvec, hpmap]

/-! Slot writes -/

/-- A slot write changes the stored bits and their parity alone. -/
theorem Arr.writeSlot_eq (a : Arr) (mirror : Bool) (b k v : Nat) : a.writeSlot mirror b k v =
    { a with slotA := (a.writeSlot mirror b k v).slotA, parA := (a.writeSlot mirror b k v).parA,
             slotB := (a.writeSlot mirror b k v).slotB, parB := (a.writeSlot mirror b k v).parB } := by
  cases mirror <;> rfl

theorem Arr.find_writeSlot_slotA (a : Arr) (mirror : Bool) (b k v j : Nat) :
    NatMap.find 0 (a.writeSlot mirror b k v).slotA j = if j = b * 4096 + k then v else NatMap.find 0 a.slotA j := by
  cases mirror <;> exact NatMap.find_put _ _ _ _ _

theorem Arr.find_writeSlot_slotB (a : Arr) (mirror : Bool) (b k v j : Nat) :
    NatMap.find 0 (a.writeSlot mirror b k v).slotB j = if mirror ∧ j = b * 4096 + k then v else NatMap.find 0 a.slotB j := by
  cases mirror with
  | false => simp [Arr.writeSlot]
  | true => simp [Arr.writeSlot, writeSlot1, NatMap.find_put]

/-- The next state of a BP whose slot write is published. -/
theorem publish_writeSlot_published (a : Arr) (mirror : Bool) (p b st w v : Nat) (send : Bool) :
    Published a (publish (a.writeSlot mirror b st v) p b st w v send) p b st w v send := by
  refine publish_published ?_ ?_ ?_ ?_ p b st w v send
  all_goals rw [Arr.writeSlot_eq]

theorem find_publish_writeSlot_slotA (a : Arr) (mirror : Bool) (p b st w v : Nat) (send : Bool) (k : Nat) :
    NatMap.find 0 (publish (a.writeSlot mirror b st v) p b st w v send).slotA k = if k = b * 4096 + st then v else NatMap.find 0 a.slotA k := by
  rw [publish_eq]
  exact Arr.find_writeSlot_slotA a mirror b st v k

theorem find_publish_writeSlot_slotB (a : Arr) (mirror : Bool) (p b st w v : Nat) (send : Bool) (k : Nat) :
    NatMap.find 0 (publish (a.writeSlot mirror b st v) p b st w v send).slotB k =
      if mirror ∧ k = b * 4096 + st then v else NatMap.find 0 a.slotB k := by
  rw [publish_eq]
  exact Arr.find_writeSlot_slotB a mirror b st v k

/-! What each opcode does once its operands are read -/

section
variable {c : Chip} {a : Arr} {p b st w va vb vc vd : Nat} (h : OperandsRead c a p b st w va vb vc vd)
include h

theorem bpEffect_eval (hk : Word.kind w = .eval) : bpEffect c a p b st w =
    (c, publish (a.writeSlot (c.on .H_DS_MIRROR p) b st (bit (Word.tt w) (8 * vd + 4 * vc + 2 * vb + va))) p b st w
      (bit (Word.tt w) (8 * vd + 4 * vc + 2 * vb + va)) (Word.snd w = 1)) := by
  simp [bpEffect, hk, bpEval, evalWord_of_reads h]

theorem bpEffect_evalc_enabled (hk : Word.kind w = .evalc) (hd : vd = 1) : bpEffect c a p b st w =
    (c, publish (a.writeSlot (c.on .H_DS_MIRROR p) b st (bit (Word.tt w) (4 * vc + 2 * vb + va))) p b st w
      (bit (Word.tt w) (4 * vc + 2 * vb + va)) (Word.snd w = 1)) := by
  simp [bpEffect, hk, bpEvalc, evalWord_enabled h hk hd]

theorem bpEffect_evalc_disabled (hk : Word.kind w = .evalc) (hd : vd = 0) {old : Nat} (hold : readSlot c a p b st = (old, c, a)) :
    bpEffect c a p b st w = (c, publish a p b st w old (Word.snd w = 1)) := by
  simp [bpEffect, hk, bpEvalc, evalWord_disabled h hk hd hold]

theorem bpEffect_mput (hk : Word.kind w = .mput) : bpEffect c a p b st w =
    (c, publish { a with gathers := ((b / 256 * 4 + Word.port w / 16) * 16 + Word.port w % 16, bit (Word.tt w) (8 * vd + 4 * vc + 2 * vb + va)) :: a.gathers }
      p b st w (bit (Word.tt w) (8 * vd + 4 * vc + 2 * vb + va)) (Word.snd w = 1)) := by
  simp [bpEffect, hk, bpMput, evalWord_of_reads h]

theorem bpEffect_stop (hk : Word.kind w = .stop) : bpEffect c a p b st w =
    (if bit (Word.tt w) (8 * vd + 4 * vc + 2 * vb + va) = 1 then
        (c.set .H_STOP_PEND p (orBit (c.get .H_STOP_PEND p) 0)).set .H_STOP_CODES p (orBit (c.get .H_STOP_CODES p) (Word.port w))
      else c,
      publish a p b st w (bit (Word.tt w) (8 * vd + 4 * vc + 2 * vb + va)) (Word.snd w = 1)) := by
  simp [bpEffect, hk, bpStop, evalWord_of_reads h]

theorem bpEffect_trig (hk : Word.kind w = .trig) : bpEffect c a p b st w =
    (if bit (Word.tt w) (8 * vd + 4 * vc + 2 * vb + va) = 1 then c.set .H_TRIG p (orBit (c.get .H_TRIG p) (Word.port w)) else c,
      publish a p b st w (bit (Word.tt w) (8 * vd + 4 * vc + 2 * vb + va)) (Word.snd w = 1)) := by
  simp [bpEffect, hk, bpTrig, evalWord_of_reads h]

theorem bpEffect_out (hk : Word.kind w = .out) : bpEffect c a p b st w =
    (c, publish { a with outs := (b / 256 * 64 + Word.port w, bit (Word.tt w) (8 * vd + 4 * vc + 2 * vb + va)) :: a.outs }
      p b st w (bit (Word.tt w) (8 * vd + 4 * vc + 2 * vb + va)) (Word.snd w = 1)) := by
  simp [bpEffect, hk, bpOut, evalWord_of_reads h]

theorem bpEffect_xev (hk : Word.kind w = .xev) : bpEffect c a p b st w =
    (c, publish a p b st w (bit (Word.tt w) (8 * vd + 4 * vc + 2 * vb + va)) true) := by
  simp [bpEffect, hk, bpXev, evalWord_of_reads h]

end

/-! The obligations -/

/-- Settles O8: the operands are read without a change, so the effect of EVAL is one published slot write. -/
theorem evalStoresTruthTable : Obligations.EvalStoresTruthTable := by
  intro bp p w va vb vc vd s hruns hreads
  have he := bpEffect_eval hreads hruns.kind
  rw [bpBegun_mirror] at he
  refine ⟨_, congrArg Host.Outcome.next (onArr_bpCommand hruns he), rfl, rfl, rfl, ?slotA, ?slotB, ?published, ?rest⟩
  case slotA => exact find_publish_writeSlot_slotA _ _ _ _ _ _ _ _
  case slotB => exact find_publish_writeSlot_slotB _ _ _ _ _ _ _ _
  case published => exact publish_writeSlot_published _ _ _ _ _ _ _ _
  case rest =>
    dsimp only
    rw [publish_eq, Arr.writeSlot_eq]

/-- Settles O9: with D = 1 a published slot write, with D = 0 the slot's own bit published. -/
theorem evalcWritesOnlyWhenEnabled : Obligations.EvalcWritesOnlyWhenEnabled := by
  intro bp p w va vb vc vd s hruns hreads
  constructor
  case left =>
    intro hd
    have he := bpEffect_evalc_enabled hreads hruns.kind hd
    refine ⟨_, congrArg Host.Outcome.next (onArr_bpCommand hruns he), rfl, rfl, ?_, ?_⟩
    · exact find_publish_writeSlot_slotA _ _ _ _ _ _ _ _
    · exact publish_writeSlot_published _ _ _ _ _ _ _ _
  case right =>
    intro old hd hold
    have he := bpEffect_evalc_disabled hreads hruns.kind hd hold
    refine ⟨_, congrArg Host.Outcome.next (onArr_bpCommand hruns he), rfl, rfl, ?_, ?_⟩
    · exact publish_published rfl rfl rfl rfl _ _ _ _ _ _
    · dsimp only
      rw [publish_eq]

/-- Settles O10: no effect of these opcodes holds a slot write; NOP and the undefined opcodes do not even publish. -/
theorem otherOpcodesWriteNoSlot : Obligations.OtherOpcodesWriteNoSlot := by
  intro bp p w va vb vc vd s
  refine ⟨fun op hruns hreads => ?computing, fun hruns => ?nop, fun hruns => ?undefinedOp⟩
  case nop =>
    have he : bpEffect (bpBegun bp.val p w s.chip) s.arr p bp.val (s.chip.stepNow p) w = (bpBegun bp.val p w s.chip, s.arr) := by
      simp [bpEffect, hruns.kind, bpNop]
    exact congrArg Host.Outcome.next (onArr_bpCommand hruns he)
  case undefinedOp =>
    have he : bpEffect (bpBegun bp.val p w s.chip) s.arr p bp.val (s.chip.stepNow p) w =
        ((bpBegun bp.val p w s.chip).count .PTN_ENC_FAULT_COUNT p 1, s.arr) := by
      simp [bpEffect, hruns.kind, bpUndefined, Chip.encFault]
    exact congrArg Host.Outcome.next (onArr_bpCommand hruns he)
  case computing =>
    refine ⟨?mput, ?stop, ?trig, ?out, ?xev⟩
    case mput =>
      rintro rfl
      refine ⟨_, congrArg Host.Outcome.next (onArr_bpCommand hruns (bpEffect_mput hreads hruns.kind)), rfl, rfl, ?_, ?_⟩
      · refine publish_published ?_ ?_ ?_ ?_ _ _ _ _ _ _ <;> rfl
      · dsimp only
        rw [publish_eq]
    case stop =>
      rintro rfl
      refine ⟨_, congrArg Host.Outcome.next (onArr_bpCommand hruns (bpEffect_stop hreads hruns.kind)), rfl, ?_, ?_, rfl⟩
      · dsimp only
        rw [publish_eq]
      · exact publish_published rfl rfl rfl rfl _ _ _ _ _ _
    case trig =>
      rintro rfl
      refine ⟨_, congrArg Host.Outcome.next (onArr_bpCommand hruns (bpEffect_trig hreads hruns.kind)), rfl, ?_, ?_, rfl⟩
      · dsimp only
        rw [publish_eq]
      · exact publish_published rfl rfl rfl rfl _ _ _ _ _ _
    case out =>
      rintro rfl
      refine ⟨_, congrArg Host.Outcome.next (onArr_bpCommand hruns (bpEffect_out hreads hruns.kind)), rfl, rfl, ?_, ?_⟩
      · refine publish_published ?_ ?_ ?_ ?_ _ _ _ _ _ _ <;> rfl
      · dsimp only
        rw [publish_eq]
    case xev =>
      rintro rfl
      refine ⟨_, congrArg Host.Outcome.next (onArr_bpCommand hruns (bpEffect_xev hreads hruns.kind)), rfl, rfl, ?_, ?_⟩
      · dsimp only
        rw [publish_eq]
      · exact publish_published rfl rfl rfl rfl _ _ _ _ _ _

/-! Slot reads that fail parity -/

theorem bitB_orBit_clip {f : Fld} {n : Nat} (hn : n < f.width) (v : Nat) : bitB (f.clip (orBit v n)) n = true := by
  have hbit : ∀ x, bitB x n = x.testBit n := fun x => Nat.testBit_eq_decide_div_mod_eq.symm
  have hor : (orBit v n).testBit n = true := by
    rw [show orBit v n = v ||| 2 ^ n from rfl, Nat.testBit_or, Nat.testBit_two_pow_self, Bool.or_true]
  rw [hbit, Fld.clip_of_width (by omega), Nat.testBit_mod_two_pow, hor]
  simpa using hn

theorem Chip.slotFail_stops (c : Chip) (p b k : Nat) : bitB ((c.slotFail p b k).get .H_STOP_PEND p) 6 = true := by
  have hset : (c.slotFail p b k).get .H_STOP_PEND p = (c.set .H_STOP_PEND p (orBit (c.get .H_STOP_PEND p) 6)).get .H_STOP_PEND p := by
    unfold Chip.slotFail
    dsimp only
    split <;> split <;> simp [Chip.get_set_ne]
  rw [hset, Chip.get_set_same]
  exact bitB_orBit_clip (by decide) _

/-- A failing slot read, where one is located already. -/
theorem Chip.slotFail_get_of_valid {c : Chip} {p : Nat} (hvalid : c.get .PTN_DPAR_LOC_VALID p ≠ 0) (b k : Nat) {f : Fld} (hpend : f ≠ .H_STOP_PEND)
    (hfirst : f ≠ .H_DPAR_FIRST) : (c.slotFail p b k).get f p = c.get f p := by
  unfold Chip.slotFail
  dsimp only
  split <;> split <;> simp_all [Chip.on, Chip.get_set_ne]

/-- A failing slot read, where none is located yet. -/
theorem Chip.slotFail_get_of_not_valid {c : Chip} {p : Nat} (hvalid : c.get .PTN_DPAR_LOC_VALID p = 0) (b k : Nat) :
    (c.slotFail p b k).get .PTN_DPAR_LOC_VALID p = Fld.clip .PTN_DPAR_LOC_VALID 1 ∧
      (c.slotFail p b k).get .PTN_DPAR_LOC_BP p = Fld.clip .PTN_DPAR_LOC_BP b ∧
      (c.slotFail p b k).get .PTN_DPAR_LOC_SLOT p = Fld.clip .PTN_DPAR_LOC_SLOT k := by
  unfold Chip.slotFail
  dsimp only
  split <;> split <;> simp_all [Chip.on, Chip.get_set_ne]

theorem readSlot_of_failing {c : Chip} {a : Arr} {p b k : Nat} (hmirror : c.on .H_DS_MIRROR p = false)
    (hbad : parityOk a.slotA a.parA ((b * 4096 + k) / 8) = false) :
    readSlot c a p b k = (NatMap.find 0 a.slotA (b * 4096 + k), c.slotFail p b k, a) := by
  simp [readSlot, hmirror, hbad]

/-- Settles O11: the read is `slotFail`, which keeps an earlier location. -/
theorem slotParityFailureStopsPartition : Obligations.SlotParityFailureStopsPartition := by
  intro c a p b k hmirror hbad _ hb hk
  rw [readSlot_of_failing hmirror hbad]
  refine ⟨rfl, rfl, Chip.slotFail_stops c p b k, ?valid, fun hnone => ?unlocated, fun hvalid => ?later⟩
  case valid =>
    by_cases hvalid : c.get .PTN_DPAR_LOC_VALID p = 0
    · obtain ⟨h, -, -⟩ := Chip.slotFail_get_of_not_valid hvalid b k
      exact fun e => absurd (h.symm.trans e) (by decide)
    · rwa [Chip.slotFail_get_of_valid hvalid b k (by decide) (by decide)]
  case unlocated =>
    obtain ⟨-, hbp, hslot⟩ := Chip.slotFail_get_of_not_valid hnone b k
    exact ⟨hbp.trans (Fld.clip_lt hb), hslot.trans (Fld.clip_lt hk)⟩
  case later =>
    exact ⟨Chip.slotFail_get_of_valid hvalid b k (by decide) (by decide), Chip.slotFail_get_of_valid hvalid b k (by decide) (by decide)⟩

end Sys2Proof.Machine
end

section
/-! PROOFS. Stores laid over one another, and the fetch and check of instruction words (O24). -/

namespace Sys2Proof.Machine

/-! A store laid over another -/

theorem NatMap.sorted_pairwise {m : NatMap} (h : m.sorted = true) : m.Pairwise fun x y => x.1 < y.1 := by
  induction m with
  | nil => exact .nil
  | cons x m ih =>
    cases m with
    | nil => exact List.pairwise_singleton _ _
    | cons y m =>
      obtain ⟨hxy, hm⟩ : x.1 < y.1 ∧ NatMap.sorted (y :: m) = true := by simpa [NatMap.sorted] using h
      have hym := ih hm
      refine List.pairwise_cons.2 ⟨fun z hz => ?_, hym⟩
      rcases List.mem_cons.1 hz with rfl | hz
      · exact hxy
      · exact hxy.trans ((List.pairwise_cons.1 hym).1 z hz)

theorem NatMap.find_of_not_listed (d : Nat) {m : NatMap} {k : Nat} (h : ∀ e ∈ m, e.1 ≠ k) : NatMap.find d m k = d := by
  induction m with
  | nil => rfl
  | cons e m ih =>
    obtain ⟨a, v⟩ := e
    have hak : a ≠ k := h (a, v) (List.mem_cons_self ..)
    simpa [NatMap.find, hak] using ih fun e he => h e (List.mem_cons_of_mem _ he)

/-- Entries written one after another, each key once: the last store read is `l` at its keys and `m` elsewhere. -/
theorem NatMap.find_foldl_put {l : NatMap} (hl : l.Pairwise fun x y => x.1 < y.1) (m : NatMap) (k : Nat) :
    NatMap.find 0 (l.foldl (fun m e => NatMap.put 0 m e.1 e.2) m) k = if k ∈ l.map Prod.fst then NatMap.find 0 l k else NatMap.find 0 m k := by
  induction l generalizing m with
  | nil => simp
  | cons e l ih =>
    obtain ⟨a, v⟩ := e
    obtain ⟨hfirst, hl⟩ := List.pairwise_cons.1 hl
    rw [List.foldl_cons, ih hl, NatMap.find_put]
    by_cases hka : k = a
    · subst hka
      have hnot : k ∉ l.map Prod.fst := by
        rintro hk
        obtain ⟨e, he, rfl⟩ := List.mem_map.1 hk
        exact lt_irrefl _ (hfirst e he)
      simp [hnot, NatMap.find]
    · have hmem : k ∈ List.map Prod.fst ((a, v) :: l) ↔ k ∈ l.map Prod.fst := by simp [hka]
      simp only [hmem, hka, if_false, NatMap.find, Ne.symm hka]

/-- The entries of `l` whose key satisfies `q` laid over those of `m` whose key does not. -/
theorem NatMap.find_overlay {l : NatMap} (hl : l.sorted = true) (m : NatMap) (q : Nat → Bool) (k : Nat) :
    NatMap.find 0 ((l.filter fun e => q e.1).foldl (fun m e => NatMap.put 0 m e.1 e.2) (m.filter fun e => !q e.1)) k =
      if q k then NatMap.find 0 l k else NatMap.find 0 m k := by
  rw [NatMap.find_foldl_put ((NatMap.sorted_pairwise hl).filter _), NatMap.find_filter, NatMap.find_filter 0 (fun i => !q i)]
  by_cases hq : q k = true
  · simp only [hq, if_true, Bool.not_true, Bool.false_eq_true, if_false]
    split
    next => rfl
    next hnot =>
      refine (NatMap.find_of_not_listed 0 fun e he hek => hnot ?_).symm
      exact List.mem_map.2 ⟨e, List.mem_filter.2 ⟨he, hek ▸ hq⟩, hek⟩
  · have hnot : k ∉ (l.filter fun e => q e.1).map Prod.fst := by
      intro hk
      obtain ⟨e, he, rfl⟩ := List.mem_map.1 hk
      exact hq (List.mem_filter.1 he).2
    simp [hq, hnot]

/-! The check and the fetch of a word -/

theorem Chip.startRepair_repairing (c : Chip) (p : Nat) (sched : Bool) (key : Nat) : (c.startRepair p sched key).repairing sched key = true := by
  unfold Chip.startRepair
  split
  · assumption
  · simp [Chip.repairing]

theorem Chip.startRepair_fld (c : Chip) (p : Nat) (sched : Bool) (key : Nat) : (c.startRepair p sched key).fld = c.fld := by
  unfold Chip.startRepair
  split <;> rfl

theorem Chip.startRepair_of_repairing {c : Chip} {sched : Bool} {key : Nat} (h : c.repairing sched key = true) (p : Nat) :
    c.startRepair p sched key = c := if_pos h

section
variable {ahead : Bool} {st b : Nat} {a : Arr}

theorem checkBp_of_good (h : checkWord (NatMap.find 0 (if ahead then a.fword else a.istore) (b * 4096 + st)) = .good) (p : Nat) (c : Chip) :
    checkBp ahead p st c a b = (c, a) := by
  unfold checkBp
  dsimp only
  rw [h]

theorem checkBp_of_corrected {w : Nat} (h : checkWord (NatMap.find 0 (if ahead then a.fword else a.istore) (b * 4096 + st)) = .corrected w)
    (p : Nat) (c : Chip) : checkBp ahead p st c a b =
      (c.count .FLT_CNT_COUNT 0 1, { a with istore := NatMap.put 0 a.istore (b * 4096 + st) w,
                                            fword := if ahead then NatMap.put 0 a.fword (b * 4096 + st) w else a.fword }) := by
  unfold checkBp
  dsimp only
  rw [h]

theorem checkBp_of_bad (h : checkWord (NatMap.find 0 (if ahead then a.fword else a.istore) (b * 4096 + st)) = .bad) (p : Nat) (c : Chip) :
    checkBp ahead p st c a b = (c.startRepair p false (b * 4096 + st), a) := by
  unfold checkBp
  dsimp only
  rw [h]

end

/-- Which words a fetch reads: those of the step, of the partition's processors. -/
theorem find_readStep_fword {a : Arr} (h : a.istore.sorted = true) (p st : Nat) (c : Chip) (k : Nat) :
    NatMap.find 0 (readStep p st c a).fword k =
      if k % 4096 = st ∧ c.ownsBand p (k / 4096 / 2048) = true then NatMap.find 0 a.istore k else NatMap.find 0 a.fword k := by
  have overlay := NatMap.find_overlay h a.fword (fun i => decide (i % 4096 = st) && c.ownsBand p (i / 4096 / 2048)) k
  simpa [readStep] using overlay

/-- Settles O24, outcome by outcome of the word check. -/
theorem fetchChecksWords : Obligations.FetchChecksWords := by
  refine ⟨fun ahead p st b c a => ⟨fun good => checkBp_of_good good p c, fun w corrected => ?corrected, fun bad => ?bad⟩,
    fun p st c a h k => find_readStep_fword h p st c k⟩
  case corrected =>
    rw [checkBp_of_corrected corrected]
    refine ⟨rfl, fun k => NatMap.find_put _ _ _ _ _, fun k => ?_, rfl⟩
    cases ahead with
    | false => simp
    | true => simp [NatMap.find_put]
  case bad =>
    rw [checkBp_of_bad bad]
    refine ⟨rfl, c.startRepair_repairing p false _, c.startRepair_fld p false _, fun pending => ?_⟩
    rw [Chip.startRepair_of_repairing pending]

end Sys2Proof.Machine
end

section
/-! PROOFS. Owners of the array, and priming from the golden copy (O21). -/

namespace Sys2Proof.Machine

/-! Owners of bands, tiles and exchange registers -/

/-- The fields that say which bands a partition owns (R119). -/
def Fld.owning (f : Fld) (_ : Nat) : Bool := [Fld.PTN_CFG_ACTIVE, .PTN_CFG_FIRST, .PTN_CFG_COUNT].contains f

section
variable {c d : Chip} (h : Chip.Spares Fld.owning c d)
include h

theorem Chip.Spares.ownsBand_eq (p b : Nat) : d.ownsBand p b = c.ownsBand p b := by
  unfold Chip.ownsBand Chip.on
  rw [h.get .PTN_CFG_ACTIVE p rfl, h.get .PTN_CFG_FIRST p rfl, h.get .PTN_CFG_COUNT p rfl]

theorem Chip.Spares.bandOwner_eq (b : Nat) : d.bandOwner b = c.bandOwner b := by
  unfold Chip.bandOwner
  simp only [h.ownsBand_eq]

theorem Chip.Spares.tileOwner_eq (t : Nat) : d.tileOwner t = c.tileOwner t := h.bandOwner_eq _

theorem Chip.Spares.bridgeOwner_eq (k : Nat) : d.bridgeOwner k = c.bridgeOwner k := by
  unfold Chip.bridgeOwner Chip.on
  simp only [h.dies, h.ownsBand_eq, h.get .PTN_CFG_ACTIVE _ rfl, h.get .PTN_CFG_COUNT _ rfl]

theorem Chip.Spares.portOwner_eq (k q : Nat) : d.portOwner k q = c.portOwner k q := by
  unfold Chip.portOwner Chip.portConnected Chip.portBridge
  simp only [h.dies, h.bridgeOwner_eq]

theorem Chip.Spares.xOwner_eq (k : Nat) : d.xOwner k = c.xOwner k := by
  unfold Chip.xOwner
  simp only [h.tileOwner_eq, h.bandOwner_eq, h.portOwner_eq]

end

/-! The pump's registers once primed -/

/-- The registers of a pump whose PRIME is accepted. -/
def Chip.primed (c : Chip) (p : Nat) : Chip := (((c.accept .pmp p 4).primePump p).set .PMP_STATUS_FAULT_OUT p 0).set .H_PRIMING p 2

/-- The fields in which an accepted command stands. -/
def acceptFields : List Fld := [.CQ_SEQ, .PMP_RESULT_READY, .CQ_PSEQ, .CQ_PEND, .CQ_CMD]

/-- The fields that priming gives a value in the pump. -/
def primeFields : List Fld :=
  stopFields ++ [.PMP_CYCLE_CYCLE, .PMP_SLEN_STEP_NOW, .H_ELB_FULL, .H_TRIG, .H_LATE_N, .H_LATE_FROM, .PMP_STATUS_FAULT_OUT, .H_PRIMING]

theorem Chip.accept_pmp_except (c : Chip) (p cmd : Nat) : Chip.Except acceptFields c (c.accept .pmp p cmd) :=
  ((((Chip.Spares.refl c).set _ rfl).set 0 rfl).set _ rfl).set 1 rfl |>.set cmd rfl

theorem Chip.primed_except_accept (c : Chip) (p : Nat) : Chip.Except primeFields (c.accept .pmp p 4) (c.primed p) :=
  (((Chip.Spares.unsetAll stopFields p _ (by decide)).trans (Chip.Spares.unsetAll _ p _ (by decide))).set 0 rfl).set 2 rfl

/-- Priming keeps what is in neither list. -/
theorem Chip.primed_get (c : Chip) (p : Nat) {f : Fld} (i : Nat) (hprime : f ∉ primeFields) (haccept : f ∉ acceptFields) :
    (c.primed p).get f i = c.get f i :=
  ((c.primed_except_accept p).get i hprime).trans ((c.accept_pmp_except p 4).get i haccept)

theorem Chip.primed_owning (c : Chip) (p : Nat) : Chip.Spares Fld.owning c (c.primed p) := by
  refine (Chip.Spares.mono (c.accept_pmp_except p 4) fun f i hf => ?_).trans (Chip.Spares.mono (c.primed_except_accept p) fun f i hf => ?_)
  all_goals
    obtain rfl | rfl | rfl : f = .PTN_CFG_ACTIVE ∨ f = .PTN_CFG_FIRST ∨ f = .PTN_CFG_COUNT := by simpa [Fld.owning] using hf
    all_goals rfl

theorem Chip.accept_pending (c : Chip) (r : CmdReg) (i cmd : Nat) : (c.accept r i cmd).get .CQ_PEND (r.idx i) = 1 := by
  unfold Chip.accept
  rw [Chip.get_set_ne _ _ (by simp), Chip.get_set_same]
  rfl

theorem Chip.primed_pending (c : Chip) (p : Nat) : (c.primed p).get .CQ_PEND (CmdReg.pmp.idx p) = 1 :=
  ((c.primed_except_accept p).get _ (by decide)).trans (c.accept_pending .pmp p 4)

theorem Chip.unsetAll_cons (c : Chip) (f : Fld) (fs : List Fld) (i : Nat) : c.unsetAll (f :: fs) i = (c.unset f i).unsetAll fs i := rfl

theorem Chip.primed_cycle (c : Chip) (p : Nat) : (c.primed p).get .PMP_CYCLE_CYCLE p = 0 := by
  have rest (d : Chip) : Chip.Except [.PMP_SLEN_STEP_NOW, .H_ELB_FULL, .H_TRIG, .H_LATE_N, .H_LATE_FROM] d
      (d.unsetAll [.PMP_SLEN_STEP_NOW, .H_ELB_FULL, .H_TRIG, .H_LATE_N, .H_LATE_FROM] p) := Chip.Spares.unsetAll _ p d (by decide)
  unfold Chip.primed Chip.primePump
  rw [Chip.get_set_ne _ _ (by simp), Chip.get_set_ne _ _ (by simp), Chip.unsetAll_cons, (rest _).get p (by decide), Chip.unset, Chip.get_set_same]
  rfl

/-- PRIME of a pump in HALT in a module that is on. -/
theorem pmpWrite_prime {c : Chip} {p : Nat} (hpower : c.power = pwrOn) (hfree : c.cmdPending .pmp p = false) (hhalt : c.pumpState p = psHalt)
    (htest : c.underTest p = false) (svc : Bool) (a : Arr) (m : Mem) :
    pmpWrite p 4 0 svc c a m = ((c.primed p).faultN, primeArr p (c.primed p) a, m) := by
  have hrun : pmpCmd p 4 0 svc c a = ((c.primed p).faultN, primeArr p (c.primed p) a) := by
    simp [pmpCmd, hfree, pumpPrime, hhalt, psHalt, psEmpty, psLoading, htest, Chip.primed]
  simp [pmpWrite, onDemand, hpower, pwrOn, pwrIdle, pwrWatch, hrun]

/-! The array once primed -/

/-- Priming of the stores changes the stored bits and their parity alone. -/
theorem primeStores_eq (p : Nat) (c : Chip) (a : Arr) : primeStores p c a =
    { a with slotA := (primeSlots c p a.gslot a.slotA a.parA).1, parA := (primeSlots c p a.gslot a.slotA a.parA).2,
             slotB := (primeStores p c a).slotB, parB := (primeStores p c a).parB } := rfl

theorem primeSlots_fst (c : Chip) (p : Nat) (gold slots par : NatMap) : (primeSlots c p gold slots par).1 =
    (gold.filter fun e => c.ownsBand p (e.1 / 4096 / 2048)).foldl (fun m e => NatMap.put 0 m e.1 e.2)
      (slots.filter fun e => !c.ownsBand p (e.1 / 4096 / 2048)) := by
  have step : ∀ (l : NatMap) (x : NatMap × NatMap),
      (l.foldl (fun (x : NatMap × NatMap) e => writeSlot1 x.1 x.2 (e.1 / 4096) (e.1 % 4096) e.2) x).1 = l.foldl (fun m e => NatMap.put 0 m e.1 e.2) x.1 := by
    intro l
    induction l with
    | nil => exact fun _ => rfl
    | cons e l ih =>
      intro x
      rw [List.foldl_cons, List.foldl_cons, ih]
      simp only [writeSlot1, Nat.div_add_mod']
  exact step _ _

/-- Every slot of the partition has its golden value, and every other slot is as it was. -/
theorem find_primeSlots {gold : NatMap} (h : gold.sorted = true) (c : Chip) (p : Nat) (slots par : NatMap) (k : Nat) :
    NatMap.find 0 (primeSlots c p gold slots par).1 k =
      if c.ownsBand p (k / 4096 / 2048) then NatMap.find 0 gold k else NatMap.find 0 slots k := by
  rw [primeSlots_fst]
  exact NatMap.find_overlay h slots (fun i => c.ownsBand p (i / 4096 / 2048)) k

section
variable (p : Nat) (c : Chip) (a : Arr)

/-- What priming does to the tables that O21 speaks of. -/
theorem primeArr_eq : primeArr p c a =
    { primeArr p c a with
      slotA := (primeSlots c p a.gslot a.slotA a.parA).1, istore := a.istore, sched := a.sched, gslot := a.gslot,
      lane1 := a.lane1.filter fun e => !c.ownsBand p (e.1 / 2048), lane2 := a.lane2.filter fun e => !c.ownsBand p (e.1 / 2048),
      xreg := a.xreg.filter fun e => c.xOwner e.1 ≠ some p } := by
  unfold primeArr
  rw [primeStores_eq]
  rfl

theorem primeArr_slotA : (primeArr p c a).slotA = (primeSlots c p a.gslot a.slotA a.parA).1 := by
  rw [primeArr_eq]

theorem primeArr_istore : (primeArr p c a).istore = a.istore := by
  rw [primeArr_eq]

theorem primeArr_sched : (primeArr p c a).sched = a.sched := by
  rw [primeArr_eq]

theorem primeArr_gslot : (primeArr p c a).gslot = a.gslot := by
  rw [primeArr_eq]

theorem primeArr_lane1 : (primeArr p c a).lane1 = a.lane1.filter fun e => !c.ownsBand p (e.1 / 2048) := by
  rw [primeArr_eq]

theorem primeArr_lane2 : (primeArr p c a).lane2 = a.lane2.filter fun e => !c.ownsBand p (e.1 / 2048) := by
  rw [primeArr_eq]

theorem primeArr_xreg : (primeArr p c a).xreg = a.xreg.filter fun e => c.xOwner e.1 ≠ some p := by
  rw [primeArr_eq]


end

/-- Settles O21: the owners are those before PRIME, so the golden copy replaces the partition's own slots and its lanes and registers go. -/
theorem primeRestoresGoldenState : Obligations.PrimeRestoresGoldenState := by
  intro who p s₀ s hmay hpower hfree hhalt htest hgold
  have hwrite := pmpWrite_prime (c := s.chip.answer .ok) (p := p) (by simpa [Chip.power] using hpower) (by simpa [Chip.cmdPending, Chip.on] using hfree)
    (by simpa [Chip.pumpState] using hhalt) (by simpa [Chip.underTest, Chip.cmdPending, Chip.ownsBand, Chip.on] using htest) (!initHost who) s.arr s.mem
  have hact : byRegister who .part p.val 0x4 (fun c a m => faultAfter (pmpWrite p.val 4 0 (!initHost who) c a m)) s.chip s.arr s.mem =
      (((s.chip.answer .ok).primed p).faultN.faultN, primeArr p ((s.chip.answer .ok).primed p) s.arr, s.mem) := by
    simp only [byRegister, hmay, if_true, hwrite, faultAfter]
  have owners : Chip.Spares Fld.owning s.chip ((s.chip.answer .ok).primed p) :=
    (⟨fun f i _ => Chip.answer_get _ _ _ _ f i, rfl, rfl, rfl⟩ : Chip.Spares Fld.owning s.chip (s.chip.answer .ok)).trans (Chip.primed_owning _ p)
  refine ⟨_, congrArg Host.Outcome.next (?_ : _ = { s with
    chip := ((s.chip.answer .ok).primed p).faultN.faultN, arr := primeArr p ((s.chip.answer .ok).primed p) s.arr }), ?_⟩
  · unfold State.onAll
    rw [hact]
  have kept : ∀ (f : Fld) (i : Nat), f.signal = false →
      ((s.chip.answer .ok).primed p).faultN.faultN.get f i = ((s.chip.answer .ok).primed p).get f i := fun f i hf => by
    rw [Chip.faultN_get _ f i hf, Chip.faultN_get _ f i hf]
  refine ⟨?state, ?pending, ?cycle, rfl, primeArr_istore _ _ _, primeArr_sched _ _ _, primeArr_gslot _ _ _, fun b k hk => ?slots, fun b hb => ?lanes, fun k hk => ?xreg⟩
  case state =>
    refine (kept .PMP_STATUS_STATE p rfl).trans (((s.chip.answer .ok).primed_get p p (by decide) (by decide)).trans ?_)
    exact (Chip.answer_get ..).trans hhalt
  case pending =>
    unfold Chip.cmdPending Chip.on
    rw [kept .CQ_PEND _ rfl, Chip.primed_pending]
    rfl
  case cycle => exact (kept .PMP_CYCLE_CYCLE p rfl).trans (Chip.primed_cycle _ p)
  case slots =>
    rw [primeArr_slotA, find_primeSlots hgold, owners.ownsBand_eq, show (b * 4096 + k) / 4096 = b by omega]
  case lanes =>
    have lane : ∀ m : NatMap, NatMap.find 0 (m.filter fun e => !((s.chip.answer .ok).primed p).ownsBand p (e.1 / 2048)) b = 0 := by
      intro m
      rw [NatMap.find_filter 0 (fun i => !((s.chip.answer .ok).primed p).ownsBand p (i / 2048)), owners.ownsBand_eq, hb]
      rfl
    dsimp only
    rw [primeArr_lane1, primeArr_lane2]
    exact ⟨lane _, lane _⟩
  case xreg =>
    rw [primeArr_xreg, NatMap.find_filter 0 (fun i => decide (((s.chip.answer .ok).primed p).xOwner i ≠ some p.val)), owners.xOwner_eq, hk]
    simp

end Sys2Proof.Machine
end

section
/-! PROOFS. Writes of PMP_CMD: their path to the pump, and what acceptance and results leave in its registers (O18, O19, O20, O22, O23). -/

namespace Sys2Proof.Machine

/-! Fields that a change leaves -/

theorem Chip.Except.only {W : List Fld} {c d : Chip} (h : Chip.Except W c d) : Chip.Only W c d :=
  h.mono fun _ _ hf => decide_eq_true (Fld.outside_iff.mp hf).2

theorem Chip.faultN_only (W : List Fld) (c : Chip) : Chip.Only W c c.faultN := Chip.Only.of_quiet c.faultN_quiet

theorem Chip.pumpEvent_only {W : List Fld} (c : Chip) {f : Fld} (n p : Nat) (hf : f ∈ W) : Chip.Only W c (c.pumpEvent f n p) :=
  (Chip.Only.set (.refl c) 1 hf).trans (Chip.Only.of_quiet (c.pumpEvent_quiet f n p))

/-- The event of a pump shows. -/
theorem Chip.pumpEvent_get_same (c : Chip) {f : Fld} (n p : Nat) (hs : f.signal = false) : (c.pumpEvent f n p).get f p = f.clip 1 := by
  rw [(c.pumpEvent_quiet f n p).get f p hs, Chip.get_set_same]

section
variable {W : List Fld} {c d : Chip} (h : Chip.Only W c d)
include h

theorem Chip.Only.pumpState_eq (hW : Fld.PMP_STATUS_STATE ∉ W) (p : Nat) : d.pumpState p = c.pumpState p := h.get p rfl hW

theorem Chip.Only.cmdPending_eq (hW : Fld.CQ_PEND ∉ W) (r : CmdReg) (i : Nat) : d.cmdPending r i = c.cmdPending r i := by
  unfold Chip.cmdPending Chip.on
  rw [h.get _ rfl hW]

end

/-- A field without a width holds what is written to it. -/
theorem Fld.clip_of_unbounded {f : Fld} (h : f.width = 0) (v : Nat) : f.clip v = v := if_pos h

/-- A field read after several have returned to their reset values. -/
theorem Chip.get_unsetAll (fs : List Fld) (c : Chip) (g : Fld) (i j : Nat) :
    (c.unsetAll fs i).get g j = if g ∈ fs ∧ j = i then g.clip g.reset else c.get g j := by
  induction fs generalizing c with
  | nil => simp [Chip.unsetAll]
  | cons f fs ih =>
    rw [Chip.unsetAll_cons, ih, Chip.unset, Chip.get_set]
    by_cases hmem : g ∈ fs ∧ j = i
    · simp [hmem]
    · by_cases hf : g = f ∧ j = i
      · obtain ⟨rfl, rfl⟩ := hf
        simp
      · rw [if_neg hmem, if_neg hf, if_neg]
        rintro ⟨hg, hj⟩
        rcases List.mem_cons.1 hg with hg | hg
        · exact hf ⟨hg, hj⟩
        · exact hmem ⟨hg, hj⟩

theorem Chip.unsetAll_resp (fs : List Fld) (c : Chip) (i : Nat) : (c.unsetAll fs i).resp = c.resp := by
  induction fs generalizing c with
  | nil => rfl
  | cons f fs ih => rw [Chip.unsetAll_cons, ih, Chip.unset, Chip.set_resp]

/-! The next state of a command, from what it does to its layers -/

section
variable {i : Instr} {s : State} {Q : State → Prop}

theorem does_of_onChip {f : Chip → Chip} {d : Chip} (hexec : exec i s = .next (s.onChip f)) (hd : f s.chip = d) (hQ : Q { s with chip := d }) : Does i s Q := by
  subst hd
  exact ⟨_, hexec, hQ⟩

theorem does_of_onArr {f : Chip → Arr → Chip × Arr} {d : Chip} {e : Arr} (hexec : exec i s = .next (s.onArr f)) (hd : f s.chip s.arr = (d, e))
    (hQ : Q { s with chip := d, arr := e }) : Does i s Q := by
  refine ⟨_, hexec, ?_⟩
  unfold State.onArr
  rw [hd]
  exact hQ

end

/-! The path of a write of PMP_CMD -/

/-- A write that no power state delays does what the pump makes of its command. -/
theorem pmpWrite_of_awake {code : Nat} {c : Chip} (h : c.power = pwrOn ∨ (code ≠ 1 ∧ code ≠ 4)) (p count : Nat) (svc : Bool) (a : Arr) (m : Mem) :
    pmpWrite p code count svc c a m = ((pmpCmd p code count svc c a).1, (pmpCmd p code count svc c a).2, m) := by
  unfold pmpWrite
  split
  next hcode =>
    have hpower : c.power = pwrOn := h.resolve_right (by omega)
    simp [onDemand, hpower, pwrOn, pwrIdle, pwrWatch]
  next => rfl

/-- A command that writes PMP_CMD, where its initiator may: the access is answered OK, the pump acts, and FAULT_N follows. -/
theorem does_of_pmpCmd {i : Instr} {who : Init} {p : Fin 16} {code count : Nat} {s₀ : State} {Q : State → Prop} {c : Chip} {a : Arr}
    (hexec : exec i s₀ = .next ((s₀.seen who).onAll (byRegister who .part p.val 0x4 fun c a m =>
      faultAfter (pmpWrite p.val code count (!initHost who) c a m))))
    (hmay : (s₀.seen who).chip.regMay who ⟨.part, p, 0x4⟩ true = true)
    (hawake : (s₀.seen who).chip.power = pwrOn ∨ (code ≠ 1 ∧ code ≠ 4))
    (hcmd : pmpCmd p code count (!initHost who) ((s₀.seen who).chip.answer .ok) (s₀.seen who).arr = (c, a))
    (hQ : Q { s₀.seen who with chip := c.faultN, arr := a }) : Does i s₀ Q := by
  refine ⟨_, hexec, ?_⟩
  have hact : byRegister who .part p.val 0x4 (fun c a m => faultAfter (pmpWrite p.val code count (!initHost who) c a m))
      (s₀.seen who).chip (s₀.seen who).arr (s₀.seen who).mem = (c.faultN, a, (s₀.seen who).mem) := by
    have hwrite := pmpWrite_of_awake (c := (s₀.seen who).chip.answer .ok) hawake p count (!initHost who) (s₀.seen who).arr (s₀.seen who).mem
    simp only [byRegister, hmay, if_true, hwrite, hcmd, faultAfter]
  unfold State.onAll
  rw [hact]
  exact hQ

/-! Commands written while none is pending -/

section
variable {c : Chip} {p : Nat} (hfree : c.cmdPending .pmp p = false) (count : Nat) (svc : Bool) (a : Arr)
include hfree

theorem pmpCmd_start : pmpCmd p 1 count svc c a = pumpStart p c a := by simp [pmpCmd, hfree]

theorem pmpCmd_halt : pmpCmd p 2 count svc c a = (c.pumpHalt p, a) := by simp [pmpCmd, hfree]

theorem pmpCmd_step : pmpCmd p 3 count svc c a = pumpStep p count c a := by simp [pmpCmd, hfree]

end

/-! Results and acceptance -/

/-- The fields in which PMP_RESULT and its event stand. -/
def pmpResultFields : List Fld :=
  [.PMP_RESULT_READY, .PMP_RESULT_CONSUMED, .PMP_RESULT_OUTCOME, .PMP_RESULT_CMD, .PMP_RESULT_CODE, .PMP_RESULT_SEQ, .H_RES_CYC, .PMP_EVENT_RESULT]

/-- PMP_RESULT of partition `p` holds a result (R95): its command, outcome and code, each as its field keeps it. -/
structure Chip.PmpResult (d : Chip) (p cmd outcome code : Nat) : Prop where
  ready : d.get .PMP_RESULT_READY p = 1
  outcome : d.get .PMP_RESULT_OUTCOME p = outcome % 4
  cmd : d.get .PMP_RESULT_CMD p = cmd % 16
  code : d.get .PMP_RESULT_CODE p = code % 256

/-- A result stands while its register is left alone. -/
theorem Chip.PmpResult.keep {c d : Chip} {p cmd outcome code : Nat} (h : c.PmpResult p cmd outcome code) {W : List Fld} (k : Chip.Only W c d)
    (hW : ∀ f ∈ [Fld.PMP_RESULT_READY, .PMP_RESULT_OUTCOME, .PMP_RESULT_CMD, .PMP_RESULT_CODE], f ∉ W) : d.PmpResult p cmd outcome code where
  ready := (k.get p rfl (hW _ (by decide))).trans h.ready
  outcome := (k.get p rfl (hW _ (by decide))).trans h.outcome
  cmd := (k.get p rfl (hW _ (by decide))).trans h.cmd
  code := (k.get p rfl (hW _ (by decide))).trans h.code

section
variable (c : Chip) (p cmd outcome code : Nat)

theorem Chip.putResult_pmp_only (seq : Nat) : Chip.Only pmpResultFields c (c.putResult .pmp p cmd seq outcome code) := by
  have base : Chip.Only pmpResultFields c (c.resultBase .pmp p cmd seq outcome code) :=
    (((((Chip.Spares.refl c).set _ rfl).set _ rfl).set _ rfl).set _ rfl).set _ rfl |>.set _ rfl
  exact (base.set _ (by decide)).trans (Chip.pumpEvent_only _ _ _ (by decide))

theorem Chip.putResult_pmp_result (seq : Nat) : (c.putResult .pmp p cmd seq outcome code).PmpResult p cmd outcome code := by
  rw [Chip.putResult_eq]
  constructor
  all_goals
    rw [Chip.resultEvent_get _ _ _ _ _ rfl (by decide) (by decide), Chip.resultBase_get]
    rfl

theorem Chip.refuse_pmp_only : Chip.Only (.CQ_SEQ :: pmpResultFields) c (c.refuse .pmp p cmd code) :=
  (((Chip.Spares.refl c).set _ rfl).set _ rfl).trans ((Chip.putResult_pmp_only _ p cmd refused code _).widen (by decide))

theorem Chip.refuse_pmp_result : (c.refuse .pmp p cmd code).PmpResult p cmd refused code := Chip.putResult_pmp_result _ _ _ _ _ _

theorem Chip.finish_pmp_only : Chip.Only (.CQ_PEND :: pmpResultFields) c (c.finish .pmp p outcome code) :=
  .cond (((Chip.Spares.refl c).set _ rfl).trans ((Chip.putResult_pmp_only _ p _ outcome code _).widen (by decide))) (.refl c)

/-- Whatever was pending, nothing is once a result is produced. -/
theorem Chip.finish_pmp_pending : (c.finish .pmp p outcome code).cmdPending .pmp p = false := by
  unfold Chip.finish
  split
  · rw [(Chip.putResult_pmp_only _ p _ outcome code _).cmdPending_eq (by decide), Chip.cmdPending, Chip.on, Chip.get_set_same, Fld.clip_zero]
    rfl
  next h => simpa using h

theorem Chip.finish_pmp_result (h : c.cmdPending .pmp p = true) :
    (c.finish .pmp p outcome code).PmpResult p (c.get .CQ_CMD (CmdReg.pmp.idx p)) outcome code := by
  unfold Chip.finish
  rw [if_pos h]
  exact Chip.putResult_pmp_result _ _ _ _ _ _

theorem Chip.accept_pmp_only : Chip.Only acceptFields c (c.accept .pmp p cmd) := (c.accept_pmp_except p cmd).only

theorem Chip.accept_pmp_pending : (c.accept .pmp p cmd).cmdPending .pmp p = true := by
  unfold Chip.cmdPending Chip.on
  rw [Chip.accept_pending]
  rfl

theorem Chip.accept_cmd (r : CmdReg) (i : Nat) : (c.accept r i cmd).get .CQ_CMD (r.idx i) = cmd % 16 := Chip.get_set_same _ _ _ _

theorem Chip.accept_pmp_ready : (c.accept .pmp p cmd).get .PMP_RESULT_READY p = 0 := by
  simp [Chip.accept, Chip.nextSeq, CmdReg.result, Chip.get_set, Fld.clip_zero]

end

end Sys2Proof.Machine
end

section
/-! PROOFS. START: its refusals, and what it leaves in the registers and the array (O18). -/

namespace Sys2Proof.Machine

/-- What START returns to its reset value. -/
def startFields : List Fld :=
  [.PMP_STOP_CAUSE_STOP, .PMP_STOP_CAUSE_MASK, .PMP_STOP_CAUSE_OVERRUN, .PMP_STOP_CAUSE_LAG, .PMP_STOP_CAUSE_HALT_CMD,
    .PMP_STOP_CAUSE_DATA_PARITY, .PMP_STOP_CAUSE_REPAIR_FAIL, .PMP_STOP_CAUSE_HOST_LOSS, .PMP_STOP_CODES_CODES, .PMP_STATUS_LAG, .PMP_STATUS_TICK_PEND,
    .PMP_STATUS_FAULT_OUT, .H_STOP_PEND, .H_STOP_CODES, .H_TICK_NO, .H_CYC_TICK, .H_ELB_FULL, .H_FETCH]

/-- What START gives a value as the ramp begins. -/
def rampFields : List Fld := [.PMP_STATUS_STATE, .H_RAMP_START, .H_RAMP_END]

/-- The registers of a pump whose START is accepted. -/
def Chip.started (c : Chip) (p : Nat) : Chip :=
  let c := (c.accept .pmp p 1).unsetAll startFields p
  ((c.set .PMP_STATUS_STATE p psRamp).set .H_RAMP_START p c.now).setDue .H_RAMP_END p (32 * Chip.us)

theorem startAccept_fst (p : Nat) (c : Chip) (a : Arr) : (startAccept p c a).1 = (c.started p).faultN := rfl

/-- START reaches nothing of the array but the elastic buffers and the taps. -/
theorem startAccept_snd (p : Nat) (c : Chip) (a : Arr) : (startAccept p c a).2 =
    { a with elIn := (startAccept p c a).2.elIn, elOut := (startAccept p c a).2.elOut, rimTaps := (startAccept p c a).2.rimTaps } := by
  unfold startAccept
  dsimp only
  split <;> rfl

section
variable (c : Chip) (p : Nat)

theorem Chip.started_only : Chip.Only rampFields ((c.accept .pmp p 1).unsetAll startFields p) (c.started p) :=
  (((Chip.Spares.refl _).set _ rfl).set _ rfl).set _ rfl

theorem Chip.started_only_accept : Chip.Only (startFields ++ rampFields) (c.accept .pmp p 1) (c.started p) :=
  Chip.Spares.trans (.unsetAll _ _ _ rfl) ((c.started_only p).widen (by decide))

theorem Chip.started_pumpState : (c.started p).pumpState p = psRamp := by
  simp [Chip.pumpState, Chip.started, Chip.setDue, Chip.get_set]
  rfl

theorem Chip.started_rampEnd : (c.started p).get .H_RAMP_END p = c.now + 32 * Chip.us + 1 := by
  have hnow : ((c.accept .pmp p 1).unsetAll startFields p).now = c.now :=
    (Chip.Spares.unsetAll (K := fun _ _ => false) startFields p (c.accept .pmp p 1) rfl).now.trans (c.accept_pmp_except p 1).now
  unfold Chip.started Chip.setDue
  rw [Chip.get_set_same, Fld.clip_of_unbounded rfl, Chip.set_now, Chip.set_now, hnow]

theorem Chip.started_pending : (c.started p).cmdPending .pmp p = true :=
  ((c.started_only_accept p).cmdPending_eq (by decide) _ _).trans (c.accept_pmp_pending p 1)

theorem Chip.started_cmd : (c.started p).get .CQ_CMD (CmdReg.pmp.idx p) = 1 :=
  ((c.started_only_accept p).get _ rfl (by decide)).trans (c.accept_cmd 1 .pmp p)

theorem Chip.started_ready : (c.started p).get .PMP_RESULT_READY p = 0 :=
  ((c.started_only_accept p).get _ rfl (by decide)).trans (c.accept_pmp_ready p 1)

theorem Chip.started_resp : (c.started p).resp = c.resp := by
  simp [Chip.started, Chip.setDue, Chip.unsetAll_resp, Chip.accept, Chip.nextSeq, Chip.bump]

theorem Chip.started_cleared {f : Fld} (hf : f ∈ startFields) : (c.started p).get f p = 0 := by
  obtain ⟨hsignal, hramp, hreset⟩ : f.signal = false ∧ f ∉ rampFields ∧ f.reset = 0 := by
    revert f
    decide
  rw [(c.started_only p).get p hsignal hramp, Chip.get_unsetAll, if_pos ⟨hf, rfl⟩, hreset, Fld.clip_zero]

end

/-- START of a halted pump that nothing refuses. -/
theorem pumpStart_accepted {c : Chip} {p : Nat} (h : c.startRefusal p = 0) (a : Arr) : pumpStart p c a = startAccept p c a := by
  unfold pumpStart
  split
  next => rfl
  next h0 => exact absurd h h0

theorem pumpStart_refused {c : Chip} {p : Nat} (h : c.startRefusal p ≠ 0) (a : Arr) :
    pumpStart p c a = (c.refuse .pmp p 1 (c.startRefusal p), a) := by
  unfold pumpStart
  split
  next h0 => exact absurd h0 h
  next => rfl

theorem Chip.startRefusal_lt (c : Chip) (p : Nat) : c.startRefusal p < 256 := by
  unfold Chip.startRefusal
  dsimp only
  split_ifs <;> decide

/-- Settles O18: the code of the statement is the model's refusal code; START is its accepted chain of writes or one refusal. -/
theorem startEntersRampOrIsRefused : Obligations.StartEntersRampOrIsRefused := by
  intro who p s₀ s hmay hpower hfree st code
  let c : Chip := s.chip.answer .ok
  have hcode : c.startRefusal p = code := rfl
  have hcmd := pmpCmd_start (c := c) hfree 0 (!initHost who) s.arr
  refine ⟨fun hzero => ?accepted, fun hnonzero => ?refused⟩
  case accepted =>
    have hstart : pmpCmd p 1 0 (!initHost who) c s.arr = ((c.started p).faultN, (startAccept p c s.arr).2) := by
      rw [hcmd, pumpStart_accepted (hcode.trans hzero), ← startAccept_fst]
    have kept : Chip.Only [] (c.started p) (c.started p).faultN.faultN := (Chip.faultN_only [] _).trans (Chip.faultN_only [] _)
    refine does_of_pmpCmd rfl hmay (.inl hpower) hstart ⟨?_, ?_, ?_, ?_, ?_, ?_, fun f hf => ?_, rfl, ?_, ?_, ?_⟩
    · rw [(Chip.faultN_quiet _).resp, (Chip.faultN_quiet _).resp, Chip.started_resp]
      rfl
    · exact (kept.pumpState_eq (by decide) p).trans (c.started_pumpState p)
    · exact (kept.cmdPending_eq (by decide) _ _).trans (c.started_pending p)
    · exact (kept.get _ rfl (by decide)).trans (c.started_cmd p)
    · exact (kept.get _ rfl (by decide)).trans (c.started_rampEnd p)
    · exact (kept.get _ rfl (by decide)).trans (c.started_ready p)
    · have hstartField : f.signal = false ∧ f ∈ startFields := by
        revert f
        decide
      exact (kept.get p hstartField.1 (by simp)).trans (c.started_cleared p hstartField.2)
    all_goals rw [startAccept_snd]
  case refused =>
    have hrefuse : pmpCmd p 1 0 (!initHost who) c s.arr = (c.refuse .pmp p 1 code, s.arr) := by
      rw [hcmd, pumpStart_refused (hcode ▸ hnonzero), hcode]
    have kept : Chip.Only (.CQ_SEQ :: pmpResultFields) c (c.refuse .pmp p 1 code).faultN := (c.refuse_pmp_only p 1 code).trans (Chip.faultN_only _ _)
    have result := (c.refuse_pmp_result p 1 code).keep (Chip.faultN_only [] _) (by decide)
    refine does_of_pmpCmd rfl hmay (.inl hpower) hrefuse ⟨?_, ?_, result.ready, result.outcome, result.cmd, ?_, rfl, rfl⟩
    · exact kept.pumpState_eq (by decide) p
    · exact (kept.cmdPending_eq (by decide) _ _).trans hfree
    · exact result.code.trans (Nat.mod_eq_of_lt (hcode ▸ c.startRefusal_lt p))

end Sys2Proof.Machine
end

section
/-! PROOFS. HALT during a cycle, between cycles and in RAMP (O19). -/

namespace Sys2Proof.Machine

/-- What HALT, as a stop cause, gives a value. -/
def haltFields : List Fld :=
  [.PMP_STATUS_STATE, .PMP_STOP_CAUSE_STOP, .PMP_STOP_CAUSE_HALT_CMD, .PMP_STOP_CYCLE_CYCLE, .PMP_SLEN_STEP_NOW, .H_HOLD_MARK, .H_DIV_ON, .PMP_EVENT_STOPPED]

/-- The registers of a pump that HALT has stopped, before its event. -/
def Chip.haltRecorded (c : Chip) (p : Nat) : Chip :=
  let c := (c.set .PMP_STATUS_STATE p psHalt).set .PMP_STOP_CAUSE_STOP p (Nat.lor (c.get .PMP_STOP_CAUSE_STOP p) (bit (2 ^ 5) 0))
  let c := c.set .PMP_STOP_CAUSE_HALT_CMD p 1
  (((c.set .PMP_STOP_CYCLE_CYCLE p (c.lastCycle p)).set .PMP_SLEN_STEP_NOW p 0).clearMarks p).set .H_DIV_ON p 0

/-- Of the stop causes HALT records one. -/
theorem Chip.enterHalt_command (c : Chip) (p : Nat) : c.enterHalt p (2 ^ 5) = (c.haltRecorded p).pumpEvent .PMP_EVENT_STOPPED 1 p := rfl

/-- What a HALT that stops the pump leaves in its registers (R412, R413). -/
structure Chip.HaltedByCommand (c d : Chip) (p : Nat) : Prop where
  state : d.pumpState p = psHalt
  cause : d.get .PMP_STOP_CAUSE_HALT_CMD p = 1
  cycle : d.get .PMP_STOP_CYCLE_CYCLE p = c.lastCycle p
  stopped : d.get .PMP_EVENT_STOPPED p = 1

section
variable (c : Chip) (p : Nat)

theorem Chip.lastCycle_lt : c.lastCycle p < 2 ^ 64 := Nat.mod_lt _ (by decide)

theorem Chip.haltRecorded_only : Chip.Only haltFields c (c.haltRecorded p) :=
  (Chip.Spares.trans (((((Chip.Spares.refl c).set _ rfl).set _ rfl).set _ rfl).set _ rfl |>.set _ rfl) (.clearWhere _ fun _ => rfl)).set _ rfl

theorem Chip.enterHalt_command_only : Chip.Only haltFields c (c.enterHalt p (2 ^ 5)) := by
  rw [Chip.enterHalt_command]
  exact (c.haltRecorded_only p).trans (Chip.pumpEvent_only _ _ _ (by decide))

theorem Chip.enterHalt_halted : c.HaltedByCommand (c.enterHalt p (2 ^ 5)) p := by
  have event : Chip.Only [.PMP_EVENT_STOPPED] (c.haltRecorded p) (c.enterHalt p (2 ^ 5)) := Chip.pumpEvent_only _ _ _ (by decide)
  refine ⟨(event.pumpState_eq (by decide) p).trans ?_, (event.get p rfl (by decide)).trans ?_, (event.get p rfl (by decide)).trans ?_,
    Chip.pumpEvent_get_same _ _ _ rfl⟩
  · simp [Chip.pumpState, Chip.haltRecorded, Chip.clearMarks, Chip.get_set, Chip.get_clearWhere]
    rfl
  · simp [Chip.haltRecorded, Chip.clearMarks, Chip.get_set, Chip.get_clearWhere]
    rfl
  · have hcycle : Fld.PMP_STOP_CYCLE_CYCLE.clip (c.lastCycle p) = c.lastCycle p := Fld.clip_lt (c.lastCycle_lt p)
    simpa [Chip.haltRecorded, Chip.clearMarks, Chip.lastCycle, Chip.get_set, Chip.get_clearWhere] using hcycle

end

/-- What HALT left stands while those registers are left alone. -/
theorem Chip.HaltedByCommand.keep {c d e : Chip} {p : Nat} (h : c.HaltedByCommand d p) {W : List Fld} (k : Chip.Only W d e)
    (hW : ∀ f ∈ [Fld.PMP_STATUS_STATE, .PMP_STOP_CAUSE_HALT_CMD, .PMP_STOP_CYCLE_CYCLE, .PMP_EVENT_STOPPED], f ∉ W) : c.HaltedByCommand e p where
  state := (k.get p rfl (hW _ (by decide))).trans h.state
  cause := (k.get p rfl (hW _ (by decide))).trans h.cause
  cycle := (k.get p rfl (hW _ (by decide))).trans h.cycle
  stopped := (k.get p rfl (hW _ (by decide))).trans h.stopped

section
variable {c : Chip} {p : Nat}

/-- HALT during a cycle waits for its end. -/
theorem Chip.pumpHalt_of_cycle (h : c.pumpState p = psRun ∨ c.pumpState p = psHold) :
    c.pumpHalt p = (c.accept .pmp p 2).set .H_STOP_PEND p (orBit ((c.accept .pmp p 2).get .H_STOP_PEND p) 5) := by
  have hstate : (c.accept .pmp p 2).pumpState p = c.pumpState p := (c.accept_pmp_only p 2).pumpState_eq (by decide) p
  unfold Chip.pumpHalt Chip.stopCause
  rcases h with h | h <;> simp [hstate, h, psEmpty, psLoading, psHalt, psRamp, psWait, psRun, psHold]

/-- HALT between cycles stops the pump at once. -/
theorem Chip.pumpHalt_of_wait (h : c.pumpState p = psWait) :
    c.pumpHalt p = ((c.accept .pmp p 2).enterHalt p (2 ^ 5)).finish .pmp p completed 0 := by
  simp [Chip.pumpHalt, h, psEmpty, psLoading, psHalt, psRamp, psWait]

/-- HALT aborts the START of a ramp. -/
theorem pmpCmd_halt_of_ramp (hpending : c.cmdPending .pmp p = true) (hstart : c.get .CQ_CMD (CmdReg.pmp.idx p) = 1) (hramp : c.pumpState p = psRamp)
    (svc : Bool) (a : Arr) : pmpCmd p 2 0 svc c a = ((c.enterHalt p (2 ^ 5)).finish .pmp p aborted 0, a) := by
  simp [pmpCmd, hpending, Chip.haltPending, hstart, hramp, Chip.stopBetween]

end

/-- Settles O19: during a cycle HALT adds its stop cause, in WAIT it stops the pump and completes, in RAMP it stops the pump and START is aborted. -/
theorem haltStopsPump : Obligations.HaltStopsPump := by
  intro who p s₀ s hmay
  let c : Chip := s.chip.answer .ok
  have quiet := Chip.faultN_only []
  refine ⟨fun hfree hcycle => ?cycle, fun hfree hwait => ?wait, fun hpending hstart hramp => ?ramp⟩
  case cycle =>
    have hcmd := pmpCmd_halt (c := c) hfree 0 (!initHost who) s.arr
    rw [Chip.pumpHalt_of_cycle (c := c) hcycle] at hcmd
    have kept (v : Nat) : Chip.Only [.H_STOP_PEND] (c.accept .pmp p 2) ((c.accept .pmp p 2).set .H_STOP_PEND p v).faultN :=
      (Chip.Only.set (.refl _) v (by decide)).trans (Chip.faultN_only _ _)
    refine does_of_pmpCmd rfl hmay (.inr (by decide)) hcmd ⟨?_, ?_, ?_, rfl, rfl⟩
    · exact ((kept _).pumpState_eq (by decide) p).trans ((c.accept_pmp_only p 2).pumpState_eq (by decide) p)
    · exact ((kept _).cmdPending_eq (by decide) _ _).trans (c.accept_pmp_pending p 2)
    · rw [(quiet _).get p rfl (by decide), Chip.get_set_same]
      exact bitB_orBit_clip (by decide) _
  case wait =>
    have hcmd := pmpCmd_halt (c := c) hfree 0 (!initHost who) s.arr
    rw [Chip.pumpHalt_of_wait (c := c) hwait] at hcmd
    have accepted := c.accept_pmp_only p 2
    have halts := (c.accept .pmp p 2).enterHalt_command_only p
    have hpending := (halts.cmdPending_eq (by decide) .pmp p).trans (c.accept_pmp_pending p 2)
    have result := (Chip.finish_pmp_result _ p completed 0 hpending).keep (quiet _) (by decide)
    have halted := (((c.accept .pmp p 2).enterHalt_halted p).keep (Chip.finish_pmp_only _ p completed 0) (by decide)).keep (quiet _) (by decide)
    refine does_of_pmpCmd rfl hmay (.inr (by decide)) hcmd
      ⟨halted.state, ?_, halted.cause, halted.cycle.trans ?_, result.ready, result.outcome, result.cmd.trans ?_, halted.stopped, rfl, rfl⟩
    · exact ((quiet _).cmdPending_eq (by decide) _ _).trans (Chip.finish_pmp_pending _ _ _ _)
    · unfold Chip.lastCycle
      rw [accepted.get p rfl (by decide)]
      rfl
    · rw [halts.get _ rfl (by decide), Chip.accept_cmd]
  case ramp =>
    have hcmd := pmpCmd_halt_of_ramp (c := c) hpending hstart hramp (!initHost who) s.arr
    have halts := c.enterHalt_command_only p
    have result := (Chip.finish_pmp_result _ p aborted 0 ((halts.cmdPending_eq (by decide) .pmp p).trans hpending)).keep (quiet _) (by decide)
    have halted := ((c.enterHalt_halted p).keep (Chip.finish_pmp_only _ p aborted 0) (by decide)).keep (quiet _) (by decide)
    refine does_of_pmpCmd rfl hmay (.inr (by decide)) hcmd ⟨halted.state, ?_, result.outcome, result.cmd.trans ?_, rfl, rfl⟩
    · exact ((quiet _).cmdPending_eq (by decide) _ _).trans (Chip.finish_pmp_pending _ _ _ _)
    · rw [(halts.get _ rfl (by decide)).trans hstart]

end Sys2Proof.Machine
end

section
/-! PROOFS. SETRATE: its pending change of the step rate, the refusal of a further one, and the ways the change ends (O22). -/

namespace Sys2Proof.Machine

/-! The write of SETRATE -/

/-- The fields in which a change of the step rate stands. -/
def rateFields : List Fld := [.PMP_RATE_CHANGING, .H_RATE_PART, .H_RATE_NEW, .H_RATE_DUE]

/-- The registers once a SETRATE through partition `p` is accepted. -/
def Chip.rateRequested (c : Chip) (p rate : Nat) : Chip :=
  ((((c.accept .pmp p 5).set .PMP_RATE_CHANGING 0 1).set .H_RATE_PART 0 p).set .H_RATE_NEW 0 rate).setDue .H_RATE_DUE 0 (200 * Chip.us)

section
variable {c : Chip} {p : Nat}

/-- SETRATE of the service complex with every pump at rest. -/
theorem Chip.pumpSetRate_accepted (hrate : c.on .PMP_RATE_CHANGING 0 = false) (hrest : ∀ q, q < 16 → c.pumpState q = psEmpty ∨ c.pumpState q = psHalt) (rate : Nat) :
    c.pumpSetRate p rate true = (c.rateRequested p rate).toRail (.voltage 0 (vddC rate)) := by
  have hany : (List.range 16).any (fun q => c.pumpState q ≠ psEmpty && c.pumpState q ≠ psHalt) = false := by
    rw [List.any_eq_false]
    intro q hq
    rcases hrest q (List.mem_range.1 hq) with h | h <;> simp [h]
  unfold Chip.pumpSetRate
  rw [hrate, hany]
  rfl

/-- SETRATE of the service complex during a change of the rate. -/
theorem Chip.pumpSetRate_refused (hrate : c.on .PMP_RATE_CHANGING 0 = true) (rate : Nat) : c.pumpSetRate p rate true = c.refuse .pmp p 5 4 := by
  simp [Chip.pumpSetRate, hrate]

/-- A SETRATE of the service complex reaches the rate whether its register is free or holds a SETRATE (log 151). -/
theorem pmpCmd_setrate (h : c.cmdPending .pmp p = false ∨ c.get .CQ_CMD (CmdReg.pmp.idx p) = 5) (count : Nat) (a : Arr) :
    pmpCmd p 5 count true c a = (c.pumpSetRate p (count % 2) true, a) := by
  unfold pmpCmd
  split
  next hpending => rw [if_neg (by decide), if_pos ⟨rfl, rfl, h.resolve_left (by simp [hpending])⟩]
  next => rfl

end

section
variable (c : Chip) (p rate : Nat)

theorem Chip.rateRequested_only : Chip.Only rateFields (c.accept .pmp p 5) (c.rateRequested p rate) :=
  ((((Chip.Spares.refl _).set _ rfl).set _ rfl).set _ rfl).set _ rfl

theorem Chip.rateRequested_changing : (c.rateRequested p rate).get .PMP_RATE_CHANGING 0 = 1 := by
  simp [Chip.rateRequested, Chip.setDue, Chip.get_set]
  rfl

theorem Chip.rateRequested_part : (c.rateRequested p rate).get .H_RATE_PART 0 = p % 16 := by
  simp [Chip.rateRequested, Chip.setDue, Chip.get_set]
  rfl

theorem Chip.rateRequested_new : (c.rateRequested p rate).get .H_RATE_NEW 0 = rate % 2 := by
  simp [Chip.rateRequested, Chip.setDue, Chip.get_set]
  rfl

theorem Chip.rateRequested_due : (c.rateRequested p rate).get .H_RATE_DUE 0 = c.now + 200 * Chip.us + 1 := by
  unfold Chip.rateRequested Chip.setDue
  rw [Chip.get_set_same, Fld.clip_of_unbounded rfl, Chip.set_now, Chip.set_now, Chip.set_now, (c.accept_pmp_only p 5).now]

end

/-! The end of the change -/

/-- The registers of a module whose new step rate runs. -/
def Chip.rateChanged (c : Chip) : Chip :=
  let c := ((c.set .PMP_RATE_CHANGING 0 0).set .PMP_RATE_ECON 0 (c.get .H_RATE_NEW 0)).set .H_RATE_DUE 0 0
  c.set .PWR_AVS_VDD_C 0 (vddC (c.get .PMP_RATE_ECON 0))

/-- Every partition block shows that the rate has changed. -/
def Chip.rateEvents (c : Chip) : Chip := (List.range 16).foldl (fun c q => c.pumpEvent .PMP_EVENT_RATE 4 q) c

theorem Chip.rateEvents_only (c : Chip) : Chip.Only [.PMP_EVENT_RATE] c c.rateEvents :=
  Chip.Spares.fold _ _ c fun q _ d => Chip.pumpEvent_only d 4 q (by decide)

theorem Chip.rateEvents_get (c : Chip) {q : Nat} (hq : q < 16) : c.rateEvents.get .PMP_EVENT_RATE q = 1 := by
  have event (d : Chip) (k : Nat) : (d.pumpEvent .PMP_EVENT_RATE 4 k).get .PMP_EVENT_RATE q = if q = k then 1 else d.get .PMP_EVENT_RATE q := by
    rw [(d.pumpEvent_quiet _ _ _).get _ _ rfl, Chip.get_set]
    simp only [true_and]
    rfl
  refine foldl_reaches (J := fun _ : Chip => True) (Q := fun d : Chip => d.get .PMP_EVENT_RATE q = 1) _ q (fun _ _ _ => trivial)
    (fun d k hd => ?_) (fun d _ => ?_) (List.range 16) (List.mem_range.2 hq) c trivial
  · rw [event, hd, ite_self]
  · rw [event, if_pos rfl]

/-- The registers of a module whose request for a voltage has failed. -/
def Chip.rateAbandoned (c : Chip) : Chip :=
  (((c.set .PMP_RATE_CHANGING 0 0).set .H_RATE_DUE 0 0).toRail (.voltage 0 (c.get .PWR_AVS_VDD_C 0))).avsFail

section
variable (c : Chip)

theorem Chip.toRail_only (W : List Fld) (x : RailCmd) : Chip.Only W c (c.toRail x) := ⟨fun _ _ _ => rfl, rfl, rfl, rfl⟩

theorem Chip.rateChanged_only : Chip.Only [.PMP_RATE_CHANGING, .PMP_RATE_ECON, .H_RATE_DUE, .PWR_AVS_VDD_C] c c.rateChanged :=
  ((((Chip.Spares.refl _).set _ rfl).set _ rfl).set _ rfl).set _ rfl

theorem Chip.rateChanged_changing : c.rateChanged.get .PMP_RATE_CHANGING 0 = 0 := by
  simp [Chip.rateChanged, Chip.get_set, Fld.clip_zero]

theorem Chip.rateChanged_econ : c.rateChanged.get .PMP_RATE_ECON 0 = c.get .H_RATE_NEW 0 % 2 := by
  simp [Chip.rateChanged, Chip.get_set]
  rfl

theorem Chip.avsFail_only : Chip.Only [.PWR_AVS_FAIL] c c.avsFail :=
  (Chip.Only.set (.refl c) 1 (by decide)).trans (Chip.Only.of_quiet (Chip.raise_quiet _ 248))

theorem Chip.avsFail_get : c.avsFail.get .PWR_AVS_FAIL 0 = 1 := by
  unfold Chip.avsFail
  rw [Chip.raise_get _ _ _ _ rfl, Chip.get_set_same]
  rfl

theorem Chip.rateAbandoned_only : Chip.Only [.PMP_RATE_CHANGING, .H_RATE_DUE, .PWR_AVS_FAIL] c c.rateAbandoned :=
  ((((Chip.Spares.refl c).set _ rfl).set _ rfl).trans (Chip.toRail_only _ _ _)).trans ((Chip.avsFail_only _).widen (by decide))

theorem Chip.rateAbandoned_changing : c.rateAbandoned.get .PMP_RATE_CHANGING 0 = 0 := by
  have fallen : ((c.set .PMP_RATE_CHANGING 0 0).set .H_RATE_DUE 0 0).get .PMP_RATE_CHANGING 0 = 0 := by simp [Chip.get_set, Fld.clip_zero]
  exact ((Chip.avsFail_only _).get 0 rfl (by decide)).trans fallen

theorem Chip.rateAbandoned_fail : c.rateAbandoned.get .PWR_AVS_FAIL 0 = 1 := by
  unfold Chip.rateAbandoned
  exact Chip.avsFail_get _

end

section
variable {c : Chip} {p : Nat} (hrate : c.get .PMP_RATE_CHANGING 0 = 1) (hpart : c.get .H_RATE_PART 0 = p)
  (hcmd : c.get .CQ_CMD (CmdReg.pmp.idx p) = 5)
include hrate hpart hcmd

/-- The change completes when its time has passed. -/
theorem Chip.rateChangeComplete_eq (hdue : c.due .H_RATE_DUE 0 = true) :
    c.rateChangeComplete = (c.rateChanged.finish .pmp p completed 0).rateEvents := by
  have hcond : (c.on .PMP_RATE_CHANGING 0 && c.due .H_RATE_DUE 0) = true := by simp [Chip.on, hrate, hdue]
  have hcmd' : c.rateChanged.get .CQ_CMD (CmdReg.pmp.idx p) = 5 := (c.rateChanged_only.get _ rfl (by decide)).trans hcmd
  subst hpart
  exact (if_pos hcond).trans (congrArg Chip.rateEvents (if_pos hcmd'))

/-- The change is given up when the regulator does not answer. -/
theorem Chip.avsTimeout_eq : c.avsTimeout = c.rateAbandoned.finish .pmp p aborted 0 := by
  have hcond : c.on .PMP_RATE_CHANGING 0 = true := by simp [Chip.on, hrate]
  have hcmd' : c.rateAbandoned.get .CQ_CMD (CmdReg.pmp.idx p) = 5 := (c.rateAbandoned_only.get _ rfl (by decide)).trans hcmd
  subst hpart
  exact (if_pos hcond).trans (if_pos hcmd')

end

/-- Settles O22: the accepted SETRATE, its completion, the refusal of a further one, and its failure at the regulator, each from its equation. -/
theorem rateChanges : Obligations.RateChanges := by
  intro who p econ s₀ s
  let c : Chip := s.chip.answer .ok
  have hbit : b2n econ % 2 = b2n econ := by cases econ <;> rfl
  have quiet := Chip.faultN_only []
  refine ⟨fun hmay hsvc hfree hrate hrest => ?accepted, fun hrate hdue hpart hnew hpending hcmd => ?complete,
    fun hmay hsvc hrate hfree => ?refused, fun hrate hpart hpending hcmd => ?timeout⟩
  case accepted =>
    have hwrite : pmpCmd p 5 (b2n econ) (!initHost who) c s.arr = ((c.rateRequested p (b2n econ)).toRail (.voltage 0 (vddC (b2n econ))), s.arr) := by
      rw [hsvc, Bool.not_false, pmpCmd_setrate (c := c) (.inl hfree), hbit, Chip.pumpSetRate_accepted (c := c) hrate hrest]
    have kept (x : RailCmd) : Chip.Only [] (c.rateRequested p (b2n econ)) ((c.rateRequested p (b2n econ)).toRail x).faultN :=
      (Chip.toRail_only _ _ x).trans (quiet _)
    have requested := c.rateRequested_only p (b2n econ)
    refine does_of_pmpCmd rfl hmay (.inr (by decide)) hwrite ⟨?_, ?_, ?_, ?_, ?_, ?_, rfl, rfl⟩
    · exact ((kept _).cmdPending_eq (by decide) _ _).trans ((requested.cmdPending_eq (by decide) _ _).trans (c.accept_pmp_pending p 5))
    · exact ((kept _).get _ rfl (by decide)).trans (c.rateRequested_changing p _)
    · exact ((kept _).get _ rfl (by decide)).trans ((requested.get _ rfl (by decide)).trans ((c.accept_pmp_only p 5).get _ rfl (by decide)))
    · exact ((kept _).get _ rfl (by decide)).trans ((c.rateRequested_new p _).trans hbit)
    · exact ((kept _).get _ rfl (by decide)).trans ((c.rateRequested_part p _).trans (Nat.mod_eq_of_lt p.isLt))
    · exact ((kept _).get _ rfl (by decide)).trans (c.rateRequested_due p _)
  case complete =>
    refine does_of_onChip (f := Chip.rateChangeComplete) rfl (Chip.rateChangeComplete_eq hrate hpart hcmd hdue) ?_
    have changed := s.chip.rateChanged_only
    have finished := Chip.finish_pmp_only s.chip.rateChanged p completed 0
    have events := Chip.rateEvents_only (s.chip.rateChanged.finish .pmp p completed 0)
    have result := (Chip.finish_pmp_result s.chip.rateChanged p completed 0 ((changed.cmdPending_eq (by decide) _ _).trans hpending)).keep events (by decide)
    refine ⟨?_, ?_, fun q hq => Chip.rateEvents_get _ hq, ?_, result.ready, result.outcome, rfl, rfl⟩
    · exact (events.get 0 rfl (by decide)).trans ((finished.get 0 rfl (by decide)).trans s.chip.rateChanged_changing)
    · exact (events.get 0 rfl (by decide)).trans ((finished.get 0 rfl (by decide)).trans (s.chip.rateChanged_econ.trans (Nat.mod_eq_of_lt hnew)))
    · exact (events.cmdPending_eq (by decide) _ _).trans (Chip.finish_pmp_pending _ _ _ _)
  case refused =>
    have hwrite : pmpCmd p 5 (b2n econ) (!initHost who) c s.arr = (c.refuse .pmp p 5 4, s.arr) := by
      have hon : c.on .PMP_RATE_CHANGING 0 = true := by
        show s.chip.on .PMP_RATE_CHANGING 0 = true
        simp [Chip.on, hrate]
      rw [hsvc, Bool.not_false, pmpCmd_setrate (c := c) hfree, Chip.pumpSetRate_refused hon]
    have kept : Chip.Only (.CQ_SEQ :: pmpResultFields) c (c.refuse .pmp p 5 4).faultN := (c.refuse_pmp_only p 5 4).trans (Chip.faultN_only _ _)
    have result := (c.refuse_pmp_result p 5 4).keep (quiet _) (by decide)
    refine does_of_pmpCmd rfl hmay (.inr (by decide)) hwrite ⟨result.ready, result.outcome, result.code, ?_, ?_, ?_, ?_, rfl, rfl⟩
    · exact kept.cmdPending_eq (by decide) _ _
    · exact (kept.get _ rfl (by decide)).trans hrate
    · exact kept.get _ rfl (by decide)
    · exact kept.get _ rfl (by decide)
  case timeout =>
    refine does_of_onChip (f := Chip.avsTimeout) rfl (Chip.avsTimeout_eq hrate hpart hcmd) ?_
    have abandoned := s.chip.rateAbandoned_only
    have finished := Chip.finish_pmp_only s.chip.rateAbandoned p aborted 0
    have result := Chip.finish_pmp_result s.chip.rateAbandoned p aborted 0 ((abandoned.cmdPending_eq (by decide) _ _).trans hpending)
    dsimp only
    refine ⟨?_, ?_, ?_, Chip.finish_pmp_pending _ _ _ _, result.ready, result.outcome, rfl, rfl⟩
    · exact (finished.get 0 rfl (by decide)).trans s.chip.rateAbandoned_changing
    · exact (finished.get 0 rfl (by decide)).trans (abandoned.get 0 rfl (by decide))
    · exact (finished.get 0 rfl (by decide)).trans s.chip.rateAbandoned_fail

end Sys2Proof.Machine
end

section
/-! PROOFS. The beginning of a cycle: what a pump and the array of its partition hold as step 0 executes (O20, O23). -/

namespace Sys2Proof.Machine

/-! Captures of the input taps -/

/-- A capture uses up free values, and changes nothing else of the registers. -/
theorem captureBit_snd (x : NatMap × Chip) (key : Nat) : (captureBit x key).2 = { x.2 with free := (captureBit x key).2.free } := by
  unfold captureBit
  dsimp only
  split <;> rfl

theorem Chip.capture_snd (c : Chip) (p : Nat) : (c.capture p).2 = { c with free := (c.capture p).2.free } := by
  have bits : ∀ (keys : List Nat) (x : NatMap × Chip), (keys.foldl captureBit x).2 = { x.2 with free := (keys.foldl captureBit x).2.free } := by
    intro keys
    induction keys with
    | nil => exact fun _ => rfl
    | cons key keys ih =>
      intro x
      rw [List.foldl_cons, ih, captureBit_snd]
  exact bits _ ([], c)

theorem Chip.capture_get (c : Chip) (p : Nat) (f : Fld) (i : Nat) : (c.capture p).2.get f i = c.get f i := by
  rw [Chip.capture_snd]
  rfl

theorem Chip.capture_only (W : List Fld) (c : Chip) (p : Nat) : Chip.Only W c (c.capture p).2 := by
  rw [Chip.capture_snd]
  exact ⟨fun _ _ _ => rfl, rfl, rfl, rfl⟩

/-- Bits loaded one after another: those of `l` that are not 0 stand, elsewhere the table is as it was. -/
theorem find_orLoads {l : NatMap} (hl : l.Pairwise fun x y => x.1 < y.1) (m : NatMap) (k : Nat) :
    NatMap.find 0 (orLoads m l) k = if NatMap.find 0 l k = 0 then NatMap.find 0 m k else 1 := by
  induction l generalizing m with
  | nil => rfl
  | cons e l ih =>
    obtain ⟨x, v⟩ := e
    obtain ⟨hfirst, hl⟩ := List.pairwise_cons.1 hl
    have hload : NatMap.find 0 (if v = 0 then m else NatMap.put 0 m x 1) k = if k = x ∧ v ≠ 0 then 1 else NatMap.find 0 m k := by
      by_cases hv : v = 0 <;> simp [hv, NatMap.find_put]
    have hcons : orLoads m ((x, v) :: l) = orLoads (if v = 0 then m else NatMap.put 0 m x 1) l := rfl
    rw [hcons, ih hl, hload, NatMap.find]
    by_cases hk : x = k
    · subst hk
      have hnone : NatMap.find 0 l x = 0 := NatMap.find_of_not_listed 0 fun e he => (hfirst e he).ne'
      by_cases hv : v = 0 <;> simp [hnone, hv]
    · simp [hk, Ne.symm hk]

/-! The registers and the array as a cycle begins -/

/-- The registers of the last cycle that a new one clears. -/
def Chip.cycleCleared (c : Chip) (p : Nat) : Chip := ((c.set .H_TRIG p 0).set .H_CYC_HELD p 0).set .PMP_SLEN_STEP_NOW p 0

/-- The capture that a new cycle takes, and what is left once it is taken (R231, R234). -/
def cycleInputs (p : Nat) (c : Chip) (a : Arr) : NatMap × Chip × Arr :=
  if c.elastic p then ((elPop p a.elIn).1, c.bump .H_CYC_TICK p, { a with elIn := (elPop p a.elIn).2 })
  else ((c.capture p).1, (c.capture p).2, a)

/-- The captures as the new cycle has them: its own is current, the current one previous. -/
def capturesTaken (p : Nat) (x : NatMap × Chip × Arr) : Arr :=
  let mine := fun (e : Nat × Nat) => x.2.1.tileOwner (e.1 / 256) = some p
  { x.2.2 with
    capPrev := orLoads (x.2.2.capPrev.filter fun e => !mine e) (x.2.2.capCur.filter mine)
    capCur := orLoads (x.2.2.capCur.filter fun e => !mine e) x.1 }

/-- The hold of step 0 for a repair that was found in WAIT (R404). -/
def Chip.repairMarked (c : Chip) (p : Nat) : Chip :=
  if c.reps.any fun r => r.part = p && r.inWait then c.set .H_HOLD_MARK (p * 4096) (orBit (c.holdMark p 0) 5) else c

/-- The parts of the beginning of a cycle, in their order. -/
theorem beginCycle_parts (p at' : Nat) (c : Chip) (a : Arr) : beginCycle p at' c a =
    (enterStep ((cycleInputs p (c.cycleCleared p) a).2.1.repairMarked p) (capturesTaken p (cycleInputs p (c.cycleCleared p) a)) p at',
      loadReturns p ((cycleInputs p (c.cycleCleared p) a).2.1.repairMarked p) (capturesTaken p (cycleInputs p (c.cycleCleared p) a))) := rfl

/-- The registers with the capture of the new cycle taken from the taps. -/
def Chip.cycleCaptured (c : Chip) (p : Nat) : Chip := ((c.cycleCleared p).capture p).2

theorem Chip.repairMarked_of_none {c : Chip} (h : c.reps = []) (p : Nat) : c.repairMarked p = c := by
  simp [Chip.repairMarked, h]

/-- What the registers and the array of partition `p` hold as step 0 of a new cycle executes, `c` and `a` before. -/
structure CycleBegun (p : Nat) (c : Chip) (a : Arr) (d : Chip) (e : Arr) : Prop where
  run : d.pumpState p = psRun
  step : d.stepNow p = 0
  accs : e.accs = (loadReturns p c a).accs
  rdata : e.rdata = (loadReturns p c a).rdata
  capPrev : ∀ k, c.tileOwner (k / 256) = some p → a.capCur.sorted = true → NatMap.find 0 a.capCur k < 2 →
    NatMap.find 0 e.capPrev k = NatMap.find 0 a.capCur k
  rest : { e with accs := a.accs, rdata := a.rdata, capPrev := a.capPrev, capCur := a.capCur } = a

/-- A cycle has begun while its step and state are left alone. -/
theorem CycleBegun.keep {p : Nat} {c d d' : Chip} {a e : Arr} (h : CycleBegun p c a d e) {W : List Fld} (k : Chip.Only W d d')
    (hstate : Fld.PMP_STATUS_STATE ∉ W) (hstep : Fld.PMP_SLEN_STEP_NOW ∉ W) : CycleBegun p c a d' e :=
  { h with run := (k.pumpState_eq hstate p).trans h.run, step := (k.get p rfl hstep).trans h.step }

theorem loadReturns_parts (p : Nat) (c : Chip) (a : Arr) :
    loadReturns p c a = { a with rdata := (loadReturns p c a).rdata, accs := (loadReturns p c a).accs } := rfl

/-- The returns of a partition depend on the owners of the tiles alone. -/
theorem Chip.Spares.loadReturns_eq {c d : Chip} (h : Chip.Spares Fld.owning c d) (p : Nat) (a : Arr) : loadReturns p d a = loadReturns p c a := by
  unfold loadReturns Chip.accOf
  simp only [h.tileOwner_eq]

section
variable {W : List Fld} {c d : Chip} (h : Chip.Only W c d)
include h

theorem Chip.Only.mode_eq (hW : Fld.PMP_CTL_MODE ∉ W) (p : Nat) : d.mode p = c.mode p := h.get p rfl hW

theorem Chip.Only.elastic_eq (hmode : Fld.PMP_CTL_MODE ∉ W) (hovr : Fld.PMP_CTL_OVR ∉ W) (p : Nat) : d.elastic p = c.elastic p := by
  unfold Chip.elastic
  rw [h.mode_eq hmode, h.get p rfl hovr]

theorem Chip.Only.holdMark_eq (hW : Fld.H_HOLD_MARK ∉ W) (p t : Nat) : d.holdMark p t = c.holdMark p t := h.get _ rfl hW

theorem Chip.Only.owning (hW : ∀ f ∈ [Fld.PTN_CFG_ACTIVE, .PTN_CFG_FIRST, .PTN_CFG_COUNT], f ∉ W) : Chip.Spares Fld.owning c d :=
  h.mono fun f _ hf => by
    have hmem : f ∈ [Fld.PTN_CFG_ACTIVE, .PTN_CFG_FIRST, .PTN_CFG_COUNT] := by simpa [Fld.owning] using hf
    have hsignal : ∀ f ∈ [Fld.PTN_CFG_ACTIVE, .PTN_CFG_FIRST, .PTN_CFG_COUNT], f.signal = false := by decide
    exact Fld.outside_iff.2 ⟨hsignal f hmem, hW f hmem⟩

end

theorem Chip.elastic_of_not_paced {c : Chip} {p : Nat} (h : c.mode p ≠ modePaced) : c.elastic p = false := by
  simp [Chip.elastic, h]

/-- What the beginning of a cycle writes in the registers. -/
def cycleFields : List Fld := [.H_TRIG, .H_CYC_HELD, .PMP_SLEN_STEP_NOW]

section
variable (c : Chip) (p : Nat)

theorem Chip.cycleCleared_only : Chip.Only cycleFields c (c.cycleCleared p) := (((Chip.Spares.refl c).set _ rfl).set _ rfl).set _ rfl

theorem Chip.cycleCaptured_only : Chip.Only cycleFields c (c.cycleCaptured p) := (c.cycleCleared_only p).trans (Chip.capture_only _ _ p)

theorem Chip.cycleCaptured_stepNow : (c.cycleCaptured p).stepNow p = 0 :=
  (Chip.capture_get _ _ _ _).trans ((Chip.get_set_same _ _ _ _).trans (Fld.clip_zero _))

theorem Chip.cycleCaptured_reps : (c.cycleCaptured p).reps = c.reps := by
  unfold Chip.cycleCaptured
  rw [Chip.capture_snd]
  rfl

end

/-- Without elastic buffers a cycle takes its capture from the taps. -/
theorem cycleInputs_of_taps {c : Chip} {p : Nat} (h : c.elastic p = false) (a : Arr) :
    cycleInputs p (c.cycleCleared p) a = (((c.cycleCleared p).capture p).1, c.cycleCaptured p, a) := by
  have helastic : (c.cycleCleared p).elastic p = false := ((c.cycleCleared_only p).elastic_eq (by decide) (by decide) p).trans h
  exact if_neg (by simp [helastic])

section
variable {c : Chip} {p : Nat} (helastic : c.elastic p = false) (hmark : c.holdMark p 0 = 0) (hreps : c.reps = [])
include helastic hmark hreps

/-- A cycle that nothing holds, without elastic buffers. -/
theorem beginCycle_eq (at' : Nat) (a : Arr) : beginCycle p at' c a =
    ((c.cycleCaptured p).set .PMP_STATUS_STATE p psRun,
      loadReturns p (c.cycleCaptured p) (capturesTaken p (((c.cycleCleared p).capture p).1, c.cycleCaptured p, a))) := by
  have hfree : (c.cycleCaptured p).holdMark p ((c.cycleCaptured p).stepNow p) = 0 := by
    rw [c.cycleCaptured_stepNow, (c.cycleCaptured_only p).holdMark_eq (by decide), hmark]
  have henter (e : Arr) : enterStep (c.cycleCaptured p) e p at' = (c.cycleCaptured p).set .PMP_STATUS_STATE p psRun := if_pos (.inl hfree)
  rw [beginCycle_parts, cycleInputs_of_taps helastic]
  dsimp only
  rw [Chip.repairMarked_of_none ((c.cycleCaptured_reps p).trans hreps), henter]

theorem beginCycle_only (at' : Nat) (a : Arr) : Chip.Only (.PMP_STATUS_STATE :: cycleFields) c (beginCycle p at' c a).1 := by
  rw [beginCycle_eq helastic hmark hreps]
  exact Chip.Only.set ((c.cycleCaptured_only p).widen (by decide)) _ (by decide)

theorem beginCycle_begun {c₀ : Chip} (owners : Chip.Spares Fld.owning c₀ c) (at' : Nat) (a : Arr) :
    CycleBegun p c₀ a (beginCycle p at' c a).1 (beginCycle p at' c a).2 := by
  have owners' := owners.trans ((c.cycleCaptured_only p).owning (by decide))
  rw [beginCycle_eq helastic hmark hreps, owners'.loadReturns_eq]
  refine ⟨?_, ?_, rfl, rfl, fun k hk hsorted hbit => ?_, ?_⟩
  · exact Chip.get_set_same _ _ _ _
  · exact (Chip.get_set_ne _ _ (by simp)).trans (c.cycleCaptured_stepNow p)
  · have howner : (c.cycleCaptured p).tileOwner (k / 256) = some p := (owners'.tileOwner_eq _).trans hk
    let mine := fun (i : Nat) => decide ((c.cycleCaptured p).tileOwner (i / 256) = some p)
    have hmine : mine k = true := decide_eq_true howner
    show NatMap.find 0 (orLoads (a.capPrev.filter fun e => !mine e.1) (a.capCur.filter fun e => mine e.1)) k = _
    rw [find_orLoads ((NatMap.sorted_pairwise hsorted).filter _), NatMap.find_filter 0 (fun i => !mine i), NatMap.find_filter 0 mine, hmine]
    simp only [Bool.not_true, Bool.false_eq_true, if_false, if_true]
    split <;> omega
  · rw [loadReturns_parts]
    rfl

end

end Sys2Proof.Machine
end

section
/-! PROOFS. STEP, ticks and the edges that give them (O20). -/

namespace Sys2Proof.Machine

/-! Fields kept but for listed places -/

namespace Keeps

variable {c d e : Chip} {ws : List (Fld × Nat)}

theorem refl (c : Chip) (ws : List (Fld × Nat)) : Keeps c c ws := fun _ _ _ _ => rfl

theorem quiet (h : Keeps c d ws) (k : Chip.Quiet d e) : Keeps c e ws := fun g j hs hm => (k.get g j hs).trans (h g j hs hm)

theorem set {f : Fld} {i : Nat} (h : Keeps c d ws) (v : Nat) (hm : (f, i) ∈ ws) : Keeps c (d.set f i v) ws := fun g j hs hg => by
  rw [Chip.get_set_ne _ _ (by rintro ⟨rfl, rfl⟩; exact hg hm)]
  exact h g j hs hg

theorem pumpEvent {f : Fld} {p : Nat} (h : Keeps c d ws) (n : Nat) (hm : (f, p) ∈ ws) : Keeps c (d.pumpEvent f n p) ws :=
  (h.set 1 hm).quiet (d.pumpEvent_quiet f n p)

end Keeps

theorem Chip.bump_only {W : List Fld} (c : Chip) {f : Fld} (i : Nat) (hf : f ∈ W) : Chip.Only W c (c.bump f i) := Chip.Only.set (.refl c) _ hf

theorem satAdd_le (top v n : Nat) : satAdd top v n ≤ top := by
  unfold satAdd
  split <;> omega

/-- A counter of 32 bits counts up to its top. -/
theorem Chip.count_get_same (c : Chip) {f : Fld} (i n : Nat) (hw : f.width = 32) : (c.count f i n).get f i = satAdd (2 ^ 32 - 1) (c.get f i) n := by
  have htop : f.top = 2 ^ 32 - 1 := by rw [Fld.top, hw]
  have hfit := satAdd_le f.top (c.get f i) n
  unfold Chip.count
  rw [Chip.get_set_same, Fld.clip_lt (by rw [hw]; omega), htop]

/-! STEP -/

section
variable {c : Chip} {p count : Nat}

/-- The registers of a pump whose STEP is accepted. -/
def Chip.stepAccepted (c : Chip) (p count : Nat) : Chip := (c.accept .pmp p 3).set .CQ_COUNT (CmdReg.pmp.idx p) count

theorem pumpStep_accepted (hwait : c.pumpState p = psWait) (hmode : c.mode p = modeStep) (hcount : count ≠ 0) (a : Arr) :
    pumpStep p count c a = beginCycle p c.period (c.stepAccepted p count) a := by
  simp [pumpStep, hwait, hmode, hcount, Chip.stepAccepted]

theorem Chip.stepAccepted_only (c : Chip) (p count : Nat) : Chip.Only (.CQ_COUNT :: acceptFields) c (c.stepAccepted p count) :=
  Chip.Only.set ((c.accept_pmp_only p 3).widen (by decide)) count (by decide)

theorem Chip.stepAccepted_reps (c : Chip) (p count : Nat) : (c.stepAccepted p count).reps = c.reps := by
  simp [Chip.stepAccepted, Chip.accept, Chip.nextSeq, Chip.bump]

theorem Chip.stepAccepted_pending (c : Chip) (p count : Nat) : (c.stepAccepted p count).cmdPending .pmp p = true := by
  have kept : Chip.Only [.CQ_COUNT] (c.accept .pmp p 3) (c.stepAccepted p count) := Chip.Only.set (.refl _) count (by decide)
  rw [kept.cmdPending_eq (by decide), Chip.accept_pmp_pending]

theorem Chip.stepAccepted_count (c : Chip) (p count : Nat) : (c.stepAccepted p count).get .CQ_COUNT (CmdReg.pmp.idx p) = count % 2 ^ 16 :=
  Chip.get_set_same _ _ _ _

/-- A STEP of a partition that waits in STEP mode, with no hold at step 0, begins a cycle and stays pending with its count. -/
theorem pumpStep_begun (hwait : c.pumpState p = psWait) (hmode : c.mode p = modeStep) (hcount : count ≠ 0) (hmark : c.holdMark p 0 = 0)
    (hreps : c.reps = []) {c₀ : Chip} (owners : Chip.Spares Fld.owning c₀ c) (a : Arr) : CycleBegun p c₀ a (pumpStep p count c a).1 (pumpStep p count c a).2 ∧
      (pumpStep p count c a).1.cmdPending .pmp p = true ∧ (pumpStep p count c a).1.get .CQ_COUNT (CmdReg.pmp.idx p) = count % 2 ^ 16 := by
  have accepted := c.stepAccepted_only p count
  have hreps' := (c.stepAccepted_reps p count).trans hreps
  have hmark' := (Chip.Only.holdMark_eq accepted (by decide) p 0).trans hmark
  have helastic := Chip.elastic_of_not_paced (c := c.stepAccepted p count) (p := p) (by rw [Chip.Only.mode_eq accepted (by decide), hmode]; decide)
  have kept := beginCycle_only helastic hmark' hreps' c.period a
  rw [pumpStep_accepted hwait hmode hcount]
  refine ⟨beginCycle_begun helastic hmark' hreps' (owners.trans (Chip.Only.owning accepted (by decide))) _ _, ?_, ?_⟩
  · rw [Chip.Only.cmdPending_eq kept (by decide), Chip.stepAccepted_pending]
  · rw [kept.get _ rfl (by decide), Chip.stepAccepted_count]

end

/-! Ticks of the divider -/

section
variable {c : Chip} {p : Nat}

theorem dividerTick_due (h : c.divDue p = true) (a : Arr) : dividerTick p c a = tickEvent p true (c.bump .H_DIV_J p) a := if_pos h

theorem dividerTick_idle (h : c.divDue p = false) (a : Arr) : dividerTick p c a = (c, a) := if_neg (by simp [h])

/-- Where nothing is paced a tick is discarded (R101). -/
theorem tickEvent_of_not_paced (h : c.mode p ≠ modePaced) (divider : Bool) (a : Arr) : tickEvent p divider c a = (c, a) := if_pos h

/-- In WAIT a tick begins a cycle (R101). -/
theorem tickEvent_of_wait (hmode : c.mode p = modePaced) (helastic : c.elastic p = false) (hwait : c.pumpState p = psWait) (divider : Bool) (a : Arr) :
    tickEvent p divider c a = beginCycle p c.period c a := by
  simp [tickEvent, hmode, helastic, hwait]

/-- During a cycle a tick is an overrun (R103). -/
theorem tickEvent_of_cycle (hmode : c.mode p = modePaced) (hcycle : c.pumpState p = psRun ∨ c.pumpState p = psHold) (divider : Bool) (a : Arr) :
    tickEvent p divider c a = overrunTick p divider c a := by
  rcases hcycle with h | h <;> simp [tickEvent, hmode, h, psRun, psHold, psWait]

/-- The registers after an overrun that is counted. -/
def Chip.overrunCounted (c : Chip) (p : Nat) : Chip := (c.count .PMP_OVR_CNT_COUNT p 1).pumpEvent .PMP_EVENT_OVR 2 p

theorem Chip.overrunCounted_only (c : Chip) (p : Nat) : Chip.Only [.PMP_OVR_CNT_COUNT, .PMP_EVENT_OVR] c (c.overrunCounted p) :=
  (Chip.Only.set (.refl c) _ (by decide)).trans (Chip.pumpEvent_only _ 2 p (by decide))

theorem Chip.overrunCounted_count (c : Chip) (p : Nat) :
    (c.overrunCounted p).get .PMP_OVR_CNT_COUNT p = satAdd (2 ^ 32 - 1) (c.get .PMP_OVR_CNT_COUNT p) 1 := by
  have event : Chip.Only [.PMP_EVENT_OVR] (c.count .PMP_OVR_CNT_COUNT p 1) (c.overrunCounted p) := Chip.pumpEvent_only _ 2 p (by decide)
  rw [event.get p rfl (by decide), Chip.count_get_same _ _ _ rfl]

/-- The first overrun of a cycle under STRETCH stays pending, and the divider that gave it stops (R104). -/
theorem overrunTick_stretch (hovr : c.get .PMP_CTL_OVR p = ovrStretch) (hpend : c.on .PMP_STATUS_TICK_PEND p = false) (a : Arr) :
    overrunTick p true c a = (((c.overrunCounted p).set .H_DIV_ON p 0).set .PMP_STATUS_TICK_PEND p 1, a) := by
  have hovr' : (c.overrunCounted p).get .PMP_CTL_OVR p = 0 := ((c.overrunCounted_only p).get p rfl (by decide)).trans hovr
  have hpend' : (c.overrunCounted p).on .PMP_STATUS_TICK_PEND p = false := by
    unfold Chip.on at hpend ⊢
    rw [(c.overrunCounted_only p).get p rfl (by decide), hpend]
  unfold overrunTick
  dsimp only
  split
  next hone => exact absurd (hone.symm.trans hovr') (by decide)
  next htwo => exact absurd (htwo.symm.trans hovr') (by decide)
  next => exact if_neg (by simp [Chip.overrunCounted] at hpend'; simp [hpend'])

end

/-! Edges of TICK_IN -/

/-- An edge of TICK_IN gives partition `q` the tick `e` (R100). -/
def Chip.PinEdge (c : Chip) (rising : Bool) (q : Nat) (e : Nat × Nat × Nat) : Prop :=
  c.get .PMP_CTL_PSRC q = 1 ∧ rising ≠ c.on .PMP_CTL_EDGE q ∧ e = (q, 1, c.period + 4)

/-- Partition `q` samples an edge of TICK_IN where it selects it. -/
def Chip.samplePin (rising : Bool) (c : Chip) (q : Nat) : Chip :=
  if c.get .PMP_CTL_PSRC q = 1 && c.tickInEdge q rising then c.sampleEdge q 1 else c

theorem Chip.tickPin_eq (c : Chip) (rising : Bool) : c.tickPin rising = (List.range 16).foldl (Chip.samplePin rising) c := rfl

section
variable (rising : Bool) (c : Chip)

theorem Chip.samplePin_eq (q : Nat) : c.samplePin rising q = { c with edges := (c.samplePin rising q).edges } := by
  unfold Chip.samplePin Chip.sampleEdge
  dsimp only
  split
  · split <;> rfl
  · rfl

theorem Chip.mem_sampleEdge_edges (q src : Nat) (e : Nat × Nat × Nat) :
    e ∈ (c.sampleEdge q src).edges ↔ e ∈ c.edges ∨ e = (q, src, c.period + 4) := by
  unfold Chip.sampleEdge
  dsimp only
  split
  next hmem => exact ⟨.inl, fun h => h.elim id fun he => he ▸ hmem⟩
  next => simp

theorem Chip.mem_samplePin_edges (q : Nat) (e : Nat × Nat × Nat) : e ∈ (c.samplePin rising q).edges ↔ e ∈ c.edges ∨ c.PinEdge rising q e := by
  by_cases hselects : c.get .PMP_CTL_PSRC q = 1 ∧ rising ≠ c.on .PMP_CTL_EDGE q
  · have hsample : c.samplePin rising q = c.sampleEdge q 1 := if_pos (by simpa [Chip.tickInEdge] using hselects)
    rw [hsample, Chip.mem_sampleEdge_edges, Chip.PinEdge]
    simp only [hselects, ne_eq, not_false_eq_true, true_and]
  · have hsample : c.samplePin rising q = c := if_neg (by simpa [Chip.tickInEdge] using hselects)
    rw [hsample]
    exact ⟨.inl, fun h => h.elim id fun hedge => absurd ⟨hedge.1, hedge.2.1⟩ hselects⟩

/-- The edges of TICK_IN that a list of partitions samples. -/
theorem Chip.samplePins_edges (qs : List Nat) :
    qs.foldl (Chip.samplePin rising) c = { c with edges := (qs.foldl (Chip.samplePin rising) c).edges } ∧
      ∀ e, e ∈ (qs.foldl (Chip.samplePin rising) c).edges ↔ e ∈ c.edges ∨ ∃ q ∈ qs, c.PinEdge rising q e := by
  induction qs generalizing c with
  | nil => simp
  | cons q qs ih =>
    obtain ⟨hrest, hedges⟩ := ih (c.samplePin rising q)
    have hsame (r : Nat) (e : Nat × Nat × Nat) : (c.samplePin rising q).PinEdge rising r e ↔ c.PinEdge rising r e := by
      rw [Chip.samplePin_eq]
      rfl
    rw [List.foldl_cons]
    refine ⟨?_, fun e => ?_⟩
    · rw [hrest, Chip.samplePin_eq]
    · rw [hedges, Chip.mem_samplePin_edges, or_assoc]
      simp only [hsame, List.mem_cons, exists_eq_or_imp]

end

/-- An edge of TICK_IN adds the edges that the partitions sample, and changes nothing else. -/
theorem Chip.tickPin_sampled (c : Chip) (rising : Bool) : (c.tickPin rising).fld = c.fld ∧
    ∀ e, e ∈ (c.tickPin rising).edges ↔ e ∈ c.edges ∨ ∃ q, q < 16 ∧ c.PinEdge rising q e := by
  obtain ⟨hrest, hedges⟩ := c.samplePins_edges rising (List.range 16)
  rw [Chip.tickPin_eq]
  refine ⟨by rw [hrest], fun e => ?_⟩
  rw [hedges]
  simp only [List.mem_range]

/-- An edge waits for its period, and then it ticks. -/
theorem edgeTicks_of_single {p src due : Nat} {c : Chip} (h : c.edges = [(p, src, due)]) (a : Arr) :
    (c.period < due → edgeTicks p c a = (c, a)) ∧ (due ≤ c.period → edgeTicks p c a = externalTick p src { c with edges := [] } a) := by
  constructor
  · intro hlater
    have hkeep : { c with edges := [(p, src, due)] } = c := by rw [← h]
    simp [edgeTicks, h, hkeep, Nat.not_le.2 hlater]
  · intro hdue
    simp [edgeTicks, h, hdue]

/-- Settles O20: a STEP and an accepted tick begin a cycle by one and the same chain; ticks elsewhere and edges are counted, kept or dropped by their equations. -/
theorem cyclesBeginOnStepAndTick : Obligations.CyclesBeginOnStepAndTick := by
  intro who p rising code count s₀ s begun
  have begins : ∀ t : State, CycleBegun p s.chip s.arr t.chip t.arr → t.mem = s.mem → begun t := fun t h hmem =>
    ⟨h.run, h.step, hmem, h.accs, h.rdata, h.capPrev, h.rest⟩
  let b : Chip := s.chip.bump .H_DIV_J p
  have bumped : Chip.Only [.H_DIV_J] s.chip b := Chip.bump_only _ _ (by decide)
  refine ⟨fun hmay hfree hwait hmode hcount hmark hreps => ?step, fun hdue hmode helastic hwait hmark hreps => ?tick,
    fun hdue hmode hovr hcycle hpend => ?overrun, fun hdue hmode => ?unpaced, fun hdue => ?idle, ?pin, ⟨_, rfl, rfl, rfl⟩, fun c a src due h => edgeTicks_of_single h a⟩
  case step =>
    let c : Chip := s.chip.answer .ok
    have hcount' : count.toNat ≠ 0 := fun h => hcount (BitVec.eq_of_toNat_eq h)
    obtain ⟨cycle, hpending, hcnt⟩ := pumpStep_begun (c := c) hwait hmode hcount' hmark hreps (c₀ := s.chip) ⟨fun _ _ _ => rfl, rfl, rfl, rfl⟩ s.arr
    have hcmd : pmpCmd p 3 count.toNat (!initHost who) c s.arr = ((pumpStep p count.toNat c s.arr).1, (pumpStep p count.toNat c s.arr).2) :=
      pmpCmd_step (c := c) hfree count.toNat (!initHost who) s.arr
    refine does_of_pmpCmd rfl hmay (.inr (by decide)) hcmd ⟨begins _ (cycle.keep (Chip.faultN_only [] _) (by decide) (by decide)) rfl, ?_, ?_⟩
    · rw [Chip.Only.cmdPending_eq (Chip.faultN_only [] _) (by decide), hpending]
    · rw [(Chip.faultN_only [] _).get _ rfl (by decide), hcnt, Nat.mod_eq_of_lt count.isLt]
  case tick =>
    have hrun := (dividerTick_due hdue s.arr).trans (tickEvent_of_wait ((bumped.mode_eq (by decide) p).trans hmode)
      ((bumped.elastic_eq (by decide) (by decide) p).trans helastic) ((bumped.pumpState_eq (by decide) p).trans hwait) true s.arr)
    refine does_of_onArr (f := dividerTick p) rfl hrun (begins _ ?_ rfl)
    exact beginCycle_begun ((bumped.elastic_eq (by decide) (by decide) p).trans helastic) ((bumped.holdMark_eq (by decide) p 0).trans hmark) hreps
      (bumped.owning (by decide)) _ _
  case overrun =>
    have hrun := (dividerTick_due hdue s.arr).trans ((tickEvent_of_cycle (c := b) ((bumped.mode_eq (by decide) p).trans hmode)
      (by rwa [bumped.pumpState_eq (by decide)]) true s.arr).trans
      (overrunTick_stretch ((bumped.get p rfl (by decide)).trans hovr) (by rwa [Chip.on, bumped.get _ rfl (by decide)]) s.arr))
    have kept : Chip.Only [.H_DIV_ON, .PMP_STATUS_TICK_PEND] (b.overrunCounted p) _ :=
      ((Chip.Spares.refl _).set (f := .H_DIV_ON) (i := p) 0 rfl).set (f := .PMP_STATUS_TICK_PEND) (i := p) 1 rfl
    have event : (b.overrunCounted p).get .PMP_EVENT_OVR p = 1 := Chip.pumpEvent_get_same _ 2 p rfl
    refine does_of_onArr (f := dividerTick p) rfl hrun ⟨?_, ?_, ?_, ?_, ?_, rfl, rfl⟩
    · exact (kept.get p rfl (by decide)).trans ((b.overrunCounted_count p).trans (by rw [bumped.get p rfl (by decide)]))
    · exact Chip.get_set_same _ _ _ _
    · exact (kept.get p rfl (by decide)).trans event
    · exact (Chip.get_set_ne _ _ (by simp)).trans ((Chip.get_set_same _ _ _ _).trans (Fld.clip_zero _))
    · exact (((((Keeps.refl s.chip _).set _ (by simp)).set _ (by simp)).pumpEvent 2 (by simp)).set 0 (by simp)).set 1 (by simp)
  case unpaced =>
    have hrun := (dividerTick_due hdue s.arr).trans (tickEvent_of_not_paced (c := b) (by rwa [bumped.mode_eq (by decide)]) true s.arr)
    show Host.Outcome.next (s.onArr (dividerTick p)) = _
    rw [State.onArr, hrun]
  case idle =>
    show Host.Outcome.next (s.onArr (dividerTick p)) = _
    rw [State.onArr, dividerTick_idle hdue]
  case pin =>
    obtain ⟨hfld, hedges⟩ := s.chip.tickPin_sampled rising
    exact ⟨_, rfl, hfld, rfl, rfl, hedges⟩

end Sys2Proof.Machine
end

section
/-! PROOFS. The end of RAMP, its hold decisions and the fetches in WAIT (O23). -/

namespace Sys2Proof.Machine

/-! Causes of holds -/

/-- The causes of a hold stand while the registers that assert them, the partitions and the repairs are left alone. -/
theorem Chip.Only.causes_eq {W : List Fld} {c d : Chip} (h : Chip.Only W c d) (hreps : d.reps = c.reps)
    (howner : ∀ f ∈ [Fld.PTN_CFG_ACTIVE, .PTN_CFG_FIRST, .PTN_CFG_COUNT], f ∉ W)
    (hW : ∀ f ∈ [Fld.PRB_STATUS_FULL, .H_ELB_FULL, .PMP_HOLD_REQ_HOST, .PMP_HOLD_REQ_AGENT], f ∉ W) (a : Arr) (p : Nat) :
    causes d a p = causes c a p := by
  have htile : ∀ t, d.tileOwner t = c.tileOwner t := (Chip.Only.owning h howner).tileOwner_eq
  have hlate : d.memLate a p = c.memLate a p := by
    unfold Chip.memLate Chip.accOf
    simp only [htile]
  unfold causes
  rw [hlate, hreps, h.get p rfl (hW .PRB_STATUS_FULL (by decide)), h.get p rfl (hW .H_ELB_FULL (by decide)),
    h.get p rfl (hW .PMP_HOLD_REQ_HOST (by decide)), h.get p rfl (hW .PMP_HOLD_REQ_AGENT (by decide))]

/-- Note that cause `n` of `mask` is asserted in this period, if it is. -/
def Chip.noteCause (p mask : Nat) (c : Chip) (n : Nat) : Chip :=
  if bitB mask n then c.set .H_LAST_ASSERT (p * 6 + n) (c.period + 1) else c

section
variable (c : Chip) (p : Nat)

theorem sampleCauses_eq (a : Arr) : sampleCauses c a p = (List.range 6).foldl (Chip.noteCause p (causes c a p)) c := rfl

theorem sampleCauses_only (a : Arr) : Chip.Only [.H_LAST_ASSERT] c (sampleCauses c a p) := by
  rw [sampleCauses_eq]
  exact .fold _ _ _ fun _ _ d => .cond ((Chip.Spares.refl d).set _ rfl) (.refl d)

theorem Chip.noteCauses_reps (mask : Nat) (ns : List Nat) : (ns.foldl (Chip.noteCause p mask) c).reps = c.reps := by
  induction ns generalizing c with
  | nil => rfl
  | cons n ns ih =>
    rw [List.foldl_cons, ih, Chip.noteCause]
    split
    · exact Chip.set_reps _ _ _ _
    · rfl

theorem sampleCauses_causes (a : Arr) : causes (sampleCauses c a p) a p = causes c a p := by
  refine Chip.Only.causes_eq (sampleCauses_only c p a) ?_ (by decide) (by decide) a p
  rw [sampleCauses_eq, Chip.noteCauses_reps]

/-- The decision that a step takes is of the causes asserted now. -/
theorem holdDecide_holdMark (a : Arr) (t : Nat) :
    (holdDecide c a p t).holdMark p t = (if t = 0 then causes c a p else causes c a p - bit (causes c a p) 2 * 4) % 64 :=
  Chip.get_set_same _ _ _ _

theorem rampDecision_taken {c : Chip} {p j : Nat} (hramp : c.pumpState p = psRamp) (hleft : c.rampLeft p + j = 6) (hj : j < 6) (hlen : j < c.slen p)
    (a : Arr) : rampDecision p j c a = holdDecide (sampleCauses c a p) a p j := by
  have hpos : 0 < c.rampLeft p := by omega
  simp [rampDecision, hramp, hleft, hpos, hlen]

end

/-! The end of the ramp -/

/-- The registers as the ramp has ended. -/
def Chip.rampEnded (c : Chip) (p : Nat) : Chip := (c.set .H_RAMP_END p 0).set .PMP_SLEN_STEP_NOW p 0

/-- The divider of partition `p` starts now, where its mode paces it (R98, R99). -/
def Chip.dividerStarted (c : Chip) (p : Nat) : Chip :=
  if c.mode p = modePaced ∧ c.get .PMP_CTL_PSRC p = 0 then ((c.set .H_DIV_ON p 1).set .H_DIV_START p c.period).set .H_DIV_J p 0 else c

/-- The registers of a pump that enters WAIT as its ramp ends. -/
def Chip.waitEntered (c : Chip) (p : Nat) : Chip := ((c.rampEnded p).set .PMP_STATUS_STATE p psWait).dividerStarted p

/-- What the end of a ramp in WAIT writes. -/
def waitFields : List Fld := [.H_RAMP_END, .PMP_SLEN_STEP_NOW, .PMP_STATUS_STATE, .H_DIV_ON, .H_DIV_START, .H_DIV_J]

section
variable (c : Chip) (p : Nat)

theorem Chip.rampEnded_only : Chip.Only [.H_RAMP_END, .PMP_SLEN_STEP_NOW] c (c.rampEnded p) := ((Chip.Spares.refl c).set _ rfl).set _ rfl

theorem Chip.rampEnded_reps : (c.rampEnded p).reps = c.reps := by simp [Chip.rampEnded]

theorem Chip.dividerStarted_only : Chip.Only [.H_DIV_ON, .H_DIV_START, .H_DIV_J] c (c.dividerStarted p) :=
  .cond ((((Chip.Spares.refl c).set _ rfl).set _ rfl).set _ rfl) (.refl c)

theorem Chip.dividerStarted_divider (h : c.mode p = modePaced ∧ c.get .PMP_CTL_PSRC p = 0) :
    (c.dividerStarted p).get .H_DIV_ON p = 1 ∧ (c.dividerStarted p).get .H_DIV_START p = c.period := by
  rw [Chip.dividerStarted, if_pos h]
  constructor
  · rw [Chip.get_set_ne _ _ (by simp), Chip.get_set_ne _ _ (by simp), Chip.get_set_same]
    rfl
  · rw [Chip.get_set_ne _ _ (by simp), Chip.get_set_same, Fld.clip_of_unbounded rfl]

theorem Chip.waitBegun_only : Chip.Only [.H_RAMP_END, .PMP_SLEN_STEP_NOW, .PMP_STATUS_STATE] c ((c.rampEnded p).set .PMP_STATUS_STATE p psWait) :=
  Chip.Only.set ((c.rampEnded_only p).widen (by decide)) _ (by decide)

theorem Chip.waitEntered_only : Chip.Only waitFields c (c.waitEntered p) :=
  ((c.waitBegun_only p).widen (by decide)).trans ((Chip.dividerStarted_only _ p).widen (by decide))

theorem Chip.waitEntered_pumpState : (c.waitEntered p).pumpState p = psWait := by
  rw [Chip.waitEntered, Chip.Only.pumpState_eq (Chip.dividerStarted_only _ p) (by decide)]
  exact Chip.get_set_same _ _ _ _

theorem Chip.waitEntered_divider (h : c.mode p = modePaced ∧ c.get .PMP_CTL_PSRC p = 0) :
    (c.waitEntered p).get .H_DIV_ON p = 1 ∧ (c.waitEntered p).get .H_DIV_START p = c.period := by
  have kept := c.waitBegun_only p
  obtain ⟨hon, hstart⟩ := Chip.dividerStarted_divider ((c.rampEnded p).set .PMP_STATUS_STATE p psWait) p
    ⟨(Chip.Only.mode_eq kept (by decide) p).trans h.1, (kept.get p rfl (by decide)).trans h.2⟩
  exact ⟨hon, hstart⟩

end

section
variable {c : Chip} {p : Nat} (hramp : c.pumpState p = psRamp) (hdue : c.due .H_RAMP_END p = true) (hreps : c.reps = [])
include hramp hdue hreps

theorem rampComplete_of_free (hmode : c.mode p = modeFree) (a : Arr) : rampComplete p c a =
    ((beginCycle p (c.rampEnded p).period (c.rampEnded p) a).1.finish .pmp p completed 0, (beginCycle p (c.rampEnded p).period (c.rampEnded p) a).2) := by
  have hmode' : (c.rampEnded p).mode p = modeFree := (Chip.Only.mode_eq (c.rampEnded_only p) (by decide) p).trans hmode
  unfold Chip.rampEnded at hmode' ⊢
  simp [rampComplete, hramp, hdue, hreps, hmode']

/-- A ramp in FREE ends in RUN at step 0, and its START completes. -/
theorem rampComplete_begun (hmode : c.mode p = modeFree) (hmark : c.holdMark p 0 = 0) (hpend : c.cmdPending .pmp p = true) (a : Arr) :
    (rampComplete p c a).1.pumpState p = psRun ∧ (rampComplete p c a).1.stepNow p = 0 ∧ (rampComplete p c a).1.cmdPending .pmp p = false ∧
      (rampComplete p c a).1.PmpResult p (c.get .CQ_CMD (CmdReg.pmp.idx p)) completed 0 := by
  have ended := c.rampEnded_only p
  have hreps' := (c.rampEnded_reps p).trans hreps
  have hmark' := (Chip.Only.holdMark_eq ended (by decide) p 0).trans hmark
  have helastic := Chip.elastic_of_not_paced (c := c.rampEnded p) (p := p) (by rw [Chip.Only.mode_eq ended (by decide), hmode]; decide)
  have begun := beginCycle_only helastic hmark' hreps' (c.rampEnded p).period a
  have finished := Chip.finish_pmp_only (beginCycle p (c.rampEnded p).period (c.rampEnded p) a).1 p completed 0
  have cycle := (beginCycle_begun helastic hmark' hreps' (Chip.Only.owning ended (by decide)) (c.rampEnded p).period a).keep finished (by decide) (by decide)
  rw [rampComplete_of_free hramp hdue hreps hmode]
  dsimp only
  refine ⟨cycle.run, cycle.step, Chip.finish_pmp_pending _ p completed 0, ?_⟩
  rw [← ended.get _ rfl (by decide), ← begun.get _ rfl (by decide)]
  exact Chip.finish_pmp_result _ p completed 0
    ((Chip.Only.cmdPending_eq begun (by decide) .pmp p).trans ((Chip.Only.cmdPending_eq ended (by decide) .pmp p).trans hpend))

theorem rampComplete_of_other (hmode : c.mode p ≠ modeFree) (a : Arr) : rampComplete p c a = ((c.waitEntered p).finish .pmp p completed 0, a) := by
  have hmode' : (c.rampEnded p).mode p ≠ modeFree := (Chip.Only.mode_eq (c.rampEnded_only p) (by decide) p).trans_ne hmode
  unfold Chip.waitEntered Chip.dividerStarted
  unfold Chip.rampEnded at hmode' ⊢
  simp [rampComplete, hramp, hdue, hreps, hmode']

end

/-! Fetches outside RUN -/

theorem fetchWhile_of_wait {c : Chip} {p w : Nat} (hwait : c.pumpState p = psWait) (hw : w < c.slen p) (a : Arr) :
    fetchWhile p w c a = checkStep (c.readAhead p w) p w c a := if_pos ⟨.inr (.inl hwait), hw⟩

/-- Settles O23: the end of RAMP is the beginning of a cycle or the entry into WAIT, each followed by the result of START; decisions and fetches by their equations. -/
theorem rampRunsAndEnds : Obligations.RampRunsAndEnds := by
  intro p j w s
  refine ⟨fun hramp hdue hreps hpend => ⟨fun hmode hmark => ?free, fun hmode => ?other⟩, fun hramp hleft hlen => ?decision, fun hwait hw => ?fetch⟩
  case free =>
    obtain ⟨hrun, hstep, hpending, hresult⟩ := rampComplete_begun hramp hdue hreps hmode hmark hpend s.arr
    exact does_of_onArr (f := rampComplete p) rfl rfl ⟨hrun, hstep, hpending, hresult.outcome, hresult.ready, rfl⟩
  case other =>
    have entered := s.chip.waitEntered_only p
    have finished := Chip.finish_pmp_only (s.chip.waitEntered p) p completed 0
    have result := Chip.finish_pmp_result _ p completed 0 ((Chip.Only.cmdPending_eq entered (by decide) .pmp p).trans hpend)
    refine does_of_onArr (f := rampComplete p) rfl (rampComplete_of_other hramp hdue hreps hmode s.arr)
      ⟨?_, Chip.finish_pmp_pending _ p completed 0, result.outcome, result.ready, fun hpaced => ?_, rfl, rfl⟩
    · exact (Chip.Only.pumpState_eq finished (by decide) p).trans (s.chip.waitEntered_pumpState p)
    · obtain ⟨hon, hstart⟩ := s.chip.waitEntered_divider p hpaced
      exact ⟨(finished.get p rfl (by decide)).trans hon, (finished.get p rfl (by decide)).trans hstart⟩
  case decision =>
    refine does_of_onChip (f := fun c => rampDecision p j c s.arr) rfl (rampDecision_taken hramp hleft j.isLt hlen s.arr) ⟨?_, rfl, rfl⟩
    exact (holdDecide_holdMark _ p s.arr j).trans (by rw [sampleCauses_causes])
  case fetch =>
    show Host.Outcome.next (s.onArr (fetchWhile p w.toNat)) = _
    rw [State.onArr, fetchWhile_of_wait hwait hw]

end Sys2Proof.Machine
end

section
/-! PROOFS. The end of a hold, a hold that lasts too long, and late entries of the elastic buffers (O25). -/

namespace Sys2Proof.Machine

theorem Chip.Only.raiseTo {W : List Fld} {c d : Chip} {f : Fld} {i : Nat} (h : Chip.Only W c d) (v : Nat) (hf : f ∈ W) : Chip.Only W c (d.raiseTo f i v) :=
  .cond (h.set v hf) h

/-! The held step -/

/-- The late data of a hold that has ended reach two registers. -/
theorem lateResumed_only (p : Nat) (c : Chip) (a : Arr) : Chip.Only [.DM_LATE_MAX_PERIODS, .H_LATE_FROM] c (lateResumed p c a).1 :=
  .cond (.refl c) (Chip.Only.set (Chip.Only.raiseTo (.refl c) _ (by decide)) 0 (by decide))

theorem holdRelease_of_ready {c : Chip} {a : Arr} {p : Nat} (hhold : c.pumpState p = psHold)
    (hready : holdReady c a p (c.holdMark p (c.stepNow p)) c.period = true) : holdRelease p c a = lateResumed p (c.set .PMP_STATUS_STATE p psRun) a :=
  if_pos (by simp [hhold, hready])

theorem holdRelease_of_not_ready {c : Chip} {a : Arr} {p : Nat} (hready : holdReady c a p (c.holdMark p (c.stepNow p)) c.period = false) :
    holdRelease p c a = (c, a) := if_neg (by simp [hready])

/-! HOLD_LONG -/

theorem Chip.holdLong_of_outlasted {c : Chip} {p : Nat} (hhold : c.pumpState p = psHold) (hlimit : c.get .PMP_HOLD_LIMIT_LIMIT p ≠ 0)
    (hset : c.on .H_HOLD_LONG_SET p = false)
    (hlong : c.get .PMP_HOLD_LIMIT_LIMIT p * Chip.us < (c.period + 1 - c.get .H_HOLD_START p) * c.unitsPerPeriod) :
    c.holdLong p = (c.set .H_HOLD_LONG_SET p 1).pumpEvent .PMP_EVENT_HOLD_LONG 3 p := by
  simp [Chip.holdLong, hhold, hlimit, hset, hlong]

/-! Late entries of the output buffer -/

/-- The registers of a partition of which an output entry has been late. -/
def Chip.lateCounted (c : Chip) (p : Nat) : Chip := (c.set .ELB_EVENT_OUT_LATE p 1).count .ELB_LATE_CNT_COUNT p 1

theorem Chip.lateCounted_event (c : Chip) (p : Nat) : (c.lateCounted p).get .ELB_EVENT_OUT_LATE p = 1 :=
  (Chip.get_set_ne _ _ (by simp)).trans (Chip.get_set_same _ _ _ _)

theorem Chip.lateCounted_count (c : Chip) (p : Nat) :
    (c.lateCounted p).get .ELB_LATE_CNT_COUNT p = satAdd (2 ^ 32 - 1) (c.get .ELB_LATE_CNT_COUNT p) 1 := by
  rw [Chip.lateCounted, Chip.count_get_same _ _ _ rfl, Chip.get_set_ne _ _ (by simp)]

theorem elFullUpdate_only (c : Chip) (a : Arr) (p : Nat) : Chip.Only [.H_ELB_FULL] c (elFullUpdate c a p) :=
  .cond (.refl c) (Chip.Only.set (.refl c) 0 (by decide))

theorem elLateRelease_of_due {c : Chip} {a : Arr} {p : Nat} {e : ElEntry}
    (h : a.elOut.find? (fun e => e.part = p && e.due ≠ 0 && e.due ≤ c.period + 1) = some e) :
    elLateRelease p c a = (elFullUpdate (c.lateCounted p) (elRelease c a e) p, elRelease c a e) := by
  unfold elLateRelease
  rw [h]
  rfl

/-- Settles O25: a ready hold gives the state RUN and resumes late data; the rest are the events' equations. -/
theorem holdsEnd : Obligations.HoldsEnd := by
  intro p s
  refine ⟨fun hhold hready => ?released, fun hready => ?held, fun hhold hlimit hset hlong => ?long, fun e he => ?late⟩
  case released =>
    have resumed := lateResumed_only p (s.chip.set .PMP_STATUS_STATE p psRun) s.arr
    refine does_of_onArr (f := holdRelease p) rfl (holdRelease_of_ready hhold hready) ⟨?_, ?_, rfl⟩
    · exact (Chip.Only.pumpState_eq resumed (by decide) p).trans (Chip.get_set_same _ _ _ _)
    · exact (resumed.get p rfl (by decide)).trans (Chip.get_set_ne _ _ (by simp))
  case held =>
    show Host.Outcome.next (s.onArr (holdRelease p)) = _
    rw [State.onArr, holdRelease_of_not_ready hready]
  case long =>
    exact does_of_onChip (f := fun c => c.holdLong p) rfl (Chip.holdLong_of_outlasted hhold hlimit hset hlong)
      ⟨Chip.pumpEvent_get_same _ 3 p rfl, ((Keeps.refl s.chip _).set 1 (by simp)).pumpEvent 3 (by simp), rfl, rfl⟩
  case late =>
    have kept := elFullUpdate_only (s.chip.lateCounted p) (elRelease s.chip s.arr e) p
    refine does_of_onArr (f := elLateRelease p) rfl (elLateRelease_of_due he) ⟨rfl, ?_, ?_, rfl⟩
    · exact (kept.get p rfl (by decide)).trans (s.chip.lateCounted_event p)
    · exact (kept.get p rfl (by decide)).trans (s.chip.lateCounted_count p)

end Sys2Proof.Machine
end
section
/-! PROOFS. Command registers in general: what acceptance and a result write in any of them, and which commands are pending after it (R93, R95). -/

namespace Sys2Proof.Machine

/-- The fields in which a command of register `r` and its result stand, and those of the pump's result event. -/
def CmdReg.commandFields (r : CmdReg) : List Fld :=
  [.CQ_SEQ, .CQ_PSEQ, .CQ_PEND, .CQ_CMD, .CQ_COUNT, r.result.1, r.result.2.1, r.result.2.2.1, r.result.2.2.2.1, r.result.2.2.2.2.1, r.result.2.2.2.2.2,
   .H_RES_CYC, .PMP_EVENT_RESULT]

/-- Two registers keep their commands in different places. -/
theorem CmdReg.idx_ne {r q : CmdReg} (h : r ≠ q) (i : Nat) : r.idx i ≠ q.idx i := fun e => h <| by
  have same := congrArg CmdReg.ofNat (show r.ctorIdx = q.ctorIdx by unfold CmdReg.idx at e; omega)
  rwa [CmdReg.ofNat_ctorIdx, CmdReg.ofNat_ctorIdx] at same

/-- The result register `i` of `r` holds a result: its command, outcome and code, each as its field keeps it (R95). -/
structure Chip.HasResult (d : Chip) (r : CmdReg) (i cmd outcome code : Nat) : Prop where
  ready : d.get r.result.1 i = 1
  outcome : d.get r.result.2.2.1 i = outcome % 4
  cmd : d.get r.result.2.2.2.1 i = cmd % 16
  code : d.get r.result.2.2.2.2.1 i = code % 256

/-- A result stands while its register is left alone. -/
theorem Chip.HasResult.keep {c d : Chip} {r : CmdReg} {i cmd outcome code : Nat} (h : c.HasResult r i cmd outcome code) {W : List Fld} (k : Chip.Only W c d)
    (hs : ∀ f ∈ [r.result.1, r.result.2.2.1, r.result.2.2.2.1, r.result.2.2.2.2.1], f.signal = false ∧ f ∉ W) : d.HasResult r i cmd outcome code where
  ready := (k.get i (hs _ (by simp)).1 (hs _ (by simp)).2).trans h.ready
  outcome := (k.get i (hs _ (by simp)).1 (hs _ (by simp)).2).trans h.outcome
  cmd := (k.get i (hs _ (by simp)).1 (hs _ (by simp)).2).trans h.cmd
  code := (k.get i (hs _ (by simp)).1 (hs _ (by simp)).2).trans h.code

section
variable (c : Chip) (r : CmdReg) (i : Nat)

theorem Chip.resultEvent_only : Chip.Only [.H_RES_CYC, .PMP_EVENT_RESULT] c (c.resultEvent r i) := by
  cases r with
  | pmp => exact (Chip.Only.set (.refl c) _ (by decide)).trans (Chip.pumpEvent_only _ _ _ (by decide))
  | prb => exact .refl c
  | pwr => exact .refl c
  | ptn => exact Chip.Only.of_quiet (c.raise_quiet _)
  | ldr => exact Chip.Only.of_quiet (c.raise_quiet _)
  | mt => exact Chip.Only.of_quiet (c.raise_quiet _)
  | rimLd => exact Chip.Only.of_quiet (c.raise_quiet _)

variable (cmd outcome code : Nat)

theorem Chip.putResult_only (seq : Nat) : Chip.Only r.commandFields c (c.putResult r i cmd seq outcome code) := by
  have base : Chip.Only r.commandFields c (c.resultBase r i cmd seq outcome code) := by
    refine Chip.Only.set (Chip.Only.set (Chip.Only.set (Chip.Only.set (Chip.Only.set (Chip.Only.set (.refl c) _ ?_) _ ?_) _ ?_) _ ?_) _ ?_) _ ?_ <;>
      simp [CmdReg.commandFields]
  exact base.trans ((Chip.resultEvent_only _ r i).widen (by simp [CmdReg.commandFields]))

theorem Chip.putResult_hasResult (seq : Nat) : (c.putResult r i cmd seq outcome code).HasResult r i cmd outcome code := by
  rw [Chip.putResult_eq]
  cases r <;> constructor <;> rw [Chip.resultEvent_get _ _ _ _ _ rfl (by decide) (by decide), Chip.resultBase_get] <;> rfl

/-- A result changes no pending command. -/
theorem Chip.putResult_pend (seq j : Nat) : (c.putResult r i cmd seq outcome code).get .CQ_PEND j = c.get .CQ_PEND j :=
  Chip.putResult_get _ _ _ _ _ _ _ _ _ (by cases r <;> rfl) rfl

theorem Chip.refuse_only : Chip.Only r.commandFields c (c.refuse r i cmd code) :=
  (Chip.Only.set (Chip.Only.set (.refl c) _ (by simp [CmdReg.commandFields])) 0 (by simp [CmdReg.commandFields])).trans (Chip.putResult_only _ r i cmd refused code _)

theorem Chip.refuse_hasResult : (c.refuse r i cmd code).HasResult r i cmd refused code := Chip.putResult_hasResult _ _ _ _ _ _ _

theorem Chip.accept_only : Chip.Only r.commandFields c (c.accept r i cmd) := by
  refine Chip.Only.set (Chip.Only.set (Chip.Only.set (Chip.Only.set (Chip.Only.set (.refl c) _ ?_) 0 ?_) _ ?_) 1 ?_) cmd ?_ <;> simp [CmdReg.commandFields]

theorem Chip.accept_cmdPending : (c.accept r i cmd).cmdPending r i = true := by
  unfold Chip.cmdPending Chip.on
  rw [Chip.accept_pending]
  rfl

theorem Chip.finish_only : Chip.Only r.commandFields c (c.finish r i outcome code) :=
  .cond ((Chip.Only.set (.refl c) 0 (by simp [CmdReg.commandFields])).trans (Chip.putResult_only _ r i _ outcome code _)) (.refl c)

/-- Once a command has its result it is no longer pending, and every other command stands as it was. -/
theorem Chip.finish_pend (j : Nat) : (c.finish r i outcome code).get .CQ_PEND j = if j = r.idx i then 0 else c.get .CQ_PEND j := by
  unfold Chip.finish
  split
  · rw [Chip.putResult_pend, Chip.get_set, Fld.clip_zero]
    simp
  next h =>
    split
    · next hj => simpa [hj, Chip.cmdPending, Chip.on] using h
    · rfl

theorem Chip.finish_cmdPending : (c.finish r i outcome code).cmdPending r i = false := by simp [Chip.cmdPending, Chip.on, Chip.finish_pend]

theorem Chip.finish_hasResult (h : c.cmdPending r i = true) : (c.finish r i outcome code).HasResult r i (c.get .CQ_CMD (r.idx i)) outcome code := by
  unfold Chip.finish
  rw [if_pos h]
  exact Chip.putResult_hasResult _ _ _ _ _ _ _

theorem Chip.acceptDone_only : Chip.Only r.commandFields c (c.acceptDone r i cmd) := (c.accept_only r i cmd).trans (Chip.finish_only _ r i _ _)

theorem Chip.acceptDone_hasResult (h : cmd < 16) : (c.acceptDone r i cmd).HasResult r i cmd completed 0 := by
  have done := Chip.finish_hasResult _ r i completed 0 (c.accept_cmdPending r i cmd)
  rwa [Chip.accept_cmd, Nat.mod_eq_of_lt h] at done

end

end Sys2Proof.Machine
end
section
/-! PROOFS. The path of a write of PTN_CMD, and CREATE (O26). -/

namespace Sys2Proof.Machine

/-! The path of a write of PTN_CMD -/

/-- Sectors whose taps have changed hands show it, and no more (R220). -/
theorem Chip.rimEdges_only (c : Chip) (m : Mem) : Chip.Only [.RIM_SECT_OWN_EDGE] c (c.rimEdges m) :=
  Chip.Spares.fold _ _ c fun _ _ d => .cond (Chip.Only.set (.refl d) 1 (by decide)) (.refl d)

/-- In ON, with no QUIESCE, a write of PTN_CMD does at once what its command does. -/
theorem ptnWrite_of_on {c : Chip} (hon : c.power = pwrOn) (hquiesce : c.get .H_QUIESCE 0 = 0) (p code : Nat) (svc : Bool) (a : Arr) (m : Mem) :
    ptnWrite p code svc c a m = ((ptnCmd p code svc c a).1.rimEdges m, (ptnCmd p code svc c a).2, m) := by
  simp [ptnWrite, onDemand, Chip.quiesced, hquiesce, hon, pwrOn, pwrIdle, pwrWatch]

/-- A command that writes PTN_CMD, where its initiator may: the access is answered OK, the command acts, the sectors' edges and FAULT_N follow. -/
theorem does_of_ptnCmd {i : Instr} {who : Init} {p : Fin 16} {code : Nat} {s₀ : State} {Q : State → Prop} {c : Chip} {a : Arr}
    (hexec : exec i s₀ = .next ((s₀.seen who).onAll (byRegister who .part p.val 0x1004 fun c a m =>
      faultAfter (ptnWrite p.val code (!initHost who) c a m))))
    (hmay : (s₀.seen who).chip.regMay who ⟨.part, p, 0x1004⟩ true = true) (hon : (s₀.seen who).chip.power = pwrOn)
    (hquiesce : (s₀.seen who).chip.get .H_QUIESCE 0 = 0)
    (hcmd : ptnCmd p code (!initHost who) ((s₀.seen who).chip.answer .ok) (s₀.seen who).arr = (c, a))
    (hQ : ∀ d, Chip.Only [.RIM_SECT_OWN_EDGE] c d → Q { s₀.seen who with chip := d, arr := a }) : Does i s₀ Q := by
  refine ⟨_, hexec, ?_⟩
  have hact : byRegister who .part p.val 0x1004 (fun c a m => faultAfter (ptnWrite p.val code (!initHost who) c a m))
      (s₀.seen who).chip (s₀.seen who).arr (s₀.seen who).mem = ((c.rimEdges (s₀.seen who).mem).faultN, a, (s₀.seen who).mem) := by
    have hwrite := ptnWrite_of_on (c := (s₀.seen who).chip.answer .ok) hon hquiesce p code (!initHost who) (s₀.seen who).arr (s₀.seen who).mem
    simp only [byRegister, hmay, if_true, hwrite, hcmd, faultAfter]
  unfold State.onAll
  rw [hact]
  exact hQ _ ((c.rimEdges_only _).trans (Chip.faultN_only _ _))

section
variable {c : Chip} {p : Nat} (hfree : c.cmdPending .ptn p = false) (svc : Bool) (a : Arr)
include hfree

theorem ptnCmd_create : ptnCmd p 1 svc c a = (c.ptnCreate p svc, a) := if_neg (by simp [hfree])

theorem ptnCmd_release : ptnCmd p 2 svc c a = (c.ptnRelease p svc, a) := if_neg (by simp [hfree])

theorem ptnCmd_reset : ptnCmd p 3 svc c a = ptnReset p c a := if_neg (by simp [hfree])

end

/-! CREATE -/

/-- The code with which CREATE is refused, in the order of R126's table, or 0. -/
def Chip.createRefusal (c : Chip) (p : Nat) (host : Bool) : Nat :=
  if host then 1 else if c.on .PTN_CFG_ACTIVE p then 2
  else if c.get .PTN_CFG_COUNT p = 0 ∨ c.bands < c.get .PTN_CFG_FIRST p + c.get .PTN_CFG_COUNT p then 3
  else if c.overlaps p then 4 else if c.get .PTN_CFG_BIND p < 4 ∧ c.portExists (c.get .PTN_CFG_BIND p) = false then 5 else 0

/-- The registers of a partition that CREATE has made active. -/
def Chip.created (c : Chip) (p : Nat) : Chip := (c.set .PTN_CFG_ACTIVE p 1).set .PMP_STATUS_STATE p psEmpty

section
variable {c : Chip} {p : Nat} {host : Bool}

theorem Chip.createRefusal_le : c.createRefusal p host ≤ 5 := by
  unfold Chip.createRefusal
  repeat' split
  all_goals decide

/-- CREATE is accepted where no code applies. -/
theorem Chip.ptnCreate_eq : c.ptnCreate p (!host) =
    if c.createRefusal p host = 0 then (c.created p).acceptDone .ptn p 1 else c.refuse .ptn p 1 (c.createRefusal p host) := by
  unfold Chip.ptnCreate Chip.createRefusal
  cases host with
  | true => rfl
  | false =>
    simp only [Bool.not_false, Bool.not_true, Bool.false_eq_true, if_false, Bool.not_eq_true']
    split_ifs
    all_goals simp_all [Chip.created]

end

/-- Settles O26: CREATE makes the partition active and completes, or is refused with the first code that applies. -/
theorem createClaimsBands : Obligations.CreateClaimsBands := by
  intro who p s₀ s hmay hon hfree hquiesce n b code
  let c : Chip := s.chip.answer .ok
  have hcode : c.createRefusal p (initHost who) = code := rfl
  have hcmd := ptnCmd_create (c := c) hfree (!initHost who) s.arr
  refine ⟨fun h => ?created, fun h => ?refused⟩
  case created =>
    rw [Chip.ptnCreate_eq, if_pos (hcode.trans h)] at hcmd
    refine does_of_ptnCmd rfl hmay hon hquiesce hcmd fun d hd => ?_
    have done := (c.created p).acceptDone_only .ptn p 1
    have result := ((c.created p).acceptDone_hasResult .ptn p 1 (by decide)).keep hd (by decide)
    refine ⟨?_, ?_, result.ready, result.outcome, result.cmd, rfl, rfl⟩
    · exact (hd.get p rfl (by decide)).trans ((done.get p rfl (by decide)).trans ((Chip.get_set_ne _ _ (by simp)).trans (Chip.get_set_same _ _ _ _)))
    · exact (hd.get p rfl (by decide)).trans ((done.get p rfl (by decide)).trans (Chip.get_set_same _ _ _ _))
  case refused =>
    rw [Chip.ptnCreate_eq, if_neg (hcode.trans_ne h), hcode] at hcmd
    refine does_of_ptnCmd rfl hmay hon hquiesce hcmd fun d hd => ?_
    have kept := c.refuse_only .ptn p 1 code
    have result := (c.refuse_hasResult .ptn p 1 code).keep hd (by decide)
    have small : code < 256 := lt_of_le_of_lt (hcode ▸ Chip.createRefusal_le) (by decide)
    exact ⟨(hd.get p rfl (by decide)).trans (kept.get p rfl (by decide)), result.ready, result.outcome, result.code.trans (Nat.mod_eq_of_lt small), rfl, rfl⟩

end Sys2Proof.Machine
end
section
/-! PROOFS. RELEASE: the clearing of a partition's registers, stores, bridges and memories (O27). -/

namespace Sys2Proof.Machine

/-! The blocks of a partition at their reset values -/

namespace Chip.Only

variable {W : List Fld} {c d : Chip}

theorem clearWhere {f : Fld} (h : Only W c d) (q : Nat → Bool) (hf : f ∈ W) : Only W c (d.clearWhere f q) :=
  h.trans (Chip.Spares.clearWhere q fun _ => by simp [Fld.outside, hf])

theorem clearAll (h : Only W c d) {fs : List Fld} (q : Nat → Bool) (hs : fs ⊆ W) : Only W c (fs.foldl (fun c f => c.clearWhere f q) d) :=
  h.trans (Chip.Spares.fold _ fs d fun _ hf e => clearWhere (.refl e) q (hs hf))

theorem unsetAll (h : Only W c d) {fs : List Fld} (i : Nat) (hs : fs ⊆ W) : Only W c (d.unsetAll fs i) :=
  h.trans (Chip.Spares.fold _ fs d fun _ hf e => Chip.Only.set (.refl e) _ (hs hf))

end Chip.Only

section
variable (c : Chip) (r : CmdReg) (i : Nat)

theorem Chip.resultReset_only : Chip.Only r.commandFields c (c.resultReset r i) := by
  have cleared : Chip.Only r.commandFields c (c.unsetAll [r.result.1, r.result.2.1, r.result.2.2.1, r.result.2.2.2.1, r.result.2.2.2.2.1, r.result.2.2.2.2.2] i) :=
    Chip.Only.unsetAll (.refl c) i (by simp [CmdReg.commandFields])
  refine Chip.Only.set (Chip.Only.set (Chip.Only.set (Chip.Only.set cleared 0 ?_) 0 ?_) 0 ?_) 0 ?_ <;> simp [CmdReg.commandFields]

/-- The pending command of the register is dropped, and no other. -/
theorem Chip.resultReset_pend (j : Nat) : (c.resultReset r i).get .CQ_PEND j = if j = r.idx i then 0 else c.get .CQ_PEND j := by
  have result : .CQ_PEND ∉ [r.result.1, r.result.2.1, r.result.2.2.1, r.result.2.2.2.1, r.result.2.2.2.2.1, r.result.2.2.2.2.2] := by cases r <;> decide
  simp [Chip.resultReset, Chip.discard, Chip.get_set, Chip.get_unsetAll, result, Fld.clip_zero]

end

/-- What a reset of the pump writes beside its own registers. -/
def pumpQueueFields : List Fld := .H_HOLD_MARK :: .H_LAST_ASSERT :: CmdReg.pmp.commandFields

/-- What a reset of the probe engine writes beside its own registers. -/
def probeTableFields : List Fld :=
  [.PRB_SEQ_CTL_ACT_XOUT, .PRB_SEQ_CTL_ACT_IRQ, .PRB_SEQ_CTL_ACT_LINE, .PRB_SEQ_CTL_ACT_STOP, .PRB_SEQ_CTL_ACT_TRIGGER, .PRB_SEQ_CTL_NEXT_A,
   .PRB_SEQ_CTL_NEXT_B, .PRB_SEL_BITS, .PRB_VAL_BITS, .PRB_CND_CTL_EN, .PRB_CND_CTL_MODE, .PRB_CND_CTL_COUNT]

/-- The counters of the exchange. -/
def xchFields : List Fld :=
  [.XCH_REPAIR_CNT_COUNT, .XCH_ERR_LOC_VALID, .XCH_ERR_LOC_LEVEL, .XCH_ERR_LOC_SWITCH, .XCH_ERR_LOC_AGENT, .XCH_ERR_LOC_SECTION, .XCH_ERR_LOC_ENTRY,
   .XCH_EDGE_CNT_COUNT]

section
variable (c : Chip) (p : Nat)

/-- What follows the reset of the pump's own registers. -/
theorem Chip.pumpReset_rest : Chip.Only pumpQueueFields ((c.unsetAll stopFields p).unsetAll pumpFields p) (c.pumpReset p) := by
  unfold Chip.pumpReset Chip.clearMarks
  exact Chip.Only.clearWhere (Chip.Only.clearWhere ((Chip.resultReset_only _ .pmp p).widen (by simp [pumpQueueFields])) _ (by decide)) _ (by decide)

theorem Chip.pumpReset_only : Chip.Only (stopFields ++ pumpFields ++ pumpQueueFields) c (c.pumpReset p) := by
  have own : Chip.Only (stopFields ++ pumpFields) c ((c.unsetAll stopFields p).unsetAll pumpFields p) :=
    Chip.Only.unsetAll (Chip.Only.unsetAll (.refl c) p (by simp)) p (by simp)
  exact (own.widen (List.subset_append_left _ _)).trans ((c.pumpReset_rest p).widen (List.subset_append_right _ _))

/-- A register of the pump returns to its reset value. -/
theorem Chip.pumpReset_get {f : Fld} (hf : f ∈ pumpFields) (hs : f.signal = false) (hq : f ∉ pumpQueueFields) : (c.pumpReset p).get f p = f.clip f.reset := by
  rw [(c.pumpReset_rest p).get p hs hq, Chip.get_unsetAll, if_pos ⟨hf, rfl⟩]

theorem Chip.pumpReset_pend (j : Nat) : (c.pumpReset p).get .CQ_PEND j = if j = CmdReg.pmp.idx p then 0 else c.get .CQ_PEND j := by
  have stop : Fld.CQ_PEND ∉ stopFields := by decide
  have pump : Fld.CQ_PEND ∉ pumpFields := by decide
  simp [Chip.pumpReset, Chip.clearMarks, Chip.get_clearWhere, Chip.resultReset_pend, Chip.get_unsetAll, stop, pump]

theorem Chip.xchReset_only : Chip.Only xchFields c (c.xchReset p) := Chip.Only.unsetAll (.refl c) p (by simp [xchFields])

/-- What follows the drop of the engine's commands. -/
theorem Chip.probeReset_tables : Chip.Only probeTableFields ((c.unsetAll probeFields p).resultReset .prb p) (c.probeReset p) := by
  unfold Chip.probeReset
  exact Chip.Only.clearAll (Chip.Only.clearAll (Chip.Only.clearAll (.refl _) _ (by decide)) _ (by decide)) _ (by decide)

theorem Chip.probeReset_only : Chip.Only (probeFields ++ CmdReg.prb.commandFields ++ probeTableFields) c (c.probeReset p) := by
  have own : Chip.Only (probeFields ++ CmdReg.prb.commandFields) c ((c.unsetAll probeFields p).resultReset .prb p) :=
    (Chip.Only.unsetAll (.refl c) p (by simp)).trans ((Chip.resultReset_only _ .prb p).widen (List.subset_append_right _ _))
  exact (own.widen (List.subset_append_left _ _)).trans ((c.probeReset_tables p).widen (List.subset_append_right _ _))

theorem Chip.probeReset_pend (j : Nat) : (c.probeReset p).get .CQ_PEND j = if j = CmdReg.prb.idx p then 0 else c.get .CQ_PEND j := by
  have own : Fld.CQ_PEND ∉ probeFields := by decide
  rw [(c.probeReset_tables p).get j rfl (by decide), Chip.resultReset_pend]
  simp only [Chip.get_unsetAll, own, false_and, if_false]

theorem Chip.probeWindows_only : Chip.Only [.PRB_TEMPLATE_BITS, .PRB_MASK_BITS] c (c.probeWindows p) :=
  Chip.Only.clearWhere (Chip.Only.clearWhere (.refl c) _ (by simp)) _ (by simp)

theorem Chip.clearDone_only : Chip.Only [.H_STEP_DONE] c (c.clearDone p) := Chip.Only.clearWhere (.refl c) _ (by simp)

theorem Chip.bar2Unbound_only (n : Nat) : Chip.Only [.H_BAR2_OUT] c (c.bar2Unbound p n) := .cond (Chip.Only.set (.refl c) 1 (by decide)) (.refl c)

end

/-! The registers of a released partition -/

/-- The registers of a partition whose repairs and records are dropped and whose pump, exchange, probe engine and loader are reset. -/
def Chip.blocksReset (c : Chip) (p : Nat) : Chip :=
  let c := c.bar2Unbound p (c.get .PTN_CFG_BIND p)
  let c := { c with reps := c.reps.filter (fun r => r.part ≠ p), recs := c.recs.filter fun r => r.part ≠ p }
  ((((c.pumpReset p).xchReset p).probeReset p).probeWindows p).resultReset .ldr p

/-- The fields of the granule map, and the marks of an executed step. -/
def mapFields : List Fld := [.DM_MAP_VALID, .DM_MAP_STACK, .DM_MAP_GRANULE, .H_STEP_DONE]

section
variable (c : Chip) (p : Nat)

/-- What follows the reset of the partition's own registers. -/
theorem Chip.releaseRegs_rest : Chip.Only mapFields ((c.blocksReset p).unsetAll releaseFields p) (c.releaseRegs p) :=
  (Chip.Only.clearAll (.refl _) _ (by decide)).trans ((Chip.clearDone_only _ p).widen (by decide))

/-- A register of the partition's own returns to its reset value. -/
theorem Chip.releaseRegs_get {f : Fld} (hf : f ∈ releaseFields) (hs : f.signal = false) (hm : f ∉ mapFields) : (c.releaseRegs p).get f p = f.clip f.reset := by
  rw [(c.releaseRegs_rest p).get p hs hm, Chip.get_unsetAll, if_pos ⟨hf, rfl⟩]

/-- What the reset of the partition's own registers leaves as the reset of its blocks did. -/
theorem Chip.releaseRegs_get_blocks {f : Fld} (j : Nat) (hf : f ∉ releaseFields) (hs : f.signal = false) (hm : f ∉ mapFields) :
    (c.releaseRegs p).get f j = (c.blocksReset p).get f j := by
  rw [(c.releaseRegs_rest p).get j hs hm, Chip.get_unsetAll, if_neg fun h => hf h.1]

theorem Chip.releaseRegs_pumpState : (c.releaseRegs p).pumpState p = psEmpty := by
  refine (c.releaseRegs_get_blocks p p (by decide) rfl (by decide)).trans ?_
  unfold Chip.blocksReset
  rw [(Chip.resultReset_only _ .ldr p).get p rfl (by decide), (Chip.probeWindows_only _ p).get p rfl (by decide), (Chip.probeReset_only _ p).get p rfl (by decide),
    (Chip.xchReset_only _ p).get p rfl (by decide), Chip.pumpReset_get _ p (by decide) rfl (by decide)]
  rfl

/-- The partition's own pending command outlives its registers. -/
theorem Chip.releaseRegs_cmdPending : (c.releaseRegs p).cmdPending .ptn p = c.cmdPending .ptn p := by
  have pmp : CmdReg.ptn.idx p ≠ CmdReg.pmp.idx p := CmdReg.idx_ne (by decide) p
  have prb : CmdReg.ptn.idx p ≠ CmdReg.prb.idx p := CmdReg.idx_ne (by decide) p
  have ldr : CmdReg.ptn.idx p ≠ CmdReg.ldr.idx p := CmdReg.idx_ne (by decide) p
  unfold Chip.cmdPending Chip.on
  rw [c.releaseRegs_get_blocks p _ (by decide) rfl (by decide)]
  unfold Chip.blocksReset
  rw [Chip.resultReset_pend, if_neg ldr, (Chip.probeWindows_only _ p).get _ rfl (by decide), Chip.probeReset_pend, if_neg prb,
    (Chip.xchReset_only _ p).get _ rfl (by decide), Chip.pumpReset_pend, if_neg pmp]
  exact congrArg (fun v => decide (v ≠ 0)) ((c.bar2Unbound_only p _).get _ rfl (by decide))

theorem Chip.releaseRegs_recs : (c.releaseRegs p).recs = c.recs.filter fun r => r.part ≠ p := by
  have bound : (c.bar2Unbound p (c.get .PTN_CFG_BIND p)).recs = c.recs := by
    unfold Chip.bar2Unbound
    split <;> rfl
  rw [← bound]
  rfl

end

/-! Records and results -/

theorem Chip.foldl_recs {α : Type} (g : Chip → α → Chip) (h : ∀ d y, (g d y).recs = d.recs) (l : List α) (c : Chip) : (l.foldl g c).recs = c.recs := by
  induction l generalizing c with
  | nil => rfl
  | cons y l ih => rw [List.foldl_cons, ih, h]

theorem Chip.rimEdges_recs (c : Chip) (m : Mem) : (c.rimEdges m).recs = c.recs :=
  Chip.foldl_recs _ (fun d k => by split <;> rfl) _ c

theorem Chip.resultEvent_recs (c : Chip) (i : Nat) : (c.resultEvent .ptn i).recs = c.recs := by
  have quiet : Chip.Quiet c (c.resultEvent .ptn i) := c.raise_quiet (64 + i)
  exact quiet.recs

theorem Chip.finish_ptn_recs (c : Chip) (p outcome code : Nat) : (c.finish .ptn p outcome code).recs = c.recs := by
  unfold Chip.finish
  split
  · rw [Chip.putResult_eq, Chip.resultEvent_recs]
    simp [Chip.resultBase]
  · rfl

/-! Stores and memories of a released partition -/

theorem Chip.find_outsideBp (c : Chip) (p k : Nat) (m : NatMap) (j : Nat) :
    NatMap.find 0 (c.outsideBp p k m) j = if c.ownsBand p (j / k / 2048) then 0 else NatMap.find 0 m j := by
  unfold Chip.outsideBp
  rw [NatMap.find_filter 0 (fun i => !c.ownsBand p (i / k / 2048))]
  cases c.ownsBand p (j / k / 2048) <;> rfl

theorem Memory.read_filter (q : Nat → Bool) (m : List Host.Cell) (x : Nat) :
    Memory.read (m.filter fun e => q e.1) x = if q x then Memory.read m x else Memory.blank := by
  induction m with
  | nil => simp [Memory.read]
  | cons e m ih =>
    obtain ⟨a, b⟩ := e
    by_cases ha : a = x
    · subst ha
      cases hq : q a <;> simp [hq, Memory.read, ih]
    · cases hq : q a <;> simp [hq, Memory.read, ih, ha]

/-- Reading after a range has been blanked. -/
theorem Memory.read_clearRange (m : List Host.Cell) (lo hi x : Nat) :
    Memory.read (Memory.clearRange m lo hi) x = if lo ≤ x ∧ x < hi then 0 else Memory.read m x := by
  unfold Memory.clearRange
  rw [Memory.read_filter fun a => decide (a < lo) || decide (hi ≤ a)]
  by_cases h : lo ≤ x ∧ x < hi
  · rw [if_pos h, if_neg (by simp; omega)]
    rfl
  · rw [if_neg h, if_pos (by simp; omega)]

/-- Clearing granules blanks those of the list, and no other byte of deep memory. -/
theorem Mem.read_clearGranules (l : List Nat) (m : Mem) (x : Nat) :
    Memory.read (l.foldl Mem.clearGranule m).deep x = if ∃ y ∈ l, y ≤ x ∧ x < y + 2 ^ 30 then 0 else Memory.read m.deep x := by
  induction l generalizing m with
  | nil => simp
  | cons y l ih =>
    rw [List.foldl_cons, ih, Mem.clearGranule, Memory.read_clearRange]
    have cons := List.exists_mem_cons_iff (fun z => z ≤ x ∧ x < z + 2 ^ 30) y l
    by_cases hl : ∃ z ∈ l, z ≤ x ∧ x < z + 2 ^ 30
    · rw [if_pos hl, if_pos (cons.mpr (.inr hl))]
    · rw [if_neg hl]
      exact if_congr (cons.trans (or_iff_left hl)).symm rfl rfl

/-- Clearing granules leaves every memory but deep memory. -/
theorem Mem.clearGranules_rest (l : List Nat) (m : Mem) :
    (l.foldl Mem.clearGranule m).cistern = m.cistern ∧ (l.foldl Mem.clearGranule m).sram = m.sram ∧ (l.foldl Mem.clearGranule m).vault = m.vault := by
  induction l generalizing m with
  | nil => exact ⟨rfl, rfl, rfl⟩
  | cons y l ih => exact ih (m.clearGranule y)

/-- An address lies in a granule that is mapped to the partition. -/
theorem Chip.exists_mappedRange (c : Chip) (p x : Nat) : (∃ y ∈ c.mappedRanges p, y ≤ x ∧ x < y + 2 ^ 30) ↔
    ∃ n, n < 192 ∧ c.on .DM_MAP_VALID (p * 192 + n) = true ∧ deepKey (c.get .DM_MAP_STACK (p * 192 + n)) (c.get .DM_MAP_GRANULE (p * 192 + n)) 0 ≤ x ∧
      x < deepKey (c.get .DM_MAP_STACK (p * 192 + n)) (c.get .DM_MAP_GRANULE (p * 192 + n)) 0 + 2 ^ 30 := by
  simp only [Chip.mappedRanges, List.mem_map, List.mem_filter, List.mem_range, and_assoc]
  constructor
  · rintro ⟨_, ⟨n, hn, hv, rfl⟩, h⟩
    exact ⟨n, hn, hv, h⟩
  · rintro ⟨n, hn, hv, h⟩
    exact ⟨_, ⟨n, hn, hv, rfl⟩, h⟩

/-- RELEASE by the service complex of a partition at rest waits for its clearing. -/
theorem Chip.ptnRelease_accepted {c : Chip} {p : Nat} (hactive : c.on .PTN_CFG_ACTIVE p = true) (hrest : c.pumpState p = psEmpty ∨ c.pumpState p = psHalt) :
    c.ptnRelease p true = c.accept .ptn p 2 := by
  have rest : ¬(c.pumpState p ≠ psEmpty ∧ c.pumpState p ≠ psHalt) := by tauto
  simp [Chip.ptnRelease, hactive, rest]

/-- The clearing of a pending RELEASE, with what the sectors then show. -/
theorem releaseDone_of_pending {p : Nat} {c : Chip} (hpending : c.cmdPending .ptn p = true) (hcmd : c.get .CQ_CMD (CmdReg.ptn.idx p) = 2) (a : Arr) (m : Mem) :
    releaseDone p c a m =
      (((c.releaseRegs p).finish .ptn p completed 0).rimEdges (m.clearPart c p), clearBridges p c (clearStores p c a), m.clearPart c p) := by
  simp [releaseDone, releaseComplete, hpending, hcmd]

/-- Settles O27: the registers return to their reset values before the result is produced, and what the partition owned before it was released is what is cleared. -/
theorem releaseClearsPartition : Obligations.ReleaseClearsPartition := by
  intro who p s₀ s
  refine ⟨fun hmay hsvc hon hfree hquiesce hactive hrest => ?pending, fun hpending hcmd => ?cleared⟩
  case pending =>
    let c : Chip := s.chip.answer .ok
    have hrun := ptnCmd_release (c := c) hfree (!initHost who) s.arr
    rw [hsvc, Bool.not_false, Chip.ptnRelease_accepted (c := c) hactive hrest, ← Bool.not_false, ← hsvc] at hrun
    refine does_of_ptnCmd rfl hmay hon hquiesce hrun fun d hd => ⟨?_, ?_, ?_, rfl, rfl⟩
    · exact (hd.cmdPending_eq (by decide) .ptn p).trans (c.accept_cmdPending .ptn p 2)
    · exact (hd.get _ rfl (by decide)).trans (c.accept_cmd 2 .ptn p)
    · exact (hd.get p rfl (by decide)).trans ((c.accept_only .ptn p 2).get p rfl (by decide))
  case cleared =>
    refine ⟨s.onAll (releaseDone p), rfl, ?_⟩
    unfold State.onAll
    rw [releaseDone_of_pending hpending hcmd]
    dsimp only
    have edges := ((s.chip.releaseRegs p).finish .ptn p completed 0).rimEdges_only (s.mem.clearPart s.chip p)
    have done := (s.chip.releaseRegs p).finish_only .ptn p completed 0
    have result := ((s.chip.releaseRegs p).finish_hasResult .ptn p completed 0 ((s.chip.releaseRegs_cmdPending p).trans hpending)).keep edges (by decide)
    have own {f : Fld} (hf : f ∈ releaseFields) (hs : f.signal = false) (hm : f ∉ mapFields) (he : f ∉ [Fld.RIM_SECT_OWN_EDGE]) (hr : f ∉ CmdReg.ptn.commandFields) :=
      (edges.get p hs he).trans ((done.get p hs hr).trans (s.chip.releaseRegs_get p hf hs hm))
    obtain ⟨hcistern, hsram, hvault⟩ := Mem.clearGranules_rest (s.chip.mappedRanges p) (s.mem.clearCisterns s.chip p)
    refine ⟨own (by decide) rfl (by decide) (by decide) (by decide), own (by decide) rfl (by decide) (by decide) (by decide),
      own (by decide) rfl (by decide) (by decide) (by decide), ?state, ?free, result.ready, result.outcome, ?recs, ?elIn, ?elOut, fun k hk => ?stores,
      fun x => ?cistern, fun x => ?deep, hsram, hvault⟩
    case state => exact (edges.get p rfl (by decide)).trans ((done.get p rfl (by decide)).trans (s.chip.releaseRegs_pumpState p))
    case free => exact (edges.cmdPending_eq (by decide) .ptn p).trans (Chip.finish_cmdPending _ .ptn p _ _)
    case recs =>
      rw [Chip.rimEdges_recs, Chip.finish_ptn_recs, Chip.releaseRegs_recs]
      simp
    case elIn => simp [clearBridges]
    case elOut => simp [clearBridges]
    case stores => simp [clearBridges, clearStores, Chip.find_outsideBp, hk]
    case cistern =>
      rw [Mem.clearPart, hcistern, Mem.clearCisterns, Memory.read_clearRange, add_mul, add_mul]
    case deep =>
      rw [Mem.clearPart, Mem.read_clearGranules]
      exact if_congr (s.chip.exists_mappedRange p x) rfl rfl

end Sys2Proof.Machine
end
section
/-! PROOFS. A partition reset, and the end of priming (O28). -/

namespace Sys2Proof.Machine

/-! A partition reset -/

/-- The counters and events that a partition reset clears beside those of the pump, the exchange and the probe engine (R128). -/
def partCounters : List Fld :=
  [.DM_LATE_CNT_COUNT, .DM_LATE_MAX_PERIODS, .DM_UNMAPPED_CNT_COUNT, .PTN_ENC_FAULT_COUNT, .ELB_STATUS_CFG_REJ, .ELB_EVENT_FULL, .ELB_EVENT_OUT_LATE,
   .ELB_LATE_CNT_COUNT]

/-- The registers of a partition whose repairs are dropped. -/
def Chip.dropRepairs (c : Chip) (p : Nat) : Chip := { c with reps := c.reps.filter fun r => r.part ≠ p }

/-- The registers of a partition whose blocks a partition reset has returned to their reset values. -/
def Chip.partReset (c : Chip) (p : Nat) : Chip :=
  ((((((c.dropRepairs p).pumpReset p).xchReset p).unsetAll partCounters p).discardRecords p).probeReset p).clearDone p

/-- The registers of a partition that a reset has begun to prime. -/
def Chip.resetPriming (c : Chip) (p : Nat) : Chip := ((c.partReset p).set .PMP_STATUS_STATE p psLoading).set .H_PRIMING p 3

/-- What a partition reset writes after the pump's registers. -/
def partResetFields : List Fld := xchFields ++ partCounters ++ (probeFields ++ CmdReg.prb.commandFields ++ probeTableFields) ++ [.H_STEP_DONE]

section
variable (c : Chip) (p : Nat) (a : Arr)

theorem partitionReset_eq : partitionReset p c a = ((c.resetPriming p).faultN, primeArr p (c.resetPriming p) a) := rfl

theorem Chip.discardRecords_only (W : List Fld) : Chip.Only W c (c.discardRecords p) := ⟨fun _ _ _ => rfl, rfl, rfl, rfl⟩

theorem Chip.partCounters_only :
    Chip.Only (xchFields ++ partCounters) ((c.dropRepairs p).pumpReset p) ((((c.dropRepairs p).pumpReset p).xchReset p).unsetAll partCounters p) :=
  Chip.Only.unsetAll ((Chip.xchReset_only _ p).widen (List.subset_append_left _ _)) p (List.subset_append_right _ _)

theorem Chip.partReset_only : Chip.Only partResetFields ((c.dropRepairs p).pumpReset p) (c.partReset p) := by
  have counters : Chip.Only (xchFields ++ partCounters) _ _ := (c.partCounters_only p).trans (Chip.discardRecords_only _ p _)
  have probe : Chip.Only (_ ++ (probeFields ++ CmdReg.prb.commandFields ++ probeTableFields)) _ _ :=
    (counters.widen (List.subset_append_left _ _)).trans ((Chip.probeReset_only _ p).widen (List.subset_append_right _ _))
  exact (probe.widen (List.subset_append_left _ _)).trans ((Chip.clearDone_only _ p).widen (List.subset_append_right _ _))

/-- A partition reset drops the commands of the pump and of the probe engine, and no other. -/
theorem Chip.partReset_pend (j : Nat) : (c.partReset p).get .CQ_PEND j =
    if j = CmdReg.prb.idx p ∨ j = CmdReg.pmp.idx p then 0 else c.get .CQ_PEND j := by
  have counters : Chip.Only (xchFields ++ partCounters) _ _ := (c.partCounters_only p).trans (Chip.discardRecords_only _ p _)
  unfold Chip.partReset
  rw [(Chip.clearDone_only _ p).get j rfl (by decide), Chip.probeReset_pend, counters.get j rfl (by decide), Chip.pumpReset_pend, ite_or]
  rfl

/-- The priming of a partition reset starts from its blocks' reset values. -/
theorem Chip.resetPriming_only : Chip.Only [.PMP_STATUS_STATE, .H_PRIMING] (c.partReset p) (c.resetPriming p) :=
  Chip.Only.set (Chip.Only.set (.refl _) _ (by simp)) _ (by simp)

theorem Chip.resetPriming_state : (c.resetPriming p).pumpState p = psLoading :=
  (Chip.get_set_ne _ _ (by simp)).trans (Chip.get_set_same _ _ _ _)

/-- A register of the pump is at its reset value when the priming of a partition reset begins. -/
theorem Chip.resetPriming_get {f : Fld} (hf : f ∈ pumpFields) (hs : f.signal = false) (hq : f ∉ pumpQueueFields) (hr : f ∉ partResetFields)
    (hp : f ∉ [Fld.PMP_STATUS_STATE, .H_PRIMING]) : (c.resetPriming p).get f p = f.clip f.reset := by
  rw [(c.resetPriming_only p).get p hs hp, (c.partReset_only p).get p hs hr, Chip.pumpReset_get _ p hf hs hq]

/-- What a partition reset leaves as it was. -/
theorem Chip.resetPriming_kept {f : Fld} (j : Nat) (hs : f.signal = false) (hf : f ∉ stopFields ++ pumpFields ++ pumpQueueFields) (hr : f ∉ partResetFields)
    (hp : f ∉ [Fld.PMP_STATUS_STATE, .H_PRIMING]) : (c.resetPriming p).get f j = c.get f j := by
  rw [(c.resetPriming_only p).get j hs hp, (c.partReset_only p).get j hs hr]
  exact (Chip.pumpReset_only _ p).get j hs hf

theorem Chip.resetPriming_cmdPending (r : CmdReg) : (c.resetPriming p).cmdPending r p =
    if r = .prb ∨ r = .pmp then false else c.cmdPending r p := by
  unfold Chip.cmdPending Chip.on
  rw [(c.resetPriming_only p).get _ rfl (by decide), Chip.partReset_pend]
  by_cases h : r = .prb ∨ r = .pmp
  · rw [if_pos h, if_pos (h.imp (congrArg (·.idx p)) (congrArg (·.idx p)))]
    rfl
  · rw [if_neg h, if_neg (by rintro (e | e) <;> exact CmdReg.idx_ne (by tauto) p e)]

end

/-! The end of priming -/

section
variable (c : Chip) (p : Nat)

theorem Chip.clearLatches_only : Chip.Only [.H_LATCH_X, .H_LATCH_L, .H_LATCH_CMP, .H_LATCH_FORCE] c (c.clearLatches p) :=
  Chip.Only.set (Chip.Only.set (Chip.Only.set (Chip.Only.set (.refl c) 0 (by simp)) 0 (by simp)) 0 (by simp)) 0 (by simp)

theorem Chip.disarmComplete_only : Chip.Only (.PRB_STATUS_CAP :: CmdReg.prb.commandFields) c (c.disarmComplete p) :=
  .cond ((Chip.Only.set (.refl c) _ (by simp)).trans ((Chip.finish_only _ .prb p _ _).widen (List.subset_cons_self _ _))) (.refl c)

/-- A DISARM that was waiting for the records completes, and no other command of the partition. -/
theorem Chip.disarmComplete_pend {j : Nat} (hj : j ≠ CmdReg.prb.idx p) : (c.disarmComplete p).get .CQ_PEND j = c.get .CQ_PEND j := by
  unfold Chip.disarmComplete
  split
  · rw [Chip.finish_pend, if_neg hj, Chip.get_set_ne _ _ (by simp)]
  · rfl

/-- What the priming of the probe engine writes after a DISARM's result. -/
def probePrimeFields : List Fld := [.PRB_STATUS_CAP, .H_LATCH_X, .H_LATCH_L, .H_LATCH_CMP, .H_LATCH_FORCE]

theorem Chip.probePrime_rest : Chip.Only probePrimeFields (c.disarmComplete p) (c.probePrime p) :=
  (Chip.Only.set (.refl _) _ (by decide)).trans ((Chip.clearLatches_only _ p).widen (by decide))

theorem Chip.probePrime_only : Chip.Only (CmdReg.prb.commandFields ++ probePrimeFields) c (c.probePrime p) :=
  ((c.disarmComplete_only p).widen (by decide)).trans ((c.probePrime_rest p).widen (List.subset_append_right _ _))

/-- The registers of a partition whose PRIME has completed, but for its result. -/
def Chip.primeEnded (c : Chip) (p : Nat) : Chip := (c.probePrime p).set .H_PRIMING p 0

/-- The registers of a partition whose reset has ended, but for its result. -/
def Chip.resetEnded (c : Chip) (p : Nat) : Chip := (c.set .H_PRIMING p 0).set .PMP_STATUS_STATE p psHalt

theorem Chip.primeEnded_only : Chip.Only (.H_PRIMING :: (CmdReg.prb.commandFields ++ probePrimeFields)) c (c.primeEnded p) :=
  Chip.Only.set ((c.probePrime_only p).widen (List.subset_cons_self _ _)) 0 (by simp)

theorem Chip.primeEnded_cmdPending : (c.primeEnded p).cmdPending .pmp p = c.cmdPending .pmp p := by
  unfold Chip.primeEnded Chip.cmdPending Chip.on
  rw [Chip.get_set_ne _ _ (by simp), (c.probePrime_rest p).get _ rfl (by decide), Chip.disarmComplete_pend c p (CmdReg.idx_ne (by decide) p)]

theorem Chip.resetEnded_only : Chip.Only [.H_PRIMING, .PMP_STATUS_STATE] c (c.resetEnded p) :=
  Chip.Only.set (Chip.Only.set (.refl c) _ (by simp)) _ (by simp)

variable {c p} (a : Arr)

/-- While a deep access is awaited, priming goes on. -/
theorem primingDone_of_awaited (h : c.deepAwaited a p = true) : primingDone p c a = c := by
  unfold primingDone loadComplete primingComplete
  simp [h]

theorem primingDone_reset (hdeep : c.deepAwaited a p = false) (hpriming : c.get .H_PRIMING p = 3) (hcmd : c.get .CQ_CMD (CmdReg.ptn.idx p) = 3) :
    primingDone p c a = (c.resetEnded p).finish .ptn p completed 0 := by
  have kept : (c.resetEnded p).get .CQ_CMD (CmdReg.ptn.idx p) = 3 := ((c.resetEnded_only p).get _ rfl (by decide)).trans hcmd
  have hkept : ((c.set .H_PRIMING p 0).set .PMP_STATUS_STATE p psHalt).get .CQ_CMD (CmdReg.ptn.idx p) = 3 := kept
  simp [primingDone, primingComplete, hdeep, hpriming, hkept, Chip.resetEnded]

theorem primingDone_prime (hdeep : c.deepAwaited a p = false) (hpriming : c.get .H_PRIMING p = 2) (hrecords : c.recordsDone p = true) :
    primingDone p c a = (c.primeEnded p).finish .pmp p completed 0 := by
  simp [primingDone, primingComplete, hdeep, hpriming, hrecords, Chip.primeEnded]

end

/-- RESET of a partition at work is accepted and the partition is reset; in EMPTY it completes at once. -/
theorem ptnReset_of_active {c : Chip} {p : Nat} (hactive : c.on .PTN_CFG_ACTIVE p = true) (hloading : c.pumpState p ≠ psLoading) (a : Arr) :
    ptnReset p c a = if c.pumpState p = psEmpty then (c.acceptDone .ptn p 3, a) else partitionReset p (c.accept .ptn p 3) a := by
  simp [ptnReset, hactive, hloading]

/-- Settles O28: the command of PTN_CMD is the one that a partition reset does not drop, and its result waits for the awaited deep accesses. -/
theorem partitionResetPrimes : Obligations.PartitionResetPrimes := by
  intro who p s₀ s
  refine ⟨fun hmay hon hfree hquiesce hactive => ?_, fun hdeep hpriming hpending hcmd => ?ended, fun hdeep hpriming hrecords hpending => ?primed,
    fun hdeep => ?awaited⟩
  · let c : Chip := s.chip.answer .ok
    refine ⟨fun hloading hempty => ?reset, fun hempty => ?empty⟩
    case reset =>
      have hrun := ptnCmd_reset (c := c) hfree (!initHost who) s.arr
      rw [ptnReset_of_active (c := c) hactive hloading, if_neg (show ¬c.pumpState p = psEmpty from hempty), partitionReset_eq] at hrun
      let b : Chip := c.accept .ptn p 3
      refine does_of_ptnCmd rfl hmay hon hquiesce hrun fun d hd => ?_
      have kept : Chip.Only [.RIM_SECT_OWN_EDGE] (b.resetPriming p) d := (Chip.faultN_only _ _).trans hd
      have accepted := c.accept_only .ptn p 3
      refine ⟨?_, ?_, ?_, ?_, ?_, ?_, primeArr_istore _ _ _, primeArr_sched _ _ _, rfl⟩
      · exact (kept.get p rfl (by decide)).trans (b.resetPriming_state p)
      · exact (kept.cmdPending_eq (by decide) .ptn p).trans ((b.resetPriming_cmdPending p .ptn).trans (c.accept_cmdPending .ptn p 3))
      · exact (kept.cmdPending_eq (by decide) .pmp p).trans (b.resetPriming_cmdPending p .pmp)
      · exact (kept.get p rfl (by decide)).trans (b.resetPriming_get p (by decide) rfl (by decide) (by decide) (by decide))
      · exact (kept.get p rfl (by decide)).trans (b.resetPriming_get p (by decide) rfl (by decide) (by decide) (by decide))
      · exact (kept.get p rfl (by decide)).trans ((b.resetPriming_kept p p rfl (by decide) (by decide) (by decide)).trans (accepted.get p rfl (by decide)))
    case empty =>
      have hrun := ptnCmd_reset (c := c) hfree (!initHost who) s.arr
      have hstate : c.pumpState p = psEmpty := hempty
      rw [ptnReset_of_active (c := c) hactive (by rw [hstate]; decide), if_pos hstate] at hrun
      refine does_of_ptnCmd rfl hmay hon hquiesce hrun fun d hd => ?_
      have result := (c.acceptDone_hasResult .ptn p 3 (by decide)).keep hd (by decide)
      exact ⟨(hd.get p rfl (by decide)).trans (((c.acceptDone_only .ptn p 3).get p rfl (by decide)).trans hstate), result.ready, result.outcome, rfl, rfl⟩
  case ended =>
    have ended := s.chip.resetEnded_only p
    have done := (s.chip.resetEnded p).finish_only .ptn p completed 0
    have result := (s.chip.resetEnded p).finish_hasResult .ptn p completed 0 ((ended.cmdPending_eq (by decide) _ _).trans hpending)
    refine does_of_onChip rfl (primingDone_reset s.arr hdeep hpriming hcmd)
      ⟨?_, Chip.finish_cmdPending _ .ptn p _ _, result.ready, result.outcome, ?_, rfl, rfl⟩
    · exact (done.get p rfl (by decide)).trans (Chip.get_set_same _ _ _ _)
    · exact (done.get p rfl (by decide)).trans (ended.get p rfl (by decide))
  case primed =>
    have ended := s.chip.primeEnded_only p
    have done := (s.chip.primeEnded p).finish_only .pmp p completed 0
    have result := (s.chip.primeEnded p).finish_hasResult .pmp p completed 0 ((s.chip.primeEnded_cmdPending p).trans hpending)
    refine does_of_onChip rfl (primingDone_prime s.arr hdeep hpriming hrecords)
      ⟨?_, Chip.finish_cmdPending _ .pmp p _ _, result.ready, result.outcome, rfl, rfl⟩
    exact (done.get p rfl (by decide)).trans (ended.get p rfl (by decide))
  case awaited =>
    have hexec : exec (.primingComplete p) s = .next { s with chip := primingDone p s.chip s.arr } := rfl
    rw [hexec, primingDone_of_awaited s.arr hdeep]

end Sys2Proof.Machine
end
section
/-! PROOFS. A partition whose host is lost: its binding to the alternate, and its fall to the policy HALT (O29). -/

namespace Sys2Proof.Machine

/-! Entering HALT for any cause -/

/-- What a pump that enters HALT, whatever the causes, gives a value. -/
def haltingFields : List Fld :=
  [.PMP_STATUS_STATE, .PMP_STOP_CAUSE_STOP, .PMP_STOP_CAUSE_MASK, .PMP_STOP_CAUSE_OVERRUN, .PMP_STOP_CAUSE_LAG, .PMP_STOP_CAUSE_HALT_CMD,
   .PMP_STOP_CAUSE_DATA_PARITY, .PMP_STOP_CAUSE_REPAIR_FAIL, .PMP_STOP_CAUSE_HOST_LOSS, .PMP_STOP_CYCLE_CYCLE, .PMP_SLEN_STEP_NOW, .H_HOLD_MARK, .H_DIV_ON,
   .PMP_EVENT_STOPPED]

/-- What follows the record of the causes. -/
def haltedFields : List Fld := [.PMP_STOP_CYCLE_CYCLE, .PMP_SLEN_STEP_NOW, .H_HOLD_MARK, .H_DIV_ON, .PMP_EVENT_STOPPED]

/-- The causes of a stop, recorded in a pump that is in HALT. -/
def Chip.causesRecorded (c : Chip) (p cause : Nat) : Chip :=
  ([(Fld.PMP_STOP_CAUSE_MASK, 1), (.PMP_STOP_CAUSE_OVERRUN, 2), (.PMP_STOP_CAUSE_LAG, 3), (.PMP_STOP_CAUSE_HALT_CMD, 5),
      (.PMP_STOP_CAUSE_DATA_PARITY, 6), (.PMP_STOP_CAUSE_REPAIR_FAIL, 7), (.PMP_STOP_CAUSE_HOST_LOSS, 8)] : List (Fld × Nat)).foldl
    (fun c x => if bitB cause x.2 then c.set x.1 p 1 else c)
    ((c.set .PMP_STATUS_STATE p psHalt).set .PMP_STOP_CAUSE_STOP p (Nat.lor (c.get .PMP_STOP_CAUSE_STOP p) (bit cause 0)))

section
variable (c : Chip) (p cause : Nat)

theorem Chip.causesRecorded_only : Chip.Only haltingFields c (c.causesRecorded p cause) :=
  (Chip.Only.set (Chip.Only.set (.refl c) _ (by decide)) _ (by decide)).trans
    (Chip.Spares.fold _ _ _ fun x hx d => .cond (Chip.Only.set (.refl d) 1 (by fin_cases hx <;> decide)) (.refl d))

theorem Chip.enterHalt_recorded : Chip.Only haltedFields (c.causesRecorded p cause) (c.enterHalt p cause) := by
  have recorded := Chip.Only.set (Chip.Only.set (.refl (c.causesRecorded p cause)) (f := .PMP_STOP_CYCLE_CYCLE) (i := p)
    ((c.causesRecorded p cause).lastCycle p) (by decide : _ ∈ haltedFields)) (f := .PMP_SLEN_STEP_NOW) (i := p) 0 (by decide)
  have stopped := Chip.Only.set (Chip.Only.clearWhere recorded (fun i => i / 4096 = p) (f := .H_HOLD_MARK) (by decide)) (f := .H_DIV_ON) (i := p) 0 (by decide)
  exact Chip.Spares.trans stopped (Chip.pumpEvent_only _ _ _ (by decide))

theorem Chip.enterHalt_only : Chip.Only haltingFields c (c.enterHalt p cause) :=
  (c.causesRecorded_only p cause).trans ((c.enterHalt_recorded p cause).widen (by decide))

/-- A pump that the loss of its host stops is in HALT, with that cause. -/
theorem Chip.enterHalt_hostLoss : (c.enterHalt p (2 ^ 8)).pumpState p = psHalt ∧ (c.enterHalt p (2 ^ 8)).get .PMP_STOP_CAUSE_HOST_LOSS p = 1 := by
  have after := c.enterHalt_recorded p (2 ^ 8)
  have cause : c.causesRecorded p (2 ^ 8) = ((c.set .PMP_STATUS_STATE p psHalt).set .PMP_STOP_CAUSE_STOP p
    (Nat.lor (c.get .PMP_STOP_CAUSE_STOP p) (bit (2 ^ 8) 0))).set .PMP_STOP_CAUSE_HOST_LOSS p 1 := rfl
  refine ⟨(after.pumpState_eq (by decide) p).trans ?_, (after.get p rfl (by decide)).trans ?_⟩ <;> rw [cause]
  · simp [Chip.pumpState, Chip.get_set]
    rfl
  · exact Chip.get_set_same _ _ _ _

variable {c p}

/-- During a cycle a stop cause waits for the cycle's end. -/
theorem Chip.stopCause_of_cycle (n : Nat) (h : c.pumpState p = psRun ∨ c.pumpState p = psHold) :
    c.stopCause p n = c.set .H_STOP_PEND p (orBit (c.get .H_STOP_PEND p) n) := if_pos h

/-- In WAIT a stop cause stops the pump at once. -/
theorem Chip.stopCause_of_wait (n : Nat) (h : c.pumpState p = psWait) : c.stopCause p n = c.enterHalt p (2 ^ n) := by
  simp [Chip.stopCause, Chip.stopBetween, h, psRun, psHold, psRamp, psWait]

end

/-! Rebinding -/

section
variable {c : Chip} {p n : Nat}

theorem Chip.altAvailable_iff : c.altAvailable p n = true ↔ c.get .PTN_CFG_ALT p = 4 ∨ (c.get .PTN_CFG_ALT p < 4 ∧ c.get .PTN_CFG_ALT p ≠ n ∧
    c.on .H_LOST (c.get .PTN_CFG_ALT p) = false ∧ c.portExists (c.get .PTN_CFG_ALT p) = true ∧ c.on .H_LINKUP (c.get .PTN_CFG_ALT p) = true) := by
  simp [Chip.altAvailable, and_assoc]

/-- The registers of a partition whose REBIND has found no alternate. -/
def Chip.fellBack (c : Chip) (p : Nat) : Chip := (c.set .H_REBIND p 0).set .PTN_LOSS_FALLBACK p 1

theorem Chip.rebind_eq (h : c.get .H_REBIND p = n + 1) : c.rebind p =
    if c.altAvailable p n then ((c.set .H_REBIND p 0).bindTo p (c.get .PTN_CFG_ALT p)).set .PTN_LOSS_REBOUND p 1
    else if c.on .PTN_CFG_FALLBACK p then c.fellBack p else (c.fellBack p).lossHalt p := by
  have available : (c.set .H_REBIND p 0).altAvailable p n = c.altAvailable p n := by simp [Chip.altAvailable, Chip.on, Chip.get_set, Chip.portExists]
  have policy : ((c.set .H_REBIND p 0).set .PTN_LOSS_FALLBACK p 1).on .PTN_CFG_FALLBACK p = c.on .PTN_CFG_FALLBACK p := by simp [Chip.on, Chip.get_set]
  unfold Chip.rebind
  simp only [h, available, policy, Chip.get_set_ne _ _ (show ¬(Fld.PTN_CFG_ALT = .H_REBIND ∧ p = p) by simp)]
  rfl

theorem Chip.fellBack_keepsAll : KeepsAll c (c.fellBack p) [(.PTN_LOSS_FALLBACK, p), (.H_REBIND, p)] := fun g j hg => by
  have apart : ¬(g = .PTN_LOSS_FALLBACK ∧ j = p) ∧ ¬(g = .H_REBIND ∧ j = p) := by simpa using hg
  exact (Chip.get_set_ne _ _ apart.1).trans (Chip.get_set_ne _ _ apart.2)

theorem Chip.dropVectors_quiet (c : Chip) (p n : Nat) : Chip.Quiet c (c.dropVectors p n) :=
  .cond ((Chip.Quiet.put _ _ rfl).trans (Chip.Quiet.put _ _ rfl)) (.refl c)

end

/-- What a partition that fell back shows, whatever policy HALT then writes in its pump. -/
theorem Chip.fellBack_shown {c d : Chip} {p : Nat} {W : List Fld} (k : Chip.Only W (c.fellBack p) d) (hW : ∀ f ∈ [Fld.PTN_LOSS_FALLBACK, .H_REBIND, .PTN_CFG_BIND], f ∉ W) :
    d.get .PTN_LOSS_FALLBACK p = 1 ∧ d.get .H_REBIND p = 0 ∧ d.get .PTN_CFG_BIND p = c.get .PTN_CFG_BIND p := by
  refine ⟨(k.get p rfl (hW _ (by decide))).trans ?_, (k.get p rfl (hW _ (by decide))).trans ?_, (k.get p rfl (hW _ (by decide))).trans ?_⟩
  · exact Chip.get_set_same _ _ _ _
  · exact (Chip.get_set_ne _ _ (by simp)).trans ((Chip.get_set_same _ _ _ _).trans (Fld.clip_zero _))
  · exact (Chip.get_set_ne _ _ (by simp)).trans (Chip.get_set_ne _ _ (by simp))

/-- A partition bound to another master: its binding is that master's, and beside it the selection of a BAR2 that showed it may end. -/
theorem Chip.bindTo_keeps (c : Chip) (p b : Nat) (hb : b < 8) : (c.bindTo p b).get .PTN_CFG_BIND p = b ∧
    Keeps c (c.bindTo p b) [(.PTN_CFG_BIND, p), (.H_BAR2_OUT, c.get .PTN_CFG_BIND p)] := by
  have bound : (c.set .PTN_CFG_BIND p b).get .PTN_CFG_BIND p = b := (Chip.get_set_same _ _ _ _).trans (Fld.clip_lt hb)
  have kept : Keeps (c.set .PTN_CFG_BIND p b) (c.bindTo p b) [(.H_BAR2_OUT, c.get .PTN_CFG_BIND p)] := by
    unfold Chip.bindTo
    dsimp only
    split
    · exact .refl _ _
    have unbound : Keeps (c.set .PTN_CFG_BIND p b) (((c.set .PTN_CFG_BIND p b).dropVectors p (c.get .PTN_CFG_BIND p)).bar2Unbound p (c.get .PTN_CFG_BIND p))
        [(.H_BAR2_OUT, c.get .PTN_CFG_BIND p)] := by
      unfold Chip.bar2Unbound
      split
      · exact ((Keeps.refl _ _).quiet (Chip.dropVectors_quiet _ _ _)).set 1 (by simp)
      · exact (Keeps.refl _ _).quiet (Chip.dropVectors_quiet _ _ _)
    exact (unbound.quiet (.cond (Chip.partIrq_quiet _ _ _ _) (.refl _))).quiet (.cond (Chip.partIrq_quiet _ _ _ _) (.refl _))
  refine ⟨(kept _ _ rfl (by simp)).trans bound, fun g j hs hg => ?_⟩
  have apart : ¬(g = .PTN_CFG_BIND ∧ j = p) ∧ ¬(g = .H_BAR2_OUT ∧ j = c.get .PTN_CFG_BIND p) := by simpa using hg
  exact (kept g j hs (by simpa using apart.2)).trans (Chip.get_set_ne _ _ apart.1)

/-- Settles O29: the alternate that the arbitration point finds is the one of the statement, and policy HALT is a stop cause like any other. -/
theorem rebindMovesToAlternate : Obligations.RebindMovesToAlternate := by
  intro p n s hrebind alt there fallen
  have hthere : s.chip.altAvailable p n = true ↔ there := Chip.altAvailable_iff
  have hrun := Chip.rebind_eq hrebind
  have hstate : (s.chip.fellBack p).pumpState p = s.chip.pumpState p := Chip.fellBack_keepsAll _ _ (by simp)
  refine ⟨fun h => ?bound, fun h hpolicy => ?stays, fun h hpolicy hcycle => ?cycle, fun h hpolicy hwait => ?wait⟩
  case bound =>
    rw [if_pos (hthere.mpr h)] at hrun
    have hb : alt < 8 := by rcases h with h | h <;> omega
    have hbind : (s.chip.set .H_REBIND p 0).get .PTN_CFG_BIND p = s.chip.get .PTN_CFG_BIND p := Chip.get_set_ne _ _ (by simp)
    obtain ⟨bound, kept⟩ := (s.chip.set .H_REBIND p 0).bindTo_keeps p alt hb
    rw [hbind] at kept
    refine does_of_onChip rfl hrun ⟨(Chip.get_set_ne _ _ (by simp)).trans bound, Chip.get_set_same _ _ _ _, fun g j hs hg => ?_, rfl, rfl⟩
    have apart : ¬(g = .PTN_CFG_BIND ∧ j = p.val) ∧ ¬(g = .PTN_LOSS_REBOUND ∧ j = p.val) ∧ ¬(g = .H_REBIND ∧ j = p.val) ∧
      ¬(g = .H_BAR2_OUT ∧ j = s.chip.get .PTN_CFG_BIND p) := by simpa using hg
    obtain ⟨hgBind, hgRebound, hgRebind, hgOut⟩ := apart
    exact (Chip.get_set_ne _ _ hgRebound).trans ((kept g j hs (by simp [hgBind, hgOut])).trans (Chip.get_set_ne _ _ hgRebind))
  all_goals rw [if_neg (hthere.not.mpr h)] at hrun
  case stays =>
    rw [if_pos hpolicy] at hrun
    obtain ⟨fallback, done, bind⟩ := Chip.fellBack_shown (W := []) (.refl (s.chip.fellBack p)) (by simp)
    exact does_of_onChip rfl hrun ⟨⟨fallback, done, bind, rfl, rfl⟩, Chip.fellBack_keepsAll⟩
  all_goals rw [if_neg (by simp [hpolicy]), Chip.lossHalt] at hrun
  case cycle =>
    rw [Chip.stopCause_of_cycle 8 (by rwa [hstate])] at hrun
    have kept : Chip.Only [.H_STOP_PEND] (s.chip.fellBack p) _ := Chip.Only.set (.refl _) (f := .H_STOP_PEND) (i := p) (orBit ((s.chip.fellBack p).get .H_STOP_PEND p) 8) (by simp)
    obtain ⟨fallback, done, bind⟩ := Chip.fellBack_shown kept (by decide)
    refine does_of_onChip rfl hrun ⟨⟨fallback, done, bind, rfl, rfl⟩, (kept.pumpState_eq (by decide) p).trans hstate, ?_⟩
    rw [Chip.get_set_same]
    exact bitB_orBit_clip (by decide) _
  case wait =>
    rw [Chip.stopCause_of_wait 8 (by rwa [hstate])] at hrun
    obtain ⟨fallback, done, bind⟩ := Chip.fellBack_shown ((s.chip.fellBack p).enterHalt_only p (2 ^ 8)) (by decide)
    obtain ⟨halted, cause⟩ := (s.chip.fellBack p).enterHalt_hostLoss p
    exact does_of_onChip rfl hrun ⟨⟨fallback, done, bind, rfl, rfl⟩, halted, cause⟩

end Sys2Proof.Machine
end
section
/-! PROOFS. Network accesses that rights or their target forbid (O32). -/

namespace Sys2Proof.Machine

/-! An access that is performed now -/

section
variable {c : Chip} {who : Init} {t : Target} {op : NetOp} {m : Mem}

/-- An access that need not wait, is in reach and has a tag is performed and answered. -/
theorem netIssue_now (hgone : c.hostGone who = false) (hwake : c.mustWake who t op.len = false) (hwipe : c.wipeWait who t op.len = false)
    (htag : (c.initTag who).isSome = true) (hcut : c.netCut who t op.len = false) : netIssue who t op false c m = (netAccess who t op c m).reply := by
  obtain ⟨g, hg⟩ := Option.isSome_iff_exists.mp htag
  simp [netIssue, hgone, hwake, hwipe, hg, hcut]

/-- An access that its initiator may not make neither waits nor crosses a die link. -/
theorem netIssue_of_not_permits (hgone : c.hostGone who = false) (htag : (c.initTag who).isSome = true) (hden : c.permits who t op.len = false) :
    netIssue who t op false c m = (netAccess who t op c m).reply := by
  refine netIssue_now hgone ?_ ?_ htag ?_
  · simp [Chip.mustWake, hden]
  · cases t <;> simp [Chip.wipeWait, hden]
  · simp [Chip.netCut, hden]

theorem netAccess_host_of_not_permits {k : Fin 4} (hden : c.permits (.host k) t op.len = false) : netAccess (.host k) t op c m = ⟨.netDenied, [], c, m⟩ := by
  simp [netAccess, hden]

theorem netAccess_core_of_not_permits {k : Fin 8} {sec : Bool} (hden : c.permits (.core k sec) t op.len = false) :
    netAccess (.core k sec) t op c m = ⟨.netNoTarget, op.ones, c.count .SVC_ACC_ERR_COUNT k 1, m⟩ := by
  simp [netAccess, hden]

end

/-! What an initiator may not reach -/

/-- A host may reach the design memory of the partitions bound to its port, and nothing else. -/
theorem Chip.permits_host {c : Chip} {k : Fin 4} {t : Target} (h : ∀ p x, t = .design p x → c.get .PTN_CFG_BIND p ≠ k.val) (n : Nat) :
    c.permits (.host k) t n = false := by
  cases t with
  | design p x => simpa [Chip.permits, Chip.reaches] using h p x rfl
  | sram x => simp [Chip.permits, Chip.reachesBank]
  | vault x => simp [Chip.permits, initSecure]

/-- The first two banks of service SRAM are secure. -/
theorem Chip.permits_secureBank (c : Chip) (k : Fin 8) {x : BitVec 24} (hx : x.toNat < 0x400000) (n : Nat) : c.permits (.core k false) (.sram x) n = false := by
  have hbank : x.toNat / 0x200000 < 2 := by omega
  simp [Chip.permits, Chip.reachesBank, hbank, initSecure]

/-! Accesses of a host -/

section
variable {i : Instr} {s : State} {who : Init} {t : Target} {op : NetOp}

/-- A network access whose outcome is known. -/
theorem exec_of_netIssue {c : Chip} (hexec : exec i s = .next ((s.seen who).onMem (netIssue who t op false)))
    (hrun : netIssue who t op false (s.seen who).chip (s.seen who).mem = (c, (s.seen who).mem)) : exec i s = .next { s.seen who with chip := c } := by
  rw [hexec]
  unfold State.onMem
  rw [hrun]

theorem exec_of_netDenied {k : Fin 4} (hexec : exec i s = .next ((s.seen (.host k)).onMem (netIssue (.host k) t op false)))
    (htag : (s.chip.initTag (.host k)).isSome = true) (hgone : s.chip.hostGone (.host k) = false) (hden : ∀ n, s.chip.permits (.host k) t n = false) :
    exec i s = .next { s with chip := s.chip.answer .netDenied } := by
  refine exec_of_netIssue hexec ?_
  rw [State.seen_host, netIssue_of_not_permits hgone htag (hden _), netAccess_host_of_not_permits (hden _)]
  rfl

end

/-! Atomics on deep memory -/

section
variable {c : Chip} {who : Init} {p : Fin 16} {x : BitVec 40}

/-- An atomic within 256 bytes of deep memory is refused there. -/
theorem netAtomic_deep {m : Mem} {n : Nat} {a : Nat} (svc : Bool) (f : Nat → Nat) (hfit : a % 256 + n ≤ 256) (ha : a < cisternBase) :
    netAtomic c m p a n svc f = ⟨.dmNoAtomic, [], c, m⟩ := by
  simp [netAtomic, crosses256, Nat.not_lt.mpr hfit, ha]

/-- An atomic on deep memory by an initiator that reaches the partition. -/
theorem netIssue_deepAtomic {m : Mem} {n v : Nat} (add : Bool) (hreach : c.reaches who p = true) (hpower : c.power ≠ pwrWatch) (hx : x.toNat < cisternBase)
    (htag : (c.initTag who).isSome = true) (hgone : c.hostGone who = false) (hfit : x.toNat % 256 + n ≤ 256)
    (hcut : c.cutOff routerHub (c.routerAt (.design p x)) = false) :
    netIssue who (.design p x) (.atomic n add v) false c m = (c.answer .dmNoAtomic, m) := by
  have performed : netAccess who (.design p x) (.atomic n add v) c m = ⟨.dmNoAtomic, [], c, m⟩ := by
    simp [netAccess, Chip.permits, hreach, designAccess, netAtomic_deep _ _ hfit hx]
  rw [netIssue_now hgone (by simp [Chip.mustWake, hpower]) rfl htag (by simp [Chip.netCut, hcut]), performed]
  rfl

end

/-- Settles O32: the rights of R123 and R323 come before every other rule of an access. -/
theorem networkRefusesWhatItsRightsForbid : Obligations.NetworkRefusesWhatItsRightsForbid := by
  intro s₀ n d wide v
  refine ⟨fun k t hrights htag hgone => ?host, ?core, ?atomic⟩
  case host =>
    have hden := Chip.permits_host (c := s₀.chip) hrights
    exact ⟨exec_of_netDenied rfl htag hgone hden, exec_of_netDenied rfl htag hgone hden, exec_of_netDenied rfl htag hgone hden,
      exec_of_netDenied rfl htag hgone hden⟩
  case core =>
    intro k x s hx htag
    have hden := s.chip.permits_secureBank k hx
    have hrun (op : NetOp) : netIssue (.core k false) (.sram x) op false s.chip s.mem =
        ((s.chip.count .SVC_ACC_ERR_COUNT k 1).answer .netNoTarget (ofBytes op.ones) op.ones, s.mem) := by
      rw [netIssue_of_not_permits rfl htag (hden _), netAccess_core_of_not_permits (hden _)]
      rfl
    have hread := exec_of_netIssue (i := .networkRead (.core k false) (.sram x) n) (s := s₀) (op := .read n.val) rfl (hrun _)
    have hwrite := exec_of_netIssue (i := .networkWrite (.core k false) (.sram x) d) (s := s₀) (op := .write d) rfl (hrun _)
    refine ⟨⟨_, hread, rfl, rfl, rfl, rfl, (Chip.answer_get ..).trans (Chip.count_get_same _ k 1 rfl), fun g j hg => ?_⟩, _, hwrite, rfl, rfl, rfl⟩
    exact (Chip.answer_get ..).trans (Chip.get_set_ne _ _ (by simpa using hg))
  case atomic =>
    intro who p x s hreach hpower hx htag hgone hfit hcut
    exact ⟨exec_of_netIssue rfl (netIssue_deepAtomic true hreach hpower hx htag hgone hfit hcut),
      exec_of_netIssue rfl (netIssue_deepAtomic false hreach hpower hx htag hgone hfit hcut)⟩

end Sys2Proof.Machine
end
section
/-! PROOFS. BAR2: the selection, an access to a cistern word, and a denied access (O33). -/

namespace Sys2Proof.Machine

/-! Network accesses within one cistern word -/

section
variable {c : Chip} {m : Mem} {p a y : Nat}

/-- An address that leads to a cistern lies above deep memory, whoever asks. -/
theorem Chip.place_cistern {svc : Bool} (h : c.place p a svc = .cistern y) : cisternBase ≤ a ∧ c.place p a true = .cistern y := by
  unfold Chip.place at h ⊢
  split_ifs at h ⊢ with hout hdeep
  all_goals simp_all
  split at h <;> simp at h

/-- A word without an error mark reads as it stands. -/
theorem readCis_of_good (h : NatMap.find 0 m.cisErr (y / 8) = 0) (n net : Nat) : readCis c m p a y n net = ⟨.ok, Memory.readN m.cistern y n, c, m⟩ := by
  simp [readCis, Mem.cisRead, h, Chip.cisReport]

/-- The cisterns of `t` are those of `m` with the bytes `d` written at `y`. -/
def Mem.CisWritten (m : Mem) (y : Nat) (d : List Byte) (t : Mem) : Prop := t.cistern = Memory.writeN m.cistern y d

theorem writeCis_of_good (h : NatMap.find 0 m.cisErr (y / 8) = 0) (net : Nat) (d : List Byte) :
    ∃ t, writeCis c m p a y net d = ⟨.ok, [], c, t⟩ ∧ m.CisWritten y d t := by
  unfold writeCis
  split
  · exact ⟨_, rfl, rfl⟩
  · exact ⟨{ m with cistern := Memory.writeN m.cistern y d }, by simp [Mem.cisRead, h, Chip.cisReport], rfl⟩

/-- Bytes within one cistern word are one unit. -/
theorem unitSpan_cistern {n : Nat} (ha : cisternBase ≤ a) (hfit : a % 8 + n ≤ 8) : unitSpan a n = n := by
  simp only [unitSpan, if_neg (Nat.not_lt.mpr ha)]
  omega

theorem crosses256_of_word {n : Nat} (hfit : a % 8 + n ≤ 8) : crosses256 a n = false := by
  simp only [crosses256, decide_eq_false_iff_not]
  omega

theorem designRead_word {n net : Nat} {svc : Bool} (hplace : c.place p a svc = .cistern y) (hgood : NatMap.find 0 m.cisErr (y / 8) = 0) (hn : 0 < n)
    (hfit : a % 8 + n ≤ 8) : designRead p net svc n a n c m = ⟨.ok, Memory.readN m.cistern y n, c, m⟩ := by
  obtain ⟨k, rfl⟩ := Nat.exists_eq_succ_of_ne_zero hn.ne'
  have hspan := unitSpan_cistern (Chip.place_cistern hplace).1 hfit
  simp only [designRead, hspan, hplace, readCis_of_good hgood, Nat.sub_self]
  cases k <;> simp [designRead, Status.join]

theorem designWrite_word {net : Nat} {svc : Bool} {d : List Byte} (hplace : c.place p a svc = .cistern y) (hgood : NatMap.find 0 m.cisErr (y / 8) = 0) (hd : d ≠ [])
    (hfit : a % 8 + d.length ≤ 8) : ∃ t, designWrite p net svc d.length a d c m = ⟨.ok, [], c, t⟩ ∧ m.CisWritten y d t := by
  obtain ⟨t, hwrite, written⟩ := writeCis_of_good (c := c) (p := p) (a := a) hgood net d
  refine ⟨t, ?_, written⟩
  have hspan := unitSpan_cistern (Chip.place_cistern hplace).1 hfit
  cases d with
  | nil => exact absurd rfl hd
  | cons b d =>
    simp only [List.length_cons] at hspan
    simp only [designWrite, List.length_cons, hspan, hplace, List.take_succ_cons, List.take_length, hwrite,
      List.drop_succ_cons, List.drop_length]
    cases d <;> simp [designWrite, Status.join]

theorem netRead_word {n : Nat} {svc : Bool} (hplace : c.place p a svc = .cistern y) (hgood : NatMap.find 0 m.cisErr (y / 8) = 0) (hn : 0 < n) (hfit : a % 8 + n ≤ 8) :
    netRead c m p a n svc = ⟨.ok, Memory.readN m.cistern y n, c, m⟩ := by
  simp [netRead, crosses256_of_word hfit, hplace, designRead_word hplace hgood hn hfit]

theorem netWrite_word {svc : Bool} {d : List Byte} (hplace : c.place p a svc = .cistern y) (hgood : NatMap.find 0 m.cisErr (y / 8) = 0) (hd : d ≠ [])
    (hfit : a % 8 + d.length ≤ 8) : ∃ t, netWrite c m p a d svc = ⟨.ok, [], c, t⟩ ∧ m.CisWritten y d t := by
  obtain ⟨t, hwrite, written⟩ := designWrite_word (net := 1) hplace hgood hd hfit
  exact ⟨t, by simp [netWrite, crosses256_of_word hfit, hplace, hwrite], written⟩

end

/-! One transaction of a BAR2 access -/

section
variable {c : Chip} {m : Mem} {n : Fin 4} {x : Nat}

/-- The address in the selected partition's design memory that BAR2 shows at offset `x`. -/
def Chip.bar2Addr (c : Chip) (n x : Nat) : Nat := (c.get .GLB_BAR2_SEL_WIN n * 2 ^ 36 + x) % 2 ^ 40

theorem Chip.bar2Target_eq (c : Chip) (hpart : c.get .GLB_BAR2_SEL_PART n < 16) :
    c.bar2Target n x = .design ⟨c.get .GLB_BAR2_SEL_PART n, hpart⟩ (BitVec.ofNat 40 (c.bar2Addr n x)) := by
  have part : Fin.ofNat 16 (c.get .GLB_BAR2_SEL_PART n) = ⟨c.get .GLB_BAR2_SEL_PART n, hpart⟩ := Fin.ext (Nat.mod_eq_of_lt hpart)
  have addr : BitVec.ofNat 40 (c.get .GLB_BAR2_SEL_WIN n * 2 ^ 36 + x) = BitVec.ofNat 40 (c.bar2Addr n x) :=
    BitVec.eq_of_toNat_eq ((BitVec.toNat_ofNat ..).trans ((Nat.mod_mod ..).symm.trans (BitVec.toNat_ofNat ..).symm))
  rw [Chip.bar2Target, part, addr]

/-- A transaction that has a tag and is in reach is performed. -/
theorem bar2Piece_now {op : NetOp} (htag : (c.initTag (.host n)).isSome = true) (hcut : c.bar2Cut n x op.len = false) : bar2Piece n x op c m = bar2Txn n x op c m := by
  obtain ⟨g, hg⟩ := Option.isSome_iff_exists.mp htag
  unfold bar2Piece
  rw [hg]
  exact if_neg (by simp [hcut])

theorem Status.join_ok (a : Status) : a.join .ok = a := by
  unfold Status.join
  split
  next h => exact h.symm
  next => rfl

theorem upTo256_of_fit {len : Nat} (h : x % 256 + len ≤ 256) : upTo256 x len = len := by
  unfold upTo256
  omega

/-- A read within 256 bytes is one transaction. -/
theorem bar2Read_one {len : Nat} (hlen : 0 < len) (hfit : x % 256 + len ≤ 256) : bar2Read n (len + 1) x len c m = bar2Piece n x (.read len) c m := by
  obtain ⟨k, rfl⟩ := Nat.exists_eq_succ_of_ne_zero hlen.ne'
  rw [bar2Read, if_neg (by omega), upTo256_of_fit hfit]
  simp [bar2Read, Status.join_ok]

/-- A write within 256 bytes is one transaction. -/
theorem bar2Write_one {d : List Byte} (hd : d ≠ []) (hfit : x % 256 + d.length ≤ 256) :
    bar2Write n (d.length + 1) x d c m = { bar2Piece n x (.write d) c m with data := [] } := by
  rw [bar2Write, if_neg hd, upTo256_of_fit hfit]
  cases d with
  | nil => exact absurd rfl hd
  | cons b d => simp [bar2Write, Status.join_ok]

end

/-! Performed and denied transactions -/

/-- Port `n`'s BAR2 shows a partition that its host may reach, in a state where the access is performed at once. -/
structure Chip.Bar2Open (c : Chip) (n : Fin 4) : Prop where
  part : c.get .GLB_BAR2_SEL_PART n < 16
  bound : c.get .PTN_CFG_BIND (c.get .GLB_BAR2_SEL_PART n) = n.val
  out : c.on .H_BAR2_OUT n = false
  power : c.power ≠ pwrWatch
  tag : (c.initTag (.host n)).isSome = true

/-- Port `n`'s BAR2 shows a partition of another master, or one that has ceased to be bound to the port. -/
structure Chip.Bar2Denies (c : Chip) (n : Fin 4) : Prop where
  part : c.get .GLB_BAR2_SEL_PART n < 16
  away : c.get .PTN_CFG_BIND (c.get .GLB_BAR2_SEL_PART n) ≠ n.val ∨ c.on .H_BAR2_OUT n = true
  tag : (c.initTag (.host n)).isSome = true

section
variable {c : Chip} {m : Mem} {n : Fin 4} {x y : Nat}

theorem Chip.Bar2Open.netAccess_eq (h : c.Bar2Open n) (op : NetOp) :
    netAccess (.host n) (c.bar2Target n x) op c m = designAccess op (c.get .GLB_BAR2_SEL_PART n) (c.bar2Addr n x) false c m := by
  have addr : (BitVec.ofNat 40 (c.bar2Addr n x)).toNat = c.bar2Addr n x := by simp [Chip.bar2Addr]
  rw [Chip.bar2Target_eq c h.part, netAccess, if_neg (by simp [Chip.permits, Chip.reaches, h.bound])]
  dsimp only
  rw [addr]
  rfl

theorem Chip.Bar2Open.bar2Cut_eq (h : c.Bar2Open n) (hplace : c.place (c.get .GLB_BAR2_SEL_PART n) (c.bar2Addr n x) false = .cistern y)
    (hcut : c.cutOff routerHub (y / 0x80000) = false) (len : Nat) : c.bar2Cut n x len = false := by
  have addr : (BitVec.ofNat 40 (c.bar2Addr n x)).toNat = c.bar2Addr n x := by simp [Chip.bar2Addr]
  have router : c.routerAt (c.bar2Target n x) = y / 0x80000 := by
    rw [Chip.bar2Target_eq c h.part]
    dsimp only [Chip.routerAt]
    rw [addr, (Chip.place_cistern hplace).2]
    rfl
  simp [Chip.bar2Cut, Chip.netCut, router, hcut]

/-- A read of a cistern word through BAR2 is answered as the network answers. -/
theorem Chip.Bar2Open.read_word (h : c.Bar2Open n) (hplace : c.place (c.get .GLB_BAR2_SEL_PART n) (c.bar2Addr n x) false = .cistern y)
    (hcut : c.cutOff routerHub (y / 0x80000) = false) (hgood : NatMap.find 0 m.cisErr (y / 8) = 0) {len : Nat} (hlen : 0 < len) (hfit : c.bar2Addr n x % 8 + len ≤ 8) :
    bar2Piece n x (.read len) c m = ⟨.ok, Memory.readN m.cistern y len, c, m⟩ := by
  have access : netAccess (.host n) (c.bar2Target n x) (.read len) c m = ⟨.ok, Memory.readN m.cistern y len, c, m⟩ :=
    (h.netAccess_eq _).trans (netRead_word hplace hgood hlen hfit)
  rw [bar2Piece_now h.tag (h.bar2Cut_eq hplace hcut _)]
  simp [bar2Txn, h.out, access]

theorem Chip.Bar2Open.write_word (h : c.Bar2Open n) (hplace : c.place (c.get .GLB_BAR2_SEL_PART n) (c.bar2Addr n x) false = .cistern y)
    (hcut : c.cutOff routerHub (y / 0x80000) = false) (hgood : NatMap.find 0 m.cisErr (y / 8) = 0) {d : List Byte} (hd : d ≠ []) (hfit : c.bar2Addr n x % 8 + d.length ≤ 8) :
    ∃ t, bar2Piece n x (.write d) c m = ⟨.ok, [], c, t⟩ ∧ m.CisWritten y d t := by
  obtain ⟨t, hwrite, written⟩ := netWrite_word hplace hgood hd hfit
  have access : netAccess (.host n) (c.bar2Target n x) (.write d) c m = ⟨.ok, [], c, t⟩ := (h.netAccess_eq _).trans hwrite
  refine ⟨t, ?_, written⟩
  rw [bar2Piece_now h.tag (h.bar2Cut_eq hplace hcut _)]
  simp [bar2Txn, h.out, access]

/-- While BAR2 is denied its accesses do not wait and cross no die link. -/
theorem Chip.Bar2Denies.not_permits (h : c.Bar2Denies n) (len : Nat) : (!c.on .H_BAR2_OUT n && c.permits (.host n) (c.bar2Target n x) len) = false := by
  rw [Chip.bar2Target_eq c h.part]
  rcases h.away with h | h <;> simp [Chip.permits, Chip.reaches, h]

theorem Chip.Bar2Denies.mustWake_eq (h : c.Bar2Denies n) (len : Nat) : (!c.on .H_BAR2_OUT n && c.mustWake (.host n) (c.bar2Target n x) len) = false := by
  have denied := h.not_permits (x := x) len
  simp only [Chip.mustWake]
  grind

theorem Chip.Bar2Denies.bar2Cut_eq (h : c.Bar2Denies n) (len : Nat) : c.bar2Cut n x len = false := by
  have denied := h.not_permits (x := x) len
  simp only [Chip.bar2Cut, Chip.netCut]
  grind

theorem Chip.Bar2Denies.access_eq (h : c.Bar2Denies n) (op : NetOp) :
    (if c.on .H_BAR2_OUT n then ⟨.netDenied, [], c, m⟩ else netAccess (.host n) (c.bar2Target n x) op c m) = (⟨.netDenied, [], c, m⟩ : Hit) := by
  have denied := h.not_permits (x := x) op.len
  split
  next => rfl
  next hout => exact netAccess_host_of_not_permits (by simpa [hout] using denied)

/-- A denied read returns all ones and is counted. -/
theorem Chip.Bar2Denies.read (h : c.Bar2Denies n) (len : Nat) :
    bar2Piece n x (.read len) c m = ⟨.netDenied, List.replicate len 0xFF, c.accCount (.host n) true false x, m⟩ := by
  rw [bar2Piece_now h.tag (h.bar2Cut_eq _)]
  simp [bar2Txn, h.access_eq]

/-- A denied write is discarded and counted. -/
theorem Chip.Bar2Denies.write (h : c.Bar2Denies n) (d : List Byte) :
    bar2Piece n x (.write d) c m = ⟨.netDenied, [], c.accCount (.host n) true true x, m⟩ := by
  rw [bar2Piece_now h.tag (h.bar2Cut_eq _)]
  simp [bar2Txn, h.access_eq]

theorem Chip.accCount_counts (c : Chip) (who : Init) (bar2 write : Bool) (off : Nat) :
    (c.accCount who bar2 write off).get .GLB_ACC_ERR_COUNT (initGlb who) = satAdd (2 ^ 32 - 1) (c.get .GLB_ACC_ERR_COUNT (initGlb who)) 1 := by
  have located : Chip.Only [.GLB_ACC_LOC_VALID, .GLB_ACC_LOC_BAR2, .GLB_ACC_LOC_WRITE, .GLB_ACC_LOC_OFFSET] (c.count .GLB_ACC_ERR_COUNT (initGlb who) 1)
      (c.accCount who bar2 write off) :=
    .cond (.refl _) (Chip.Only.set (Chip.Only.set (Chip.Only.set (Chip.Only.set (.refl _) _ (by simp)) _ (by simp)) _ (by simp)) _ (by simp))
  exact (located.get _ rfl (by decide)).trans (c.count_get_same _ _ rfl)

end

/-! BAR2 accesses -/

section
variable {n : Fin 4} {off : BitVec 36} {len : Fin 4097} {s : State} {h : Hit}

/-- A BAR2 read that need not wait, within 256 bytes. -/
theorem exec_bar2Read (hwait : (!s.chip.on .H_BAR2_OUT n && s.chip.mustWake (.host n) (s.chip.bar2Target n off.toNat) len) = false) (hlen : 0 < len.val)
    (hfit : off.toNat % 256 + len.val ≤ 256) (hpiece : bar2Piece n off.toNat (.read len) s.chip s.mem = h) :
    exec (.bar2Access n off len none) s = .next { s with chip := h.chip.answer h.status (ofBytes h.data) h.data, mem := h.mem } := by
  have hrun : bar2Access n off.toNat len none s.chip s.mem = h.reply := by
    simp only [bar2Access, hwait, Bool.false_eq_true, if_false, bar2Read_one hlen hfit, hpiece]
  refine (show exec (.bar2Access n off len none) s = .next (s.onMem (bar2Access n off.toNat len none)) from rfl).trans ?_
  unfold State.onMem
  rw [hrun]
  rfl

/-- A BAR2 write that need not wait, within 256 bytes, of a host that is there. -/
theorem exec_bar2Write {d : List Byte} (hgone : s.chip.hostGone (.host n) = false)
    (hwait : (!s.chip.on .H_BAR2_OUT n && s.chip.mustWake (.host n) (s.chip.bar2Target n off.toNat) len) = false) (hd : d ≠ [])
    (hfit : off.toNat % 256 + d.length ≤ 256) (hpiece : bar2Piece n off.toNat (.write d) s.chip s.mem = h) :
    exec (.bar2Access n off len (some d)) s = .next { s with chip := h.chip.answer h.status, mem := h.mem } := by
  have hrun : bar2Access n off.toNat len (some d) s.chip s.mem = Hit.reply { h with data := [] } := by
    simp only [bar2Access, hgone, hwait, Bool.false_eq_true, if_false, bar2Write_one hd hfit, hpiece]
  refine (show exec (.bar2Access n off len (some d)) s = .next (s.onMem (bar2Access n off.toNat len (some d))) from rfl).trans ?_
  unfold State.onMem
  rw [hrun]
  rfl

end

/-- The parts of a value written to GLB_BAR2_SEL. -/
theorem bar2Sel_bits (part : BitVec 4) (win : BitVec 2) :
    bits (part.toNat + win.toNat * 2 ^ 8) 3 0 = part.toNat ∧ bits (part.toNat + win.toNat * 2 ^ 8) 9 8 = win.toNat ∧
      bitB (part.toNat + win.toNat * 2 ^ 8) 30 = false := by
  have hpart := part.isLt
  have hwin := win.isLt
  refine ⟨?_, ?_, decide_eq_false ?_⟩ <;> simp only [bits, bit]
  all_goals omega

/-- Settles O33: a BAR2 access within 256 bytes is one network transaction of its host, unless the selection denies it. -/
theorem bar2AccessesAndSelection : Obligations.Bar2AccessesAndSelection := by
  intro n part win off s hgone
  obtain ⟨hpart, hwin, hrej⟩ := bar2Sel_bits part win
  have hselect : exec (.bar2SelWrite n part win) s =
      .next { s with chip := (s.chip.answer .ok).writeBar2Sel n (part.toNat + win.toNat * 2 ^ 8) } := by
    have hrun : (if s.chip.hostGone (.host n) then s.chip else (s.chip.answer .ok).writeBar2Sel n (part.toNat + win.toNat * 2 ^ 8)) = _ :=
      if_neg (by simp [hgone])
    rw [← hrun]
    rfl
  refine ⟨fun hbind => ?selected, fun hbind => ?rejected, fun hp hbind hout hpower htag y hplace hcut hgood => ?opened, fun hp haway htag => ?denied⟩
  case selected => rw [hselect, Chip.writeBar2Sel, hpart, hwin, hrej, Chip.answer_get, if_pos hbind, if_neg (by simp)]
  case rejected => rw [hselect, Chip.writeBar2Sel, hpart, Chip.answer_get, if_neg hbind]
  case opened =>
    have opened : s.chip.Bar2Open n := ⟨hp, hbind, hout, hpower, htag⟩
    have hwait (len : Fin 4097) : (!s.chip.on .H_BAR2_OUT n && s.chip.mustWake (.host n) (s.chip.bar2Target n off.toNat) len) = false := by
      simp [Chip.mustWake, hpower]
    have addr : s.chip.bar2Addr n off.toNat % 8 = off.toNat % 8 := by
      unfold Chip.bar2Addr
      omega
    refine ⟨fun len hlen hfit => ?_, fun d len hd hlen hfit => ?_⟩
    · exact exec_bar2Read (hwait len) hlen (by omega) (opened.read_word hplace hcut hgood hlen (by rwa [addr]))
    · obtain ⟨t, hpiece, written⟩ := opened.write_word hplace hcut hgood hd (by rwa [addr])
      refine ⟨_, exec_bar2Write hgone (hwait len) hd (by omega) hpiece, rfl, rfl, fun z => ?_⟩
      rw [show t.cistern = _ from written, Memory.read_writeN]
  case denied =>
    have denied : s.chip.Bar2Denies n := ⟨hp, haway, htag⟩
    refine ⟨fun len hlen hfit => ?_, fun d len hd hfit => ?_⟩
    · exact ⟨_, exec_bar2Read (denied.mustWake_eq len) hlen hfit (denied.read len), rfl, rfl, (Chip.answer_get ..).trans (Chip.accCount_counts _ (.host n) _ _ _), rfl, rfl⟩
    · exact ⟨_, exec_bar2Write hgone (denied.mustWake_eq len) hd hfit (denied.write d), rfl, (Chip.answer_get ..).trans (Chip.accCount_counts _ (.host n) _ _ _), rfl, rfl⟩

end Sys2Proof.Machine
end
section
/-! PROOFS. Which registers the loss of a host and the reset of a port write (R130 to R133, R190, R295, R302). -/

namespace Sys2Proof.Machine

/-! What stops with a lost host -/

/-- What a stop cause gives a value, at once or at the end of the cycle. -/
def stopCauseFields : List Fld := .H_STOP_PEND :: (haltingFields ++ CmdReg.pmp.commandFields)

/-- What the loss of a host gives a value. -/
def hostLossFields : List Fld :=
  [.H_LOST, .PMP_HOLD_REQ_HOST, .PTN_LOSS_LOST, .PTN_LOSS_PORT, .PTN_LOSS_CYC_CYCLE, .H_REBIND] ++ stopCauseFields

/-- What the end of a load whose source fails gives a value. -/
def sourceLossFields : List Fld :=
  imageFields ++ [.PMP_STATUS_STATE, .LDR_REFUSE_SECTION, .LDR_REFUSE_SUB, .LDR_REFUSE_OFF_OFFSET] ++ CmdReg.ldr.commandFields ++
    [.RIM_SECT_STATE_STATE, .RIM_LD_STATUS_ERR, .RIM_LD_STATUS_CODE, .RIM_LD_ERR_LOC_WORD, .RIM_LD_STATUS_BUSY, .H_RS_STATE] ++ CmdReg.rimLd.commandFields

def dmaLossFields : List Fld := [.DMA_CH_CTL_EN, .DMA_CH_CTL_ABORT, .DMA_CH_STATUS_LOSS, .H_DMA_NEXT]

def sinkLossFields : List Fld := [.TRC_CTL_EN, .TRC_STATUS_SINK_LOST]

section
variable (c : Chip) (p n : Nat)

theorem Chip.stopBetween_only (cause : Nat) : Chip.Only (haltingFields ++ CmdReg.pmp.commandFields) c (c.stopBetween p cause) :=
  have halted := (c.enterHalt_only p cause).widen (List.subset_append_left _ CmdReg.pmp.commandFields)
  .cond (halted.trans ((Chip.finish_only _ .pmp p _ _).widen (List.subset_append_right _ _))) halted

theorem Chip.stopCause_only (k : Nat) : Chip.Only stopCauseFields c (c.stopCause p k) :=
  .cond (Chip.Only.set (.refl c) _ (by decide)) (.cond ((c.stopBetween_only p _).widen (List.subset_cons_self _ _)) (.refl c))

theorem Chip.partLoss_only : Chip.Only hostLossFields c (c.partLoss n p) := by
  have told : Chip.Only hostLossFields c (((((c.set .PMP_HOLD_REQ_HOST p 0).set .PTN_LOSS_LOST p 1).set .PTN_LOSS_PORT p n).set .PTN_LOSS_CYC_CYCLE p
      (c.get .PMP_CYCLE_CYCLE p)).raise (64 + p)) :=
    (Chip.Only.set (Chip.Only.set (Chip.Only.set (Chip.Only.set (.refl c) _ (by decide)) _ (by decide)) _ (by decide)) _ (by decide)).trans
      (Chip.Only.of_quiet (Chip.raise_quiet _ _))
  unfold Chip.partLoss
  split
  · dsimp only
    split
    · exact told.trans ((Chip.stopCause_only _ p 8).widen (List.subset_append_right _ _))
    · exact Chip.Only.set told _ (by decide)
    · exact told
  · exact .refl c

theorem Chip.hostLoss_only : Chip.Only hostLossFields c (c.hostLoss n) := by
  have lost : Chip.Only hostLossFields c ((c.set .H_LOST n 1).raise (160 + n)) :=
    (Chip.Only.set (.refl c) 1 (by decide)).trans (Chip.Only.of_quiet (Chip.raise_quiet _ _))
  exact .cond (.refl c) (lost.trans (Chip.Spares.fold _ _ _ fun p _ d => d.partLoss_only p n))

/-- Channel `ch` of a lost port, once it has stopped. -/
def Chip.dmaStopped (c : Chip) (ch : Nat) : Chip :=
  let d := (((c.set .DMA_CH_CTL_EN ch 0).set .DMA_CH_CTL_ABORT ch 0).set .DMA_CH_STATUS_LOSS ch 1).set .H_DMA_NEXT ch (c.get .DMA_CH_STATUS_CI ch)
  if c.on .DMA_CH_CTL_EN ch then d.raise (168 + ch) else d

theorem Chip.dmaStopped_only (ch : Nat) : Chip.Only dmaLossFields c (c.dmaStopped ch) := by
  have stopped := Chip.Only.set (Chip.Only.set (Chip.Only.set (Chip.Only.set (.refl c) (f := .DMA_CH_CTL_EN) (i := ch) 0 (by decide : _ ∈ dmaLossFields))
    (f := .DMA_CH_CTL_ABORT) (i := ch) 0 (by decide)) (f := .DMA_CH_STATUS_LOSS) (i := ch) 1 (by decide)) (f := .H_DMA_NEXT) (i := ch)
    (c.get .DMA_CH_STATUS_CI ch) (by decide)
  exact .cond (Chip.Spares.trans stopped (Chip.Only.of_quiet (Chip.raise_quiet _ _))) stopped

/-- A channel that has stopped with LOSS = 1. -/
def Chip.LossStopped (ch : Nat) (c : Chip) : Prop := c.get .DMA_CH_CTL_EN ch = 0 ∧ c.get .DMA_CH_STATUS_LOSS ch = 1

theorem Chip.dmaStopped_get {f : Fld} (ch j : Nat) (hf : f ∈ [Fld.DMA_CH_CTL_EN, .DMA_CH_STATUS_LOSS]) :
    (c.dmaStopped ch).get f j = if j = ch then (if f = .DMA_CH_CTL_EN then 0 else 1) else c.get f j := by
  have quiet : ((((c.set .DMA_CH_CTL_EN ch 0).set .DMA_CH_CTL_ABORT ch 0).set .DMA_CH_STATUS_LOSS ch 1).set .H_DMA_NEXT ch (c.get .DMA_CH_STATUS_CI ch)).Quiet
      (c.dmaStopped ch) := .cond (Chip.raise_quiet _ _) (.refl _)
  fin_cases hf <;> refine (quiet.get _ j rfl).trans ?_ <;> simp [Chip.get_set] <;> rfl

theorem Chip.dmaStopped_reaches (ch : Nat) : (c.dmaStopped ch).LossStopped ch := by
  constructor <;> simp [Chip.dmaStopped_get]

theorem Chip.dmaStopped_keeps {j : Nat} (ch : Nat) (h : c.LossStopped j) : (c.dmaStopped ch).LossStopped j := by
  obtain ⟨off, loss⟩ := h
  constructor <;> simp [Chip.dmaStopped_get, off, loss]

/-- The registers of port `n` whose descriptors and transactions are forgotten. -/
def Chip.dmaDropped (c : Chip) (n : Nat) : Chip :=
  { c with
    dma := c.dma.filter fun x => x.chan / 8 ≠ n
    txns := c.txns.map fun t => if t.chan / 8 = n then { t with live := false } else t }

theorem Chip.dmaLoss_eq : c.dmaLoss n = (dmaChans n).foldl Chip.dmaStopped (c.dmaDropped n) := rfl

theorem Chip.dmaLoss_only : Chip.Only dmaLossFields c (c.dmaLoss n) := by
  have dropped : Chip.Only dmaLossFields c (c.dmaDropped n) := ⟨fun _ _ _ => rfl, rfl, rfl, rfl⟩
  rw [Chip.dmaLoss_eq]
  exact dropped.trans (Chip.Spares.fold _ _ _ fun ch _ d => d.dmaStopped_only ch)

/-- Every channel of the port stops with LOSS = 1. -/
theorem Chip.dmaLoss_stopped {ch : Nat} (hch : ch < 8) : (c.dmaLoss n).LossStopped (n * 8 + ch) := by
  rw [Chip.dmaLoss_eq]
  exact foldl_reaches (J := fun _ => True) Chip.dmaStopped (n * 8 + ch) (fun _ _ h => h) (fun d k h => d.dmaStopped_keeps k h) (fun d _ => d.dmaStopped_reaches _) _
    (List.mem_map.mpr ⟨ch, List.mem_range.mpr hch, rfl⟩) _ trivial

theorem Chip.sinkLost_only : Chip.Only sinkLossFields c (c.sinkLost n) :=
  .cond ((Chip.Only.set (Chip.Only.set (.refl c) _ (by decide)) _ (by decide)).trans (Chip.Only.of_quiet (Chip.raise_quiet _ _))) (.refl c)

theorem Chip.abandon_only (W : List Fld) : Chip.Only W c (c.abandon n) := ⟨fun _ _ _ => rfl, rfl, rfl, rfl⟩

end

/-! Loads from a lost host -/

section
variable (c : Chip) (a : Arr) (m : Mem)

theorem dropLoading_only : Chip.Only [.RIM_SECT_STATE_STATE] c (dropLoading c m).1 :=
  Chip.Spares.foldOn Prod.fst _ _ (c, m) fun _ _ x => by
    split
    · exact Chip.Only.set (.refl _) _ (by simp)
    · exact .refl _

theorem streamFail_only (code w : Nat) : Chip.Only sourceLossFields c (streamFail code w c m).1 := by
  have dropped : Chip.Only sourceLossFields c (dropLoading c m).1 := (dropLoading_only c m).widen (by decide)
  have failed := Chip.Only.set (Chip.Only.set (Chip.Only.set (Chip.Only.set (Chip.Only.set dropped (f := .RIM_LD_STATUS_ERR) (i := 0) 1 (by decide))
    (f := .RIM_LD_STATUS_CODE) (i := 0) code (by decide)) (f := .RIM_LD_ERR_LOC_WORD) (i := 0) w (by decide)) (f := .RIM_LD_STATUS_BUSY) (i := 0) 0 (by decide))
    (f := .H_RS_STATE) (i := 0) 4 (by decide)
  have told := Chip.Spares.trans failed (Chip.Only.of_quiet (Chip.raise_quiet _ 223))
  unfold streamFail
  dsimp only
  split
  · exact told
  · exact told.trans ((Chip.finish_only _ .rimLd 0 _ _).widen (List.subset_append_right _ _))

theorem loadRefuse_only (p : Nat) (r : Refuse) : Chip.Only sourceLossFields c (loadRefuse p r c a m).1 := by
  have dropped : ∀ d : Chip, Chip.Only sourceLossFields d (d.dropImage p) := fun d => ⟨fun _ _ _ => rfl, rfl, rfl, rfl⟩
  have cleared : Chip.Only sourceLossFields c (((c.unsetAll imageFields p).dropImage p).set .PMP_STATUS_STATE p psEmpty) :=
    Chip.Only.set ((Chip.Only.unsetAll (.refl c) p (by decide)).trans (dropped _)) _ (by decide)
  have shown := Chip.Only.set (Chip.Only.set (Chip.Only.set cleared (f := .LDR_REFUSE_SECTION) (i := p) r.sect (by decide)) (f := .LDR_REFUSE_SUB) (i := p) r.sub
    (by decide)) (f := .LDR_REFUSE_OFF_OFFSET) (i := p) r.off (by decide)
  unfold loadRefuse loadClear Chip.showRefuse
  exact Chip.Spares.trans shown ((Chip.finish_only _ .ldr p _ _).widen (by decide))

theorem sourceFail_only (p : Nat) : Chip.Only sourceLossFields c (sourceFail p c a m).1 := by
  unfold sourceFail
  split
  · unfold rimSectionDone
    dsimp only
    rw [streamFail_state, if_neg (by decide)]
    exact (streamFail_only c m _ _).trans (loadRefuse_only _ a _ p _)
  · exact loadRefuse_only c a m p _

theorem sourcesLost_only (n : Nat) : Chip.Only sourceLossFields c (sourcesLost n c a m).1 :=
  Chip.Spares.foldOn Prod.fst _ _ (c, a, m) fun p _ x => by
    split
    · exact sourceFail_only x.1 x.2.1 x.2.2 p
    · exact .refl _

end

/-! A lost port -/

/-- What the loss of a port gives a value. -/
def portLossFields : List Fld := hostLossFields ++ dmaLossFields ++ sinkLossFields ++ sourceLossFields

/-- The registers of a lost port before the loads that read from it end. -/
def Chip.portGone (c : Chip) (n : Nat) : Chip := (((c.hostLoss n).dmaLoss n).sinkLost n).abandon n

section
variable (c : Chip) (a : Arr) (m : Mem) (n : Nat)

/-- What follows the stop of the channels. -/
theorem Chip.portGone_rest : Chip.Only sinkLossFields ((c.hostLoss n).dmaLoss n) (c.portGone n) := (Chip.sinkLost_only _ n).trans (Chip.abandon_only _ n _)

theorem portLost_only : Chip.Only portLossFields c (portLost n c a m).1 := by
  have gone : Chip.Only portLossFields c (c.portGone n) :=
    ((c.hostLoss_only n).widen (by decide)).trans (((Chip.dmaLoss_only _ n).widen (by decide)).trans ((c.portGone_rest n).widen (by decide)))
  unfold portLost
  split
  · exact .refl c
  · exact gone.trans ((sourcesLost_only _ a m n).widen (by decide))

theorem portLost_lost : (portLost n c a m).1.on .H_LOST n = true := by
  by_cases h : c.on .H_LOST n = true
  · unfold portLost
    rwa [if_pos h]
  · unfold Chip.on
    rw [(portLost_steady n c a m (by simpa using h)).get .H_LOST n rfl, Chip.get_set_same]
    rfl

end

/-! A port that is reset -/

/-- What a reset of a port gives a value. -/
def portResetFields : List Fld :=
  [.MSIX_ADDR_LO_ADDR, .MSIX_ADDR_HI_ADDR, .MSIX_DATA_DATA, .MSIX_CTRL_MASK, .MSIX_PBA_BIT] ++ dmaLossFields ++
    [.DMA_CH_DESC_BASE_ADDR, .DMA_CH_CPL_BASE_ADDR, .DMA_CH_RING_LOG2, .DMA_CH_PI_PI, .DMA_CH_STATUS_CFG_REJ, .DMA_CH_STATUS_ERR, .H_DMA_PASS] ++
    [.MBX_STATUS_SRESET, .H_MBX_STAGE, .MBX_STATUS_RRESET, .MBX_STATUS_SNAP] ++
    [.H_BAR2_OUT, .GLB_BAR2_SEL_CFG_REJ, .GLB_BAR2_SEL_WIN, .GLB_BAR2_SEL_PART, .GLB_ACC_ERR_COUNT, .GLB_ACC_LOC_VALID, .GLB_ACC_LOC_BAR2, .GLB_ACC_LOC_WRITE,
     .GLB_ACC_LOC_OFFSET]

/-- What a reset of port `n` leaves of its DMA channels, its vectors and its BAR2. -/
structure Chip.PortCleared (n : Nat) (c : Chip) : Prop where
  stopped : ∀ ch < 8, c.LossStopped (n * 8 + ch)
  masked : ∀ v < 48, c.get .MSIX_CTRL_MASK (n * 48 + v) = Fld.reset .MSIX_CTRL_MASK
  window : c.get .GLB_BAR2_SEL_WIN n = Fld.reset .GLB_BAR2_SEL_WIN

theorem Chip.PortCleared.keep {n : Nat} {c d : Chip} (h : c.PortCleared n) {W : List Fld} (k : Chip.Only W c d)
    (hW : ∀ f ∈ [Fld.DMA_CH_CTL_EN, .DMA_CH_STATUS_LOSS, .MSIX_CTRL_MASK, .GLB_BAR2_SEL_WIN], f ∉ W) : d.PortCleared n where
  stopped ch hch := ⟨(k.get _ rfl (hW _ (by decide))).trans (h.stopped ch hch).1, (k.get _ rfl (hW _ (by decide))).trans (h.stopped ch hch).2⟩
  masked v hv := (k.get _ rfl (hW _ (by decide))).trans (h.masked v hv)
  window := (k.get _ rfl (hW _ (by decide))).trans h.window

section
variable (c : Chip) (n : Nat)

theorem Chip.msixReset_only : Chip.Only [.MSIX_ADDR_LO_ADDR, .MSIX_ADDR_HI_ADDR, .MSIX_DATA_DATA, .MSIX_CTRL_MASK, .MSIX_PBA_BIT] c (c.msixReset n) := by
  unfold Chip.msixReset
  exact Chip.Only.clearWhere (Chip.Only.clearAll (.refl c) _ (by decide)) _ (by decide)

/-- Every vector of the port is masked. -/
theorem Chip.msixReset_masked {v : Nat} (hv : v < 48) : (c.msixReset n).get .MSIX_CTRL_MASK (n * 48 + v) = Fld.reset .MSIX_CTRL_MASK := by
  have hport : (n * 48 + v) / 48 = n := by omega
  simp [Chip.msixReset, Chip.get_clearWhere, hport]

/-- What follows the stop of the port's channels. -/
theorem Chip.dmaReset_rest : Chip.Only [.DMA_CH_DESC_BASE_ADDR, .DMA_CH_CPL_BASE_ADDR, .DMA_CH_RING_LOG2, .DMA_CH_PI_PI, .DMA_CH_STATUS_CFG_REJ, .DMA_CH_STATUS_ERR,
    .H_DMA_PASS] (c.dmaLoss n) (c.dmaReset n) :=
  Chip.Spares.fold _ _ _ fun ch _ d => Chip.Only.unsetAll (.refl d) ch (by simp)

theorem Chip.mbxReset_only (side : MbxEnd) : Chip.Only [.MBX_STATUS_SRESET, .H_MBX_STAGE, .MBX_STATUS_RRESET, .MBX_STATUS_SNAP] c (c.mbxReset side n) := by
  cases side with
  | sender =>
    exact Chip.Spares.trans (.cond (Chip.Only.set (.refl c) 1 (by simp)) (.refl c)) (Chip.Spares.fold _ _ _ fun _ _ d => Chip.Only.set (.refl d) 0 (by simp))
  | receiver => exact Chip.Only.set (.cond (Chip.Only.set (.refl c) 1 (by simp)) (.refl c)) 0 (by simp)

theorem Chip.mbxPortReset_only : Chip.Only [.MBX_STATUS_SRESET, .H_MBX_STAGE, .MBX_STATUS_RRESET, .MBX_STATUS_SNAP] c (c.mbxPortReset n) :=
  Chip.Spares.fold _ _ c fun k _ d => .cond (d.mbxReset_only k _) (.refl d)

/-- The registers of a port whose MSI-X and DMA registers have been reset. -/
def Chip.portStopped (c : Chip) (n : Nat) : Chip := (c.msixReset n).dmaReset n

theorem Chip.portReset_rest : Chip.Only ([.MBX_STATUS_SRESET, .H_MBX_STAGE, .MBX_STATUS_RRESET, .MBX_STATUS_SNAP] ++
    [.H_BAR2_OUT, .GLB_BAR2_SEL_CFG_REJ, .GLB_BAR2_SEL_WIN, .GLB_BAR2_SEL_PART, .GLB_ACC_ERR_COUNT, .GLB_ACC_LOC_VALID, .GLB_ACC_LOC_BAR2, .GLB_ACC_LOC_WRITE,
     .GLB_ACC_LOC_OFFSET]) (c.portStopped n) (c.portReset n) := by
  have latches : ∀ (W : List Fld) (d : Chip), Chip.Only W d ((d.dropLatches n).abandon n) := fun _ d => ⟨fun _ _ _ => rfl, rfl, rfl, rfl⟩
  exact Chip.Only.unsetAll (((Chip.mbxPortReset_only _ n).widen (List.subset_append_left _ _)).trans (latches _ _)) n (List.subset_append_right _ _)

theorem Chip.portReset_only : Chip.Only portResetFields c (c.portReset n) :=
  ((c.msixReset_only n).widen (by decide)).trans <| ((Chip.dmaLoss_only _ n).widen (by decide)).trans <|
    ((Chip.dmaReset_rest _ n).widen (by decide)).trans ((c.portReset_rest n).widen (by decide))

theorem Chip.portReset_cleared : (c.portReset n).PortCleared n where
  stopped ch hch := by
    obtain ⟨off, loss⟩ := (c.msixReset n).dmaLoss_stopped n hch
    have kept := Chip.dmaReset_rest (c.msixReset n) n
    have rest := c.portReset_rest n
    exact ⟨(rest.get _ rfl (by decide)).trans ((kept.get _ rfl (by decide)).trans off), (rest.get _ rfl (by decide)).trans ((kept.get _ rfl (by decide)).trans loss)⟩
  masked v hv := by
    have kept := Chip.dmaReset_rest (c.msixReset n) n
    rw [(c.portReset_rest n).get _ rfl (by decide)]
    exact (kept.get _ rfl (by decide)).trans (((Chip.dmaLoss_only _ n).get _ rfl (by decide)).trans (c.msixReset_masked n hv))
  window := by
    unfold Chip.portReset
    rw [Chip.get_unsetAll, if_pos ⟨by decide, rfl⟩]
    rfl

/-- A lost port stays reset: where its host is lost now, its channels stop once more. -/
theorem portLost_cleared (a : Arr) (m : Mem) (h : c.PortCleared n) : (portLost n c a m).1.PortCleared n where
  stopped ch hch := by
    unfold portLost
    split
    · exact h.stopped ch hch
    obtain ⟨off, loss⟩ := (c.hostLoss n).dmaLoss_stopped n hch
    have gone := c.portGone_rest n
    have sources := sourcesLost_only (c.portGone n) a m n
    exact ⟨(sources.get _ rfl (by decide)).trans ((gone.get _ rfl (by decide)).trans off), (sources.get _ rfl (by decide)).trans ((gone.get _ rfl (by decide)).trans loss)⟩
  masked v hv := ((portLost_only c a m n).get _ rfl (by decide)).trans (h.masked v hv)
  window := ((portLost_only c a m n).get _ rfl (by decide)).trans h.window

/-- The registers of a port whose link has left, before its interrupt. -/
def Chip.linkGone (c : Chip) (n : Nat) : Chip := (((c.set .H_LINKUP n 0).set .DMA_PORT_STATUS_SPEED n 0).set .DMA_PORT_STATUS_WIDTH n 0).portReset n

theorem Chip.linkLeaves_quiet : Chip.Quiet (c.linkGone n) (c.linkLeaves n) := .cond (Chip.raise_quiet _ _) (.refl _)

theorem Chip.linkLeaves_cleared : (c.linkLeaves n).PortCleared n :=
  (Chip.portReset_cleared _ n).keep (Chip.Only.of_quiet (W := []) (c.linkLeaves_quiet n)) (by simp)

/-- What follows the fall of the link's state. -/
theorem Chip.linkLeaves_rest : Chip.Only ([.DMA_PORT_STATUS_SPEED, .DMA_PORT_STATUS_WIDTH] ++ portResetFields) (c.set .H_LINKUP n 0) (c.linkLeaves n) := by
  have told : Chip.Only [.DMA_PORT_STATUS_SPEED, .DMA_PORT_STATUS_WIDTH] (c.set .H_LINKUP n 0)
      (((c.set .H_LINKUP n 0).set .DMA_PORT_STATUS_SPEED n 0).set .DMA_PORT_STATUS_WIDTH n 0) :=
    Chip.Only.set (Chip.Only.set (.refl _) 0 (by simp)) 0 (by simp)
  exact ((told.widen (List.subset_append_left _ _)).trans ((Chip.portReset_only _ n).widen (List.subset_append_right _ _))).trans
    (Chip.Only.of_quiet (c.linkLeaves_quiet n))

theorem Chip.linkLeaves_linkup : (c.linkLeaves n).get .H_LINKUP n = 0 :=
  ((c.linkLeaves_rest n).get n rfl (by decide)).trans ((Chip.get_set_same _ _ _ _).trans (Fld.clip_zero _))

/-- What the fall of a link leaves as it was. -/
theorem Chip.linkLeaves_get {f : Fld} (j : Nat) (hs : f.signal = false) (hup : f ≠ .H_LINKUP) (hf : f ∉ [.DMA_PORT_STATUS_SPEED, .DMA_PORT_STATUS_WIDTH] ++ portResetFields) :
    (c.linkLeaves n).get f j = c.get f j :=
  ((c.linkLeaves_rest n).get j hs hf).trans (Chip.get_set_ne _ _ fun h => hup h.1)

theorem Chip.linkLeaves_now : (c.linkLeaves n).now = c.now := (c.linkLeaves_rest n).now

end

end Sys2Proof.Machine
end
section
/-! PROOFS. Port resets and host losses (O47). -/

namespace Sys2Proof.Machine

/-- What the statement shows of a port that has been reset, for one channel and one vector. -/
theorem Chip.PortCleared.shown {c : Chip} {n : Fin 4} (h : c.PortCleared n) (ch : Fin 8) (v : Fin 48) :
    c.get .DMA_CH_CTL_EN (n * 8 + ch) = 0 ∧ c.get .DMA_CH_STATUS_LOSS (n * 8 + ch) = 1 ∧
      c.get .MSIX_CTRL_MASK (n * 48 + v) = Fld.reset .MSIX_CTRL_MASK ∧ c.get .GLB_BAR2_SEL_WIN n = Fld.reset .GLB_BAR2_SEL_WIN :=
  ⟨(h.stopped ch ch.isLt).1, (h.stopped ch ch.isLt).2, h.masked v v.isLt, h.window⟩

section
variable {c : Chip} {n : Nat} (a : Arr) (m : Mem)

/-- The registers of a port held in reset, before its host is lost. -/
def Chip.portHeld (c : Chip) (n : Nat) : Chip := (c.linkLeaves n).set .H_LINK_DUE n 0

theorem perstAssert_of_running (hexists : c.portExists n = true) (hperst : c.on .H_PERST n = false) :
    perstAssert n c a m = portLost n ((c.set .H_PERST n 1).portHeld n) a m := by
  simp [perstAssert, portHold, hexists, hperst, Chip.portHeld]

theorem linkTimeout_of_due (hdue : c.due .H_LINK_DUE n = true) (hdown : c.on .H_LINKUP n = false) :
    linkTimeout n c a m = portLost n (c.set .H_LINK_DUE n 0) a m := by
  simp [linkTimeout, hdue, hdown]

/-- A width that a port trains to is at most 16. -/
theorem Chip.width_of_widthOk {w : Nat} (h : c.widthOk w = true) : w ≤ 16 := by
  simp only [Chip.widthOk, Bool.or_eq_true, Bool.and_eq_true, decide_eq_true_eq] at h
  omega

/-- The registers of a port whose link has trained, before its interrupt. -/
def Chip.trained (c : Chip) (n speed width : Nat) : Chip :=
  ((((c.set .H_LINKUP n 1).set .H_LOST n 0).set .H_LINK_DUE n 0).set .DMA_PORT_STATUS_SPEED n speed).set .DMA_PORT_STATUS_WIDTH n width

theorem Chip.linkReturn_of_mayTrain {speed width : Nat} (htrain : c.mayTrain n = true) (hdown : c.on .H_LINKUP n = false) (hslow : 1 ≤ speed) (hfast : speed ≤ 6)
    (hwidth : c.widthOk width = true) : c.linkReturn n speed width = (c.trained n speed width).raise (164 + n) := by
  simp [Chip.linkReturn, htrain, hdown, hslow, hfast, hwidth, Chip.trained]

end

/-- Settles O47: whatever resets a port clears it in one way, and the loss of its host undoes none of that. -/
theorem portResetsAndHostLosses : Obligations.PortResetsAndHostLosses := by
  intro n ch v speed width s isReset
  refine ⟨fun hexists hperst => ?perst, rfl, fun hup => ?down, fun hdue hdown => ?timeout, fun hexists => ?removal, fun hup => ?flr,
    fun htrain hdown hslow hwidth => ?trained⟩
  case perst =>
    have hrun := perstAssert_of_running s.arr s.mem hexists hperst
    have lost := portLost_only ((s.chip.set .H_PERST n 1).portHeld n) s.arr s.mem n
    have due : Chip.Only [.H_LINK_DUE] ((s.chip.set .H_PERST n 1).linkLeaves n) ((s.chip.set .H_PERST n 1).portHeld n) := Chip.Only.set (.refl _) 0 (by simp)
    have cleared := portLost_cleared _ n s.arr s.mem (((s.chip.set .H_PERST n 1).linkLeaves_cleared n).keep due (by decide))
    refine ⟨s.onAll (perstAssert n), rfl, ?_⟩
    unfold State.onAll
    rw [hrun]
    refine ⟨cleared.shown ch v, ?_, ?_, portLost_lost _ _ _ _⟩
    · exact (lost.get n rfl (by decide)).trans ((due.get n rfl (by decide)).trans ((Chip.linkLeaves_get _ n n rfl (by decide) (by decide)).trans (Chip.get_set_same _ _ _ _)))
    · exact (lost.get n rfl (by decide)).trans ((due.get n rfl (by decide)).trans (Chip.linkLeaves_linkup _ n))
  case down =>
    have hrun : s.chip.linkDown n = (s.chip.linkLeaves n).set .H_LINK_DUE n (s.chip.now + 1000 * Chip.us + 1) := by
      rw [Chip.linkDown, if_pos hup, Chip.setDue, Chip.linkLeaves_now]
    have due : Chip.Only [.H_LINK_DUE] (s.chip.linkLeaves n) ((s.chip.linkLeaves n).set .H_LINK_DUE n (s.chip.now + 1000 * Chip.us + 1)) :=
      Chip.Only.set (.refl _) _ (by simp)
    refine does_of_onChip rfl hrun ⟨((s.chip.linkLeaves_cleared n).keep due (by decide)).shown ch v, ?_, ?_, ?_, rfl, rfl⟩
    · exact (due.get n rfl (by decide)).trans (s.chip.linkLeaves_linkup n)
    · exact (Chip.get_set_same _ _ _ _).trans (Fld.clip_of_unbounded rfl _)
    · exact (due.get n rfl (by decide)).trans (s.chip.linkLeaves_get n n rfl (by decide) (by decide))
  case timeout =>
    have hrun := linkTimeout_of_due s.arr s.mem hdue hdown
    refine ⟨s.onAll (linkTimeout n), rfl, ?_⟩
    unfold State.onAll
    rw [hrun]
    refine ⟨portLost_lost _ _ _ _, ((portLost_only _ s.arr s.mem n).get n rfl (by decide)).trans ((Chip.get_set_same _ _ _ _).trans (Fld.clip_zero _))⟩
  case removal =>
    have hrun : surpriseRemoval n s.chip s.arr s.mem = portLost n s.chip s.arr s.mem := if_pos hexists
    refine ⟨s.onAll (surpriseRemoval n), rfl, ?_⟩
    unfold State.onAll
    rw [hrun]
    exact ⟨portLost_lost _ _ _ _, (portLost_only _ s.arr s.mem n).get n rfl (by decide)⟩
  case flr =>
    have hrun : s.chip.functionReset n = (s.chip.portReset n).raise (164 + n) := if_pos hup
    have told : Chip.Only [] (s.chip.portReset n) ((s.chip.portReset n).raise (164 + n)) := Chip.Only.of_quiet (Chip.raise_quiet _ _)
    have reset := s.chip.portReset_only n
    generalize (s.chip.portReset n).raise (164 + n) = d at hrun told
    refine does_of_onChip rfl hrun ⟨((s.chip.portReset_cleared n).keep told (by simp)).shown ch v, ?_, ?_, rfl, rfl⟩
    · exact (told.get n rfl (by simp)).trans (reset.get n rfl (by decide))
    · exact (told.get n rfl (by simp)).trans (reset.get n rfl (by decide))
  case trained =>
    have hrun := Chip.linkReturn_of_mayTrain htrain hdown hslow (Nat.le_of_lt_succ speed.isLt) hwidth
    have quiet := (s.chip.trained n speed width).raise_quiet (164 + n)
    have hspeed : Fld.DMA_PORT_STATUS_SPEED.clip speed.val = speed.val := Fld.clip_lt (lt_trans speed.isLt (by decide))
    have hlanes : Fld.DMA_PORT_STATUS_WIDTH.clip width.val = width.val := Fld.clip_lt (lt_of_le_of_lt (Chip.width_of_widthOk hwidth) (by decide))
    generalize (s.chip.trained n speed width).raise (164 + n) = d at hrun quiet
    refine does_of_onChip rfl hrun ⟨(quiet.get .H_LINKUP n rfl).trans ?_, (quiet.get .H_LOST n rfl).trans ?_, (quiet.get .DMA_PORT_STATUS_SPEED n rfl).trans ?_,
      (quiet.get .DMA_PORT_STATUS_WIDTH n rfl).trans ?_, ?_, rfl, rfl⟩
    · simp [Chip.trained, Chip.get_set]
      rfl
    · simp [Chip.trained, Chip.get_set, Fld.clip_zero]
    · simp [Chip.trained, Chip.get_set, hspeed]
    · simp [Chip.trained, hlanes]
    · exact (((((Keeps.refl _ _).set _ (by simp)).set _ (by simp)).set _ (by simp)).set _ (by simp) |>.set _ (by simp)).quiet quiet

end Sys2Proof.Machine
end
section
/-! PROOFS. Accesses of the memory port agents: their issue in slot order, what each takes and writes, and the arrival of a return (O12, O13). -/

namespace Sys2Proof.Machine

/-! The issue of a step -/

section
variable {kind g p st : Nat} {c : Chip} {a : Arr} {m : Mem} {s : State} {i : Instr}

/-- Whichever access of a step is named, all agents of the partition issue (R145, R151). -/
theorem exec_of_agentCommand (hexec : exec i s = .next (s.onAll (agentCommand kind g))) (howner : s.chip.tileOwner (g / 4) = some p)
    (hrun : s.chip.pumpState p = psRun) (hentry : entryIssue (s.arr.entry (.agent (g / 4) (g % 4)) (s.chip.stepNow p)) = kind) :
    let all := agentsExec p (s.chip.stepNow p) s.chip s.arr s.mem
    exec i s = .next { s with chip := all.1, arr := all.2.1, mem := all.2.2 } := by
  have hall : agentCommand kind g s.chip s.arr s.mem = agentsExec p (s.chip.stepNow p) s.chip s.arr s.mem := by
    simp [agentCommand, howner, hrun, hentry]
  rw [hexec, State.onAll, hall]

/-- An agent that is alone in its step: what its issue leaves is what the command leaves. -/
theorem AgentIssues.exec_eq (h : AgentIssues kind g p s) (hexec : exec i s = .next (s.onAll (agentCommand kind g)))
    (hissue : agentIssue p (s.chip.stepNow p) g s.chip s.arr s.mem = (c, a, m)) : exec i s = .next { s with chip := c, arr := a, mem := m } := by
  have hall : agentsExec p (s.chip.stepNow p) s.chip s.arr s.mem = (c, a, m) := by
    rw [agentsExec, h.alone]
    exact hissue
  rw [exec_of_agentCommand hexec h.owner h.run h.entry, hall]

variable (hfresh : c.on .H_STEP_DONE (agentDone g) = false)
include hfresh

theorem agentIssue_cread (hentry : entryIssue (a.entry (.agent (g / 4) (g % 4)) st) = issCread) :
    agentIssue p st g c a m = issueCread p g (c.set .H_STEP_DONE (agentDone g) 1) a m := by
  simp [agentIssue, hfresh, hentry, issCread]

theorem agentIssue_cwrite (hentry : entryIssue (a.entry (.agent (g / 4) (g % 4)) st) = issCwrite) :
    agentIssue p st g c a m = issueCwrite p g (c.set .H_STEP_DONE (agentDone g) 1) a m := by
  simp [agentIssue, hfresh, hentry, issCwrite]

theorem agentIssue_dread (hentry : entryIssue (a.entry (.agent (g / 4) (g % 4)) st) = issDread) :
    agentIssue p st g c a m = issueDread p g (c.set .H_STEP_DONE (agentDone g) 1) a m := by
  simp [agentIssue, hfresh, hentry, issDread]

theorem agentIssue_dwrite (hentry : entryIssue (a.entry (.agent (g / 4) (g % 4)) st) = issDwrite) :
    agentIssue p st g c a m = issueDwrite p g (c.set .H_STEP_DONE (agentDone g) 1) a m := by
  simp [agentIssue, hfresh, hentry, issDwrite]

end

theorem agent_div_four (tile : Fin 512) (agent : Fin 4) : (tile.val * 4 + agent.val) / 4 = tile.val := by omega

theorem agent_mod_four (tile : Fin 512) (agent : Fin 4) : (tile.val * 4 + agent.val) % 4 = agent.val := by omega

/-! Cistern words -/

theorem length_toBytes (n v : Nat) : (toBytes n v).length = n := by
  induction n generalizing v with
  | zero => rfl
  | succ n ih => simp [toBytes, ih]

/-- A read of a cistern word changes at most its error mark (R159). -/
theorem Mem.cisRead_frame (m : Mem) (w : Nat) : { (m.cisRead w).2 with cisErr := m.cisErr } = m := by
  unfold Mem.cisRead
  split <;> rfl

@[simp] theorem Mem.cisRead_cistern (m : Mem) (w : Nat) : (m.cisRead w).2.cistern = m.cistern :=
  (congrArg Mem.cistern (m.cisRead_frame w) :)

/-- A whole word is written without a read. -/
theorem writeCis_whole (c : Chip) (m : Mem) (p a x net : Nat) {d : List Byte} (hd : d.length = 8) :
    writeCis c m p a x net d = ⟨.ok, [], c, { m with cistern := Memory.writeN m.cistern x d, cisErr := NatMap.put 0 m.cisErr (x / 8) 0 }⟩ := if_pos hd

/-- Settles O12: the agents of a step issue together, and a cistern access is performed in its slot. -/
theorem cisternAccessesOfAgents : Obligations.CisternAccessesOfAgents := by
  intro tile agent p s g
  have htile : g / 4 = tile.val := agent_div_four tile agent
  have hagent : g % 4 = agent.val := agent_mod_four tile agent
  have hword (w : Nat) : cisAddr (g / 4) w = tile.val * 0x80000 + w * 8 := by rw [htile]; rfl
  refine ⟨fun howner hrun => ?together, ?words⟩
  case together =>
    intro st all kind next
    have hentry : entryIssue (s.arr.entry (.agent (g / 4) (g % 4)) st) = kind := by rw [htile, hagent]
    have named {k : Nat} {i : Instr} (hexec : exec i s = .next (s.onAll (agentCommand k g))) (h : kind = k) : exec i s = next :=
      exec_of_agentCommand hexec howner hrun (hentry.trans h)
    exact ⟨named rfl, named rfl, named rfl, named rfl⟩
  case words =>
    intro x
    refine ⟨fun h => ?read, fun h => ?write⟩
    case read =>
      refine ⟨_, h.exec_eq rfl (agentIssue_cread h.fresh h.entry), ?_, Mem.cisRead_frame _ _⟩
      simp [Arr.await, readCis, hword, Chip.get_set, g, x]
    case write =>
      have hissue := agentIssue_cwrite (p := p) (m := s.mem) h.fresh h.entry
      rw [issueCwrite, writeCis_whole _ _ _ _ _ _ (length_toBytes 8 _)] at hissue
      refine ⟨_, h.exec_eq rfl hissue, ?_, rfl, fun y => ?_, rfl, rfl, rfl, rfl⟩
      · simp [Arr.await, Chip.get_set, g]
      · rw [Memory.read_writeN, length_toBytes, hword]

/-! Deep memory -/

section
variable {c : Chip} {m : Mem} {k off : Nat}

/-- `t` is `m` but for error marks of deep memory. -/
def Mem.DeepMarked (m t : Mem) : Prop := { t with deepErr := m.deepErr } = m

theorem Mem.DeepMarked.cond {p : Prop} [Decidable p] {x y : Ecc × Chip × Mem} (hx : m.DeepMarked x.2.2) (hy : m.DeepMarked y.2.2) :
    m.DeepMarked (if p then x else y).2.2 := by
  split
  · exact hx
  · exact hy

/-- A read of a unit of deep memory changes at most its error mark (R157, R159). -/
theorem deepRead_deepMarked (c : Chip) (m : Mem) (k off u : Nat) : m.DeepMarked (deepRead c m k off u).2.2 := by
  unfold deepRead
  split
  · rfl
  · split
    · split <;> rfl
    · dsimp only
      split
      · rfl
      · rfl
      · exact .cond rfl rfl

/-- With a channel alive the bytes are delivered as they stand. -/
theorem readDeep_alive (h : c.deepDead k off = false) (p a g n net : Nat) :
    (readDeep c m p a k g off n net).data = Memory.readN m.deep (deepKey k g off) n ∧ (readDeep c m p a k g off n net).status ≠ .dmChannel ∧
      m.DeepMarked (readDeep c m p a k g off n net).mem := by
  have marked := deepRead_deepMarked c m k off (deepKey k g off / 32)
  have hdeep : (deepRead c m k off (deepKey k g off / 32)).2.2.deep = m.deep := (congrArg Mem.deep marked :)
  simp only [readDeep, h, Bool.false_eq_true, if_false, hdeep]
  refine ⟨trivial, ?_, marked⟩
  split <;> simp

/-- A part of a unit without an error mark is merged. -/
theorem writeDeep_of_good {g : Nat} (h : c.deepDead k off = false) (hgood : NatMap.find 0 m.deepErr (deepKey k g off / 32) = 0) (p a net : Nat) {d : List Byte}
    (hd : d.length ≠ 32) : writeDeep c m p a k g off net d =
      ⟨.ok, [], c, { m with deep := Memory.writeN m.deep (deepKey k g off) d, deepErr := NatMap.put 0 m.deepErr (deepKey k g off / 32) 0 }⟩ := by
  simp [writeDeep, h, hd, deepRead, hgood, Chip.deepReport]

end

/-! Issue of deep accesses -/

section
variable {c : Chip} {a : Arr} {m : Mem} {p g st gr off : Nat} (hlow : NatMap.find 0 a.addr g * 8 < cisternBase)
  (hplace : c.place p (NatMap.find 0 a.addr g * 8) false = .deep st gr off) (halive : c.deepDead st off = false)
  (hcut : c.cutOff (g / 4) (c.routerDeep st off) = false)
include hlow hplace halive hcut

/-- A deep read takes its bytes as it is issued, and has not arrived. -/
theorem issueDread_of_alive : ∃ d t, m.DeepMarked t ∧ issueDread p g c a m =
    (d, a.await { agent := g, kind := issDread, place := a.freePlace g, left := c.get .DM_STATUS_LD p, data := ofBytes (Memory.readN m.deep (deepKey st gr off) 8),
                  since := c.now, target := c.routerDeep st off, deepCh := c.deepChannel st off }, t) := by
  obtain ⟨hdata, hstatus, marked⟩ := readDeep_alive (m := m) halive p (NatMap.find 0 a.addr g * 8) gr 8 0
  exact ⟨(readDeep c m p (NatMap.find 0 a.addr g * 8) st gr off 8 0).chip, _, marked, by simp [issueDread, hlow, hplace, hcut, hdata, hstatus]⟩

/-- A deep write into a unit without an error mark is merged as it is issued, and has not been acknowledged. -/
theorem issueDwrite_of_good (hgood : NatMap.find 0 m.deepErr (deepKey st gr off / 32) = 0) : issueDwrite p g c a m =
    (c, a.await { agent := g, kind := issDwrite, place := a.freePlace g, left := c.get .DM_STATUS_LD p, since := c.now, target := c.routerDeep st off,
                  deepCh := c.deepChannel st off },
      { m with deep := Memory.writeN m.deep (deepKey st gr off) (toBytes 8 (NatMap.find 0 a.wdata g)),
               deepErr := NatMap.put 0 m.deepErr (deepKey st gr off / 32) 0 }) := by
  have hwrite := writeDeep_of_good halive hgood p (NatMap.find 0 a.addr g * 8) 0 (d := toBytes 8 (NatMap.find 0 a.wdata g)) (by simp [length_toBytes])
  simp [issueDwrite, hlow, hplace, hcut, hwrite]

end

/-! Returns -/

/-- An arrival where nothing is to be discarded marks its place, and drops no access. -/
theorem deepArrival_of_live {a : Arr} (hlive : ∀ y ∈ a.accs, y.live = true) (g k : Nat) :
    deepArrival g k a = { a with accs := a.accs.map fun y => if y.agent = g ∧ 3 ≤ y.kind ∧ y.place = k then { y with arrived := true } else y } := by
  unfold deepArrival
  rw [List.filter_eq_self.mpr]
  intro y hy
  obtain ⟨z, hz, rfl⟩ := List.mem_map.mp hy
  have hkeep : (if z.agent = g ∧ 3 ≤ z.kind ∧ z.place = k then { z with arrived := true } else z).live = z.live := by split <;> rfl
  rw [hkeep, hlive z hz]
  rfl

/-- Settles O13: a deep access is performed as it is issued, and its return comes later. -/
theorem deepAccessesOfAgents : Obligations.DeepAccessesOfAgents := by
  intro tile agent p st gr off s g c
  have htile : g / 4 = tile.val := agent_div_four tile agent
  refine ⟨fun hlow hplace halive hcut => ⟨fun h => ?read, fun h hgood => ?write⟩, fun place x hfind hcut hlive => ?arrival⟩
  case read =>
    obtain ⟨d, t, marked, hread⟩ := issueDread_of_alive (m := s.mem) hlow hplace halive hcut
    refine ⟨_, h.exec_eq rfl ((agentIssue_dread h.fresh h.entry).trans hread), ?_, marked⟩
    simp [Arr.await, Chip.get_set, c]
  case write =>
    refine ⟨_, h.exec_eq rfl ((agentIssue_dwrite h.fresh h.entry).trans (issueDwrite_of_good hlow hplace halive hcut hgood)), ?_, rfl, fun y => ?_, rfl, rfl, rfl, rfl⟩
    · simp [Arr.await, Chip.get_set, c]
    · rw [Memory.read_writeN, length_toBytes]
  case arrival =>
    have hreturn : deepReturn g place.val s.chip s.arr = deepArrival g place.val s.arr := by simp [deepReturn, hfind, htile, hcut]
    show Host.Outcome.next (s.onArr fun c a => (c, deepReturn g place.val c a)) = _
    rw [State.onArr, hreturn, deepArrival_of_live hlive]

end Sys2Proof.Machine
end
section
/-! PROOFS. Network reads, writes and atomics of cistern words, and accesses that wait for a tag or stay in flight (O31). -/

namespace Sys2Proof.Machine

/-! What a write of a cistern word leaves alone -/

/-- The memories of `t` are those of `m` with the bytes `d` put into the cisterns at `y`. -/
structure Mem.CisPut (m : Mem) (y : Nat) (d : List Byte) (t : Mem) : Prop where
  written : m.CisWritten y d t
  frame : { t with cistern := m.cistern, cisErr := m.cisErr } = m

namespace Mem.CisPut

variable {m t : Mem} {y : Nat} {d : List Byte}

theorem nil (m : Mem) (y : Nat) : m.CisPut y [] m := ⟨rfl, rfl⟩

theorem read (h : m.CisPut y d t) (z : Nat) :
    Memory.read t.cistern z = if y ≤ z ∧ z < y + d.length then d.getD (z - y) 0 else Memory.read m.cistern z := by
  rw [show t.cistern = _ from h.written, Memory.read_writeN]

theorem rest (h : m.CisPut y d t) : t.deep = m.deep ∧ t.sram = m.sram ∧ t.vault = m.vault ∧ t.rim = m.rim :=
  ⟨(congrArg Mem.deep h.frame :), (congrArg Mem.sram h.frame :), (congrArg Mem.vault h.frame :), (congrArg Mem.rim h.frame :)⟩

end Mem.CisPut

section
variable {c : Chip} {m : Mem} {p a y : Nat}

/-- A write of a cistern word changes that cistern and its error marks, and returns no bytes. -/
theorem writeCis_frame (c : Chip) (m : Mem) (p a y net : Nat) (d : List Byte) :
    { (writeCis c m p a y net d).mem with cistern := m.cistern, cisErr := m.cisErr } = m ∧ (writeCis c m p a y net d).data = [] := by
  unfold writeCis
  split
  · exact ⟨rfl, rfl⟩
  · have hread := m.cisRead_frame (y / 8)
    dsimp only
    split
    · exact ⟨congrArg (fun n : Mem => { n with cistern := m.cistern, cisErr := m.cisErr }) hread, rfl⟩
    · exact ⟨congrArg (fun n : Mem => { n with cistern := m.cistern, cisErr := m.cisErr }) hread, rfl⟩

/-- Bytes written into a word without an error mark stand there. -/
theorem writeCis_puts (h : NatMap.find 0 m.cisErr (y / 8) = 0) (net : Nat) (d : List Byte) :
    ∃ t, writeCis c m p a y net d = ⟨.ok, [], c, t⟩ ∧ m.CisPut y d t := by
  obtain ⟨t, hwrite, written⟩ := writeCis_of_good (c := c) (p := p) (a := a) h net d
  have frame := (writeCis_frame c m p a y net d).1
  rw [hwrite] at frame
  exact ⟨t, hwrite, written, frame⟩

/-- A write within one cistern word is the write of that word. -/
theorem designWrite_cistern {net : Nat} {svc : Bool} {d : List Byte} (hplace : c.place p a svc = .cistern y) (hd : d ≠ []) (hfit : a % 8 + d.length ≤ 8) :
    designWrite p net svc d.length a d c m = writeCis c m p a y net d := by
  have silent (h : Hit) (hdata : h.data = []) : (⟨h.status, [], h.chip, h.mem⟩ : Hit) = h := by rw [← hdata]
  have hspan := unitSpan_cistern (Chip.place_cistern hplace).1 hfit
  obtain ⟨b, e, rfl⟩ := List.exists_cons_of_ne_nil hd
  rw [List.length_cons] at hspan
  simp only [designWrite, List.length_cons, hspan, hplace, List.take_succ_cons, List.take_length, List.drop_succ_cons, List.drop_length]
  cases e <;> exact (congrArg (fun st => (⟨st, [], _, _⟩ : Hit)) (Status.join_ok _)).trans (silent _ (writeCis_frame c m p a y net _).2)

theorem netWrite_cistern {svc : Bool} {d : List Byte} (hplace : c.place p a svc = .cistern y) (hd : d ≠ []) (hfit : a % 8 + d.length ≤ 8) :
    netWrite c m p a d svc = writeCis c m p a y 1 d := by
  simp [netWrite, crosses256_of_word hfit, hplace, designWrite_cistern hplace hd hfit]

/-- Bytes written over the network into a word without an error mark, or none, stand there. -/
theorem netWrite_puts {svc : Bool} {d : List Byte} (hplace : c.place p a svc = .cistern y) (hgood : NatMap.find 0 m.cisErr (y / 8) = 0)
    (hfit : a % 8 + d.length ≤ 8) : ∃ t, netWrite c m p a d svc = ⟨.ok, [], c, t⟩ ∧ m.CisPut y d t := by
  by_cases hd : d = []
  · subst hd
    have hwhole : crosses256 a 0 = false := crosses256_of_word hfit
    exact ⟨m, by simp [netWrite, hwhole, hplace, designWrite], .nil m y⟩
  · rw [netWrite_cistern hplace hd hfit]
    exact writeCis_puts hgood 1 d

/-- A network read of bytes of one word without an error mark, or of none. -/
theorem netRead_cistern {n : Nat} {svc : Bool} (hplace : c.place p a svc = .cistern y) (hgood : NatMap.find 0 m.cisErr (y / 8) = 0) (hfit : a % 8 + n ≤ 8) :
    netRead c m p a n svc = ⟨.ok, Memory.readN m.cistern y n, c, m⟩ := by
  rcases Nat.eq_zero_or_pos n with rfl | hn
  · simp [netRead, crosses256_of_word hfit, hplace, designRead, Memory.readN]
  · exact netRead_word hplace hgood hn hfit

/-- An atomic on an aligned word or half word without an error mark returns the old value and puts the new one there. -/
theorem netAtomic_cistern {n : Nat} {svc : Bool} (f : Nat → Nat) (hplace : c.place p a svc = .cistern y) (hgood : NatMap.find 0 m.cisErr (y / 8) = 0)
    (hfit : a % 8 + n ≤ 8) (halign : a % n = 0) :
    ∃ t, netAtomic c m p a n svc f = ⟨.ok, Memory.readN m.cistern y n, c, t⟩ ∧ m.CisPut y (toBytes n (f (ofBytes (Memory.readN m.cistern y n)))) t := by
  obtain ⟨t, hwrite, put⟩ := writeCis_puts (c := c) (p := p) (a := a) hgood 1 (toBytes n (f (ofBytes (Memory.readN m.cistern y n))))
  refine ⟨t, ?_, put⟩
  simp [netAtomic, crosses256_of_word hfit, Nat.not_lt.mpr (Chip.place_cistern hplace).1, halign, hplace, readCis_of_good hgood, hwrite]

end

/-! Accesses of a host or a core -/

section
variable {c : Chip} {m : Mem} {who : Init} {p : Fin 16} {x : BitVec 40} {y : Nat} {op : NetOp}

/-- The router of a cistern word is its tile's, whoever reaches for it. -/
theorem Chip.routerAt_cistern {svc : Bool} (hplace : c.place p x.toNat svc = .cistern y) : c.routerAt (.design p x) = y / 0x80000 := by
  rw [Chip.routerAt, (Chip.place_cistern hplace).2]
  rfl

/-- An access to design memory that its initiator reaches, outside WATCH, with a tag free and the die links whole, is performed and answered. -/
theorem netIssue_design (hreach : c.reaches who p = true) (hpower : c.power ≠ pwrWatch) (hgone : c.hostGone who = false) (htag : (c.initTag who).isSome = true)
    (hcut : c.cutOff routerHub (c.routerAt (.design p x)) = false) :
    netIssue who (.design p x) op false c m = (designAccess op p x.toNat (initService who) c m).reply := by
  have permitted : c.permits who (.design p x) op.len = true := hreach
  rw [netIssue_now hgone (by simp [Chip.mustWake, hpower]) rfl htag (by simp [Chip.netCut, hcut])]
  simp [netAccess, permitted]

/-- A read without a free tag waits for one. -/
theorem netIssue_read_waits {t : Target} (n : Nat) (hpower : c.power ≠ pwrWatch) (hwipe : c.wipeWait who t n = false) (htag : c.initTag who = none) :
    netIssue who t (.read n) false c m = ({ c with waiting := c.waiting ++ [.read who t n false] }, m) := by
  have awake : c.mustWake who t n = false := by simp [Chip.mustWake, hpower]
  simp [netIssue, NetOp.writes, NetOp.len, NetOp.deferred, awake, hwipe, htag]

/-- A read behind a failed die link stays in flight under its tag. -/
theorem netIssue_read_launched {t : Target} {g : Nat} (n : Nat) (hpower : c.power ≠ pwrWatch) (hwipe : c.wipeWait who t n = false)
    (htag : c.initTag who = some g) (hcut : c.netCut who t n = true) :
    netIssue who t (.read n) false c m = (c.launch g (.access who true n false) (c.routerAt t), m) := by
  have awake : c.mustWake who t n = false := by simp [Chip.mustWake, hpower]
  simp [netIssue, NetOp.writes, NetOp.reads, NetOp.len, awake, hwipe, htag, hcut]

end

/-- A network access that may have changed a memory, and whose outcome is known. -/
theorem does_of_netIssue {i : Instr} {s : State} {who : Init} {t : Target} {op : NetOp} {c : Chip} {m : Mem} {Q : State → Prop}
    (hexec : exec i s = .next ((s.seen who).onMem (netIssue who t op false)))
    (hrun : netIssue who t op false (s.seen who).chip (s.seen who).mem = (c, m)) (hQ : Q { s.seen who with chip := c, mem := m }) : Does i s Q := by
  refine ⟨_, hexec, ?_⟩
  rw [State.onMem, hrun]
  exact hQ

/-- Settles O31: an access that is in reach and has a tag is performed in the word; one that has none waits, and one that is cut off is in flight. -/
theorem networkAccessesOfCisterns : Obligations.NetworkAccessesOfCisterns := by
  intro who p x y s₀ s hreach hpower hgone hplace old puts
  refine ⟨fun htag hlink hgood => ?performed, fun htag n => ?waits, fun g htag hlink n => ?launched⟩
  case performed =>
    have hissue (op : NetOp) : netIssue who (.design p x) op false s.chip s.mem = (designAccess op p x.toNat (initService who) s.chip s.mem).reply :=
      netIssue_design hreach hpower hgone htag (by rwa [Chip.routerAt_cistern hplace])
    have does_put {i : Instr} {op : NetOp} {r d : List Byte} {t : Mem} (hexec : exec i s₀ = .next ((s₀.seen who).onMem (netIssue who (.design p x) op false)))
        (haccess : designAccess op p x.toNat (initService who) s.chip s.mem = ⟨.ok, r, s.chip, t⟩) (put : s.mem.CisPut y d t) :
        Does i s₀ fun t => t.chip = s.chip.answer .ok (ofBytes r) r ∧ puts d t := by
      obtain ⟨hdeep, hsram, hvault, hrim⟩ := put.rest
      exact does_of_netIssue hexec ((hissue op).trans (by rw [haccess]; rfl)) ⟨rfl, put.read, hdeep, hsram, hvault, hrim, rfl⟩
    refine ⟨fun n hfit => ?read, fun d hfit => ?write, fun wide v halign => ?atomic⟩
    case read =>
      have haccess : designAccess (.read n.val) p x.toNat (initService who) s.chip s.mem = ⟨.ok, old n.val, s.chip, s.mem⟩ := netRead_cistern hplace hgood hfit
      exact exec_of_netIssue rfl ((hissue _).trans (by rw [haccess]; rfl))
    case write =>
      obtain ⟨t, hwrite, put⟩ := netWrite_puts hplace hgood hfit
      exact does_put (op := .write d) rfl hwrite put
    case atomic =>
      intro n
      have hfit : x.toNat % 8 + n ≤ 8 := by
        cases wide <;> simp only [Bool.false_eq_true, if_true, if_false, n] at halign ⊢ <;> omega
      have hatomic (add : Bool) := netAtomic_cistern (n := n) (atomicValue n add v.toNat) hplace hgood hfit halign
      obtain ⟨tadd, hadd, putAdd⟩ := hatomic true
      obtain ⟨tswap, hswap, putSwap⟩ := hatomic false
      exact ⟨does_put (op := .atomic n true v.toNat) rfl hadd putAdd, does_put (op := .atomic n false v.toNat) rfl hswap putSwap⟩
  case waits => exact exec_of_netIssue rfl (netIssue_read_waits n.val hpower rfl htag)
  case launched =>
    have permitted : s.chip.permits who (.design p x) n.val = true := hreach
    exact exec_of_netIssue rfl (netIssue_read_launched n.val hpower rfl htag (by rw [Chip.netCut, permitted, hlink]; rfl))

end Sys2Proof.Machine
end
section
/-! PROOFS. Fields that no event of an interrupt source lists anew: their places and values stay as they are while sources are raised (R334, R406). -/

namespace Sys2Proof.Machine

/-! Tables whose writes go elsewhere -/

section
variable {q : Nat → Bool} {k : Nat} (hk : q k = false)
include hk

theorem NatMap.filter_erase (m : NatMap) : (m.erase k).filter (fun e => q e.1) = m.filter fun e => q e.1 := by
  induction m with
  | nil => rfl
  | cons e m ih =>
    by_cases h : e.1 = k
    · simp [NatMap.erase, h, ih, hk]
    · simp [NatMap.erase, h, List.filter_cons, ih]

theorem NatMap.filter_insert (m : NatMap) (v : Nat) : (m.insert k v).filter (fun e => q e.1) = m.filter fun e => q e.1 := by
  induction m with
  | nil => simp [NatMap.insert, hk]
  | cons e m ih =>
    simp only [NatMap.insert]
    split_ifs with hlt heq
    · simp [hk]
    · simp [heq, hk]
    · simp [List.filter_cons, ih]

/-- A write at a key that is not selected leaves the selected entries as they are listed. -/
theorem NatMap.filter_put (d : Nat) (m : NatMap) (v : Nat) : (NatMap.put d m k v).filter (fun e => q e.1) = m.filter fun e => q e.1 := by
  unfold NatMap.put
  split
  · exact NatMap.filter_erase hk m
  · exact NatMap.filter_insert hk m v

end

/-! One field's part of the registers -/

/-- The entries of field `g` among the registers. -/
def Chip.entriesOf (c : Chip) (g : Fld) : NatMap := c.fld.filter fun e => decide (e.1 % 1024 = g.ctorIdx)

/-- `d` lists field `g` as `c` does. -/
def Chip.SameField (g : Fld) (c d : Chip) : Prop := d.entriesOf g = c.entriesOf g

namespace Chip.SameField

variable {g : Fld} {c d e : Chip}

theorem refl (c : Chip) : SameField g c c := rfl

theorem trans (h : SameField g c d) (k : SameField g d e) : SameField g c e := Eq.trans k h

theorem set {f : Fld} (h : SameField g c d) (i v : Nat) (hf : g ≠ f) : SameField g c (d.set f i v) := by
  refine Eq.trans (NatMap.filter_put (q := fun k => decide (k % 1024 = g.ctorIdx)) ?_ f.reset d.fld (f.clip v)) h
  simpa [Fld.key_mod, Fld.ctorIdx_eq_iff] using hf.symm

theorem cond {p : Prop} [Decidable p] (h : SameField g c d) (k : SameField g c e) : SameField g c (if p then d else e) := by
  split
  · exact h
  · exact k

theorem fold {α : Type} (f : Chip → α → Chip) (l : List α) (c : Chip) (h : ∀ d x, SameField g d (f d x)) : SameField g c (l.foldl f c) := by
  induction l generalizing c with
  | nil => exact refl c
  | cons x l ih => exact (h c x).trans (ih _)

theorem get (h : SameField g c d) (i : Nat) : d.get g i = c.get g i := by
  have find_entries (b : Chip) : b.get g i = NatMap.find g.reset (b.entriesOf g) (g.key i) := by
    rw [Chip.entriesOf, NatMap.find_filter _ fun k => decide (k % 1024 = g.ctorIdx), Fld.key_mod]
    simp [Chip.get]
  rw [find_entries, find_entries, show d.entriesOf g = c.entriesOf g from h]

theorem listed (h : SameField g c d) : d.instances g = c.instances g := congrArg (List.map fun e : Nat × Nat => e.1 / 1024) h

end Chip.SameField

/-! Events of interrupt sources -/

/-- The fields that raising an interrupt source writes: its pending and active bits, and those of the threads and slots that its token wakes. -/
def raisedFields : List Fld :=
  [.IC_PEND_BIT, .IC_ACTIVE_BIT, .H_SUMP_LO, .H_SUMP_HI, .SCH_THR_CFG_STATE, .SCH_ORDER, .SCH_NEXT_ORDER, .SCH_SLOT]

section
variable {g : Fld} (hg : g ∉ raisedFields) (c : Chip)
include hg

theorem Chip.SameField.raised {d : Chip} {f : Fld} (h : Chip.SameField g c d) (i v : Nat) (hf : f ∈ raisedFields) : Chip.SameField g c (d.set f i v) :=
  h.set i v fun e => hg (e ▸ hf)

theorem Chip.setPend_sameField (s : Nat) : Chip.SameField g c (c.setPend s) := .cond (.refl c) (.raised hg c (.refl c) s 1 (by decide))

theorem Chip.thrWake_sameField (t : Nat) : Chip.SameField g c (c.thrWake t) :=
  .cond (.raised hg c (.raised hg c (.raised hg c (.refl c) t _ (by decide)) t _ (by decide)) 0 _ (by decide)) (.refl c)

theorem Chip.thrSlot_sameField (k : Nat) : Chip.SameField g c (c.thrSlot k) := by
  unfold Chip.thrSlot
  split
  · exact .refl c
  · exact .raised hg c (.raised hg c (.refl c) _ _ (by decide)) k _ (by decide)
  · exact .cond (.raised hg c (.raised hg c (.raised hg c (.refl c) _ _ (by decide)) _ _ (by decide)) k _ (by decide)) (.refl c)

theorem Chip.schSettle_sameField : Chip.SameField g c c.schSettle :=
  (Chip.SameField.fold _ _ c (Chip.thrWake_sameField hg)).trans (Chip.SameField.fold _ _ _ fun d _ => Chip.SameField.fold _ _ d (Chip.thrSlot_sameField hg))

/-- A post of the interrupt controller marks its source active and takes its pending bit (R339). -/
theorem Chip.postAccepted_sameField (k : Token) (o : Nat) (hk : 8 ≤ k.src) : Chip.SameField g c (c.postAccepted k o) := by
  unfold Chip.postAccepted
  rw [if_neg (by omega)]
  exact .raised hg c (.raised hg c (.refl c) _ 1 (by decide)) _ 0 (by decide)

theorem Chip.sumpTouch_sameField : Chip.SameField g c c.sumpTouch := by
  have low : Chip.SameField g c (if c.get .H_SUMP_HI 0 = 0 ∨ c.get .SCH_SUMP_BASE 0 < c.get .H_SUMP_LO 0 then c.set .H_SUMP_LO 0 (c.get .SCH_SUMP_BASE 0) else c) :=
    .cond (.raised hg c (.refl c) 0 _ (by decide)) (.refl c)
  exact low.trans (.cond (.raised hg _ (.refl _) 0 _ (by decide)) (.refl _))

theorem Chip.postPut_sameField (k : Token) (place : Nat) (hk : 8 ≤ k.src) : Chip.SameField g c (c.postPut k place) := by
  unfold Chip.postPut
  split
  · exact Chip.postAccepted_sameField hg { c with tokens := c.tokens ++ [k] } k 1 hk
  · have sumped : Chip.SameField g c ({ c with sump := c.sump ++ [k] }.sumpTouch.postAccepted k 2) :=
      (Chip.sumpTouch_sameField hg { c with sump := c.sump ++ [k] }).trans (Chip.postAccepted_sameField hg _ k 2 hk)
    exact .cond (sumped.trans (Chip.setPend_sameField hg _ 252)) sumped

theorem Chip.post_sameField (k : Token) (hk : 8 ≤ k.src) : Chip.SameField g c (c.post k) := by
  unfold Chip.post
  split
  · exact .cond (Chip.setPend_sameField hg { c with posts := c.posts ++ [{ k with since := c.now }] } 253) (.refl c)
  · exact Chip.postPut_sameField hg c k _ hk

theorem Chip.icPost_sameField (s : Nat) : Chip.SameField g c (c.icPost s) := .cond (Chip.post_sameField hg c _ (by simp)) (.refl c)

theorem Chip.icSettle_sameField : Chip.SameField g c c.icSettle :=
  (Chip.SameField.fold _ _ c fun d _ => Chip.SameField.fold _ _ d (Chip.icPost_sameField hg)).trans (Chip.schSettle_sameField hg _)

/-- An event of an interrupt source leaves every other field listed as it is. -/
theorem Chip.raise_sameField (s : Nat) : Chip.SameField g c (c.raise s) := (Chip.setPend_sameField hg c s).trans (Chip.icSettle_sameField hg _)

theorem Chip.dmErr_sameField {f : Fld} (p : Nat) (hf : g ≠ f) : Chip.SameField g c (c.dmErr f p) :=
  (Chip.SameField.set (.refl c) p 1 hf).trans (Chip.raise_sameField hg _ _)

end

theorem Chip.logFault_sameField {g : Fld} (hg : g ≠ .FLT_LOG_LOST_COUNT) (c : Chip) (code p info : Nat) : Chip.SameField g c (c.logFault code p info) :=
  .cond (.refl c) (Chip.SameField.set (.refl c) 0 _ hg)

/-- FLT_SRC.MEM, once set, stands when FAULT_N is moved (R406). -/
theorem Chip.faultN_mem {c : Chip} (h : c.get .FLT_SRC_MEM 0 = 1) : c.faultN.get .FLT_SRC_MEM 0 = 1 := by
  have stands (d : Chip) (hd : d.get .FLT_SRC_MEM 0 = 1) (p : Prop) [Decidable p] : (if p then d.set .FLT_SRC_MEM 0 1 else d).get .FLT_SRC_MEM 0 = 1 := by
    split
    · exact Chip.get_set_same _ _ _ _
    · exact hd
  have link : Chip.SameField .FLT_SRC_MEM c (if (List.range 4).any (fun d => c.on .H_LINK_FAIL d) then c.set .FLT_SRC_LINK 0 1 else c) :=
    .cond (Chip.SameField.set (.refl c) 0 1 (by decide)) (.refl c)
  have causes : c.fltCauses.get .FLT_SRC_MEM 0 = 1 := stands _ ((link.get 0).trans h) _
  have pin : Chip.SameField .FLT_SRC_MEM c.fltCauses c.faultN :=
    .cond (.cond (.refl _) ((Chip.SameField.set (.refl _) 0 1 (by decide)).trans (Chip.raise_sameField (by decide) _ 255))) (.set (.refl _) 0 0 (by decide))
  exact (pin.get 0).trans causes

end Sys2Proof.Machine
end
section
/-! PROOFS. The failure of a channel of deep memory: what is recorded, and the accesses in flight that it ends (R158, R400, R406; O35). -/

namespace Sys2Proof.Machine

/-! The channels of a stack -/

theorem bitB_eq_testBit (v n : Nat) : bitB v n = v.testBit n := Nat.testBit_eq_decide_div_mod_eq.symm

/-- The failed channels of a stack after one more has failed. -/
theorem bitB_orBit {q : Nat} (hq : q < 16) (v n : Nat) : bitB (orBit v n % 2 ^ 16) q = (bitB v q || decide (n = q)) := by
  rw [bitB_eq_testBit, bitB_eq_testBit, Nat.testBit_mod_two_pow, show orBit v n = v ||| 2 ^ n from rfl, Nat.testBit_or, Nat.testBit_two_pow]
  simp [hq]

/-- What accesses in flight hold of channel `ch` of a stack names the stack and the channel again. -/
theorem Chip.channelDead_eq (c : Chip) (k : Nat) {ch : Nat} (hch : ch < 16) :
    c.channelDead (1 + k * 16 + ch) = if c.mirrored k then c.chFailed k ch && c.chFailed k (ch + 1) else c.chFailed k ch := by
  have hstack : (1 + k * 16 + ch - 1) / stackChannels = k := by unfold stackChannels; omega
  have hchannel : (1 + k * 16 + ch - 1) % stackChannels = ch := by unfold stackChannels; omega
  simp [Chip.channelDead, hstack, hchannel]

/-! What the failure records -/

/-- Channel `ch` of stack `k` marked failed, logged, and shown to the partitions that have a granule of the stack. -/
def Chip.channelMarked (c : Chip) (k ch : Nat) : Chip :=
  let d := (c.set .DMC_STACK_STATUS_CH_FAIL k (orBit (c.get .DMC_STACK_STATUS_CH_FAIL k) ch)).raise 244
  (List.range 16).foldl (fun c p => if c.onStack p k then c.dmErr .DM_ERR_MIRROR_USED p else c)
    (d.logFault fltChannelFail 0 (k * 2 ^ 8 + ch + b2n (d.mirrored k) * 2 ^ 16))

section
variable {c : Chip} {k ch : Nat}

theorem Chip.channelFail_eq (hfresh : c.chFailed k ch = false) (hdie : k / 2 < c.dies) : c.channelFail k ch =
    (if !(c.channelMarked k ch).mirrored k && (c.channelMarked k ch).stackMapped k then (c.channelMarked k ch).set .FLT_SRC_MEM 0 1 else c.channelMarked k ch).faultN :=
  if_neg (by simp [hfresh, hdie])

variable (c k ch)

/-- The failure leaves how memory is mapped and mirrored as it is listed. -/
theorem Chip.channelMarked_sameField {g : Fld} (hg : g ∉ .DMC_STACK_STATUS_CH_FAIL :: .FLT_LOG_LOST_COUNT :: .DM_ERR_MIRROR_USED :: raisedFields) :
    Chip.SameField g c (c.channelMarked k ch) := by
  simp only [List.mem_cons, not_or] at hg
  obtain ⟨hfail, hlost, hused, hraised⟩ := hg
  refine Chip.SameField.trans ?_ (Chip.SameField.fold _ _ _ fun d p => .cond (d.dmErr_sameField hraised p hused) (.refl d))
  exact ((Chip.SameField.set (.refl c) k _ hfail).trans (Chip.raise_sameField hraised _ 244)).trans (Chip.logFault_sameField hlost _ _ _ _)

theorem Chip.channelMarked_mirrored : (c.channelMarked k ch).mirrored k = c.mirrored k := by
  have mode := (c.channelMarked_sameField k ch (g := .DMC_STACK_CFG_MIRROR) (by decide)).get k
  simp [Chip.mirrored, Chip.on, mode]

theorem Chip.channelMarked_stackMapped : (c.channelMarked k ch).stackMapped k = c.stackMapped k := by
  have listed := (c.channelMarked_sameField k ch (g := .DM_MAP_VALID) (by decide)).listed
  have stack := (c.channelMarked_sameField k ch (g := .DM_MAP_STACK) (by decide)).get
  simp [Chip.stackMapped, Chip.onStack, listed, stack]

theorem Chip.channelMarked_only :
    Chip.Only [.DM_ERR_MIRROR_USED] (c.set .DMC_STACK_STATUS_CH_FAIL k (orBit (c.get .DMC_STACK_STATUS_CH_FAIL k) ch)) (c.channelMarked k ch) := by
  refine Chip.Spares.trans (Chip.Only.of_quiet ((Chip.raise_quiet _ 244).trans (Chip.logFault_quiet _ _ _ _))) (Chip.Spares.fold _ _ _ fun p _ d => ?_)
  exact .cond ((Chip.Only.set (.refl d) 1 (by simp)).trans (Chip.Only.of_quiet (d.dmErr_quiet _ p))) (.refl d)

variable {c k ch}

theorem Chip.channelFail_only (hfresh : c.chFailed k ch = false) (hdie : k / 2 < c.dies) :
    Chip.Only [.DM_ERR_MIRROR_USED, .FLT_SRC_MEM] (c.set .DMC_STACK_STATUS_CH_FAIL k (orBit (c.get .DMC_STACK_STATUS_CH_FAIL k) ch)) (c.channelFail k ch) := by
  rw [Chip.channelFail_eq hfresh hdie]
  have marked := (c.channelMarked_only k ch).widen (V := [.DM_ERR_MIRROR_USED, .FLT_SRC_MEM]) (by simp)
  exact (Chip.Spares.cond (marked.set 1 (by simp)) marked).trans (Chip.faultN_only _ _)

/-- The stack shows the channel failed, beside those that had failed before. -/
theorem Chip.channelFail_failed (hfresh : c.chFailed k ch = false) (hdie : k / 2 < c.dies) :
    (c.channelFail k ch).get .DMC_STACK_STATUS_CH_FAIL k = orBit (c.get .DMC_STACK_STATUS_CH_FAIL k) ch % 2 ^ 16 :=
  ((Chip.channelFail_only hfresh hdie).get k rfl (by decide)).trans (Chip.get_set_same _ _ _ _)

theorem Chip.channelFail_chFailed (hfresh : c.chFailed k ch = false) (hdie : k / 2 < c.dies) {q : Nat} (hq : q < 16) :
    (c.channelFail k ch).chFailed k q = (c.chFailed k q || decide (ch = q)) := by
  rw [Chip.chFailed, Chip.channelFail_failed hfresh hdie, bitB_orBit hq]
  rfl

theorem Chip.channelFail_mirrored (hfresh : c.chFailed k ch = false) (hdie : k / 2 < c.dies) : (c.channelFail k ch).mirrored k = c.mirrored k := by
  have mode := (Chip.channelFail_only hfresh hdie).get (f := .DMC_STACK_CFG_MIRROR) k rfl (by decide)
  rw [Chip.get_set_ne _ _ (by simp)] at mode
  simp [Chip.mirrored, Chip.on, mode]

/-- The failure of a channel of an unmirrored stack in use contributes to FAULT_N (R406). -/
theorem Chip.channelFail_mem (hfresh : c.chFailed k ch = false) (hdie : k / 2 < c.dies) (hplain : c.mirrored k = false) (hmapped : c.stackMapped k = true) :
    (c.channelFail k ch).get .FLT_SRC_MEM 0 = 1 := by
  rw [Chip.channelFail_eq hfresh hdie, if_pos (by simp [Chip.channelMarked_mirrored, Chip.channelMarked_stackMapped, hplain, hmapped])]
  exact Chip.faultN_mem (Chip.get_set_same _ _ _ _)

end

/-! Accesses in flight -/

/-- The partitions whose reads in flight fail with channel `x` show it (R158). -/
def Chip.readsFailed (c : Chip) (x : Nat) (a : Arr) : Chip :=
  (List.range 16).foldl (fun c p =>
    if a.accs.any fun y => (y.deepCh = x && 3 ≤ y.kind && !y.arrived) && y.live && y.kind = issDread && c.accOf p y then c.dmErr .DM_ERR_DEEP_UE p else c) c

section
variable (x : Nat) (c : Chip) (a : Arr)

theorem inFlightFail_only : Chip.Only [.DM_ERR_DEEP_UE] c (inFlightFail x c a).1 := by
  unfold inFlightFail
  split
  · have told : Chip.Only [.DM_ERR_DEEP_UE] c (c.readsFailed x a) := Chip.Spares.fold _ _ _ fun p _ d =>
      .cond ((Chip.Only.set (.refl d) 1 (by simp)).trans (Chip.Only.of_quiet (d.dmErr_quiet _ p))) (.refl d)
    obtain ⟨get, x16, grade, now⟩ := told
    exact ⟨get, x16, grade, now⟩
  · exact .refl c

theorem inFlightFail_sameField {g : Fld} (hg : g ∉ .DM_ERR_DEEP_UE :: raisedFields) : Chip.SameField g c (inFlightFail x c a).1 := by
  simp only [List.mem_cons, not_or] at hg
  obtain ⟨herr, hraised⟩ := hg
  have told : Chip.SameField g c (c.readsFailed x a) := Chip.SameField.fold _ _ _ fun d p => .cond (d.dmErr_sameField hraised p herr) (.refl d)
  unfold inFlightFail
  split
  · exact told
  · exact .refl c

variable {x c a}

/-- The accesses that a dead channel serves end with 0 (R158). -/
theorem inFlightFail_of_dead (h : c.channelDead x = true) : (inFlightFail x c a).2 = { a with
    accs := (a.accs.map fun y => if y.deepCh = x && 3 ≤ y.kind && !y.arrived then { y with arrived := true, data := 0 } else y).filter fun y => y.live || !y.arrived } := by
  rw [inFlightFail, if_pos h]

theorem inFlightFail_of_alive (h : c.channelDead x = false) : (inFlightFail x c a).2 = a := by
  rw [inFlightFail, if_neg (by simp [h])]

end

/-- The first failure in a mirrored stack leaves the pair of the channel served by the other one. -/
theorem Chip.channelFail_pairAlive {c : Chip} {k ch : Nat} (hch : ch < 16) (hall : ∀ q, q < 16 → c.chFailed k q = false) (hdie : k / 2 < c.dies)
    (hmirror : c.mirrored k = true) : (c.channelFail k ch).channelDead (1 + k * 16 + ch / 2 * 2) = false := by
  have hfresh := hall ch hch
  rw [Chip.channelDead_eq _ _ (by omega), Chip.channelFail_mirrored hfresh hdie, if_pos hmirror, Chip.channelFail_chFailed hfresh hdie (by omega),
    Chip.channelFail_chFailed hfresh hdie (by omega), hall _ (by omega), hall _ (by omega)]
  simp only [Bool.false_or, Bool.and_eq_false_iff, decide_eq_false_iff_not]
  omega

/-- A channel without a mirror is dead once it has failed. -/
theorem Chip.channelFail_dead {c : Chip} {k ch : Nat} (hch : ch < 16) (hfresh : c.chFailed k ch = false) (hdie : k / 2 < c.dies) (hplain : c.mirrored k = false) :
    (c.channelFail k ch).channelDead (1 + k * 16 + ch) = true := by
  rw [Chip.channelDead_eq _ _ hch, Chip.channelFail_mirrored hfresh hdie, hplain, Chip.channelFail_chFailed hfresh hdie hch]
  simp

/-! The failure as a whole -/

section
variable {c : Chip} {k ch : Nat} (hfresh : c.chFailed k ch = false) (hdie : k / 2 < c.dies) (a : Arr)
include hfresh hdie

/-- The failure is recorded, and then ends what the channel serves. -/
theorem channelLost_eq :
    let x := 1 + k * 16 + if c.mirrored k then ch / 2 * 2 else ch
    channelLost k ch c a = ((inFlightFail x (c.channelFail k ch) a).1.faultN, (inFlightFail x (c.channelFail k ch) a).2) :=
  if_neg (by simp [hfresh, hdie])

theorem channelLost_failed : (channelLost k ch c a).1.get .DMC_STACK_STATUS_CH_FAIL k = orBit (c.get .DMC_STACK_STATUS_CH_FAIL k) ch % 2 ^ 16 := by
  rw [channelLost_eq hfresh hdie a, Chip.faultN_get _ _ _ rfl, (inFlightFail_only _ _ a).get k rfl (by decide), Chip.channelFail_failed hfresh hdie]

theorem channelLost_mem (hplain : c.mirrored k = false) (hmapped : c.stackMapped k = true) : (channelLost k ch c a).1.get .FLT_SRC_MEM 0 = 1 := by
  rw [channelLost_eq hfresh hdie a]
  exact Chip.faultN_mem (((inFlightFail_sameField _ _ a (by decide)).get 0).trans (Chip.channelFail_mem hfresh hdie hplain hmapped))

theorem channelLost_arr_of_plain (hch : ch < 16) (hplain : c.mirrored k = false) : (channelLost k ch c a).2 = { a with
    accs := (a.accs.map fun y => if y.deepCh = 1 + k * 16 + ch && 3 ≤ y.kind && !y.arrived then { y with arrived := true, data := 0 } else y).filter
      fun y => y.live || !y.arrived } := by
  rw [channelLost_eq hfresh hdie a, if_neg (by simp [hplain])]
  exact inFlightFail_of_dead (Chip.channelFail_dead hch hfresh hdie hplain)

end

theorem channelLost_arr_of_mirrored {c : Chip} {k ch : Nat} (hch : ch < 16) (hall : ∀ q, q < 16 → c.chFailed k q = false) (hdie : k / 2 < c.dies)
    (hmirror : c.mirrored k = true) (a : Arr) : (channelLost k ch c a).2 = a := by
  rw [channelLost_eq (hall ch hch) hdie a, if_pos hmirror]
  exact inFlightFail_of_alive (Chip.channelFail_pairAlive hch hall hdie hmirror)

end Sys2Proof.Machine
end
section
/-! PROOFS. March tests: the write of MT_CMD, and the end of a test (R162, R163; O35). -/

namespace Sys2Proof.Machine

/-! MT_CMD -/

section
variable {c : Chip} {target unit : Nat}

/-- In ON, with no QUIESCE, a write of MT_CMD for a unit that exists does at once what its command does. -/
theorem mtWrite_of_on (hon : c.power = pwrOn) (hquiesce : c.get .H_QUIESCE 0 = 0) (hunit : c.mtUnitOk target unit = true) (code : Nat) (a : Arr) (m : Mem) :
    mtWrite code target unit c a m = (c.mtCmd code target unit, a, m) := by
  have hindex : c.mtIndex target unit = c := by
    unfold Chip.mtUnitOk at hunit
    refine if_neg ?_
    rintro ⟨htarget, hbands⟩
    rw [if_neg htarget, decide_eq_true_eq] at hunit
    omega
  simp [mtWrite, hindex, onDemand, Chip.quiesced, hquiesce, hon, pwrOn, pwrIdle, pwrWatch]

/-- A command that writes MT_CMD, by a core with service rights, which finds the module in state `s`. -/
theorem does_of_mtCmd {i : Instr} {k : Fin 8} {sec : Bool} {code : Nat} {s₀ s : State} {Q : State → Prop} {d : Chip} (hseen : s₀.seen (.core k sec) = s)
    (hexec : exec i s₀ = .next ((s₀.seen (.core k sec)).onAll (byRegister (.core k sec) .dmc 0 0x100 fun c a m => mtWrite code target unit c a m)))
    (hrights : (sec || decide (k.val < 4)) = true) (hon : s.chip.power = pwrOn) (hquiesce : s.chip.get .H_QUIESCE 0 = 0) (hunit : s.chip.mtUnitOk target unit = true)
    (hcmd : (s.chip.answer .ok).mtCmd code target unit = d) (hQ : Q { s with chip := d }) : Does i s₀ Q := by
  have hmay : s.chip.regMay (.core k sec) ⟨.dmc, 0, 0x100⟩ true = true := hrights
  have hwrite := mtWrite_of_on (c := s.chip.answer .ok) hon hquiesce hunit code s.arr s.mem
  rw [hseen] at hexec
  refine ⟨_, hexec, ?_⟩
  simp only [State.onAll, byRegister, hmay, if_true, hwrite, hcmd]
  exact hQ

/-- An answer changes nothing that decides about a test. -/
theorem Chip.answer_mt (c : Chip) (st : Status) (target unit : Nat) : (c.answer st).mtDestructiveOk target unit = c.mtDestructiveOk target unit ∧
    (c.answer st).mtPreservingOk target unit = c.mtPreservingOk target unit ∧ (c.answer st).mtUnitOk target unit = c.mtUnitOk target unit ∧
    (c.answer st).cmdPending .mt 0 = c.cmdPending .mt 0 := ⟨rfl, rfl, rfl, rfl⟩

theorem Chip.mtCmd_destructive (hidle : c.cmdPending .mt 0 = false) (hunit : c.mtUnitOk target unit = true) : c.mtCmd 1 target unit =
    if !c.mtDestructiveOk target unit then c.refuse .mt 0 1 0x01 else c.mtStart 1 target unit := by
  have accepted : c.mtCmd 1 target unit = c.mtDestructive target unit := if_neg (by simp [hidle])
  rw [accepted, Chip.mtDestructive, if_neg (by simp [hunit])]

theorem Chip.mtCmd_preserving (hidle : c.cmdPending .mt 0 = false) (hunit : c.mtUnitOk target unit = true) (hok : c.mtPreservingOk target unit = true) :
    c.mtCmd 2 target unit = c.mtStart 2 target unit := by
  have accepted : c.mtCmd 2 target unit = c.mtPreserving target unit := if_neg (by simp [hidle])
  rw [accepted, Chip.mtPreserving, if_neg (by simp [hunit]), if_neg (by simp [hok])]

variable (c target unit) (code : Nat)

/-- A started test is pending, and due once the time of its table has passed. -/
theorem Chip.mtStart_pending : (c.mtStart code target unit).cmdPending .mt 0 = true ∧
    (c.mtStart code target unit).get .H_MT_DUE 0 = c.now + c.mtTime target (code = 2) + 1 := by
  have placed : Chip.Only [.H_MT_TARGET, .H_MT_UNIT] (c.accept .mt 0 code) (((c.accept .mt 0 code).set .H_MT_TARGET 0 target).set .H_MT_UNIT 0 unit) :=
    Chip.Only.set (Chip.Only.set (.refl _) _ (by simp)) _ (by simp)
  have started : Chip.Only [.H_MT_TARGET, .H_MT_UNIT, .H_MT_DUE] (c.accept .mt 0 code) (c.mtStart code target unit) :=
    Chip.Only.set (placed.widen (by simp)) _ (by simp)
  refine ⟨(started.cmdPending_eq (by decide) .mt 0).trans (c.accept_cmdPending .mt 0 code), ?_⟩
  rw [Chip.mtStart, Chip.setDue, Chip.get_set_same, Fld.clip_of_unbounded rfl, placed.now, (c.accept_only .mt 0 code).now]

end

/-- A command that starts a test, which changes no store yet. -/
theorem does_of_mtStart {i : Instr} {k : Fin 8} {sec : Bool} {target unit code : Nat} {s₀ s : State} (hseen : s₀.seen (.core k sec) = s)
    (hexec : exec i s₀ = .next ((s₀.seen (.core k sec)).onAll (byRegister (.core k sec) .dmc 0 0x100 fun c a m => mtWrite code target unit c a m)))
    (hrights : (sec || decide (k.val < 4)) = true) (hon : s.chip.power = pwrOn) (hquiesce : s.chip.get .H_QUIESCE 0 = 0) (hunit : s.chip.mtUnitOk target unit = true)
    (hcmd : (s.chip.answer .ok).mtCmd code target unit = (s.chip.answer .ok).mtStart code target unit) : Does i s₀ fun t =>
      t.chip.cmdPending .mt 0 = true ∧ t.chip.get .H_MT_DUE 0 = s.chip.now + s.chip.mtTime target (code = 2) + 1 ∧ t.arr = s.arr ∧ t.mem = s.mem := by
  obtain ⟨pending, due⟩ := (s.chip.answer .ok).mtStart_pending target unit code
  exact does_of_mtCmd hseen hexec hrights hon hquiesce hunit hcmd ⟨pending, due, rfl, rfl⟩

/-- MT_RESULT of a refused test. -/
theorem Chip.refuse_mt (c : Chip) (cmd code : Nat) : (c.refuse .mt 0 cmd code).get .MT_RESULT_OUTCOME 0 = refused ∧
    (c.refuse .mt 0 cmd code).get .MT_RESULT_CODE 0 = code % 256 :=
  ⟨(c.refuse_hasResult .mt 0 cmd code).outcome, (c.refuse_hasResult .mt 0 cmd code).code⟩

/-- A refusal leaves the pending commands as they are. -/
theorem Chip.refuse_cmdPending (c : Chip) (r : CmdReg) (i cmd code : Nat) : (c.refuse r i cmd code).cmdPending r i = c.cmdPending r i := by
  have ready : Fld.CQ_PEND ≠ r.result.1 := by cases r <;> decide
  simp [Chip.cmdPending, Chip.on, Chip.refuse, Chip.putResult_pend, Chip.nextSeq, Chip.bump, Chip.get_set, ready]

/-! The end of a test -/

/-- The registers once the test in progress has met `fails` and produced its result. -/
def Chip.mtEnded (c : Chip) (fails : List (Nat × Nat)) : Chip :=
  ((c.mtFailures (c.get .H_MT_TARGET 0) fails).set .H_MT_DUE 0 0).finish .mt 0 (if fails = [] then 0 else 1) 0

section
variable {c : Chip} (fails : List (Nat × Nat))

theorem mtComplete_of_due (hpend : c.cmdPending .mt 0 = true) (hdue : c.due .H_MT_DUE 0 = true) (a : Arr) (m : Mem) : mtComplete fails c a m =
    (c.mtEnded fails, if c.get .CQ_CMD (CmdReg.mt.idx 0) = 1 then mtClear (c.get .H_MT_TARGET 0) (c.get .H_MT_UNIT 0) a m else (a, m)) := by
  rw [mtComplete, if_pos (by simp [hpend, hdue])]
  rfl

/-- The end of a test leaves the failing words as they were counted and located. -/
theorem Chip.mtEnded_get (c : Chip) (fails : List (Nat × Nat)) {f : Fld} (hs : f.signal = false) (hf : f ∉ .H_MT_DUE :: CmdReg.mt.commandFields) :
    (c.mtEnded fails).get f 0 = (c.mtFailures (c.get .H_MT_TARGET 0) fails).get f 0 := by
  simp only [List.mem_cons, not_or] at hf
  exact ((Chip.finish_only _ .mt 0 _ _).get 0 hs hf.2).trans (Chip.get_set_ne _ _ fun e => hf.1 e.1)

/-- The test produces its result: COMPLETED where nothing has failed, else outcome 1 (R163). -/
theorem Chip.mtEnded_hasResult (hpend : c.cmdPending .mt 0 = true) :
    (c.mtEnded fails).HasResult .mt 0 (c.get .CQ_CMD (CmdReg.mt.idx 0)) (if fails = [] then 0 else 1) 0 := by
  have failures := c.mtFailures_only (c.get .H_MT_TARGET 0) fails
  have cleared : Chip.Only [.H_MT_DUE] (c.mtFailures (c.get .H_MT_TARGET 0) fails) ((c.mtFailures (c.get .H_MT_TARGET 0) fails).set .H_MT_DUE 0 0) :=
    Chip.Only.set (.refl _) 0 (by simp)
  have pending := (cleared.cmdPending_eq (by decide) .mt 0).trans ((failures.cmdPending_eq (by decide) .mt 0).trans hpend)
  have result := Chip.finish_hasResult _ .mt 0 (if fails = [] then 0 else 1) 0 pending
  rwa [cleared.get _ rfl (by decide), failures.get _ rfl (by decide)] at result

theorem Chip.mtEnded_outcome (hpend : c.cmdPending .mt 0 = true) : (c.mtEnded fails).get .MT_RESULT_OUTCOME 0 = if fails = [] then completed else 1 := by
  refine (Chip.mtEnded_hasResult fails hpend).outcome.trans ?_
  split <;> rfl

theorem Chip.mtEnded_cmdPending (c : Chip) : (c.mtEnded fails).cmdPending .mt 0 = false := Chip.finish_cmdPending _ .mt 0 _ _

/-- Failing words are counted, and the first is located where no other stands (R163). -/
theorem Chip.mtFailures_cons (c : Chip) (target u w : Nat) :
    (c.mtFailures target ((u, w) :: fails)).get .MT_FAIL_CNT_COUNT 0 = satAdd (2 ^ 32 - 1) (c.get .MT_FAIL_CNT_COUNT 0) (fails.length + 1) ∧
    (c.get .MT_FAIL_LOC_VALID 0 = 0 → (c.mtFailures target ((u, w) :: fails)).get .MT_FAIL_LOC_UNIT 0 = u % 2 ^ 17 ∧
      (c.mtFailures target ((u, w) :: fails)).get .MT_FAIL_LOC_WORD 0 = w % 2 ^ 20) := by
  have counted := c.count_get_same (f := .MT_FAIL_CNT_COUNT) 0 (fails.length + 1) rfl
  have valid : (c.count .MT_FAIL_CNT_COUNT 0 (fails.length + 1)).get .MT_FAIL_LOC_VALID 0 = c.get .MT_FAIL_LOC_VALID 0 := Chip.get_set_ne _ _ (by simp)
  simp only [Chip.mtFailures, List.length_cons, Chip.on, valid]
  refine ⟨?_, fun hfree => ?_⟩
  · split
    · exact counted
    · simpa [Chip.get_set] using counted
  · rw [if_neg (by simp [hfree])]
    exact ⟨by rw [Chip.get_set_ne _ _ (by simp), Chip.get_set_same]; rfl, by rw [Chip.get_set_same]; rfl⟩

end

/-- The registers once a test has met failing words. -/
theorem Chip.mtEnded_cons (c : Chip) (fails : List (Nat × Nat)) (u w : Nat) :
    (c.mtEnded ((u, w) :: fails)).get .MT_FAIL_CNT_COUNT 0 = satAdd (2 ^ 32 - 1) (c.get .MT_FAIL_CNT_COUNT 0) (fails.length + 1) ∧
    (c.get .MT_FAIL_LOC_VALID 0 = 0 → (c.mtEnded ((u, w) :: fails)).get .MT_FAIL_LOC_UNIT 0 = u % 2 ^ 17 ∧
      (c.mtEnded ((u, w) :: fails)).get .MT_FAIL_LOC_WORD 0 = w % 2 ^ 20) := by
  rw [c.mtEnded_get _ rfl (by decide), c.mtEnded_get _ rfl (by decide), c.mtEnded_get _ rfl (by decide)]
  exact Chip.mtFailures_cons fails c _ u w

/-- The command that ends the test in progress. -/
theorem does_of_mtComplete {s : State} {fails : List (BitVec 17 × BitVec 20)} {words : List (Nat × Nat)} {Q : State → Prop} {a : Arr} {m : Mem}
    (hpend : s.chip.cmdPending .mt 0 = true) (hdue : s.chip.due .H_MT_DUE 0 = true) (hwords : (fails.map fun e => (e.1.toNat, e.2.toNat)) = words)
    (hstores : (if s.chip.get .CQ_CMD (CmdReg.mt.idx 0) = 1 then mtClear (s.chip.get .H_MT_TARGET 0) (s.chip.get .H_MT_UNIT 0) s.arr s.mem else (s.arr, s.mem)) = (a, m))
    {d : Chip} (hended : s.chip.mtEnded words = d) (hQ : Q { s with chip := d, arr := a, mem := m }) : Does (.marchTestComplete fails) s Q := by
  have hexec : exec (.marchTestComplete fails) s = .next (s.onAll (mtComplete words)) := by
    rw [← hwords]
    rfl
  refine ⟨_, hexec, ?_⟩
  rw [State.onAll, mtComplete_of_due words hpend hdue, hstores, hended]
  exact hQ

/-- A destructive test of a band's cisterns leaves them at 0, and deep memory and service SRAM as they were (R162). -/
theorem mtClear_cistern (unit : Nat) (a : Arr) (m : Mem) : (mtClear mtCistern unit a m).1 = a ∧ (mtClear mtCistern unit a m).2.deep = m.deep ∧
    (mtClear mtCistern unit a m).2.sram = m.sram ∧
    ∀ z, Memory.read (mtClear mtCistern unit a m).2.cistern z = if z / 0x400000 = unit then 0 else Memory.read m.cistern z := by
  refine ⟨rfl, rfl, rfl, fun z => ?_⟩
  have band : (unit * 8 * 0x80000 ≤ z ∧ z < unit * 8 * 0x80000 + 8 * 0x80000) ↔ z / 0x400000 = unit := by omega
  exact (Memory.read_clearRange _ _ _ z).trans (if_congr band rfl rfl)

/-- Settles O35: the failure of a channel is recorded before it ends what is in flight, and a march test changes stores only where it ends. -/
theorem channelFailureAndMarchTests : Obligations.ChannelFailureAndMarchTests := by
  intro k sec target unit stack ch s₀ s
  have hseen : s₀.seen (.core k sec) = s := rfl
  clear_value s
  refine ⟨fun hfresh hdie => ?failure, fun hrights hon hidle hquiesce => ⟨fun hunit hok => ?destructive, fun hunit hok => ?preserving, fun hunit hbad => ?refused⟩,
    fun hpend hdue => ?ended⟩
  case failure =>
    refine ⟨s.onArr (channelLost stack ch), rfl, channelLost_failed hfresh hdie s.arr, channelLost_mem hfresh hdie s.arr, rfl,
      fun hmirror hall => channelLost_arr_of_mirrored ch.isLt hall hdie hmirror s.arr, fun hplain => ?_⟩
    have hends : (s.onArr (channelLost stack ch)).arr = _ := channelLost_arr_of_plain hfresh hdie s.arr ch.isLt hplain
    rw [hends]
    exact ⟨rfl, rfl⟩
  case destructive =>
    obtain ⟨ok, -, known, idle⟩ := s.chip.answer_mt .ok target unit
    exact does_of_mtStart hseen rfl hrights hon hquiesce hunit
      ((Chip.mtCmd_destructive (idle.trans hidle) (known.trans hunit)).trans (if_neg (by simp [ok, hok])))
  case preserving =>
    obtain ⟨-, ok, known, idle⟩ := s.chip.answer_mt .ok target unit
    exact does_of_mtStart hseen rfl hrights hon hquiesce hunit (Chip.mtCmd_preserving (idle.trans hidle) (known.trans hunit) (ok.trans hok))
  case refused =>
    obtain ⟨ok, -, known, idle⟩ := s.chip.answer_mt .ok target unit
    have hrefuse := (Chip.mtCmd_destructive (idle.trans hidle) (known.trans hunit)).trans (if_pos (by simp [ok, hbad]))
    obtain ⟨outcome, code⟩ := (s.chip.answer .ok).refuse_mt 1 0x01
    have pending := ((s.chip.answer .ok).refuse_cmdPending .mt 0 1 0x01).trans (idle.trans hidle)
    generalize (s.chip.answer .ok).refuse .mt 0 1 0x01 = d at hrefuse outcome code pending
    exact does_of_mtCmd hseen rfl hrights hon hquiesce hunit hrefuse ⟨outcome, code, pending, rfl, rfl⟩
  case ended =>
    refine ⟨fun hcode => ?preserved, fun hcode htarget => ?cleared, fun e es => ?failed⟩
    case preserved =>
      have ready := (Chip.mtEnded_hasResult [] hpend).ready
      have outcome := Chip.mtEnded_outcome [] hpend
      have free := s.chip.mtEnded_cmdPending []
      generalize hended : s.chip.mtEnded [] = d at ready outcome free
      exact does_of_mtComplete hpend hdue rfl (if_neg (by simp [hcode])) hended ⟨ready, outcome, free, rfl, rfl⟩
    case cleared =>
      have outcome := Chip.mtEnded_outcome [] hpend
      have free := s.chip.mtEnded_cmdPending []
      obtain ⟨harr, hdeep, hsram, hread⟩ := mtClear_cistern (s.chip.get .H_MT_UNIT 0) s.arr s.mem
      generalize hended : s.chip.mtEnded [] = d at outcome free
      exact does_of_mtComplete hpend hdue rfl (by rw [if_pos hcode, htarget]) hended ⟨outcome, free, harr, hdeep, hsram, hread⟩
    case failed =>
      have outcome := Chip.mtEnded_outcome ((e.1.toNat, e.2.toNat) :: es.map fun e => (e.1.toNat, e.2.toNat)) hpend
      obtain ⟨counted, located⟩ := s.chip.mtEnded_cons (es.map fun e => (e.1.toNat, e.2.toNat)) e.1.toNat e.2.toNat
      rw [List.length_map] at counted
      generalize hended : s.chip.mtEnded ((e.1.toNat, e.2.toNat) :: es.map fun e => (e.1.toNat, e.2.toNat)) = d at outcome counted located
      refine does_of_mtComplete hpend hdue (List.map_cons ..) rfl hended ⟨outcome, counted, fun hfree => ?_⟩
      obtain ⟨hunit, hword⟩ := located hfree
      exact ⟨hunit.trans (Nat.mod_eq_of_lt e.1.isLt), hword.trans (Nat.mod_eq_of_lt e.2.isLt)⟩

end Sys2Proof.Machine
end
section
/-! PROOFS. The end of a repair: its golden word stands in the store, or the repair fails (O30). -/

namespace Sys2Proof.Machine

/-! The golden read -/

section
variable {c : Chip} {p : Nat}

theorem Chip.mem_goldenDead {b : Bool} : b ∈ c.goldenDead p ↔ ∃ x ∈ c.goldenPlaces p, ∃ i, i < stackChannels ∧ c.deepDead x.1 (i * 256) = b := by
  simp [Chip.goldenDead]

/-- With every channel alive and every unit readable the golden read completes, whatever entry it is of. -/
theorem Chip.goldenReadOk_of_alive {m : Mem} (halive : ∀ x ∈ c.goldenPlaces p, ∀ i, i < 16 → c.deepDead x.1 (i * 256) = false) (hgood : c.goldenBad m p = false) :
    c.goldenReadOk m p = (true, c) := by
  have alive : (c.goldenDead p).any id = false := List.any_eq_false.2 fun b hb => by
    obtain ⟨x, hx, i, hi, rfl⟩ := Chip.mem_goldenDead.1 hb
    simp [halive x hx i hi]
  simp [Chip.goldenReadOk, alive, hgood]

/-- With every channel failed the golden read fails. -/
theorem Chip.goldenReadOk_of_dead (m : Mem) (hsome : c.goldenPlaces p ≠ []) (hdead : ∀ x ∈ c.goldenPlaces p, ∀ i, i < 16 → c.deepDead x.1 (i * 256) = true) :
    c.goldenReadOk m p = (false, c) := by
  obtain ⟨x, hx⟩ := List.exists_mem_of_ne_nil _ hsome
  have dead : (c.goldenDead p).all id = true := List.all_eq_true.2 fun b hb => by
    obtain ⟨y, hy, i, hi, rfl⟩ := Chip.mem_goldenDead.1 hb
    exact hdead y hy i hi
  have some : (c.goldenDead p).any id = true := List.any_eq_true.2 ⟨true, Chip.mem_goldenDead.2 ⟨x, hx, 0, by decide, hdead x hx 0 (by decide)⟩, rfl⟩
  simp [Chip.goldenReadOk, dead, some]

end

/-! Registers of a repair that has ended -/

theorem Chip.nextRepair_only (W : List Fld) (c : Chip) (r : Repair) : Chip.Only W c (c.nextRepair r) := by
  unfold Chip.nextRepair
  dsimp only
  split <;> exact ⟨fun _ _ _ => rfl, rfl, rfl, rfl⟩

theorem Chip.nextRepair_reps {c : Chip} {r : Repair} (h : c.reps = [r]) : (c.nextRepair r).reps = [] := by
  simp [Chip.nextRepair, h]

theorem Chip.pumpEvent_reps (c : Chip) (f : Fld) (n p : Nat) : (c.pumpEvent f n p).reps = c.reps :=
  (c.pumpEvent_quiet f n p).reps.trans (c.set_reps f p 1)

theorem Chip.resetPriming_reps (c : Chip) (p : Nat) : (c.resetPriming p).reps = c.reps.filter fun r => r.part ≠ p := rfl

/-- The registers once a repaired word is counted and logged. -/
def Chip.wordCounted (c : Chip) (r : Repair) : Chip :=
  (c.count .FLT_IREP_CNT_COUNT r.part 1).logFault fltIstRepaired r.part (r.info + c.heldPeriods r % 2 ^ 32)

/-- The registers once a failed repair is recorded and logged, and the next one of its partition has begun. -/
def Chip.repairLogged (c : Chip) (r : Repair) (reason : Nat) : Chip :=
  ((c.set .FLT_SRC_REPAIR 0 1).logFault fltRepairFail r.part (r.failInfo reason)).nextRepair r

section
variable (c : Chip) (r : Repair)

theorem Chip.wordCounted_quiet : Chip.Quiet (c.count .FLT_IREP_CNT_COUNT r.part 1) (c.wordCounted r) := Chip.logFault_quiet _ _ _ _

/-- Outside RAMP the end of a word's repair is its count, its log entry and the next repair. -/
theorem Chip.repaired_word (hword : r.sched = false) (hramp : c.pumpState r.part ≠ psRamp) : c.repaired r = (c.wordCounted r).nextRepair r := by
  have state : (c.wordCounted r).pumpState r.part = c.pumpState r.part :=
    ((c.wordCounted_quiet r).get _ _ rfl).trans (Chip.get_set_ne _ _ (by simp))
  unfold Chip.repaired
  simp only [hword, Bool.false_eq_true, if_false]
  exact congrArg (Chip.nextRepair · r) (if_neg (state.trans_ne hramp))

variable (reason : Nat)

theorem Chip.repairLogged_rest : Chip.Only [] (c.set .FLT_SRC_REPAIR 0 1) (c.repairLogged r reason) :=
  (Chip.Only.of_quiet (Chip.logFault_quiet _ _ _ _)).trans (Chip.nextRepair_only _ _ r)

theorem Chip.repairLogged_source : (c.repairLogged r reason).get .FLT_SRC_REPAIR 0 = 1 :=
  ((c.repairLogged_rest r reason).get 0 rfl (by simp)).trans (Chip.get_set_same _ _ _ _)

theorem Chip.repairLogged_pumpState (p : Nat) : (c.repairLogged r reason).pumpState p = c.pumpState p :=
  ((c.repairLogged_rest r reason).get p rfl (by simp)).trans (Chip.get_set_ne _ _ (by simp))

variable {c r}

theorem Chip.repairLogged_reps (h : c.reps = [r]) : (c.repairLogged r reason).reps = [] :=
  Chip.nextRepair_reps ((Chip.logFault_quiet _ _ _ _).reps.trans h)

end

/-! Failed repairs -/

/-- The only repair has failed and has left the pump of its partition `p` in state `st` (R404). -/
structure Chip.RepairLost (d : Chip) (p st : Nat) : Prop where
  reps : d.reps = []
  cause : d.get .PMP_STOP_CAUSE_REPAIR_FAIL p = 1
  source : d.get .FLT_SRC_REPAIR 0 = 1
  state : d.pumpState p = st

/-- FAULT_N follows a failed repair and changes nothing of its record. -/
theorem Chip.RepairLost.faultN {d : Chip} {p st : Nat} (h : d.RepairLost p st) : d.faultN.RepairLost p st where
  reps := d.faultN_quiet.reps.trans h.reps
  cause := (d.faultN_get _ _ rfl).trans h.cause
  source := (d.faultN_get _ _ rfl).trans h.source
  state := (d.faultN_get _ _ rfl).trans h.state

/-- The registers of a partition that is reset because a repair of it has failed: priming clears the stop causes before REPAIR_FAIL is recorded. -/
def Chip.repairReset (c : Chip) (p : Nat) : Chip :=
  (((c.resetPriming p).faultN.set .PMP_STOP_CAUSE_REPAIR_FAIL p 1).set .PMP_STOP_CYCLE_CYCLE p (c.get .PMP_CYCLE_CYCLE p)).pumpEvent .PMP_EVENT_STOPPED 1 p

theorem Chip.repairReset_only (c : Chip) (p : Nat) : Chip.Only [.PMP_STOP_CYCLE_CYCLE, .PMP_EVENT_STOPPED]
    ((c.resetPriming p).faultN.set .PMP_STOP_CAUSE_REPAIR_FAIL p 1) (c.repairReset p) :=
  (Chip.Only.set (.refl _) _ (by simp)).trans (Chip.pumpEvent_only _ _ _ (by simp))

theorem Chip.repairReset_lost {c : Chip} {p : Nat} (hreps : c.reps = []) (hsource : c.get .FLT_SRC_REPAIR 0 = 1) : (c.repairReset p).RepairLost p psLoading where
  reps := by
    unfold Chip.repairReset
    rw [Chip.pumpEvent_reps, Chip.set_reps, Chip.set_reps, (Chip.faultN_quiet _).reps, Chip.resetPriming_reps, hreps, List.filter_nil]
  cause := ((c.repairReset_only p).get p rfl (by decide)).trans (Chip.get_set_same _ _ _ _)
  source := by
    rw [(c.repairReset_only p).get 0 rfl (by decide), Chip.get_set_ne _ _ (by simp), Chip.faultN_get _ _ _ rfl,
      c.resetPriming_kept p 0 rfl (by decide) (by decide) (by decide), hsource]
  state := by
    unfold Chip.pumpState
    rw [(c.repairReset_only p).get p rfl (by decide), Chip.get_set_ne _ _ (by simp), Chip.faultN_get _ _ _ rfl]
    exact c.resetPriming_state p

section
variable {c : Chip} {r : Repair} {p : Nat} (hreps : c.reps = [r]) (hpart : r.part = p) (reason : Nat) (a : Arr)
include hreps hpart

theorem Chip.repairOf_single : c.repairOf p = some r := by simp [Chip.repairOf, hreps, hpart]

/-- In HALT a failed repair records its cause, and the array stands. -/
theorem repairFailed_of_halt (hhalt : c.pumpState p = psHalt) : ∃ d : Chip, repairFailed r reason c a = (d, a) ∧ d.RepairLost p psHalt := by
  subst hpart
  have state := (c.repairLogged_pumpState r reason r.part).trans hhalt
  let d := (c.repairLogged r reason).set .PMP_STOP_CAUSE_REPAIR_FAIL r.part 1
  have failed : repairFailed r reason c a = (d.faultN, a) := by
    unfold Chip.repairLogged at state
    simp [repairFailed, state, psHalt, psRun, psWait, psHold, psRamp, d, Chip.repairLogged]
  have lost : d.RepairLost r.part psHalt := {
    reps := (Chip.set_reps _ _ _ _).trans (Chip.repairLogged_reps reason hreps)
    cause := Chip.get_set_same _ _ _ _
    source := (Chip.get_set_ne _ _ (by simp)).trans (c.repairLogged_source r reason)
    state := (Chip.get_set_ne _ _ (by simp)).trans state }
  exact ⟨_, failed, lost.faultN⟩

/-- In RUN a failed repair resets the partition. -/
theorem repairFailed_of_run (hrun : c.pumpState p = psRun) : ∃ (d : Chip) (e : Arr), repairFailed r reason c a = (d, e) ∧ d.RepairLost p psLoading := by
  subst hpart
  have state := (c.repairLogged_pumpState r reason r.part).trans hrun
  have failed : repairFailed r reason c a =
      (((c.repairLogged r reason).repairReset r.part).faultN, primeArr r.part ((c.repairLogged r reason).resetPriming r.part) a) := by
    unfold Chip.repairLogged at state
    simp [repairFailed, state, partitionReset_eq, Chip.repairReset, Chip.repairLogged]
  exact ⟨_, _, failed, (Chip.repairReset_lost (Chip.repairLogged_reps reason hreps) (c.repairLogged_source r reason)).faultN⟩

/-- A repair may fail for any reason but the time limit at once, and for the time limit once it has passed. -/
theorem repairFail_of_due (hdue : reason ≠ 3 ∨ r.since + 20 * Chip.us ≤ c.now) : repairFail p reason c a = repairFailed r reason c a := by
  have due : ¬(reason = 3 ∧ c.now < r.since + 20 * Chip.us) := by omega
  simp [repairFail, Chip.repairOf_single hreps hpart, due]

theorem goldenWrite_of_unread {m : Mem} (hread : c.goldenReadOk m p = (false, c)) : goldenWrite p c a m = repairFailed r 1 c a := by
  simp [goldenWrite, Chip.repairOf_single hreps hpart, hread]

/-- A golden word that is read and passes its check ends the repair. -/
theorem goldenWrite_of_word {m : Mem} (hread : c.goldenReadOk m p = (true, c)) (hword : r.sched = false)
    (hgood : checkWord (NatMap.find 0 a.gword r.key) ≠ .bad) : goldenWrite p c a m = (c.repaired r, writeGolden r a) := by
  have passes : repairOk r (writeGolden r a) = true := by simp [repairOk, writeGolden, hword, NatMap.find_put, hgood]
  simp [goldenWrite, Chip.repairOf_single hreps hpart, hread, passes]

end

/-- Settles O30: the golden word is the word that the second check reads, and in RUN the reset drops no record of the failure. -/
theorem repairsEnd : Obligations.RepairsEnd := by
  intro p r reason s hreps hpart failed
  refine ⟨fun hword hgood hramp halive hbad => ?word, fun hhalt hsome hdead => ?unread, fun hhalt hdue => ?halted, fun hrun hdue => ?run⟩
  case word =>
    have hwrite := goldenWrite_of_word hreps hpart s.arr (Chip.goldenReadOk_of_alive halive hbad) hword hgood
    rw [s.chip.repaired_word r hword (hpart ▸ hramp)] at hwrite
    have counted := s.chip.wordCounted_quiet r
    refine does_of_onArr rfl hwrite ⟨Chip.nextRepair_reps (counted.reps.trans hreps), ?_, fun k => ?_, fun k => ?_, ?_, rfl⟩
    · rw [(Chip.nextRepair_only [] _ r).get p rfl (by simp), counted.get _ _ rfl, hpart, Chip.count_get_same _ _ _ rfl]
    all_goals simp [writeGolden, hword, NatMap.find_put]
  case unread =>
    obtain ⟨d, hfailed, lost⟩ := repairFailed_of_halt hreps hpart 1 s.arr hhalt
    have hwrite := goldenWrite_of_unread hreps hpart s.arr (Chip.goldenReadOk_of_dead s.mem hsome hdead)
    exact does_of_onArr rfl (hwrite.trans hfailed) ⟨⟨lost.reps, lost.cause, lost.source, rfl⟩, lost.state, rfl⟩
  case halted =>
    obtain ⟨d, hfailed, lost⟩ := repairFailed_of_halt hreps hpart reason s.arr hhalt
    exact does_of_onArr rfl ((repairFail_of_due hreps hpart reason s.arr hdue).trans hfailed) ⟨⟨lost.reps, lost.cause, lost.source, rfl⟩, lost.state, rfl⟩
  case run =>
    obtain ⟨d, e, hfailed, lost⟩ := repairFailed_of_run hreps hpart reason s.arr hrun
    exact does_of_onArr rfl ((repairFail_of_due hreps hpart reason s.arr hdue).trans hfailed) ⟨⟨lost.reps, lost.cause, lost.source, rfl⟩, lost.state⟩

end Sys2Proof.Machine
end
section
/-! PROOFS. LDR_CMD: the start of a LOAD, its refusals, and what ABORT of a pending LOAD clears (O36). -/

namespace Sys2Proof.Machine

/-! The path of a write of LDR_CMD -/

/-- A write that no power state delays and no QUIESCE refuses does at once what its command does. -/
theorem ldrWrite_of_awake {c : Chip} {p code : Nat} (hawake : c.power = pwrOn ∨ code ≠ 1) (hquiesce : c.get .H_QUIESCE 0 = 0 ∨ c.loading p = true) (svc : Bool)
    (a : Arr) (m : Mem) : ldrWrite p code svc c a m = ldrCmd p code svc c a m := by
  have free : ∀ defined permitted, c.quiesced .ldr p defined permitted = false := by
    rcases hquiesce with h | h
    · simp [Chip.quiesced, h]
    · have pending : c.cmdPending .ldr p = true := h
      simp [Chip.quiesced, pending]
  unfold ldrWrite
  simp only [free, Bool.false_eq_true, if_false]
  split
  next hcode =>
    have hpower : c.power = pwrOn := hawake.resolve_right (not_not_intro hcode)
    simp [onDemand, hpower, pwrOn, pwrIdle, pwrWatch]
  next => rfl

/-- A command that writes LDR_CMD, where its initiator may: the access is answered OK and the loader acts. -/
theorem does_of_ldrCmd {i : Instr} {who : Init} {p : Fin 16} {code : Nat} {s₀ : State} {Q : State → Prop} {c : Chip} {a : Arr} {m : Mem}
    (hexec : exec i s₀ = .next ((s₀.seen who).onAll (byRegister who .part p.val 0x4000 fun c a m => ldrWrite p.val code (!initHost who) c a m)))
    (hmay : (s₀.seen who).chip.regMay who ⟨.part, p, 0x4000⟩ true = true) (hawake : (s₀.seen who).chip.power = pwrOn ∨ code ≠ 1)
    (hquiesce : (s₀.seen who).chip.get .H_QUIESCE 0 = 0 ∨ (s₀.seen who).chip.loading p = true)
    (hcmd : ldrCmd p code (!initHost who) ((s₀.seen who).chip.answer .ok) (s₀.seen who).arr (s₀.seen who).mem = (c, a, m))
    (hQ : Q { pending := (s₀.seen who).pending, chip := c, arr := a, mem := m }) : Does i s₀ Q := by
  refine ⟨_, hexec, ?_⟩
  have hact : byRegister who .part p.val 0x4000 (fun c a m => ldrWrite p.val code (!initHost who) c a m)
      (s₀.seen who).chip (s₀.seen who).arr (s₀.seen who).mem = (c, a, m) := by
    have hwrite := ldrWrite_of_awake (c := (s₀.seen who).chip.answer .ok) hawake hquiesce (!initHost who) (s₀.seen who).arr (s₀.seen who).mem
    simp only [byRegister, hmay, if_true, hwrite, hcmd]
  unfold State.onAll
  rw [hact]
  exact hQ

section
variable {c : Chip} {p : Nat} (svc : Bool) (a : Arr) (m : Mem)

theorem ldrCmd_load (hfree : c.loading p = false) : ldrCmd p 1 svc c a m = (c.ldrLoad p svc, a, m) := if_neg (by simp [hfree])

theorem ldrCmd_abort (hfree : c.loading p = false) : ldrCmd p 2 svc c a m = (c.ldrAbort p svc, a, m) := if_neg (by simp [hfree])

theorem ldrCmd_abort_pending (hloading : c.loading p = true) : ldrCmd p 2 true c a m = loadAbort p c a m := if_pos hloading

end

/-! LOAD -/

/-- The bytes that are kept are those that the image then has. -/
theorem Chip.image_setImage (c : Chip) (p : Nat) (b : List Byte) : (c.setImage p b).image p = b := by simp [Chip.image, Chip.setImage]

theorem Chip.setImage_only (W : List Fld) (c : Chip) (p : Nat) (b : List Byte) : Chip.Only W c (c.setImage p b) := ⟨fun _ _ _ => rfl, rfl, rfl, rfl⟩

theorem Chip.dropImage_only (W : List Fld) (c : Chip) (p : Nat) : Chip.Only W c (c.dropImage p) := ⟨fun _ _ _ => rfl, rfl, rfl, rfl⟩

/-- The registers of a partition whose LOAD is accepted. -/
def Chip.loadBegun (c : Chip) (p : Nat) : Chip :=
  ((((c.accept .ldr p 1).set .PMP_STATUS_STATE p psLoading).set .LDR_STATUS_STEP p 3).set .H_IMG_POS p 0).setImage p []

section
variable (c : Chip) (p : Nat)

theorem Chip.ldrLoad_accepted (hactive : c.on .PTN_CFG_ACTIVE p = true) (hempty : c.pumpState p = psEmpty) (hsource : c.get .LDR_PARAM_SRC p ≤ 4) :
    c.ldrLoad p true = c.loadBegun p := by
  simp [Chip.ldrLoad, Chip.loadBegun, hactive, hempty, Nat.not_lt.2 hsource]

theorem Chip.loadBegun_only : Chip.Only [.PMP_STATUS_STATE, .LDR_STATUS_STEP, .H_IMG_POS] (c.accept .ldr p 1) (c.loadBegun p) :=
  (Chip.Only.set (Chip.Only.set (Chip.Only.set (.refl _) _ (by simp)) 3 (by simp)) 0 (by simp)).trans (Chip.setImage_only _ _ p [])

theorem Chip.loadBegun_loading : (c.loadBegun p).loading p = true :=
  ((c.loadBegun_only p).cmdPending_eq (by decide) .ldr p).trans (c.accept_cmdPending .ldr p 1)

theorem Chip.loadBegun_state : (c.loadBegun p).pumpState p = psLoading := by
  unfold Chip.pumpState Chip.loadBegun
  rw [(Chip.setImage_only [] _ p []).get p rfl (by simp), Chip.get_set_ne _ _ (by simp), Chip.get_set_ne _ _ (by simp), Chip.get_set_same]
  rfl

theorem Chip.loadBegun_step : (c.loadBegun p).get .LDR_STATUS_STEP p = 3 := by
  unfold Chip.loadBegun
  rw [(Chip.setImage_only [] _ p []).get p rfl (by simp), Chip.get_set_ne _ _ (by simp), Chip.get_set_same]
  rfl

/-! Refusals before the header is read -/

/-- The registers that show where a load was refused. -/
def refuseFields : List Fld := [.LDR_REFUSE_SECTION, .LDR_REFUSE_SUB, .LDR_REFUSE_OFF_OFFSET]

theorem Chip.clearRefuse_only : Chip.Only refuseFields c (c.clearRefuse p) := Chip.Only.unsetAll (.refl c) p (List.Subset.refl _)

theorem Chip.ldrLoad_host : c.ldrLoad p false = c.loadRefused p 1 imgPerm := rfl

theorem Chip.ldrAbort_service : c.ldrAbort p true = c.loadRefused p 2 imgState := rfl

variable (cmd code : Nat)

theorem Chip.loadRefused_only : Chip.Only (refuseFields ++ CmdReg.ldr.commandFields) c (c.loadRefused p cmd code) :=
  ((c.clearRefuse_only p).widen (List.subset_append_left _ _)).trans ((Chip.refuse_only _ .ldr p cmd code).widen (List.subset_append_right _ _))

theorem Chip.loadRefused_loading : (c.loadRefused p cmd code).loading p = c.loading p :=
  (Chip.refuse_cmdPending _ .ldr p cmd code).trans ((c.clearRefuse_only p).cmdPending_eq (by decide) .ldr p)

theorem Chip.loadRefused_hasResult : (c.loadRefused p cmd code).HasResult .ldr p cmd refused code := Chip.refuse_hasResult _ .ldr p cmd code

end

/-! Sectors that were being loaded -/

/-- A sector in LOADING is cleared and returns to EMPTY (R250). -/
def dropSector (x : Chip × Mem) (k : Nat) : Chip × Mem :=
  if x.1.sector k = sectLoading then (x.1.set .RIM_SECT_STATE_STATE k sectEmpty, x.2.clearSector k) else x

/-- Sector `k` is in EMPTY and each byte of its frames reads 0. -/
structure SectorCleared (k : Nat) (x : Chip × Mem) : Prop where
  empty : x.1.sector k = sectEmpty
  zero : ∀ y, y / 0x100000 = k → Memory.read x.2.rim y = 0

section
variable (x : Chip × Mem) {j k : Nat}

theorem dropSector_of_loading (h : x.1.sector k = sectLoading) : dropSector x k = (x.1.set .RIM_SECT_STATE_STATE k sectEmpty, x.2.clearSector k) := if_pos h

theorem dropSector_of_not_loading (h : x.1.sector k ≠ sectLoading) : dropSector x k = x := if_neg h

theorem dropSector_sector_ne (h : j ≠ k) : (dropSector x k).1.sector j = x.1.sector j := by
  unfold dropSector
  split
  · exact Chip.get_set_ne _ _ (by simp [h])
  · rfl

theorem read_clearSector (m : Mem) (k y : Nat) : Memory.read (m.clearSector k).rim y = if y / 0x100000 = k then 0 else Memory.read m.rim y := by
  have inside : k * 0x100000 ≤ y ∧ y < (k + 1) * 0x100000 ↔ y / 0x100000 = k := by omega
  rw [Mem.clearSector, Memory.read_clearRange]
  exact if_congr inside rfl rfl

theorem dropSector_cleared (h : x.1.sector k = sectLoading) : SectorCleared k (dropSector x k) := by
  rw [dropSector_of_loading x h]
  exact ⟨Chip.get_set_same _ _ _ _, fun y hy => by rw [read_clearSector, if_pos hy]⟩

/-- A cleared sector stays cleared while others are dropped. -/
theorem SectorCleared.dropSector {x : Chip × Mem} (h : SectorCleared k x) (j : Nat) : SectorCleared k (dropSector x j) := by
  by_cases hj : x.1.sector j = sectLoading
  · have hne : k ≠ j := by
      rintro rfl
      exact absurd (h.empty.symm.trans hj) (by decide)
    refine ⟨(dropSector_sector_ne x hne).trans h.empty, fun y hy => ?_⟩
    rw [dropSector_of_loading x hj, read_clearSector, if_neg (hy.trans_ne hne)]
    exact h.zero y hy
  · rwa [dropSector_of_not_loading x hj]

end

theorem dropLoading_eq (c : Chip) (m : Mem) : dropLoading c m = (List.range 12).foldl dropSector (c, m) := rfl

/-- Dropping a stream clears every sector that was being loaded. -/
theorem dropLoading_cleared {c : Chip} {k : Nat} (m : Mem) (hk : k < 12) (h : c.sector k = sectLoading) : SectorCleared k (dropLoading c m) := by
  rw [dropLoading_eq]
  refine foldl_reaches (J := fun x => x.1.sector k = sectLoading ∨ SectorCleared k x) dropSector k (fun x j hx => ?_) (fun x j hx => hx.dropSector j)
    (fun x hx => hx.elim (dropSector_cleared x) (·.dropSector k)) _ (List.mem_range.2 hk) _ (.inl h)
  rcases hx with hx | hx
  · by_cases hj : k = j
    · exact .inr (hj ▸ dropSector_cleared x hx)
    · exact .inl ((dropSector_sector_ne x hj).trans hx)
  · exact .inr (hx.dropSector j)

/-- `t` differs from `m` in the rim's frames only. -/
def Mem.RimOnly (m t : Mem) : Prop := { t with rim := m.rim, rimRef := m.rimRef, rimErr := m.rimErr } = m

theorem dropLoading_rimOnly (c : Chip) (m : Mem) : m.RimOnly (dropLoading c m).2 := by
  rw [dropLoading_eq]
  refine List.foldlRecOn (motive := fun x : Chip × Mem => m.RimOnly x.2) _ _ rfl fun x hx k _ => ?_
  unfold dropSector
  split <;> exact hx

/-! The rim section of an aborted load -/

theorem Chip.Only.streaming_eq {W : List Fld} {c d : Chip} (h : Chip.Only W c d) (hW : Fld.RIM_LD_STATUS_BUSY ∉ W) : d.streaming = c.streaming := by
  unfold Chip.streaming Chip.on
  rw [h.get 0 rfl hW]

section
variable (p : Nat) (c : Chip) (m : Mem)

theorem Chip.rimDrop_of_not_fed (h : c.rimFed p = false) : c.rimDrop p m = (c, m) := by
  unfold Chip.rimFed at h
  simp only [Chip.rimDrop, h, Bool.false_eq_true, if_false]

theorem Chip.rimDrop_of_fed (h : c.rimFed p = true) :
    c.rimDrop p m = (((dropLoading c m).1.set .RIM_LD_STATUS_BUSY 0 0).set .H_RS_STATE 0 0, (dropLoading c m).2) := by
  unfold Chip.rimFed at h
  simp only [Chip.rimDrop, h, if_true]

theorem Chip.rimDrop_only : Chip.Only [.RIM_SECT_STATE_STATE, .RIM_LD_STATUS_BUSY, .H_RS_STATE] c (c.rimDrop p m).1 := by
  cases h : c.rimFed p with
  | false => rw [Chip.rimDrop_of_not_fed p c m h]; exact .refl c
  | true =>
    rw [Chip.rimDrop_of_fed p c m h]
    exact Chip.Only.set (Chip.Only.set ((dropLoading_only c m).widen (by simp)) 0 (by simp)) 0 (by simp)

theorem Chip.rimDrop_rimOnly : m.RimOnly (c.rimDrop p m).2 := by
  cases h : c.rimFed p with
  | false => rw [Chip.rimDrop_of_not_fed p c m h]; rfl
  | true =>
    rw [Chip.rimDrop_of_fed p c m h]
    dsimp only
    exact dropLoading_rimOnly c m

theorem Chip.rimDrop_streaming (h : c.rimFed p = true) : (c.rimDrop p m).1.streaming = false := by
  rw [Chip.rimDrop_of_fed p c m h]
  simp [Chip.streaming, Chip.on, Chip.get_set, Fld.clip_zero]

theorem Chip.rimDrop_cleared {k : Nat} (h : c.rimFed p = true) (hk : k < 12) (hload : c.sector k = sectLoading) : SectorCleared k (c.rimDrop p m) := by
  obtain ⟨empty, zero⟩ := dropLoading_cleared m hk hload
  rw [Chip.rimDrop_of_fed p c m h]
  refine ⟨(Chip.get_set_ne _ _ (by simp)).trans ((Chip.get_set_ne _ _ (by simp)).trans empty), fun y hy => ?_⟩
  dsimp only
  exact zero y hy

end

/-! What an aborted load clears -/

section
variable {c d : Chip} (h : Chip.Spares Fld.owning c d)
include h

theorem Chip.Spares.unitOwner_eq (u : Unit') : d.unitOwner u = c.unitOwner u := by
  cases u <;> simp only [Chip.unitOwner, h.tileOwner_eq, h.bandOwner_eq, h.portOwner_eq]

/-- Which stores are a partition's turns on its bands alone. -/
theorem Chip.Spares.clearStores_eq (p : Nat) (a : Arr) : clearStores p d a = clearStores p c a := by
  simp only [clearStores, Chip.outsideBp, h.ownsBand_eq, h.unitOwner_eq]

end

/-- `t` differs from `m` in deep memory only. -/
def Mem.DeepOnly (m t : Mem) : Prop := { t with deep := m.deep, deepErr := m.deepErr } = m

theorem Mem.clearGranules_deepOnly (m : Mem) (c : Chip) (p lo n : Nat) : m.DeepOnly (m.clearGranules c p lo n) := by
  unfold Mem.clearGranules
  exact List.foldlRecOn (motive := m.DeepOnly) _ _ rfl fun _ ht _ _ => ht

/-- The memories once the golden granules of a load that has reached step 14 are cleared. -/
def Mem.loadCleared (m : Mem) (c : Chip) (p : Nat) : Mem :=
  if 14 ≤ c.get .LDR_STATUS_STEP p then m.clearGranules c p (c.get .LDR_PARAM_DEEP_BASE p + manDesign (c.image p)) (manGolden (c.image p)) else m

theorem Mem.loadCleared_deepOnly (m : Mem) (c : Chip) (p : Nat) : m.DeepOnly (m.loadCleared c p) := by
  unfold Mem.loadCleared
  split
  · exact m.clearGranules_deepOnly _ _ _ _
  · rfl

/-- The registers of an aborted load, but for its result. -/
def Chip.loadDropped (c : Chip) (p : Nat) : Chip := (((c.unsetAll imageFields p).dropImage p).set .PMP_STATUS_STATE p psEmpty).clearRefuse p

/-- What an aborted load writes in the registers beside its result. -/
def abortFields : List Fld := imageFields ++ .PMP_STATUS_STATE :: refuseFields

section
variable (c : Chip) (p : Nat)

theorem Chip.loadDropped_rest : Chip.Only (.PMP_STATUS_STATE :: refuseFields) (c.unsetAll imageFields p) (c.loadDropped p) :=
  (Chip.Only.set (Chip.dropImage_only _ _ p) _ (by simp)).trans ((Chip.clearRefuse_only _ p).widen (List.subset_cons_self _ _))

theorem Chip.loadDropped_only : Chip.Only abortFields c (c.loadDropped p) :=
  (Chip.Only.unsetAll (.refl c) p (List.subset_append_left _ _)).trans ((c.loadDropped_rest p).widen (List.subset_append_right _ _))

theorem Chip.loadDropped_state : (c.loadDropped p).pumpState p = psEmpty :=
  ((Chip.clearRefuse_only _ p).get p rfl (by decide)).trans (Chip.get_set_same _ _ _ _)

theorem Chip.loadDropped_step : (c.loadDropped p).get .LDR_STATUS_STEP p = 0 := by
  rw [(c.loadDropped_rest p).get p rfl (by decide), Chip.get_unsetAll, if_pos ⟨by decide, rfl⟩]
  rfl

theorem Chip.loadDropped_refuse {f : Fld} (hf : f ∈ refuseFields) : (c.loadDropped p).get f p = f.clip f.reset := by
  unfold Chip.loadDropped Chip.clearRefuse
  rw [Chip.get_unsetAll, if_pos ⟨hf, rfl⟩]

/-- The registers once a pending load is aborted. -/
def Chip.loadAborted (c : Chip) (p : Nat) : Chip := (c.loadDropped p).finish .ldr p aborted 0

theorem loadAbort_eq (a : Arr) (m : Mem) : loadAbort p c a m =
    ((c.rimDrop p m).1.loadAborted p, clearStores p (c.rimDrop p m).1 a, (c.rimDrop p m).2.loadCleared (c.rimDrop p m).1 p) := rfl

theorem Chip.loadAborted_rest : Chip.Only CmdReg.ldr.commandFields (c.loadDropped p) (c.loadAborted p) := Chip.finish_only _ .ldr p _ _

theorem Chip.loadAborted_only : Chip.Only (abortFields ++ CmdReg.ldr.commandFields) c (c.loadAborted p) :=
  ((c.loadDropped_only p).widen (List.subset_append_left _ _)).trans ((c.loadAborted_rest p).widen (List.subset_append_right _ _))

theorem Chip.loadAborted_loading : (c.loadAborted p).loading p = false := Chip.finish_cmdPending _ .ldr p _ _

theorem Chip.loadAborted_hasResult (h : c.loading p = true) :
    (c.loadAborted p).HasResult .ldr p ((c.loadDropped p).get .CQ_CMD (CmdReg.ldr.idx p)) aborted 0 :=
  Chip.finish_hasResult _ .ldr p _ _ (((c.loadDropped_only p).cmdPending_eq (by decide) .ldr p).trans h)

end

/-- Settles O36: an accepted LOAD is pending from step 3 on, a refusal changes no more than the result, and ABORT drops the rim section before it clears what was loaded. -/
theorem loadsStartAndAbort : Obligations.LoadsStartAndAbort := by
  intro who p s₀ s hmay
  let c : Chip := s.chip.answer .ok
  refine ⟨fun hon hquiesce hfree => ⟨fun hsvc hactive hempty hsource => ?begun, fun hhost => ?denied⟩, fun hsvc hloading => ?aborted,
    fun hsvc hfree hquiesce => ?idle⟩
  case begun =>
    have hrun : ldrCmd p 1 (!initHost who) c s.arr s.mem = (c.loadBegun p, s.arr, s.mem) := by
      rw [ldrCmd_load (c := c) _ _ _ hfree, hsvc, Bool.not_false, c.ldrLoad_accepted p hactive hempty hsource]
    exact does_of_ldrCmd rfl hmay (.inl hon) (.inl hquiesce) hrun
      ⟨c.loadBegun_loading p, c.loadBegun_state p, c.loadBegun_step p, Chip.image_setImage _ _ _, rfl, rfl⟩
  case denied =>
    have hrun : ldrCmd p 1 (!initHost who) c s.arr s.mem = (c.loadRefused p 1 imgPerm, s.arr, s.mem) := by
      rw [ldrCmd_load (c := c) _ _ _ hfree, hhost, Bool.not_true, c.ldrLoad_host]
    have result := c.loadRefused_hasResult p 1 imgPerm
    have free : (c.loadRefused p 1 imgPerm).loading p = false := (c.loadRefused_loading p 1 imgPerm).trans hfree
    refine does_of_ldrCmd rfl hmay (.inl hon) (.inl hquiesce) hrun ?_
    dsimp only
    exact ⟨free, result.outcome, result.code,
      (c.loadRefused_only p 1 imgPerm).get p rfl (by decide), rfl, rfl⟩
  case idle =>
    have hrun : ldrCmd p 2 (!initHost who) c s.arr s.mem = (c.loadRefused p 2 imgState, s.arr, s.mem) := by
      rw [ldrCmd_abort (c := c) _ _ _ hfree, hsvc, Bool.not_false, c.ldrAbort_service]
    have result := c.loadRefused_hasResult p 2 imgState
    have free : (c.loadRefused p 2 imgState).loading p = false := (c.loadRefused_loading p 2 imgState).trans hfree
    refine does_of_ldrCmd rfl hmay (.inr (by decide)) (.inl hquiesce) hrun ?_
    dsimp only
    exact ⟨free, result.outcome, result.code, rfl, rfl⟩
  case aborted =>
    let d : Chip := (c.rimDrop p s.mem).1
    have hrun : ldrCmd p 2 (!initHost who) c s.arr s.mem = (d.loadAborted p, clearStores p d s.arr, (c.rimDrop p s.mem).2.loadCleared d p) := by
      rw [hsvc, Bool.not_false, ldrCmd_abort_pending (c := c) _ _ hloading, loadAbort_eq]
    have answered : Chip.Only [] s.chip c := ⟨fun _ _ _ => rfl, rfl, rfl, rfl⟩
    have dropped : Chip.Only _ s.chip d := (answered.widen (List.nil_subset _)).trans (c.rimDrop_only p s.mem)
    have rest := d.loadAborted_rest p
    have kept := d.loadAborted_only p
    have result := d.loadAborted_hasResult p ((dropped.cmdPending_eq (by decide) .ldr p).trans hloading)
    have rim := c.rimDrop_rimOnly p s.mem
    have deep := (c.rimDrop p s.mem).2.loadCleared_deepOnly d p
    have onRim {α : Type} (f : Mem → α) := congrArg f rim
    have onDeep {α : Type} (f : Mem → α) := congrArg f deep
    have sector (k : Nat) : (d.loadAborted p).sector k = d.sector k := kept.get k rfl (by decide)
    refine does_of_ldrCmd rfl hmay (.inr (by decide)) (.inr hloading) hrun ?_
    dsimp only
    refine ⟨d.loadAborted_loading p, ?state, result.ready, result.outcome, ?step, ?sect,
      ?off, ?stores, (onDeep Mem.cistern).trans (onRim Mem.cistern), (onDeep Mem.sram).trans (onRim Mem.sram), (onDeep Mem.vault).trans (onRim Mem.vault),
      fun hstep => ?deep, fun hfed => ?unfed, fun hfed => ?fed⟩
    case state => exact (rest.get p rfl (by decide)).trans (d.loadDropped_state p)
    case step => exact (rest.get p rfl (by decide)).trans (d.loadDropped_step p)
    case sect => exact (rest.get p rfl (by decide)).trans (d.loadDropped_refuse p (by decide))
    case off => exact (rest.get p rfl (by decide)).trans (d.loadDropped_refuse p (by decide))
    case stores => exact (dropped.owning (by decide)).clearStores_eq p s.arr
    case deep =>
      have early : ¬14 ≤ d.get .LDR_STATUS_STEP p := by
        rw [dropped.get p rfl (by decide)]
        omega
      have untouched : (c.rimDrop p s.mem).2.loadCleared d p = (c.rimDrop p s.mem).2 := if_neg early
      exact (congrArg Mem.deep untouched).trans (onRim Mem.deep)
    case unfed =>
      have whole := c.rimDrop_of_not_fed p s.mem hfed
      have frames : (c.rimDrop p s.mem).2.rim = s.mem.rim := by rw [whole]
      have states (k : Nat) : (c.rimDrop p s.mem).1.sector k = s.chip.sector k := by
        rw [whole]
        rfl
      exact ⟨(onDeep Mem.rim).trans frames, fun k => (sector k).trans (states k)⟩
    case fed =>
      refine ⟨(kept.streaming_eq (by decide)).trans (c.rimDrop_streaming p s.mem hfed), fun k hk hload => ?_⟩
      obtain ⟨empty, zero⟩ := c.rimDrop_cleared p s.mem hfed hk hload
      exact ⟨(sector k).trans empty, fun x hx => (congrArg (Memory.read · x) (onDeep Mem.rim)).trans (zero x hx)⟩

end Sys2Proof.Machine
end
section
/-! PROOFS. Probe commands, the draining of records, the fall of the rate exponent, and trigger pulses (O38). -/

namespace Sys2Proof.Machine

/-! Every field kept but for listed places -/

namespace KeepsAll

variable {c d : Chip} {ws : List (Fld × Nat)}

theorem refl (c : Chip) (ws : List (Fld × Nat)) : KeepsAll c c ws := fun _ _ _ => rfl

theorem set {f : Fld} {i : Nat} (h : KeepsAll c d ws) (v : Nat) (hm : (f, i) ∈ ws) : KeepsAll c (d.set f i v) ws := fun g j hg => by
  rw [Chip.get_set_ne _ _ (by rintro ⟨rfl, rfl⟩; exact hg hm)]
  exact h g j hg

end KeepsAll

/-! The path of a write of PRB_CMD -/

/-- A command that writes PRB_CMD, where its initiator may: the access is answered OK, and what holds of the engine's answer holds of the next state's registers. -/
theorem does_of_prbCmd {i : Instr} {who : Init} {p : Fin 16} {code : Nat} {s₀ : State} {Q : State → Prop} {P : Chip → Prop}
    (hexec : exec i s₀ = .next ((s₀.seen who).onAll (byRegister who .prb p.val 0x4 fun c a m => (c.prbCmd p.val code, a, m))))
    (hmay : (s₀.seen who).chip.regMay who ⟨.prb, p, 0x4⟩ true = true) (hcmd : P (((s₀.seen who).chip.answer .ok).prbCmd p code))
    (hQ : ∀ d, P d → Q { s₀.seen who with chip := d }) : Does i s₀ Q := by
  refine ⟨_, hexec, ?_⟩
  have hact : byRegister who .prb p.val 0x4 (fun c a m => (c.prbCmd p.val code, a, m)) (s₀.seen who).chip (s₀.seen who).arr (s₀.seen who).mem =
      (((s₀.seen who).chip.answer .ok).prbCmd p code, (s₀.seen who).arr, (s₀.seen who).mem) := by simp only [byRegister, hmay, if_true]
  unfold State.onAll
  rw [hact]
  exact hQ _ hcmd

/-- The next state of a command, from what it does to the registers and the memories. -/
theorem does_of_onMem {i : Instr} {s : State} {Q : State → Prop} {f : Chip → Mem → Chip × Mem} {d : Chip} {t : Mem} (hexec : exec i s = .next (s.onMem f))
    (hf : f s.chip s.mem = (d, t)) (hQ : Q { s with chip := d, mem := t }) : Does i s Q := by
  refine ⟨_, hexec, ?_⟩
  unfold State.onMem
  rw [hf]
  exact hQ

/-- A refused command leaves the capture and the FORCE latch, and its code stands in PRB_RESULT (R95, R216). -/
structure Chip.ProbeRefused (c : Chip) (p cmd code : Nat) (d : Chip) : Prop where
  cap : d.get .PRB_STATUS_CAP p = c.get .PRB_STATUS_CAP p
  force : d.get .H_LATCH_FORCE p = c.get .H_LATCH_FORCE p
  result : d.HasResult .prb p cmd refused code

theorem Chip.refuse_probeRefused (c : Chip) (p cmd code : Nat) : c.ProbeRefused p cmd code (c.refuse .prb p cmd code) where
  cap := (c.refuse_only .prb p cmd code).get p rfl (by decide)
  force := (c.refuse_only .prb p cmd code).get p rfl (by decide)
  result := c.refuse_hasResult .prb p cmd code

/-! ARM -/

/-- The code with which an ARM that is out of place is refused: the first that applies (R216). -/
def Chip.armCode (c : Chip) (p : Nat) : Nat :=
  if c.pumpState p = psEmpty ∨ c.pumpState p = psLoading then 1 else if c.get .PRB_STATUS_CAP p ≠ capIdle then 2 else 3

/-- What ARM returns to its reset values beside the latches. -/
def armFields : List Fld :=
  [.PRB_TRIG_CYC_CYCLE, .PRB_TRIG_REC_REC_NO, .PRB_TRIG_SRC_SEQ, .PRB_TRIG_SRC_FORCE, .PRB_REC_CNT_COUNT, .H_SEQ_CNT_A, .H_SEQ_CNT_B, .H_TRIGGED, .H_POST_LEFT,
   .H_PREV_OCC, .H_FALL_CNT, .PRB_STATUS_SEQ]

/-- The engine with the leavings of the last capture cleared. -/
def Chip.captureCleared (c : Chip) (p : Nat) : Chip := (c.clearLatches p).unsetAll armFields p

/-- The engine as ARM starts a capture (R202, R206), but for its result. -/
def Chip.armed (c : Chip) (p : Nat) : Chip :=
  ((c.captureCleared p).set .PRB_STATUS_RATE p ((c.captureCleared p).get .PRB_RATE_MIN p)).set .PRB_STATUS_CAP p capPre

section
variable (c : Chip) (p : Nat)

/-- A field that ARM returns to its reset value. -/
theorem Chip.armed_get_reset {f : Fld} (hf : f ∈ armFields) : (c.armed p).get f p = f.clip f.reset := by
  have hcap : f ≠ .PRB_STATUS_CAP := by rintro rfl; exact absurd hf (by decide)
  have hrate : f ≠ .PRB_STATUS_RATE := by rintro rfl; exact absurd hf (by decide)
  rw [Chip.armed, Chip.get_set_ne _ _ (by simp [hcap]), Chip.get_set_ne _ _ (by simp [hrate]), Chip.captureCleared, Chip.get_unsetAll, if_pos ⟨hf, rfl⟩]

theorem Chip.armed_cap : (c.armed p).get .PRB_STATUS_CAP p = capPre := Chip.get_set_same _ _ _ _

/-- The capture starts with the smallest rate exponent (R206). -/
theorem Chip.armed_rate : (c.armed p).get .PRB_STATUS_RATE p = c.get .PRB_RATE_MIN p % 16 := by
  have hmin : (c.captureCleared p).get .PRB_RATE_MIN p = c.get .PRB_RATE_MIN p := by
    rw [Chip.captureCleared, Chip.get_unsetAll, if_neg (by simp [armFields]), (c.clearLatches_only p).get p rfl (by decide)]
  rw [Chip.armed, Chip.get_set_ne _ _ (by simp), Chip.get_set_same, hmin]
  rfl

variable {c p}

theorem Chip.prbArm_accepted (hstate : ¬(c.pumpState p = psEmpty ∨ c.pumpState p = psLoading)) (hcap : c.get .PRB_STATUS_CAP p = capIdle)
    (hbuf : c.bufferOk p = true) : c.prbArm p = (c.armed p).acceptDone .prb p 1 :=
  (if_neg hstate).trans ((if_neg (not_not_intro hcap)).trans (if_neg (by simp [hbuf])))

theorem Chip.prbArm_refused (hbad : (c.pumpState p = psEmpty ∨ c.pumpState p = psLoading) ∨ c.get .PRB_STATUS_CAP p ≠ capIdle ∨ c.bufferOk p = false) :
    c.prbArm p = c.refuse .prb p 1 (c.armCode p) := by
  unfold Chip.prbArm Chip.armCode
  dsimp only
  split_ifs with hstate hcap hbuf
  · rfl
  · rfl
  · rfl
  · exact absurd hbad (by rintro (h | h | h); exacts [hstate h, hcap h, hbuf (by simp [h])])

theorem Chip.armCode_lt : c.armCode p < 256 := by
  unfold Chip.armCode
  split_ifs <;> decide

/-- A capture that starts (R202, R206, R216). -/
structure Chip.CaptureStarts (c : Chip) (p : Nat) (d : Chip) : Prop where
  cap : d.get .PRB_STATUS_CAP p = capPre
  seq : d.get .PRB_STATUS_SEQ p = 0
  count : d.get .PRB_REC_CNT_COUNT p = 0
  rate : d.get .PRB_STATUS_RATE p = c.get .PRB_RATE_MIN p % 16
  result : d.HasResult .prb p 1 completed 0

variable (hfree : c.cmdPending .prb p = false)
include hfree

theorem Chip.prbCmd_arm : c.prbCmd p 1 = c.prbArm p := if_neg (by simp [hfree])

theorem Chip.prbCmd_arm_starts (hstate : ¬(c.pumpState p = psEmpty ∨ c.pumpState p = psLoading)) (hcap : c.get .PRB_STATUS_CAP p = capIdle)
    (hbuf : c.bufferOk p = true) : c.CaptureStarts p (c.prbCmd p 1) := by
  have done := (c.armed p).acceptDone_only .prb p 1
  rw [Chip.prbCmd_arm hfree, Chip.prbArm_accepted hstate hcap hbuf]
  exact {
    cap := (done.get p rfl (by decide)).trans (c.armed_cap p)
    seq := (done.get p rfl (by decide)).trans (c.armed_get_reset p (by decide))
    count := (done.get p rfl (by decide)).trans (c.armed_get_reset p (by decide))
    rate := (done.get p rfl (by decide)).trans (c.armed_rate p)
    result := (c.armed p).acceptDone_hasResult .prb p 1 (by decide) }

theorem Chip.prbCmd_arm_refused (hbad : (c.pumpState p = psEmpty ∨ c.pumpState p = psLoading) ∨ c.get .PRB_STATUS_CAP p ≠ capIdle ∨ c.bufferOk p = false) :
    c.ProbeRefused p 1 (c.armCode p) (c.prbCmd p 1) := by
  rw [Chip.prbCmd_arm hfree, Chip.prbArm_refused hbad]
  exact c.refuse_probeRefused p 1 _

end

/-! DISARM and FORCE -/

/-- DISARM waits for the records, and leaves the capture (R216). -/
structure Chip.DisarmWaits (c : Chip) (p : Nat) (d : Chip) : Prop where
  cap : d.get .PRB_STATUS_CAP p = c.get .PRB_STATUS_CAP p
  pending : d.cmdPending .prb p = true
  cmd : d.get .CQ_CMD (CmdReg.prb.idx p) = 2

/-- FORCE sets its latch, and leaves the capture (R210, R216). -/
structure Chip.Forced (c : Chip) (p : Nat) (d : Chip) : Prop where
  cap : d.get .PRB_STATUS_CAP p = c.get .PRB_STATUS_CAP p
  force : d.get .H_LATCH_FORCE p = 1
  result : d.HasResult .prb p 3 completed 0

section
variable {c : Chip} {p : Nat} (hfree : c.cmdPending .prb p = false)
include hfree

theorem Chip.prbCmd_disarm_waits (hcap : c.get .PRB_STATUS_CAP p ≠ capIdle) : c.DisarmWaits p (c.prbCmd p 2) := by
  have hcmd : c.prbCmd p 2 = c.accept .prb p 2 := (if_neg (by simp [hfree])).trans (if_neg hcap)
  rw [hcmd]
  exact ⟨(c.accept_only .prb p 2).get p rfl (by decide), c.accept_cmdPending .prb p 2, c.accept_cmd 2 .prb p⟩

theorem Chip.prbCmd_force_forced (hcap : c.get .PRB_STATUS_CAP p = capPre) : c.Forced p (c.prbCmd p 3) := by
  have hcmd : c.prbCmd p 3 = (c.set .H_LATCH_FORCE p 1).acceptDone .prb p 3 := (if_neg (by simp [hfree])).trans (if_neg (not_not_intro hcap))
  have done := (c.set .H_LATCH_FORCE p 1).acceptDone_only .prb p 3
  rw [hcmd]
  exact {
    cap := (done.get p rfl (by decide)).trans (Chip.get_set_ne _ _ (by simp))
    force := (done.get p rfl (by decide)).trans (Chip.get_set_same _ _ _ _)
    result := Chip.acceptDone_hasResult _ .prb p 3 (by decide) }

theorem Chip.prbCmd_force_refused (hcap : c.get .PRB_STATUS_CAP p ≠ capPre) : c.ProbeRefused p 3 2 (c.prbCmd p 3) := by
  have hcmd : c.prbCmd p 3 = c.refuse .prb p 3 2 := (if_neg (by simp [hfree])).trans (if_pos hcap)
  rw [hcmd]
  exact c.refuse_probeRefused p 3 2

end

/-! The end of a DISARM, and the fall of the rate exponent -/

/-- DISARM completes once every record has. -/
theorem Chip.disarmComplete_of_done {c : Chip} {p : Nat} (hpend : c.cmdPending .prb p = true) (hcmd : c.get .CQ_CMD (CmdReg.prb.idx p) = 2)
    (hdone : c.recordsDone p = true) : c.disarmComplete p = (c.set .PRB_STATUS_CAP p capIdle).finish .prb p completed 0 := if_pos (by simp [hpend, hcmd, hdone])

theorem Chip.disarmComplete_of_undone {c : Chip} {p : Nat} (hdone : c.recordsDone p = false) : c.disarmComplete p = c := if_neg (by simp [hdone])

/-- The rate exponent falls. -/
theorem Chip.rateFall_of_relaxed {c : Chip} {p : Nat} (hon : c.on .PRB_CTL_RR_EN p = true) (hrelax : c.get .PRB_RATE_RELAX p ≠ 0)
    (hlow : c.get .PRB_RATE_RELAX p ≤ c.get .H_FALL_CNT p) (hmin : c.get .PRB_RATE_MIN p < c.get .PRB_STATUS_RATE p) :
    c.rateFall p = (((c.set .PRB_STATUS_RATE p (c.get .PRB_STATUS_RATE p - 1)).set .H_PREV_OCC p 0).set .H_FALL_CNT p 0).probeEvent .PRB_EVENT_RATE_CHG 6 p := by
  have hfalls : c.rateFall p = c.setRate p (c.get .PRB_STATUS_RATE p - 1) := if_pos (by simp [hon, hrelax, hlow, hmin])
  rw [hfalls, Chip.setRate, if_neg (by omega)]

/-! Draining -/

theorem Chip.prbFull_recs (c : Chip) (p : Nat) : (c.prbFull p).recs = c.recs := by
  unfold Chip.prbFull
  split
  · split
    · rfl
    · exact (Chip.probeEvent_quiet _ _ _ _).recs
  · rfl

/-- The memories of `t` are those of `m` with the bytes `d` put into deep memory at `x`. -/
structure Mem.DeepPut (m : Mem) (x : Nat) (d : List Byte) (t : Mem) : Prop where
  written : t.deep = Memory.writeN m.deep x d
  frame : m.DeepOnly t

theorem Mem.DeepPut.read {m t : Mem} {x : Nat} {d : List Byte} (h : m.DeepPut x d t) (z : Nat) :
    Memory.read t.deep z = if x ≤ z ∧ z < x + d.length then d.getD (z - x) 0 else Memory.read m.deep z := by rw [h.written, Memory.read_writeN]

theorem Mem.DeepPut.rest {m t : Mem} {x : Nat} {d : List Byte} (h : m.DeepPut x d t) : t.cistern = m.cistern ∧ t.sram = m.sram ∧ t.rim = m.rim :=
  ⟨(congrArg Mem.cistern h.frame :), (congrArg Mem.sram h.frame :), (congrArg Mem.rim h.frame :)⟩

section
variable {c : Chip} {m : Mem} {p a k g off : Nat} (halive : c.deepDead k off = false) (hgood : NatMap.find 0 m.deepErr (deepKey k g off / 32) = 0)
include halive hgood

/-- Bytes written into a unit without an error mark stand there, whether they are the whole of it or a part. -/
theorem writeDeep_puts (p a net : Nat) (d : List Byte) : ∃ t, writeDeep c m p a k g off net d = ⟨.ok, [], c, t⟩ ∧ m.DeepPut (deepKey k g off) d t := by
  by_cases hd : d.length = 32
  · exact ⟨{ m with deep := Memory.writeN m.deep (deepKey k g off) d, deepErr := NatMap.put 0 m.deepErr (deepKey k g off / 32) 0 },
      by simp [writeDeep, halive, hd], rfl, rfl⟩
  · exact ⟨_, writeDeep_of_good halive hgood p a net hd, rfl, rfl⟩

variable (hplace : c.place p a false = .deep k g off) (hlow : a < cisternBase)
include hplace hlow

/-- A write of bytes within one unit of deep memory, or of none. -/
theorem designWrite_deep (net : Nat) {d : List Byte} (hfit : a % 32 + d.length ≤ 32) :
    ∃ t, designWrite p net false d.length a d c m = ⟨.ok, [], c, t⟩ ∧ m.DeepPut (deepKey k g off) d t := by
  cases d with
  | nil => exact ⟨m, rfl, rfl, rfl⟩
  | cons b d =>
    obtain ⟨t, hwrite, put⟩ := writeDeep_puts halive hgood p a net (b :: d)
    refine ⟨t, ?_, put⟩
    have hspan : unitSpan a (d.length + 1) = d.length + 1 := by
      simp only [List.length_cons] at hfit
      simp only [unitSpan, if_pos hlow]
      omega
    simp only [designWrite, List.length_cons, hspan, hplace, List.take_succ_cons, List.take_length, hwrite, List.drop_succ_cons, List.drop_length]
    cases d <;> simp [designWrite, Status.join]

end

section
variable {c : Chip} {m : Mem} {p n k g off : Nat} {r : ProbeRec} (hplace : c.place r.part (r.addr + r.left) false = .deep k g off)
  (hfit : (r.addr + r.left) % 32 + n ≤ 32) (hlow : r.addr + r.left < cisternBase) (halive : c.deepDead k off = false)
  (hcut : c.cutOff routerHub (c.routerDeep k off) = false) (hgood : NatMap.find 0 m.deepErr (deepKey k g off / 32) = 0)
include hplace hfit hlow halive hcut hgood

/-- The next bytes of a record reach deep memory. -/
theorem drainBytes_of_alive (tag : Nat) : ∃ t, drainBytes c m r n tag = (c, t) ∧ m.DeepPut (deepKey k g off) ((r.data.drop r.left).take n) t := by
  have hlen : ((r.data.drop r.left).take n).length ≤ n := List.length_take_le _ _
  obtain ⟨t, hwrite, put⟩ := designWrite_deep halive hgood hplace hlow 1 (d := (r.data.drop r.left).take n) (by omega)
  refine ⟨t, ?_, put⟩
  unfold drainBytes
  simp only [hplace, Chip.routerOf, hcut, Bool.false_eq_true, if_false, hwrite, if_true]

/-- The oldest record drains `n` bytes; it leaves the staging buffer with its last. -/
theorem recordDrain_of_alive (hfind : c.recs.find? (fun r => r.part = p) = some r) (htag : (c.probeTag p).isSome = true) (hlen : r.left + n ≤ r.data.length) :
    ∃ d t, recordDrain p n c m = (d, t) ∧
      d.recs = (if r.left + n = r.data.length then c.recs.erase r else c.recs.replace r { r with left := r.left + n }) ∧
      m.DeepPut (deepKey k g off) ((r.data.drop r.left).take n) t := by
  obtain ⟨tag, htag⟩ := Option.isSome_iff_exists.mp htag
  obtain ⟨t, hdrain, put⟩ := drainBytes_of_alive hplace hfit hlow halive hcut hgood tag
  have hmin : min n (r.data.length - r.left) = n := by omega
  unfold recordDrain
  simp only [hfind, htag, hdrain, hmin]
  exact ⟨_, t, rfl, Chip.prbFull_recs _ p, put⟩

end

/-! Trigger pulses -/

/-- A field whose value at each place of a list is replaced by a function of it. -/
theorem Chip.get_foldl_update (f : Fld) (u : Nat → Nat) {l : List Nat} (hl : l.Nodup) (c : Chip) (g : Fld) (j : Nat) :
    (l.foldl (fun c k => c.set f k (u (c.get f k))) c).get g j = if g = f ∧ j ∈ l then f.clip (u (c.get f j)) else c.get g j := by
  induction l generalizing c with
  | nil => simp
  | cons k l ih =>
    obtain ⟨hk, hl⟩ := List.nodup_cons.mp hl
    rw [List.foldl_cons, ih hl]
    by_cases hj : j = k
    · subst hj
      simp [hk, Chip.get_set]
    · simp [hj, Chip.get_set]

/-- An edge of XTRIG_IN of full length sets its latch in every partition, and changes no other field (R211). -/
theorem Chip.xtrigIn_get (c : Chip) (n : Nat) (g : Fld) (j : Nat) :
    (c.xtrigIn n false).get g j = if g = .H_LATCH_X ∧ j < 16 then orBit (c.get .H_LATCH_X j) n % 16 else c.get g j :=
  (Chip.get_foldl_update .H_LATCH_X (orBit · n) List.nodup_range c g j).trans (by simp only [List.mem_range]; rfl)

/-- Whether `x` is a pulse from `q` to `p` whose period of arrival has ended. -/
def Chip.lineEnded (c : Chip) (q p : Nat) (x : LinePulse) : Bool := x.q = q && x.p = p && x.due < c.period

/-- The module without the pulses from `q` to `p` that have arrived. -/
def Chip.linesTaken (c : Chip) (q p : Nat) : Chip := { c with lines := c.lines.filter fun x => !c.lineEnded q p x }

section
variable (c : Chip) (q p : Nat)

theorem Chip.lineArrival_of_ended {x : LinePulse} (hx : x ∈ c.lines) (hended : c.lineEnded q p x = true) : c.lineArrival q p = (c.linesTaken q p).lineLatch q p :=
  if_pos (List.any_eq_true.mpr ⟨x, hx, hended⟩)

theorem Chip.not_mem_linesTaken {x : LinePulse} (hended : c.lineEnded q p x = true) : x ∉ (c.linesTaken q p).lines := by simp [Chip.linesTaken, hended]

theorem Chip.lineLatch_lines : (c.lineLatch q p).lines = c.lines := by
  unfold Chip.lineLatch
  split
  · exact c.set_lines _ _ _
  · rfl

theorem Chip.lineLatch_get : (c.lineLatch q p).get .H_LATCH_L p =
    if c.masterOf p = c.masterOf q then orBit (c.get .H_LATCH_L p) q % 2 ^ 16 else c.get .H_LATCH_L p := by
  unfold Chip.lineLatch
  split
  · exact Chip.get_set_same _ _ _ _
  · rfl

theorem Chip.lineLatch_keepsAll : KeepsAll c (c.lineLatch q p) [(.H_LATCH_L, p)] := by
  unfold Chip.lineLatch
  split
  · exact (KeepsAll.refl c _).set _ (by simp)
  · exact .refl c _

end

/-- Whether the rise `x` of XTRIG_OUT[n] is due. -/
def Chip.riseDue (c : Chip) (n x : Nat) : Bool := x / 2 ^ 64 % 4 = n && x % 2 ^ 64 ≤ c.period

/-- Whether the partition that asked for the rise `x` permits it now (R213). -/
def Chip.risePermitted (c : Chip) (n x : Nat) : Bool := bitB (c.get .PRB_CTL_XOUT_EN (x / 2 ^ 66)) n

/-- The module without the rises of XTRIG_OUT[n] that are due. -/
def Chip.risesTaken (c : Chip) (n : Nat) : Chip := { c with xrise := c.xrise.filter fun x => !c.riseDue n x }

section
variable {c : Chip} {n : Nat}

theorem Chip.riseDue_iff {x : Nat} : c.riseDue n x = true ↔ x / 2 ^ 64 % 4 = n ∧ x % 2 ^ 64 ≤ c.period := by
  simp only [Chip.riseDue, Bool.and_eq_true, decide_eq_true_eq]

theorem Chip.xoutRise_eq (c : Chip) (n : Nat) : c.xoutRise n =
    if (c.xrise.any fun x => c.riseDue n x && c.risePermitted n x) = true then ((c.risesTaken n).set .H_XOUT n 1).setDue .H_XOUT_FALL n 96 else c.risesTaken n := rfl

/-- A rise that is due and permitted takes place. -/
theorem Chip.xoutRise_of_permitted {x : Nat} (hx : x ∈ c.xrise) (hdue : c.riseDue n x = true) (hen : c.risePermitted n x = true) :
    c.xoutRise n = ((c.risesTaken n).set .H_XOUT n 1).setDue .H_XOUT_FALL n 96 := by
  rw [Chip.xoutRise_eq, if_pos (List.any_eq_true.mpr ⟨x, hx, by simp [hdue, hen]⟩)]

/-- A rise that is not permitted does not take place. -/
theorem Chip.xoutRise_of_forbidden (h : ∀ x ∈ c.xrise, c.riseDue n x = true → c.risePermitted n x = false) : c.xoutRise n = c.risesTaken n := by
  rw [Chip.xoutRise_eq, if_neg]
  intro hany
  obtain ⟨x, hx, hrise⟩ := List.any_eq_true.mp hany
  rw [Bool.and_eq_true] at hrise
  simp [h x hx hrise.1] at hrise

theorem Chip.not_mem_risesTaken {x : Nat} (hdue : c.riseDue n x = true) : x ∉ (c.risesTaken n).xrise := by simp [Chip.risesTaken, hdue]

end

/-! The obligation -/

/-- Settles O38: each command changes the capture or is refused with its code, a drained record's bytes stand in deep memory, and trigger pulses set their latches and pins. -/
theorem probeCommandsAndEvents : Obligations.ProbeCommandsAndEvents := by
  intro who p q n k s
  refine ⟨fun hmay hfree => ?commands, fun hpend hcmd => ⟨fun hdone => ?disarmed, fun hdone => ?waits⟩,
    fun r hfind htag st g off hplace hawake hlen hfit hlow halive hcut hgood => ?drain, fun hon hrelax hlow hmin => ?rateFall, ?edge,
    fun x hx hq hp hdue => ?line, fun x hx hn hdue hen => ?rise, fun hforbidden => ?noRise, fun hdue => ?fall⟩
  case commands =>
    let c : Chip := (s.seen who).chip.answer .ok
    have hfree : c.cmdPending .prb p = false := hfree
    refine ⟨fun hstate hcap hbuf => ?arm, fun hbad => ?armRefused, fun hcap => ?disarm, fun hcap => ?force, fun hcap => ?forceRefused⟩
    case arm =>
      exact does_of_prbCmd rfl hmay (Chip.prbCmd_arm_starts hfree hstate hcap hbuf) fun d h =>
        ⟨h.cap, h.seq, h.count, h.rate, h.result.ready, h.result.outcome, rfl, rfl⟩
    case armRefused =>
      exact does_of_prbCmd rfl hmay (Chip.prbCmd_arm_refused hfree hbad) fun d h =>
        ⟨⟨h.cap, rfl, rfl⟩, h.result.outcome, h.result.code.trans (Nat.mod_eq_of_lt Chip.armCode_lt)⟩
    case disarm => exact does_of_prbCmd rfl hmay (Chip.prbCmd_disarm_waits hfree hcap) fun d h => ⟨⟨h.cap, rfl, rfl⟩, h.pending, h.cmd⟩
    case force => exact does_of_prbCmd rfl hmay (Chip.prbCmd_force_forced hfree hcap) fun d h => ⟨⟨h.cap, rfl, rfl⟩, h.force, h.result.outcome⟩
    case forceRefused =>
      exact does_of_prbCmd rfl hmay (Chip.prbCmd_force_refused hfree hcap) fun d h => ⟨⟨h.cap, rfl, rfl⟩, h.force, h.result.outcome, h.result.code⟩
  case disarmed =>
    let c : Chip := s.chip.set .PRB_STATUS_CAP p capIdle
    have kept : Chip.Only [.PRB_STATUS_CAP] s.chip c := Chip.Only.set (.refl s.chip) capIdle (by decide)
    have result := c.finish_hasResult .prb p completed 0 ((kept.cmdPending_eq (by decide) .prb p).trans hpend)
    refine does_of_onChip rfl (Chip.disarmComplete_of_done hpend hcmd hdone)
       ⟨?_, c.finish_cmdPending .prb p completed 0, result.outcome, result.ready, rfl, rfl⟩
    exact ((c.finish_only .prb p completed 0).get p rfl (by decide)).trans (Chip.get_set_same _ _ _ _)
  case waits => exact congrArg (fun c => Host.Outcome.next { s with chip := c }) (Chip.disarmComplete_of_undone hdone)
  case drain =>
    have hpart : r.part = p := by simpa using List.find?_some hfind
    obtain ⟨d, t, hdrain, hrecs, put⟩ := recordDrain_of_alive (hpart ▸ hplace) hfit hlow halive hcut hgood hfind htag hlen
    have hrun : recordDrainAwake p k.toNat s.chip s.mem = (d, t) := (if_neg fun h => hawake h.1).trans hdrain
    obtain ⟨hcistern, hsram, hrim⟩ := put.rest
    refine does_of_onMem rfl hrun ⟨hrecs, fun z => ?_, hcistern, hsram, hrim, rfl⟩
    have hbytes : ((r.data.drop r.left).take k.toNat).length = k.toNat := by simp; omega
    rw [put.read, hbytes]
    split_ifs with hz
    · have hin : z - deepKey st g off < k.toNat := by omega
      simp [hin]
    · rfl
  case rateFall =>
    have quiet := Chip.probeEvent_quiet (((s.chip.set .PRB_STATUS_RATE p (s.chip.get .PRB_STATUS_RATE p - 1)).set .H_PREV_OCC p 0).set .H_FALL_CNT p 0)
      .PRB_EVENT_RATE_CHG 6 p
    refine does_of_onChip rfl (Chip.rateFall_of_relaxed hon hrelax hlow hmin)
      ⟨(quiet.get _ _ rfl).trans ?_, (quiet.get _ _ rfl).trans (Chip.get_set_same _ _ _ _), rfl, rfl⟩
    rw [Chip.get_set_ne _ _ (by simp), Chip.get_set_ne _ _ (by simp), Chip.get_set_ne _ _ (by simp), Chip.get_set_same]
    rfl
  case edge =>
    refine does_of_onChip rfl rfl ⟨fun j hj => (s.chip.xtrigIn_get n _ j).trans (if_pos ⟨rfl, hj⟩), fun g j hg => (s.chip.xtrigIn_get n g j).trans (if_neg ?_), rfl, rfl⟩
    rintro ⟨rfl, hj⟩
    exact hg (List.mem_map.mpr ⟨j, List.mem_range.mpr hj, rfl⟩)
  case line =>
    have hended : s.chip.lineEnded q p x = true := by simp [Chip.lineEnded, hq, hp, hdue]
    let c : Chip := s.chip.linesTaken q p
    refine does_of_onChip rfl (s.chip.lineArrival_of_ended q p hx hended) ⟨c.lineLatch_get q p, ?_, c.lineLatch_keepsAll q p, rfl, rfl⟩
    exact (c.lineLatch_lines q p).symm ▸ s.chip.not_mem_linesTaken q p hended
  case rise =>
    have hrise : s.chip.riseDue n x = true := Chip.riseDue_iff.mpr ⟨hn, hdue⟩
    refine does_of_onChip rfl (Chip.xoutRise_of_permitted hx hrise hen) ⟨?_, Chip.get_set_same _ _ _ _, Chip.not_mem_risesTaken hrise, ?_, rfl, rfl⟩
    · exact (Chip.get_set_ne _ _ (by simp)).trans (Chip.get_set_same _ _ _ _)
    · exact ((KeepsAll.refl s.chip _).set 1 (by simp)).set _ (by simp)
  case noRise =>
    refine does_of_onChip rfl (Chip.xoutRise_of_forbidden fun x hx hrise => ?_) ⟨.refl s.chip _, rfl, rfl⟩
    obtain ⟨hn, hdue⟩ := Chip.riseDue_iff.mp hrise
    exact hforbidden x hx hn hdue
  case fall =>
    refine does_of_onChip rfl (if_pos hdue) ⟨?_, ?_, rfl, rfl⟩
    · exact (Chip.get_set_ne _ _ (by simp)).trans (Chip.get_set_same _ _ _ _)
    · exact ((KeepsAll.refl s.chip _).set 0 (by simp)).set 0 (by simp)

end Sys2Proof.Machine
end
section
/-! PROOFS. Pin functions that change break-before-make, and the banks' supplies (R229, R265, R267, R270; O42). -/

namespace Sys2Proof.Machine

/-- A field of `n` bits holds what is written to it, cut to them. -/
theorem Fld.clip_of_width_eq {f : Fld} {n : Nat} (h : f.width = n) (hn : 0 < n) (v : Nat) : f.clip v = v % 2 ^ n := by
  subst h
  exact Fld.clip_of_width hn v

/-! The pins that switch -/

theorem Chip.pinsWith_subset (c : Chip) (i : Nat) : c.pinsWith i ⊆ [i, i + 1] := by
  unfold Chip.pinsWith
  split <;> simp

section
variable {c : Chip} {i j : Nat}

theorem Chip.pinIdle_get (c : Chip) (i : Nat) (g : Fld) (j : Nat) : (c.pinIdle i).get g j =
    if g = .H_PIN_SRC ∧ j = i then 0 else if g = .H_PIN_IDLE ∧ j = i then c.now + 97 else c.get g j := by
  rw [Chip.pinIdle, Chip.get_set, Chip.setDue, Chip.get_set, Fld.clip_zero, Fld.clip_of_unbounded (f := .H_PIN_IDLE) rfl]
  rfl

/-- Every pin of a list goes idle until two periods from now. -/
theorem Chip.pinsIdle_get {l : List Nat} (hj : j ∈ l) (c : Chip) :
    (l.foldl Chip.pinIdle c).get .H_PIN_IDLE j = c.now + 97 ∧ (l.foldl Chip.pinIdle c).get .H_PIN_SRC j = 0 := by
  refine (foldl_reaches (J := fun d : Chip => d.now = c.now)
    (Q := fun d : Chip => d.now = c.now ∧ d.get .H_PIN_IDLE j = c.now + 97 ∧ d.get .H_PIN_SRC j = 0) Chip.pinIdle j ?_ ?_ ?_ l hj c rfl).2
  · exact fun _ _ h => h
  · rintro d k ⟨hnow, hidle, hsrc⟩
    exact ⟨hnow, by simp [Chip.pinIdle_get, hnow, hidle], by simp [Chip.pinIdle_get, hsrc]⟩
  · intro d hnow
    exact ⟨hnow, by simp [Chip.pinIdle_get, hnow], by simp [Chip.pinIdle_get]⟩

/-- What a switch of pin `i` and its partner writes. -/
def pinPads (i : Nat) : List (Fld × Nat) := [(.H_PIN_IDLE, i), (.H_PIN_IDLE, i + 1), (.H_PIN_SRC, i), (.H_PIN_SRC, i + 1)]

theorem mem_pinPads (h : j ∈ [i, i + 1]) : (Fld.H_PIN_IDLE, j) ∈ pinPads i ∧ (Fld.H_PIN_SRC, j) ∈ pinPads i := by
  simpa [pinPads] using h

/-- The settings that pin `i` holds are at its pad. -/
def Chip.pinTaken (c : Chip) (i : Nat) : Chip := ((c.set .H_PIN_PEND i 0).set .H_PIN_MOVE i 0).set .H_PIN_CFG i (c.pinCfg i).word

theorem Chip.pinTaken_now (c : Chip) (i : Nat) : (c.pinTaken i).now = c.now := by simp only [Chip.pinTaken, Chip.set_now]

/-- What the taking of the settings writes. -/
def pinTakenFields (i : Nat) : List (Fld × Nat) := [(.H_PIN_PEND, i), (.H_PIN_MOVE, i), (.H_PIN_CFG, i)]

theorem Chip.pinTaken_keepsAll (c : Chip) (i : Nat) : KeepsAll c (c.pinTaken i) (pinTakenFields i) :=
  (((KeepsAll.refl c _).set 0 (by simp [pinTakenFields])).set 0 (by simp [pinTakenFields])).set _ (by simp [pinTakenFields])

theorem Chip.pinTaken_values (c : Chip) (i : Nat) :
    (c.pinTaken i).get .H_PIN_PEND i = 0 ∧ (c.pinTaken i).get .H_PIN_MOVE i = 0 ∧ (c.pinTaken i).get .H_PIN_CFG i = (c.pinCfg i).word % 2 ^ 32 := by
  refine ⟨?_, ?_, (Chip.get_set_same _ _ _ _).trans (Fld.clip_of_width_eq rfl (by decide) _)⟩
  · simp [Chip.pinTaken, Chip.get_set, Fld.clip_zero]
  · simp [Chip.pinTaken, Chip.get_set, Fld.clip_zero]

/-- A change of FUNC or STD that is due takes the settings, and the pins go idle. -/
theorem Chip.pinChange_of_move (hdue : c.due .H_PIN_PEND i = true) (hmove : c.on .H_PIN_MOVE i = true) :
    c.pinChange i = (c.pinsWith i).foldl Chip.pinIdle (c.pinTaken i) := by
  simp [Chip.pinChange, Chip.pinTaken, hdue, hmove]

/-- Any other change that is due takes the settings. -/
theorem Chip.pinChange_of_still (hdue : c.due .H_PIN_PEND i = true) (hmove : c.on .H_PIN_MOVE i = false) : c.pinChange i = c.pinTaken i := by
  simp [Chip.pinChange, Chip.pinTaken, hdue, hmove]

theorem Chip.pinsIdle_keepsAll {d : Chip} {ws : List (Fld × Nat)} (h : KeepsAll c d ws) {l : List Nat}
    (hl : ∀ j ∈ l, (Fld.H_PIN_IDLE, j) ∈ ws ∧ (Fld.H_PIN_SRC, j) ∈ ws) : KeepsAll c (l.foldl Chip.pinIdle d) ws :=
  List.foldlRecOn (motive := fun d => KeepsAll c d ws) _ _ h fun _ hd j hj => (KeepsAll.set hd _ (hl j hj).1).set 0 (hl j hj).2

/-- Going idle writes no field of the settings. -/
theorem Chip.pinsIdle_other (l : List Nat) (c : Chip) {g : Fld} (hsrc : g ≠ .H_PIN_SRC) (hidle : g ≠ .H_PIN_IDLE) (j : Nat) :
    (l.foldl Chip.pinIdle c).get g j = c.get g j :=
  List.foldlRecOn (motive := fun d : Chip => d.get g j = c.get g j) _ _ rfl fun d hd k _ => by
    rw [Chip.pinIdle_get, if_neg (by simp [hsrc]), if_neg (by simp [hidle]), hd]

/-! The end of a switch -/

/-- The pad of pin `j` is driven by its new source. -/
def Chip.pinDriven (c : Chip) (j : Nat) : Chip := (c.set .H_PIN_IDLE j 0).set .H_PIN_SRC j (c.pinFunc j)

theorem Chip.pinFunc_congr {d : Chip} (h : ∀ k, d.get .H_PIN_CFG k = c.get .H_PIN_CFG k) (j : Nat) : d.pinFunc j = c.pinFunc j := by
  simp only [Chip.pinFunc, Chip.padPin, Chip.padCfg, h]

theorem Chip.pinDriven_get (c : Chip) (i : Nat) (g : Fld) (j : Nat) : (c.pinDriven i).get g j =
    if g = .H_PIN_SRC ∧ j = i then c.pinFunc i % 8 else if g = .H_PIN_IDLE ∧ j = i then 0 else c.get g j := by
  rw [Chip.pinDriven, Chip.get_set, Chip.get_set, Fld.clip_zero]
  rfl

/-- Every pin of a list is driven by its new source. -/
theorem Chip.pinsDriven_get {l : List Nat} (hj : j ∈ l) (c : Chip) :
    (l.foldl Chip.pinDriven c).get .H_PIN_IDLE j = 0 ∧ (l.foldl Chip.pinDriven c).get .H_PIN_SRC j = c.pinFunc j % 8 := by
  have cfg {d : Chip} (k : Nat) (h : ∀ x, d.get .H_PIN_CFG x = c.get .H_PIN_CFG x) (x : Nat) : (d.pinDriven k).get .H_PIN_CFG x = c.get .H_PIN_CFG x := by
    simp [Chip.pinDriven_get, h]
  refine (foldl_reaches (J := fun d : Chip => ∀ x, d.get .H_PIN_CFG x = c.get .H_PIN_CFG x)
    (Q := fun d : Chip => (∀ x, d.get .H_PIN_CFG x = c.get .H_PIN_CFG x) ∧ d.get .H_PIN_IDLE j = 0 ∧ d.get .H_PIN_SRC j = c.pinFunc j % 8)
    Chip.pinDriven j ?_ ?_ ?_ l hj c fun _ => rfl).2
  · exact fun _ k h => cfg k h
  · rintro d k ⟨hcfg, hidle, hsrc⟩
    refine ⟨cfg k hcfg, by simp [Chip.pinDriven_get, hidle], ?_⟩
    by_cases hk : j = k
    · subst hk
      simp [Chip.pinDriven_get, Chip.pinFunc_congr hcfg]
    · simp [Chip.pinDriven_get, hk, hsrc]
  · intro d hcfg
    exact ⟨cfg j hcfg, by simp [Chip.pinDriven_get], by simp [Chip.pinDriven_get, Chip.pinFunc_congr hcfg]⟩

theorem Chip.pinSwitched_of_due (hdue : c.due .H_PIN_IDLE i = true) (hlast : (c.due .H_PIN_PEND i && c.on .H_PIN_MOVE i) = false) :
    c.pinSwitched i = (c.pinsWith i).foldl Chip.pinDriven c := if_pos (by simp [hdue, hlast])

theorem Chip.pinsDriven_keepsAll {l : List Nat} (hl : l ⊆ [i, i + 1]) (c : Chip) : KeepsAll c (l.foldl Chip.pinDriven c) (pinPads i) :=
  List.foldlRecOn (motive := fun d => KeepsAll c d (pinPads i)) _ _ (.refl c _) fun _ hd _ hj =>
    (KeepsAll.set hd 0 (mem_pinPads (hl hj)).1).set _ (mem_pinPads (hl hj)).2

end

/-! Reset trees -/

theorem Chip.assertTree_get (c : Chip) (r : Nat) (g : Fld) (j : Nat) : (c.assertTree r).get g j =
    if g = .H_RST_CNT ∧ j = r then 0 else if g = .H_RST_TREE ∧ j = r then 1 else c.get g j := by
  rw [Chip.assertTree, Chip.get_set, Chip.get_set]
  rfl

/-- The reset trees of the bank's pin are asserted. -/
theorem Chip.pinResets_get_tree {c : Chip} {b r : Nat} (hr : r < 4) (hsrc : c.get .RIM_RST_CTL_SRC r = 2) (hbank : c.get .RIM_RST_CTL_BANK r = b) :
    (c.pinResets b).get .H_RST_TREE r = 1 := by
  refine foldl_reaches (J := fun d : Chip => d.get .RIM_RST_CTL_SRC r = 2 ∧ d.get .RIM_RST_CTL_BANK r = b) (Q := fun d : Chip => d.get .H_RST_TREE r = 1)
    _ r ?_ ?_ ?_ _ (List.mem_range.mpr hr) c ⟨hsrc, hbank⟩
  · rintro d k ⟨hs, hb⟩
    split
    · simp [Chip.assertTree_get, hs, hb]
    · exact ⟨hs, hb⟩
  · intro d k h
    split
    · simp [Chip.assertTree_get, h]
    · exact h
  · intro d h
    rw [if_pos h]
    simp [Chip.assertTree_get]

/-! Bank supplies -/

section
variable {c : Chip} {b : Nat}

/-- The bank has its supply, and its 100 µs begin (R267). -/
def Chip.bankSupplied (c : Chip) (b strap : Nat) : Chip :=
  ((c.set .IOB_BANK_STATUS_PGOOD b 1).set .IOB_BANK_STATUS_STRAP b strap).setDue .H_PG_SETTLE b (100 * Chip.us)

theorem Chip.pgoodRise_of_low (hlow : c.get .IOB_BANK_STATUS_PGOOD b = 0) (hhere : c.on .H_ABSENT 0 = false) (strap : Nat) :
    c.pgoodRise b strap = (c.bankSupplied b strap).raise (227 + b) := by
  have hoff : c.on .IOB_BANK_STATUS_PGOOD b = false := by simp [Chip.on, hlow]
  exact if_neg (by simp [hoff, hhere])

theorem Chip.bankSupplied_values (c : Chip) (b : Nat) (strap : Fin 4) : (c.bankSupplied b strap).get .IOB_BANK_STATUS_PGOOD b = 1 ∧
    (c.bankSupplied b strap).get .IOB_BANK_STATUS_STRAP b = strap.val ∧ (c.bankSupplied b strap).get .H_PG_SETTLE b = c.now + 100 * Chip.us + 1 := by
  have hstrap : Fld.IOB_BANK_STATUS_STRAP.clip strap = strap.val := Fld.clip_lt strap.isLt
  refine ⟨?_, ?_, (Chip.get_set_same _ _ _ _).trans (Fld.clip_of_unbounded rfl _)⟩
  · simp [Chip.bankSupplied, Chip.setDue, Chip.get_set]
    rfl
  · simp [Chip.bankSupplied, Chip.setDue, Chip.get_set, hstrap]

/-- A bank whose 100 µs are not over is in the power-off state. -/
theorem Chip.bankState_of_settling (h : c.on .H_PG_SETTLE b = true) : c.bankState b = .powerOff := if_pos (by simp [h])

/-- A supplied bank whose 100 µs are over is in another state. -/
theorem Chip.bankState_ne_powerOff (hgood : c.on .IOB_BANK_STATUS_PGOOD b = true) (hsettled : c.on .H_PG_SETTLE b = false) : c.bankState b ≠ .powerOff := by
  unfold Chip.bankState
  rw [if_neg (by simp [hgood, hsettled])]
  split_ifs <;> simp

/-- The inputs of a bank without a supply read 0. -/
theorem Chip.inputOff_of_unsupplied (h : c.get .IOB_BANK_STATUS_PGOOD b = 0) (n : Nat) : c.inputOff b n = true := by
  simp [Chip.inputOff, Chip.on, h]

theorem Chip.pgoodFall_of_high (h : c.on .IOB_BANK_STATUS_PGOOD b = true) :
    c.pgoodFall b = ((((c.set .IOB_BANK_STATUS_PGOOD b 0).set .H_PG_SETTLE b 0).pinResets b).raise (227 + b)) := if_pos h

/-- The reset trees of its pin are asserted as the supply falls (R229). -/
theorem Chip.pgoodFall_get_tree {r : Nat} (h : c.on .IOB_BANK_STATUS_PGOOD b = true) (hr : r < 4) (hsrc : c.get .RIM_RST_CTL_SRC r = 2)
    (hbank : c.get .RIM_RST_CTL_BANK r = b) : (c.pgoodFall b).get .H_RST_TREE r = 1 := by
  rw [Chip.pgoodFall_of_high h, Chip.raise_get _ _ _ _ rfl]
  exact Chip.pinResets_get_tree hr (by simpa [Chip.get_set] using hsrc) (by simpa [Chip.get_set] using hbank)

/-! Measurements -/

theorem Chip.vMismatch_congr {d : Chip} (hsupply : d.get .IOB_BANK_CFG_VCCIO b = c.get .IOB_BANK_CFG_VCCIO b)
    (hmeas : d.get .IOB_BANK_STATUS_VMEAS b = c.get .IOB_BANK_STATUS_VMEAS b) : d.vMismatch b = c.vMismatch b := by
  unfold Chip.vMismatch
  rw [hsupply, hmeas]

theorem Chip.vUpdate_keeps (c : Chip) (b : Nat) : Keeps c (c.vUpdate b) [(.IOB_BANK_STATUS_VMISMATCH, b)] := by
  unfold Chip.vUpdate
  dsimp only
  split
  · exact .refl c _
  · exact ((Keeps.refl c _).set _ (by simp)).quiet (Chip.raise_quiet _ _)

theorem Chip.vUpdate_get (c : Chip) (b : Nat) : (c.vUpdate b).get .IOB_BANK_STATUS_VMISMATCH b = b2n (c.vMismatch b) := by
  have fits : Fld.IOB_BANK_STATUS_VMISMATCH.clip (b2n (c.vMismatch b)) = b2n (c.vMismatch b) := by cases c.vMismatch b <;> rfl
  unfold Chip.vUpdate
  dsimp only
  split
  next h => exact h
  next => rw [Chip.raise_get _ _ _ _ rfl, Chip.get_set_same, fits]

/-- A change of VMISMATCH leaves what it is found from. -/
theorem Chip.vUpdate_vMismatch (c : Chip) (b : Nat) : (c.vUpdate b).vMismatch b = c.vMismatch b :=
  Chip.vMismatch_congr (c.vUpdate_keeps b _ _ rfl (by simp)) (c.vUpdate_keeps b _ _ rfl (by simp))

end

/-! The obligation -/

/-- Settles O42: a due change takes the settings and, where FUNC or STD has changed, idles the pins of the pair; the rest are the supplies' equations. -/
theorem pinsAndBankSupplies : Obligations.PinsAndBankSupplies := by
  intro b n strap v s i pads taken
  refine ⟨fun hdue => ?change, fun hdue hlast => ?switch, fun hlow hhere => ?rise, fun hdue hgood => ?settle, fun hgood => ?fall, ?measure⟩
  case change =>
    obtain ⟨hpend, hmove, hcfg⟩ := s.chip.pinTaken_values i
    have hpads (j : Nat) (hj : j ∈ s.chip.pinsWith i) : (Fld.H_PIN_IDLE, j) ∈ taken ++ pads ∧ (Fld.H_PIN_SRC, j) ∈ taken ++ pads :=
      (mem_pinPads (s.chip.pinsWith_subset i hj)).imp (List.mem_append_right _) (List.mem_append_right _)
    cases hmoves : s.chip.on .H_PIN_MOVE i with
    | true =>
      have hidle (j : Nat) (hj : j ∈ s.chip.pinsWith i) := Chip.pinsIdle_get hj (s.chip.pinTaken i)
      rw [s.chip.pinTaken_now i] at hidle
      refine does_of_onChip rfl (Chip.pinChange_of_move hdue hmoves) ⟨?_, ?_, ?_, fun _ => ⟨hidle, ?_⟩, nofun, rfl, rfl⟩
      · exact (Chip.pinsIdle_other _ _ (by decide) (by decide) i).trans hpend
      · exact (Chip.pinsIdle_other _ _ (by decide) (by decide) i).trans hmove
      · exact (Chip.pinsIdle_other _ _ (by decide) (by decide) i).trans hcfg
      · exact Chip.pinsIdle_keepsAll (fun g j hg => s.chip.pinTaken_keepsAll i g j fun h => hg (List.mem_append_left _ h)) hpads
    | false =>
      exact does_of_onChip rfl (Chip.pinChange_of_still hdue hmoves) ⟨hpend, hmove, hcfg, nofun, fun _ => s.chip.pinTaken_keepsAll i, rfl, rfl⟩
  case switch =>
    exact does_of_onChip rfl (Chip.pinSwitched_of_due hdue hlast)
      ⟨fun j hj => Chip.pinsDriven_get hj s.chip, Chip.pinsDriven_keepsAll (s.chip.pinsWith_subset i) s.chip, rfl, rfl⟩
  case rise =>
    obtain ⟨hgood, hstrap, hsettle⟩ := s.chip.bankSupplied_values b strap
    have quiet := (s.chip.bankSupplied b strap).raise_quiet (227 + b)
    have hsettles := (quiet.get .H_PG_SETTLE b rfl).trans hsettle
    refine does_of_onChip rfl (Chip.pgoodRise_of_low hlow hhere strap) ?_
    dsimp only
    refine ⟨?_, ?_, ?_, ?_, rfl, rfl⟩
    · exact (quiet.get .IOB_BANK_STATUS_PGOOD b rfl).trans hgood
    · exact (quiet.get .IOB_BANK_STATUS_STRAP b rfl).trans hstrap
    · exact Chip.bankState_of_settling (by simp [Chip.on, hsettles])
    · exact hsettles
  case settle =>
    refine does_of_onChip rfl (if_pos hdue) ⟨Chip.bankState_ne_powerOff ?_ ?_, (KeepsAll.refl s.chip _).set 0 (by simp), rfl, rfl⟩
    · simpa [Chip.on, Chip.get_set] using hgood
    · simp [Chip.on, Fld.clip_zero]
  case fall =>
    have hoff : (s.chip.pgoodFall b).get .IOB_BANK_STATUS_PGOOD b = 0 := (s.chip.pgoodFall_get b b).trans (if_pos rfl)
    exact does_of_onChip rfl rfl ⟨hoff, Chip.bankState_of_unsupplied hoff, fun m _ => Chip.inputOff_of_unsupplied hoff m,
      fun r hr hsrc hbank => Chip.pgoodFall_get_tree hgood hr hsrc hbank, rfl, rfl⟩
  case measure =>
    let c : Chip := s.chip.set .IOB_BANK_STATUS_VMEAS b v.toNat
    have hmeas : c.get .IOB_BANK_STATUS_VMEAS b = v.toNat := (Chip.get_set_same _ _ _ _).trans (Fld.clip_lt v.isLt)
    have kept : Keeps c (c.vUpdate b) _ := c.vUpdate_keeps b
    refine does_of_onChip rfl rfl ⟨(kept _ _ rfl (by simp)).trans hmeas, ?_, fun g j hs hg => ?_, rfl, rfl⟩
    · exact (c.vUpdate_get b).trans (congrArg b2n (c.vUpdate_vMismatch b).symm)
    · exact (kept g j hs fun h => hg (List.mem_cons_of_mem _ h)).trans (Chip.get_set_ne _ _ fun h => hg (by simp [h]))

end Sys2Proof.Machine
end
section
/-! PROOFS. The scrubber of the rim configuration memory (R238; O39). -/

namespace Sys2Proof.Machine

/-! A flipped bit -/

section
variable (m : Mem) (f e : Nat)

theorem Mem.flipBit_find_rimErr (k : Nat) : NatMap.find 0 (m.flipBit f e).rimErr k =
    if k = f * 16 + e / 128 then NatMap.find 0 m.rimErr k ^^^ 2 ^ (e % 128) else NatMap.find 0 m.rimErr k := by
  refine (NatMap.find_put 0 m.rimErr k _ _).trans ?_
  split
  next hk => subst hk; rfl
  next => rfl

/-- A data bit flips in its byte; a check bit is in no byte. -/
theorem Mem.flipBit_read (x : Nat) : Memory.read (m.flipBit f e).rim x =
    if e % 128 < 64 ∧ x = f * 128 + e / 128 * 8 + e % 128 / 8 then Memory.read m.rim x ^^^ BitVec.ofNat 8 (2 ^ (e % 8)) else Memory.read m.rim x := by
  unfold Mem.flipBit
  dsimp only
  by_cases hdata : e % 128 < 64
  · rw [if_pos hdata, Memory.read_write]
    by_cases hx : x = f * 128 + e / 128 * 8 + e % 128 / 8
    · rw [if_pos hx, if_pos ⟨hdata, hx⟩, hx]
    · rw [if_neg hx, if_neg fun h => hx h.2]
  · rw [if_neg hdata, if_neg fun h => hdata h.1]

variable {m f e} {w : Nat}

/-- A bit in error of a word is one of its 72 bits. -/
theorem Mem.place_of_mem_wordErrors (h : e ∈ m.wordErrors f w) : e / 128 = w ∧ e % 128 < 72 := by
  obtain ⟨i, hi, rfl⟩ := List.mem_map.mp h
  have hi := List.mem_range.mp (List.mem_filter.mp hi).1
  omega

theorem Mem.mem_wordErrors {i : Nat} : w * 128 + i ∈ m.wordErrors f w ↔ i < 72 ∧ bitB (NatMap.find 0 m.rimErr (f * 16 + w)) i = true := by
  simp [Mem.wordErrors]

/-- A flip in one word leaves the others. -/
theorem Mem.wordErrors_flipBit_ne (h : w ≠ e / 128) : (m.flipBit f e).wordErrors f w = m.wordErrors f w := by
  unfold Mem.wordErrors
  rw [Mem.flipBit_find_rimErr, if_neg (by omega)]

/-- A flip of the one bit that is in error leaves none. -/
theorem Mem.wordErrors_flipBit_of_one (h : m.wordErrors f w = [e]) : (m.flipBit f e).wordErrors f w = [] := by
  obtain ⟨hw, -⟩ := Mem.place_of_mem_wordErrors (h ▸ List.mem_singleton_self e : e ∈ m.wordErrors f w)
  refine List.eq_nil_iff_forall_not_mem.mpr fun e' he' => ?_
  obtain ⟨i, -, rfl⟩ := List.mem_map.mp he'
  obtain ⟨hi, hset⟩ := Mem.mem_wordErrors.mp he'
  have old : bitB (NatMap.find 0 m.rimErr (f * 16 + w)) i = decide (w * 128 + i = e) := by
    have hmem : w * 128 + i ∈ m.wordErrors f w ↔ w * 128 + i = e := by rw [h, List.mem_singleton]
    rw [Mem.mem_wordErrors] at hmem
    exact Bool.eq_iff_iff.mpr (by simpa [hi] using hmem)
  have bit : (e % 128 = i) ↔ w * 128 + i = e := by omega
  rw [Mem.flipBit_find_rimErr, if_pos (by omega), bitB_eq_testBit, Nat.testBit_xor, ← bitB_eq_testBit, old, Nat.testBit_two_pow] at hset
  simp [bit] at hset

end

/-! One word, and the words of a frame -/

section
variable {f w : Nat} {r : Mem × Nat × Bool}

theorem scrubWord_of_good (h : r.1.wordErrors f w = []) : scrubWord f r w = r := by
  unfold scrubWord
  rw [h]

theorem scrubWord_of_one {e : Nat} (h : r.1.wordErrors f w = [e]) : scrubWord f r w = (r.1.flipBit f e, r.2.1 + 1, r.2.2) := by
  unfold scrubWord
  rw [h]

theorem scrubWord_of_more {e e' : Nat} {l : List Nat} (h : r.1.wordErrors f w = e :: e' :: l) : scrubWord f r w = (r.1, r.2.1, true) := by
  unfold scrubWord
  rw [h]

/-- The first `n` words of frame `f` have been checked, beginning with the memory `m`: the memory, the words corrected, and whether one was uncorrectable. -/
structure ScrubbedTo (f : Nat) (m : Mem) (n : Nat) (r : Mem × Nat × Bool) : Prop where
  errors : ∀ w, r.1.wordErrors f w = if w < n ∧ (m.wordErrors f w).length < 2 then [] else m.wordErrors f w
  corrected : r.2.1 = ((List.range n).filter fun w => (m.wordErrors f w).length = 1).length
  uncorrectable : r.2.2 = true ↔ ∃ w, w < n ∧ 2 ≤ (m.wordErrors f w).length
  flipped : ∀ w e, w < n → m.wordErrors f w = [e] → e % 128 < 64 → Memory.read r.1.rim (f * 128 + w * 8 + e % 128 / 8) =
    Memory.read m.rim (f * 128 + w * 8 + e % 128 / 8) ^^^ BitVec.ofNat 8 (2 ^ (e % 8))
  kept : ∀ x, (∀ w e, w < n → m.wordErrors f w = [e] → e % 128 < 64 → x ≠ f * 128 + w * 8 + e % 128 / 8) → Memory.read r.1.rim x = Memory.read m.rim x
  rest : { r.1 with rim := m.rim, rimErr := m.rimErr } = m

variable {m : Mem} {n : Nat}

theorem scrubbedTo_zero (f : Nat) (m : Mem) : ScrubbedTo f m 0 (m, 0, false) where
  errors _ := rfl
  corrected := rfl
  uncorrectable := by simp
  flipped _ _ h := absurd h (by omega)
  kept _ _ := rfl
  rest := rfl

theorem range_succ_filter_length (n : Nat) (q : Nat → Bool) :
    ((List.range (n + 1)).filter q).length = ((List.range n).filter q).length + b2n (q n) := by
  rw [List.range_succ, List.filter_append, List.length_append]
  cases h : q n <;> simp [h, b2n]

/-- The next word is not yet touched. -/
theorem ScrubbedTo.next_errors (h : ScrubbedTo f m n r) : r.1.wordErrors f n = m.wordErrors f n := by
  rw [h.errors, if_neg (by omega)]

theorem ScrubbedTo.of_good (h : ScrubbedTo f m n r) (hword : m.wordErrors f n = []) : ScrubbedTo f m (n + 1) r where
  errors w := by
    rw [h.errors]
    by_cases hw : w = n
    · simp [hw, hword]
    · simp only [show w < n + 1 ↔ w < n by omega]
  corrected := by rw [range_succ_filter_length, ← h.corrected]; simp [hword, b2n]
  uncorrectable := h.uncorrectable.trans ⟨fun ⟨w, hw, hlen⟩ => ⟨w, by omega, hlen⟩, fun ⟨w, hw, hlen⟩ =>
    ⟨w, lt_of_le_of_ne (by omega) (by rintro rfl; simp [hword] at hlen), hlen⟩⟩
  flipped w e hw hone := h.flipped w e (lt_of_le_of_ne (by omega) (by rintro rfl; simp [hword] at hone)) hone
  kept x hx := h.kept x fun w e hw => hx w e (by omega)
  rest := h.rest

theorem ScrubbedTo.of_more (h : ScrubbedTo f m n r) (hword : 2 ≤ (m.wordErrors f n).length) : ScrubbedTo f m (n + 1) (r.1, r.2.1, true) where
  errors w := by
    rw [h.errors]
    by_cases hw : w = n
    · subst hw
      rw [if_neg (by omega), if_neg (by omega)]
    · simp only [show w < n + 1 ↔ w < n by omega]
  corrected := by rw [range_succ_filter_length, ← h.corrected]; simp [show (m.wordErrors f n).length ≠ 1 by omega, b2n]
  uncorrectable := ⟨fun _ => ⟨n, by omega, hword⟩, fun _ => rfl⟩
  flipped w e hw hone := h.flipped w e (lt_of_le_of_ne (by omega) (by rintro rfl; simp [hone] at hword)) hone
  kept x hx := h.kept x fun w e hw => hx w e (by omega)
  rest := h.rest

theorem ScrubbedTo.of_one (h : ScrubbedTo f m n r) {e : Nat} (hword : m.wordErrors f n = [e]) :
    ScrubbedTo f m (n + 1) (r.1.flipBit f e, r.2.1 + 1, r.2.2) := by
  obtain ⟨hplace, -⟩ := Mem.place_of_mem_wordErrors (hword ▸ List.mem_singleton_self e : e ∈ m.wordErrors f n)
  refine ⟨fun w => ?errors, ?corrected, ?uncorrectable, fun w e' hw hone hdata => ?flipped, fun x hx => ?kept, ?rest⟩
  case errors =>
    by_cases hw : w = n
    · subst hw
      rw [Mem.wordErrors_flipBit_of_one (h.next_errors.trans hword), hword]
      simp
    · rw [Mem.wordErrors_flipBit_ne (by omega), h.errors]
      simp only [show w < n + 1 ↔ w < n by omega]
  case corrected =>
    rw [range_succ_filter_length, ← h.corrected]
    simp [hword, b2n]
  case uncorrectable =>
    exact h.uncorrectable.trans ⟨fun ⟨w, hw, hlen⟩ => ⟨w, by omega, hlen⟩, fun ⟨w, hw, hlen⟩ =>
      ⟨w, lt_of_le_of_ne (by omega) (by rintro rfl; simp [hword] at hlen), hlen⟩⟩
  case flipped =>
    rw [Mem.flipBit_read, hplace]
    by_cases hwn : w = n
    · subst hwn
      obtain rfl : e = e' := by simpa [hword] using hone
      have before : Memory.read r.1.rim (f * 128 + w * 8 + e % 128 / 8) = Memory.read m.rim (f * 128 + w * 8 + e % 128 / 8) :=
        h.kept _ fun w' e' hw' _ hdata' => by omega
      rw [if_pos ⟨hdata, rfl⟩, before]
    · rw [if_neg (by omega)]
      exact h.flipped w e' (by omega) hone hdata
  case kept =>
    rw [Mem.flipBit_read, hplace, if_neg fun hhit => hx n e (by omega) hword hhit.1 hhit.2]
    exact h.kept x fun w e' hw => hx w e' (by omega)
  case rest => exact h.rest

theorem ScrubbedTo.step (h : ScrubbedTo f m n r) : ScrubbedTo f m (n + 1) (scrubWord f r n) := by
  have hnext := h.next_errors
  match hword : m.wordErrors f n with
  | [] =>
    rw [scrubWord_of_good (hnext.trans hword)]
    exact h.of_good hword
  | [e] =>
    rw [scrubWord_of_one (hnext.trans hword)]
    exact h.of_one hword
  | e :: e' :: l =>
    rw [scrubWord_of_more (hnext.trans hword)]
    exact h.of_more (by simp [hword])

end

/-- The first `n` words of frame `f`, checked in order. -/
def scrubWords (f : Nat) (m : Mem) (n : Nat) : Mem × Nat × Bool := (List.range n).foldl (scrubWord f) (m, 0, false)

theorem scrubWords_scrubbedTo (f : Nat) (m : Mem) (n : Nat) : ScrubbedTo f m n (scrubWords f m n) := by
  induction n with
  | zero => exact scrubbedTo_zero f m
  | succ n ih =>
    rw [scrubWords, List.range_succ, List.foldl_append]
    exact ih.step

/-! The registers of the scrubber -/

/-- The pass in progress ends where the next frame lies before the current one. -/
def Chip.scrubWrapped (c : Chip) (f : Nat) : Chip := if f < c.get .RIM_SCRUB_STATUS_FRAME 0 then c.bump .RIM_SCRUB_STATUS_PASSES 0 else c

/-- `n` words have been corrected. -/
def Chip.scrubCorrected (c : Chip) (n : Nat) : Chip := if n = 0 then c else c.count .RIM_SCRUB_CE_CNT_COUNT 0 n

/-- The first uncorrectable frame is located. -/
def Chip.scrubLocated (c : Chip) (f : Nat) : Chip :=
  if c.on .RIM_SCRUB_UE_LOC_VALID 0 then c else ((c.set .RIM_SCRUB_UE_LOC_VALID 0 1).set .RIM_SCRUB_UE_LOC_FRAME 0 f).raise 224

/-- Frame `f` has been found to hold an uncorrectable word, or (`bad` false) none. -/
def Chip.scrubFound (c : Chip) (f : Nat) (bad : Bool) : Chip := if bad then ((c.scrubLocated f).logFault fltRimUe 0 f).faultN else c

/-- The scrubber moves on from frame `f`. -/
def Chip.scrubMoved (c : Chip) (f : Nat) : Chip :=
  if f = 98303 then (c.set .RIM_SCRUB_STATUS_FRAME 0 0).bump .RIM_SCRUB_STATUS_PASSES 0 else c.set .RIM_SCRUB_STATUS_FRAME 0 (f + 1)

/-- The memory as the scrubber finds frame `f`: the bits of `errs` have flipped, but for those of LUTs in SHIFT mode (R239). -/
def Mem.flippedSince (m : Mem) (f : Nat) (errs : List Nat) : Mem :=
  (errs.filter fun e => 64 ≤ e % 128 || !((e / 128 * 64 + e % 128) ∈ Config.shiftLutBits f (m.rim.filter fun x => x.1 / 0x100000 = f / 8192))).foldl
    (fun m e => m.flipBit f e) m

theorem Mem.flippedSince_rest (m : Mem) (f : Nat) (errs : List Nat) : { m.flippedSince f errs with rim := m.rim, rimErr := m.rimErr } = m :=
  List.foldlRecOn (motive := fun t : Mem => { t with rim := m.rim, rimErr := m.rimErr } = m) _ _ rfl fun _ h _ _ => h

section
variable (c : Chip) (f : Nat)

theorem Chip.scrubWrapped_only : Chip.Only [.RIM_SCRUB_STATUS_PASSES] c (c.scrubWrapped f) := .cond (c.bump_only 0 (by simp)) (.refl c)

theorem Chip.scrubCorrected_only (n : Nat) : Chip.Only [.RIM_SCRUB_CE_CNT_COUNT] c (c.scrubCorrected n) :=
  .cond (.refl c) (Chip.Only.set (.refl c) _ (by simp))

theorem Chip.scrubCorrected_get (n : Nat) : (c.scrubCorrected n).get .RIM_SCRUB_CE_CNT_COUNT 0 =
    if n = 0 then c.get .RIM_SCRUB_CE_CNT_COUNT 0 else satAdd (2 ^ 32 - 1) (c.get .RIM_SCRUB_CE_CNT_COUNT 0) n := by
  unfold Chip.scrubCorrected
  split
  · rfl
  · exact c.count_get_same 0 n rfl

theorem Chip.scrubLocated_only : Chip.Only [.RIM_SCRUB_UE_LOC_VALID, .RIM_SCRUB_UE_LOC_FRAME] c (c.scrubLocated f) :=
  have located : Chip.Only [.RIM_SCRUB_UE_LOC_VALID, .RIM_SCRUB_UE_LOC_FRAME] c ((c.set .RIM_SCRUB_UE_LOC_VALID 0 1).set .RIM_SCRUB_UE_LOC_FRAME 0 f) :=
    Chip.Only.set (Chip.Only.set (.refl c) _ (by simp)) _ (by simp)
  .cond (.refl c) (located.trans (Chip.Only.of_quiet (Chip.raise_quiet _ _)))

theorem Chip.scrubLocated_valid : (c.scrubLocated f).get .RIM_SCRUB_UE_LOC_VALID 0 ≠ 0 := by
  unfold Chip.scrubLocated
  split
  next h => simpa [Chip.on] using h
  next =>
    rw [Chip.raise_get _ _ _ _ rfl, Chip.get_set_ne _ _ (by simp), Chip.get_set_same]
    decide

variable {c} in
theorem Chip.scrubLocated_frame (h : c.get .RIM_SCRUB_UE_LOC_VALID 0 = 0) : (c.scrubLocated f).get .RIM_SCRUB_UE_LOC_FRAME 0 = f % 2 ^ 17 := by
  rw [Chip.scrubLocated, if_neg (by simp [Chip.on, h]), Chip.raise_get _ _ _ _ rfl, Chip.get_set_same]
  exact Fld.clip_of_width_eq rfl (by decide) f

theorem Chip.scrubFound_quiet : Chip.Quiet (c.scrubLocated f) (c.scrubFound f true) := by
  unfold Chip.scrubFound
  rw [if_pos rfl]
  exact (Chip.logFault_quiet _ _ _ _).trans (Chip.faultN_quiet _)

theorem Chip.scrubFound_only (bad : Bool) : Chip.Only [.RIM_SCRUB_UE_LOC_VALID, .RIM_SCRUB_UE_LOC_FRAME] c (c.scrubFound f bad) := by
  cases bad with
  | false => exact .refl c
  | true => exact (c.scrubLocated_only f).trans (Chip.Only.of_quiet (c.scrubFound_quiet f))

theorem Chip.scrubMoved_only : Chip.Only [.RIM_SCRUB_STATUS_FRAME, .RIM_SCRUB_STATUS_PASSES] c (c.scrubMoved f) :=
  .cond ((Chip.Only.set (.refl c) _ (by simp)).trans (Chip.bump_only _ 0 (by simp))) (Chip.Only.set (.refl c) _ (by simp))

theorem Chip.scrubMoved_get : (c.scrubMoved f).get .RIM_SCRUB_STATUS_FRAME 0 = if f = 98303 then 0 else (f + 1) % 2 ^ 17 := by
  unfold Chip.scrubMoved
  split
  · rw [(Chip.bump_only (W := [.RIM_SCRUB_STATUS_PASSES]) _ 0 (by simp)).get 0 rfl (by decide), Chip.get_set_same, Fld.clip_zero]
  · rw [Chip.get_set_same]
    exact Fld.clip_of_width_eq rfl (by decide) _

/-- The registers once frame `f` has been checked, with `n` words corrected. -/
def Chip.scrubbedFrame (n : Nat) (bad : Bool) : Chip := (((c.scrubWrapped f).scrubCorrected n).scrubFound f bad).scrubMoved f

theorem Chip.scrubbedFrame_frame (n : Nat) (bad : Bool) : (c.scrubbedFrame f n bad).get .RIM_SCRUB_STATUS_FRAME 0 = if f = 98303 then 0 else (f + 1) % 2 ^ 17 :=
  Chip.scrubMoved_get _ f

theorem Chip.scrubbedFrame_corrected (n : Nat) (bad : Bool) : (c.scrubbedFrame f n bad).get .RIM_SCRUB_CE_CNT_COUNT 0 =
    if n = 0 then c.get .RIM_SCRUB_CE_CNT_COUNT 0 else satAdd (2 ^ 32 - 1) (c.get .RIM_SCRUB_CE_CNT_COUNT 0) n := by
  rw [Chip.scrubbedFrame, (Chip.scrubMoved_only _ f).get 0 rfl (by decide), (Chip.scrubFound_only _ f bad).get 0 rfl (by decide), Chip.scrubCorrected_get,
    (c.scrubWrapped_only f).get 0 rfl (by decide)]

/-- The location after an uncorrectable frame is what locating it gives. -/
theorem Chip.scrubbedFrame_located (n : Nat) {g : Fld} (hs : g.signal = false) (hg : g ∉ [Fld.RIM_SCRUB_STATUS_FRAME, .RIM_SCRUB_STATUS_PASSES]) :
    (c.scrubbedFrame f n true).get g 0 = (((c.scrubWrapped f).scrubCorrected n).scrubLocated f).get g 0 := by
  rw [Chip.scrubbedFrame, (Chip.scrubMoved_only _ f).get 0 hs hg, (Chip.scrubFound_quiet _ f).get g 0 hs]

theorem Chip.scrubbedFrame_valid (n : Nat) : (c.scrubbedFrame f n true).get .RIM_SCRUB_UE_LOC_VALID 0 ≠ 0 := by
  rw [Chip.scrubbedFrame_located c f n rfl (by decide)]
  exact Chip.scrubLocated_valid _ f

variable {c} in
theorem Chip.scrubbedFrame_first (n : Nat) (h : c.get .RIM_SCRUB_UE_LOC_VALID 0 = 0) : (c.scrubbedFrame f n true).get .RIM_SCRUB_UE_LOC_FRAME 0 = f % 2 ^ 17 := by
  rw [Chip.scrubbedFrame_located c f n rfl (by decide)]
  refine Chip.scrubLocated_frame f ?_
  rw [(Chip.scrubCorrected_only _ n).get 0 rfl (by decide), (c.scrubWrapped_only f).get 0 rfl (by decide), h]

end

/-- The scrubber reads frame `f`: its words are checked in order, and its registers follow. -/
theorem scrubFrame_of_from {c : Chip} {f : Nat} (hen : c.on .RIM_SCRUB_CTL_EN 0 = true) (hfrom : c.scrubFrom (c.get .RIM_SCRUB_STATUS_FRAME 0) = some f)
    (errs : List Nat) (m : Mem) : scrubFrame errs c m =
      (c.scrubbedFrame f (scrubWords f (m.flippedSince f errs) 16).2.1 (scrubWords f (m.flippedSince f errs) 16).2.2, (scrubWords f (m.flippedSince f errs) 16).1) := by
  unfold scrubFrame
  rw [if_neg (by simp [hen])]
  simp only [hfrom]
  rfl

/-- A frame that the scrubber reads: its correctable words are corrected and counted, and its location is kept where it has others. -/
theorem does_scrubFrame {s : State} {f : Nat} (hen : s.chip.on .RIM_SCRUB_CTL_EN 0 = true)
    (hfrom : s.chip.scrubFrom (s.chip.get .RIM_SCRUB_STATUS_FRAME 0) = some f) (data : List (Fin 16 × Fin 64)) (check : List (Fin 16 × Fin 8)) :
    let m := s.mem.flippedSince f (flippedBits data check)
    let ones := ((List.range 16).filter fun w => (m.wordErrors f w).length = 1).length
    Does (.scrubFrame data check) s fun t =>
      t.chip.get .RIM_SCRUB_STATUS_FRAME 0 = (if f = 98303 then 0 else (f + 1) % 2 ^ 17) ∧
      t.chip.get .RIM_SCRUB_CE_CNT_COUNT 0 = (if ones = 0 then s.chip.get .RIM_SCRUB_CE_CNT_COUNT 0 else satAdd (2 ^ 32 - 1) (s.chip.get .RIM_SCRUB_CE_CNT_COUNT 0) ones) ∧
      (∀ w, w < 16 → 2 ≤ (m.wordErrors f w).length → t.mem.wordErrors f w = m.wordErrors f w ∧ t.chip.get .RIM_SCRUB_UE_LOC_VALID 0 ≠ 0 ∧
        (s.chip.get .RIM_SCRUB_UE_LOC_VALID 0 = 0 → t.chip.get .RIM_SCRUB_UE_LOC_FRAME 0 = f % 2 ^ 17)) ∧
      (∀ w, w < 16 → (m.wordErrors f w).length < 2 → t.mem.wordErrors f w = []) ∧
      (∀ w e, w < 16 → m.wordErrors f w = [e] → e % 128 < 64 → Memory.read t.mem.rim (f * 128 + w * 8 + e % 128 / 8) =
        Memory.read m.rim (f * 128 + w * 8 + e % 128 / 8) ^^^ BitVec.ofNat 8 (2 ^ (e % 8))) ∧
      (∀ x, (∀ w e, w < 16 → m.wordErrors f w = [e] → e % 128 < 64 → x ≠ f * 128 + w * 8 + e % 128 / 8) → Memory.read t.mem.rim x = Memory.read m.rim x) ∧
      { t.mem with rim := s.mem.rim, rimErr := s.mem.rimErr } = s.mem ∧ t.arr = s.arr := by
  intro m ones
  have scrubbed : ScrubbedTo f m 16 (scrubWords f m 16) := scrubWords_scrubbedTo f m 16
  have counted : (scrubWords f m 16).2.1 = ones := scrubbed.corrected
  refine does_of_onMem rfl (scrubFrame_of_from hen hfrom _ _) ⟨Chip.scrubbedFrame_frame _ _ _ _, ?count, fun w hw hlen => ⟨?kept, ?located⟩,
    fun w hw hlen => (scrubbed.errors w).trans (if_pos ⟨hw, hlen⟩), scrubbed.flipped, scrubbed.kept, ?rest, rfl⟩
  case count => rw [← counted]; exact s.chip.scrubbedFrame_corrected f _ _
  case kept => exact (scrubbed.errors w).trans (if_neg (by omega))
  case located =>
    have found : (scrubWords f m 16).2.2 = true := scrubbed.uncorrectable.mpr ⟨w, hw, hlen⟩
    dsimp only
    rw [show (scrubWords f (s.mem.flippedSince f (flippedBits data check)) 16).2.2 = true from found]
    exact ⟨s.chip.scrubbedFrame_valid f _, s.chip.scrubbedFrame_first f _⟩
  case rest =>
    calc ({ (scrubWords f m 16).1 with rim := s.mem.rim, rimErr := s.mem.rimErr } : Mem)
      _ = { ({ (scrubWords f m 16).1 with rim := m.rim, rimErr := m.rimErr } : Mem) with rim := s.mem.rim, rimErr := s.mem.rimErr } := rfl
      _ = { m with rim := s.mem.rim, rimErr := s.mem.rimErr } := by rw [scrubbed.rest]
      _ = s.mem := s.mem.flippedSince_rest f _

end Sys2Proof.Machine
end
section
/-! PROOFS. Bus contention, lost clock sources and reset trees of the rim, and its faults as a whole (R225 to R229, R280; O39). -/

namespace Sys2Proof.Machine

/-! The path of a register write -/

/-- A command that writes a register, where its initiator may, and by that acts on registers alone: the access is answered OK. -/
theorem does_of_byRegister {i : Instr} {who : Init} {b : Blk} {k off : Nat} {act : Chip → Chip} {s₀ : State} {Q : State → Prop}
    (hexec : exec i s₀ = .next ((s₀.seen who).onAll (byRegister who b k off fun c a m => (act c, a, m))))
    (hmay : (s₀.seen who).chip.regMay who ⟨b, k, off⟩ true = true) (hQ : Q { s₀.seen who with chip := act ((s₀.seen who).chip.answer .ok) }) : Does i s₀ Q := by
  refine ⟨_, hexec, ?_⟩
  simp only [State.onAll, byRegister, hmay, if_true]
  exact hQ

/-! Bus contention -/

section
variable (c : Chip)

theorem Chip.busEvtClear_bank (mask : Nat) : (c.busEvtClear mask).get .RIM_BUS_EVT_BANK 0 =
    (c.get .RIM_BUS_EVT_BANK 0 - Nat.land (c.get .RIM_BUS_EVT_BANK 0) mask) % 2 ^ 12 := by
  rw [Chip.busEvtClear, Chip.get_clearWhere, if_neg (by simp), Chip.get_set_same]
  exact Fld.clip_of_width_eq rfl (by decide) _

theorem Chip.busEvtClear_off (mask i : Nat) : (c.busEvtClear mask).get .H_BUS_OFF i = if bitB mask (i / 4096) then 0 else c.get .H_BUS_OFF i := by
  rw [Chip.busEvtClear, Chip.get_clearWhere, Chip.get_set_ne _ _ (by simp)]
  simp only [true_and]
  rfl

/-- The points `ds` of a line are disabled. -/
def Chip.driversOff (bank line : Nat) (ds : List Nat) : Chip := ds.foldl (fun c d => c.set .H_BUS_OFF (bank * 4096 + line * 64 + d) 1) c

/-- The first contention is located. -/
def Chip.busLocated (bank line : Nat) : Chip :=
  if c.on .RIM_BUS_LOC_VALID 0 then c
  else ((c.set .RIM_BUS_LOC_VALID 0 1).set .RIM_BUS_LOC_BANK 0 bank).set .RIM_BUS_LOC_LINE 0 line

/-- Contention in bank `bank` is recorded. -/
def Chip.busMarked (bank : Nat) : Chip := c.set .RIM_BUS_EVT_BANK 0 (orBit (c.get .RIM_BUS_EVT_BANK 0) bank)

/-- The points `ds` of a line have been disabled for contention. -/
def Chip.busContended (bank line : Nat) (ds : List Nat) : Chip := (((c.driversOff bank line ds).busMarked bank).busLocated bank line).raise 225

theorem Chip.driversOff_only (bank line : Nat) (ds : List Nat) : Chip.Only [.H_BUS_OFF] c (c.driversOff bank line ds) :=
  Chip.Spares.fold _ _ c fun _ _ d => Chip.Only.set (.refl d) _ (by simp)

theorem Chip.driversOff_get (bank line : Nat) {ds : List Nat} {d : Nat} (hd : d ∈ ds) :
    (c.driversOff bank line ds).get .H_BUS_OFF (bank * 4096 + line * 64 + d) = 1 := by
  have written := Chip.get_foldl_set .H_BUS_OFF (fun _ => 1) (ds.map fun d => bank * 4096 + line * 64 + d) c (bank * 4096 + line * 64 + d)
  rw [List.foldl_map, if_pos (List.mem_map_of_mem hd)] at written
  exact written

theorem Chip.busLocated_only (bank line : Nat) : Chip.Only [.RIM_BUS_LOC_VALID, .RIM_BUS_LOC_BANK, .RIM_BUS_LOC_LINE] c (c.busLocated bank line) :=
  .cond (.refl c) (Chip.Only.set (Chip.Only.set (Chip.Only.set (.refl c) _ (by simp)) _ (by simp)) _ (by simp))

variable {c} in
theorem Chip.busLocated_get (hfirst : c.get .RIM_BUS_LOC_VALID 0 = 0) (bank : Fin 12) (line : Fin 64) :
    (c.busLocated bank line).get .RIM_BUS_LOC_BANK 0 = bank.val ∧ (c.busLocated bank line).get .RIM_BUS_LOC_LINE 0 = line.val := by
  have hbank : Fld.RIM_BUS_LOC_BANK.clip bank = bank.val := Fld.clip_lt (bank.isLt.trans (by decide))
  have hline : Fld.RIM_BUS_LOC_LINE.clip line = line.val := Fld.clip_lt line.isLt
  rw [Chip.busLocated, if_neg (by simp [Chip.on, hfirst])]
  exact ⟨by simp [Chip.get_set, hbank], by simp [hline]⟩

theorem Chip.busContended_get (bank line : Nat) (ds : List Nat) {f : Fld} (hs : f.signal = false) (i : Nat) :
    (c.busContended bank line ds).get f i = (((c.driversOff bank line ds).busMarked bank).busLocated bank line).get f i := Chip.raise_get _ _ _ _ hs

theorem Chip.busContended_off (bank line : Nat) {ds : List Nat} {d : Nat} (hd : d ∈ ds) :
    (c.busContended bank line ds).get .H_BUS_OFF (bank * 4096 + line * 64 + d) = 1 := by
  rw [Chip.busContended_get c _ _ _ rfl, (Chip.busLocated_only _ _ _).get _ rfl (by decide), Chip.busMarked, Chip.get_set_ne _ _ (by simp)]
  exact c.driversOff_get bank line hd

theorem Chip.busContended_bank (bank line : Nat) (ds : List Nat) :
    (c.busContended bank line ds).get .RIM_BUS_EVT_BANK 0 = orBit (c.get .RIM_BUS_EVT_BANK 0) bank % 2 ^ 12 := by
  rw [Chip.busContended_get c _ _ _ rfl, (Chip.busLocated_only _ _ _).get _ rfl (by decide), Chip.busMarked, Chip.get_set_same,
    (c.driversOff_only bank line ds).get _ rfl (by decide)]
  exact Fld.clip_of_width_eq rfl (by decide) _

variable {c} in
theorem Chip.busContended_first (hfirst : c.get .RIM_BUS_LOC_VALID 0 = 0) (bank : Fin 12) (line : Fin 64) (ds : List Nat) :
    (c.busContended bank line ds).get .RIM_BUS_LOC_BANK 0 = bank.val ∧ (c.busContended bank line ds).get .RIM_BUS_LOC_LINE 0 = line.val := by
  rw [Chip.busContended_get c _ _ _ rfl, Chip.busContended_get c _ _ _ rfl]
  refine Chip.busLocated_get ?_ bank line
  rw [Chip.busMarked, Chip.get_set_ne _ _ (by simp), (c.driversOff_only bank line ds).get _ rfl (by decide), hfirst]

theorem Chip.driversOff_fab (bank line : Nat) (ds : List Nat) : (c.driversOff bank line ds).fab = c.fab :=
  List.foldlRecOn (motive := fun d : Chip => d.fab = c.fab) _ _ rfl fun d h _ _ => (d.set_fab _ _ _).trans h

theorem Chip.busContended_fab (bank line : Nat) (ds : List Nat) : (c.busContended bank line ds).fab = c.fab := by
  have located (d : Chip) : (d.busLocated bank line).fab = d.fab := by
    unfold Chip.busLocated
    split <;> simp
  rw [Chip.busContended, (Chip.raise_quiet _ _).fab, located, Chip.busMarked, Chip.set_fab, Chip.driversOff_fab]

end

/-- What the drivers `on` of a line of bank `bank` put together: the OR of their values, of which those that are not settled are free ones. -/
def lineLevel (c : Chip) (a : Arr) (m : Mem) (bank : Nat) (on : List BusDriver) (r : Bool × Chip) : Bool × Chip :=
  on.foldl (fun (r : Bool × Chip) d => let (b, c) := r.2.settle (rimValue c a m bank d.data); (r.1 || b, c)) r

/-- A free value is no field. -/
theorem Chip.settle_get (c : Chip) (v : Option Bool) (f : Fld) (i : Nat) : (c.settle v).2.get f i = c.get f i := by
  cases v <;> rfl

section
variable (c : Chip) (a : Arr) (m : Mem) (bank : Nat)

theorem lineLevel_get (on : List BusDriver) (r : Bool × Chip) (f : Fld) (i : Nat) : (lineLevel c a m bank on r).2.get f i = r.2.get f i :=
  List.foldlRecOn (motive := fun x : Bool × Chip => x.2.get f i = r.2.get f i) _ _ rfl fun x h _ _ => (Chip.settle_get x.2 _ f i).trans h

variable {c a m bank} in
/-- Where every driver's value is settled the OR is that of their values, and no free value is used up. -/
theorem lineLevel_of_settled {level : BusDriver → Bool} {on : List BusDriver} (h : ∀ d ∈ on, rimValue c a m bank d.data = some (level d)) (r : Bool × Chip) :
    lineLevel c a m bank on r = (r.1 || on.any level, r.2) := by
  induction on generalizing r with
  | nil => simp [lineLevel]
  | cons d on ih =>
    have hd := h d (by simp)
    have rest := ih (fun e he => h e (by simp [he])) (r.1 || level d, r.2)
    rw [lineLevel, List.foldl_cons]
    simp only [hd, Chip.settle]
    rw [List.any_cons, ← Bool.or_assoc]
    exact rest

variable (line : Nat) (ds : List Nat)

/-- The drivers of a line whose enables overlap and that are not disabled; only a live sector has any. -/
def Chip.contenders : List Nat := if c.sectorLive bank then c.liveDrivers bank line ds else []

/-- The configured drivers among the points of a list. -/
def driversAt (points : List Nat) : List BusDriver := (sectDrivers (m.sectorCfg bank) line).filter fun d => d.point ∈ points

/-- The keeper of line `line` holds what the points of a list drive. -/
def lineKept (points : List Nat) : Chip :=
  let x := lineLevel c a m bank (driversAt m bank line points) (false, c)
  { x.2 with fab := { x.2.fab with keeper := NatMap.put 0 x.2.fab.keeper (bank * 64 + line) (b2n x.1) } }

theorem lineKept_get (points : List Nat) (f : Fld) (i : Nat) : (lineKept c a m bank line points).get f i = c.get f i := lineLevel_get c a m bank _ _ f i

theorem lineKept_keeper (points : List Nat) {level : BusDriver → Bool}
    (h : ∀ d ∈ driversAt m bank line points, rimValue c a m bank d.data = some (level d)) :
    NatMap.find 0 (lineKept c a m bank line points).fab.keeper (bank * 64 + line) = b2n ((driversAt m bank line points).any level) := by
  rw [lineKept, lineLevel_of_settled h]
  exact (NatMap.find_put _ _ _ _ _).trans (if_pos rfl)

variable {c bank line ds}

/-- An overlap that is short, or of fewer than two drivers, leaves no trace. -/
theorem contention_of_none {ps : Nat} (h : (c.contenders bank line ds).length < 2 ∨ ps ≤ 200) : contention bank line ds ps c a m = c := if_pos h

/-- Two drivers that overlap for long are disabled, and the keeper holds what they drove. -/
theorem contention_of_two {ps : Nat} (htwo : 2 ≤ (c.contenders bank line ds).length) (hlong : 200 < ps) :
    contention bank line ds ps c a m = (lineKept c a m bank line (c.contenders bank line ds)).busContended bank line (c.contenders bank line ds) := by
  let d := lineKept c a m bank line (c.contenders bank line ds)
  have same : d.sector bank = c.sector bank ∧ d.liveDrivers bank line ds = c.liveDrivers bank line ds := by
    simp only [d, Chip.sector, Chip.liveDrivers, Chip.on, lineKept_get, and_self]
  have hlive : c.sectorLive bank = true := by
    by_contra h
    simp [Chip.contenders, h] at htwo
  have hstarted : ¬c.sector bank < sectStarting := by
    simp only [Chip.sectorLive, Bool.and_eq_true, decide_eq_true_eq] at hlive
    omega
  have hdrivers : c.contenders bank line ds = c.liveDrivers bank line ds := if_pos hlive
  have first : contention bank line ds ps c a m = d.busContention bank line ds ps := if_neg (by unfold Chip.contenders at htwo; omega)
  rw [first, Chip.busContention, same.1, same.2, if_neg hstarted, ← hdrivers]
  exact if_neg (by omega)

end

/-! Lost clock sources -/

section
variable {c d : Chip} {W : List Fld}

/-- A lane serves a port by the quad's spare and its failure alone. -/
theorem Chip.Only.clockSource_eq (h : Chip.Only W c d) (hfailed : Fld.LQ_QUAD_STATUS_FAILED ∉ W) (hspare : Fld.LQ_QUAD_CTL_QSPARE ∉ W) (code : Nat) :
    d.clockSource code = c.clockSource code := by
  simp only [Chip.clockSource, Chip.portLane, Chip.spareOf, h.get _ rfl hfailed, h.get _ rfl hspare]

variable (c) (t : Nat)

/-- The source of tree `t` is marked as lost. -/
def Chip.clockMarked : Chip := (c.set .RIM_CLK_STATUS_LOST 0 (orBit (c.get .RIM_CLK_STATUS_LOST 0) t)).set .H_TREE_DEAD t 1

/-- Tree `t` is marked as on ALT. -/
def Chip.altMarked : Chip := c.set .RIM_CLK_STATUS_ON_ALT 0 (orBit (c.get .RIM_CLK_STATUS_ON_ALT 0) t)

/-- Tree `t` is held low. -/
def Chip.treeStopped : Chip := (c.set .H_TREE_LOW t 1).set .H_TREE_LVL t 0

/-- Whether the loss of its source puts tree `t` on ALT (R227). -/
def Chip.takesAlt : Bool := c.on .RIM_CLK_SEL_AUTO t && !bitB (c.get .RIM_CLK_STATUS_ON_ALT 0) t

/-- What the loss of the source of tree `t` writes. -/
def clockLossFields : List (Fld × Nat) := [(.RIM_CLK_STATUS_LOST, 0), (.RIM_CLK_STATUS_ON_ALT, 0), (.H_TREE_LOW, t), (.H_TREE_LVL, t), (.H_TREE_DEAD, t),
  (.H_TREE_SRC, t), (.H_TREE_PH, t)]

theorem Chip.clockMarked_keeps : Keeps c (c.clockMarked t) (clockLossFields t) :=
  ((Keeps.refl c _).set _ (by simp [clockLossFields])).set 1 (by simp [clockLossFields])

theorem Chip.clockMarked_only : Chip.Only [.RIM_CLK_STATUS_LOST, .H_TREE_DEAD] c (c.clockMarked t) := Chip.Only.set (Chip.Only.set (.refl c) _ (by simp)) 1 (by simp)

theorem Chip.clockMarked_lost : (c.clockMarked t).get .RIM_CLK_STATUS_LOST 0 = orBit (c.get .RIM_CLK_STATUS_LOST 0) t % 2 ^ 12 := by
  rw [Chip.clockMarked, Chip.get_set_ne _ _ (by simp), Chip.get_set_same]
  exact Fld.clip_of_width_eq rfl (by decide) _

theorem Chip.clockMarked_takesAlt : (c.clockMarked t).takesAlt t = c.takesAlt t := by
  unfold Chip.takesAlt Chip.on
  rw [(c.clockMarked_only t).get t rfl (by decide), (c.clockMarked_only t).get 0 rfl (by decide)]

theorem Chip.clockLoss_kept (h : c.treeSel t = 0 ∨ (0x20 ≤ c.treeSel t ∧ c.treeSel t ≤ 0x5F)) : c.clockLoss t = c := if_pos (by simpa using h)

variable {c t}

theorem Chip.clockLoss_of_lost (hsome : c.treeSel t ≠ 0) (hlane : ¬(0x20 ≤ c.treeSel t ∧ c.treeSel t ≤ 0x5F)) : c.clockLoss t =
    (if c.takesAlt t then ((c.clockMarked t).altMarked t).treeWait t else (c.clockMarked t).treeStopped t).raise 226 := by
  rw [← c.clockMarked_takesAlt t]
  exact if_neg (by simpa [hsome] using hlane)

/-! A tree that waits for ALT -/

theorem Chip.treeWait_keeps {ws : List (Fld × Nat)} (h : Keeps c d ws) (hws : ∀ f ∈ [Fld.H_TREE_LVL, .H_TREE_DEAD, .H_TREE_SRC, .H_TREE_PH], (f, t) ∈ ws) :
    Keeps c (d.treeWait t) ws := by
  have low : Keeps c ((d.set .H_TREE_LVL t 0).set .H_TREE_DEAD t 0) ws := (h.set 0 (hws _ (by simp))).set 0 (hws _ (by simp))
  unfold Chip.treeWait
  dsimp only
  split
  · exact (low.set 0 (hws _ (by simp))).set 0 (hws _ (by simp))
  · exact low.set 2 (hws _ (by simp))

theorem Chip.treeWait_only (c : Chip) (t : Nat) : Chip.Only [.H_TREE_LVL, .H_TREE_DEAD, .H_TREE_SRC, .H_TREE_PH] c (c.treeWait t) :=
  have low : Chip.Only [.H_TREE_LVL, .H_TREE_DEAD, .H_TREE_SRC, .H_TREE_PH] c ((c.set .H_TREE_LVL t 0).set .H_TREE_DEAD t 0) :=
    Chip.Only.set (Chip.Only.set (.refl c) _ (by simp)) _ (by simp)
  .cond (Chip.Only.set (Chip.Only.set low _ (by simp)) _ (by simp)) (Chip.Only.set low _ (by simp))

theorem Chip.treeWait_level (c : Chip) (t : Nat) : (c.treeWait t).get .H_TREE_LVL t = 0 := by
  unfold Chip.treeWait
  dsimp only
  split <;> simp [Chip.get_set, Fld.clip_zero]

theorem Chip.Only.treeSel_eq (h : Chip.Only W c d) (hW : ∀ f ∈ [Fld.LQ_QUAD_STATUS_FAILED, .LQ_QUAD_CTL_QSPARE, .RIM_CLK_STATUS_ON_ALT, .RIM_CLK_SEL_ALT, .RIM_CLK_SEL_SRC], f ∉ W)
    (t : Nat) : d.treeSel t = c.treeSel t := by
  have kept (f : Fld) (i : Nat) (hf : f ∈ [Fld.LQ_QUAD_STATUS_FAILED, .LQ_QUAD_CTL_QSPARE, .RIM_CLK_STATUS_ON_ALT, .RIM_CLK_SEL_ALT, .RIM_CLK_SEL_SRC])
      (hs : f.signal = false) : d.get f i = c.get f i := h.get i hs (hW f hf)
  rw [Chip.treeSel, Chip.treeSel, h.clockSource_eq (hW _ (by simp)) (hW _ (by simp)), kept .RIM_CLK_STATUS_ON_ALT 0 (by simp) rfl,
    kept .RIM_CLK_SEL_ALT t (by simp) rfl, kept .RIM_CLK_SEL_SRC t (by simp) rfl]

theorem Chip.treeWait_phase (c : Chip) (t : Nat) : (c.treeWait t).get .H_TREE_PH t = if c.treeSel t = 0 then 0 else 2 := by
  have low : Chip.Only [.H_TREE_LVL, .H_TREE_DEAD] c ((c.set .H_TREE_LVL t 0).set .H_TREE_DEAD t 0) := Chip.Only.set (Chip.Only.set (.refl c) _ (by simp)) _ (by simp)
  unfold Chip.treeWait
  dsimp only
  rw [low.treeSel_eq (by decide)]
  split
  · rw [Chip.get_set_same, Fld.clip_zero]
  · rw [Chip.get_set_same]
    rfl

/-- A tree that is marked as on ALT is to pass its ALT. -/
theorem Chip.altMarked_treeSel (ht : t < 12) : (c.altMarked t).treeSel t = c.clockSource (c.get .RIM_CLK_SEL_ALT t) := by
  have marked : Chip.Only [.RIM_CLK_STATUS_ON_ALT] c (c.altMarked t) := Chip.Only.set (.refl c) _ (by simp)
  have onAlt : bitB ((c.altMarked t).get .RIM_CLK_STATUS_ON_ALT 0) t = true := by
    rw [Chip.altMarked, Chip.get_set_same]
    exact bitB_orBit_clip ht _
  rw [Chip.treeSel, if_pos onAlt, marked.clockSource_eq (by decide) (by decide), marked.get t rfl (by decide)]

theorem does_clockSourceLoss {s : State} {tree : Fin 12} (hsome : s.chip.treeSel tree ≠ 0) (hlane : ¬(0x20 ≤ s.chip.treeSel tree ∧ s.chip.treeSel tree ≤ 0x5F)) :
    Does (.clockSourceLoss tree) s fun t =>
      t.chip.get .RIM_CLK_STATUS_LOST 0 = orBit (s.chip.get .RIM_CLK_STATUS_LOST 0) tree % 2 ^ 12 ∧ t.chip.get .H_TREE_LVL tree = 0 ∧
      (s.chip.takesAlt tree = true → t.chip.get .RIM_CLK_STATUS_ON_ALT 0 = orBit (s.chip.get .RIM_CLK_STATUS_ON_ALT 0) tree % 2 ^ 12 ∧
        t.chip.get .H_TREE_PH tree = if s.chip.clockSource (s.chip.get .RIM_CLK_SEL_ALT tree) = 0 then 0 else 2) ∧
      (s.chip.takesAlt tree = false → t.chip.get .H_TREE_LOW tree = 1 ∧ t.chip.get .H_TREE_DEAD tree = 1) ∧
      Keeps s.chip t.chip (clockLossFields tree) ∧ t.arr = s.arr ∧ t.mem = s.mem := by
  let c : Chip := s.chip.clockMarked tree
  have lost : c.get .RIM_CLK_STATUS_LOST 0 = _ := s.chip.clockMarked_lost tree
  have marked : Chip.Only _ s.chip c := s.chip.clockMarked_only tree
  have kept : Keeps s.chip c (clockLossFields tree) := s.chip.clockMarked_keeps tree
  have hrun := Chip.clockLoss_of_lost hsome hlane
  cases hauto : s.chip.takesAlt tree with
  | true =>
    rw [if_pos hauto] at hrun
    let d : Chip := c.altMarked tree
    have quiet := (d.treeWait tree).raise_quiet 226
    have waits := d.treeWait_only tree
    have onAlt : d.get .RIM_CLK_STATUS_ON_ALT 0 = orBit (s.chip.get .RIM_CLK_STATUS_ON_ALT 0) tree % 2 ^ 12 := by
      rw [← marked.get 0 rfl (by decide)]
      exact (Chip.get_set_same _ _ _ _).trans (Fld.clip_of_width_eq rfl (by decide) _)
    have sel : d.treeSel tree = s.chip.clockSource (s.chip.get .RIM_CLK_SEL_ALT tree) := by
      rw [Chip.altMarked_treeSel tree.isLt, marked.clockSource_eq (by decide) (by decide), marked.get _ rfl (by decide)]
    refine does_of_onChip rfl hrun ?_
    dsimp only
    refine ⟨?_, ?_, fun _ => ⟨?_, ?_⟩, nofun, ?_, rfl, rfl⟩
    · exact (quiet.get _ _ rfl).trans ((waits.get 0 rfl (by decide)).trans ((Chip.get_set_ne _ _ (by simp)).trans lost))
    · exact (quiet.get _ _ rfl).trans (d.treeWait_level tree)
    · exact (quiet.get _ _ rfl).trans ((waits.get 0 rfl (by decide)).trans onAlt)
    · exact (quiet.get _ _ rfl).trans ((d.treeWait_phase tree).trans (by rw [sel]))
    · exact (Chip.treeWait_keeps (kept.set _ (by simp [clockLossFields])) (by simp [clockLossFields])).quiet quiet
  | false =>
    rw [if_neg (by simp [hauto])] at hrun
    have quiet := (c.treeStopped tree).raise_quiet 226
    have stopped : Chip.Only [.H_TREE_LOW, .H_TREE_LVL] c (c.treeStopped tree) := Chip.Only.set (Chip.Only.set (.refl c) _ (by simp)) _ (by simp)
    refine does_of_onChip rfl hrun ?_
    dsimp only
    refine ⟨?_, ?_, nofun, fun _ => ⟨?_, ?_⟩, ?_, rfl, rfl⟩
    · exact (quiet.get _ _ rfl).trans ((stopped.get 0 rfl (by decide)).trans lost)
    · exact (quiet.get _ _ rfl).trans ((Chip.get_set_same _ _ _ _).trans (Fld.clip_zero _))
    · exact (quiet.get _ _ rfl).trans ((Chip.get_set_ne _ _ (by simp)).trans (Chip.get_set_same _ _ _ _))
    · exact (quiet.get _ _ rfl).trans ((stopped.get _ rfl (by decide)).trans (Chip.get_set_same _ _ _ _))
    · exact ((kept.set 1 (by simp [clockLossFields])).set 0 (by simp [clockLossFields])).quiet quiet

end

/-! Reset trees -/

section
variable (c : Chip) (r : Nat)

theorem Chip.releaseTree_keepsAll : KeepsAll c (c.releaseTree r) [(.H_RST_TREE, r), (.H_RST_CNT, r)] := by
  unfold Chip.releaseTree
  split
  · exact (KeepsAll.refl c _).set 1 (by simp)
  · exact .refl c _

theorem Chip.releaseTree_tree : (c.releaseTree r).get .H_RST_TREE r = c.get .H_RST_TREE r := by
  unfold Chip.releaseTree
  split
  · exact Chip.get_set_ne _ _ (by simp)
  · rfl

variable {c r} in
theorem Chip.releaseTree_count (hon : c.on .H_RST_TREE r = true) (hidle : c.get .H_RST_CNT r = 0) : (c.releaseTree r).get .H_RST_CNT r = 1 := by
  have idle : c.on .H_RST_CNT r = false := by simp [Chip.on, hidle]
  rw [Chip.releaseTree, if_pos (by simp [hon, idle])]
  exact Chip.get_set_same _ _ _ _

theorem Chip.assertTree_keepsAll : KeepsAll c (c.assertTree r) [(.H_RST_TREE, r), (.H_RST_CNT, r)] :=
  ((KeepsAll.refl c _).set 1 (by simp)).set 0 (by simp)

/-- Reset tree `r` of `d` follows its source, which stands at `v`, from where it was in `c` (R229). -/
structure Chip.TreeFollows (d : Chip) (v : Bool) : Prop where
  asserts : v = true → d.get .H_RST_TREE r = 1 ∧ d.get .H_RST_CNT r = 0
  releases : v = false → d.get .H_RST_TREE r = c.get .H_RST_TREE r ∧ (c.on .H_RST_TREE r = true → c.get .H_RST_CNT r = 0 → d.get .H_RST_CNT r = 1)
  rest : KeepsAll c d [(.H_RST_TREE, r), (.H_RST_CNT, r)]

theorem Chip.driveTree_follows (v : Bool) : Chip.TreeFollows c r (c.driveTree r v) v := by
  cases v with
  | true => exact ⟨fun _ => ⟨by simp [Chip.driveTree, Chip.assertTree_get], by simp [Chip.driveTree, Chip.assertTree_get]⟩, nofun, c.assertTree_keepsAll r⟩
  | false => exact ⟨nofun, fun _ => ⟨c.releaseTree_tree r, Chip.releaseTree_count⟩, c.releaseTree_keepsAll r⟩

variable {c r} {v : Bool} {a : Arr} {m : Mem}

theorem resetTreeChange_of_pin (hsrc : c.get .RIM_RST_CTL_SRC r = 2) : resetTreeChange r v c a m =
    if c.inputOff (c.get .RIM_RST_CTL_BANK r) 2 && !v then c else c.driveTree r v := by
  simp only [resetTreeChange, hsrc]

theorem resetTreeChange_of_cell (hsrc : c.get .RIM_RST_CTL_SRC r = 3) : resetTreeChange r v c a m =
    if (resetSource r c a m).any fun x => x ≠ v then c else c.driveTree r v := by
  simp only [resetTreeChange, hsrc]

theorem resetTreeChange_of_register (hsrc : c.get .RIM_RST_CTL_SRC r < 2) : resetTreeChange r v c a m = c := by
  unfold resetTreeChange
  split
  · omega
  · omega
  · rfl

end

/-! The obligation -/

/-- Settles O39: a line whose drivers overlap keeps their OR and loses them, a lost source puts its tree on ALT or holds it low, a frame is checked word by word, and
a reset tree follows the source that it has. -/
theorem rimFaultsAndTrees : Obligations.RimFaultsAndTrees := by
  intro bank tree line ds ps who mask data check v r s
  refine ⟨fun hmay => ?clear, fun htwo hlong => ?contention, fun hnone => ?calm, ⟨fun hkept => ?kept, fun hsome hlane => ?lost⟩,
    fun f hen hfrom => ?scrub, ?resets⟩
  case clear =>
    let c : Chip := (s.seen who).chip.answer .ok
    exact does_of_byRegister (act := fun c => c.busEvtClear mask.toNat) rfl hmay ⟨c.busEvtClear_bank mask.toNat, c.busEvtClear_off mask.toNat, rfl, rfl⟩
  case contention =>
    let points := s.chip.contenders bank line (ds.map Fin.val)
    let d := lineKept s.chip s.arr s.mem bank line points
    have same (f : Fld) (i : Nat) : d.get f i = s.chip.get f i := lineKept_get s.chip s.arr s.mem bank line points f i
    have hrun := contention_of_two (c := s.chip) s.arr s.mem htwo hlong
    refine ⟨_, rfl, ?_⟩
    rw [State.onAll, hrun]
    dsimp only
    refine ⟨fun p hp => ?_, ?_, fun hfirst => ?_, fun level hlevel => ?_, rfl, rfl⟩
    · exact d.busContended_off bank line (ds := points) hp
    · rw [← same]
      exact d.busContended_bank bank line points
    · exact Chip.busContended_first ((same _ _).trans hfirst) bank line points
    · rw [Chip.busContended_fab]
      exact lineKept_keeper s.chip s.arr s.mem bank line points hlevel
  case calm =>
    have hrun := contention_of_none (c := s.chip) s.arr s.mem hnone
    show Host.Outcome.next (s.onAll _) = _
    rw [State.onAll, hrun]
  case kept =>
    show Host.Outcome.next (s.onChip fun c => c.clockLoss tree) = _
    rw [State.onChip, Chip.clockLoss_kept _ _ hkept]
  case lost => exact does_clockSourceLoss hsome hlane
  case scrub => exact does_scrubFrame hen hfrom data check
  case resets =>
    have follows (h : resetTreeChange r v s.chip s.arr s.mem = s.chip.driveTree r v) : Does (.resetTreeChange r v) s fun t =>
        Chip.TreeFollows s.chip r t.chip v ∧ t.arr = s.arr ∧ t.mem = s.mem := by
      refine ⟨_, rfl, ?_⟩
      rw [State.onAll, h]
      exact ⟨s.chip.driveTree_follows r v, rfl, rfl⟩
    have stays (h : resetTreeChange r v s.chip s.arr s.mem = s.chip) : exec (.resetTreeChange r v) s = .next s := by
      show Host.Outcome.next (s.onAll _) = _
      rw [State.onAll, h]
    refine ⟨fun hsrc hshown => ?pin, fun hsrc hshown => ?cell, fun hother => ?other⟩
    case pin =>
      obtain ⟨t, ht, ⟨hassert, hrelease, hrest⟩, harr, hmem⟩ := follows ((resetTreeChange_of_pin hsrc).trans (if_neg (by rcases hshown with h | h <;> simp [h])))
      exact ⟨t, ht, hassert, hrelease, hrest, harr, hmem⟩
    case cell =>
      obtain ⟨t, ht, ⟨hassert, hrelease, hrest⟩, harr, hmem⟩ := follows ((resetTreeChange_of_cell hsrc).trans (if_neg (by rcases hshown with h | h <;> simp [h])))
      exact ⟨t, ht, hassert, hrelease, hrest, harr, hmem⟩
    case other =>
      rcases hother with hsrc | ⟨hsrc, rfl, hoff⟩ | ⟨hsrc, hcell⟩
      · exact stays (resetTreeChange_of_register hsrc)
      · exact stays ((resetTreeChange_of_pin hsrc).trans (if_pos (by simp [hoff])))
      · exact stays ((resetTreeChange_of_cell hsrc).trans (if_pos (by simp [hcell])))

end Sys2Proof.Machine
end
section
/-! PROOFS. RIM_LD_CMD, the sectors that it drops or clears, and the start-up of a sector (R250, R252, R253, R255; O40). -/

namespace Sys2Proof.Machine

/-! Sectors that a dropped stream was not loading -/

theorem Chip.Only.sector_eq {W : List Fld} {c d : Chip} (h : Chip.Only W c d) (hW : Fld.RIM_SECT_STATE_STATE ∉ W) (k : Nat) : d.sector k = c.sector k := h.get k rfl hW

/-- Sector `k` has in `x` the state that it has in `c`, and its frames the bytes that they have in `m`. -/
structure SectorKept (k : Nat) (c : Chip) (m : Mem) (x : Chip × Mem) : Prop where
  state : x.1.sector k = c.sector k
  bytes : ∀ y, y / 0x100000 = k → Memory.read x.2.rim y = Memory.read m.rim y

section
variable {c : Chip} {m : Mem} {k : Nat} (h : c.sector k ≠ sectLoading)
include h

theorem SectorKept.dropSector {x : Chip × Mem} (hx : SectorKept k c m x) (j : Nat) : SectorKept k c m (dropSector x j) := by
  by_cases hj : x.1.sector j = sectLoading
  · have hne : k ≠ j := by
      rintro rfl
      exact h (hx.state.symm.trans hj)
    refine ⟨(dropSector_sector_ne x hne).trans hx.state, fun y hy => ?_⟩
    rw [dropSector_of_loading x hj, read_clearSector, if_neg (hy.trans_ne hne)]
    exact hx.bytes y hy
  · rwa [dropSector_of_not_loading x hj]

/-- Dropping a stream leaves every sector that was not being loaded. -/
theorem dropLoading_kept : SectorKept k c m (dropLoading c m) := by
  rw [dropLoading_eq]
  exact List.foldlRecOn (motive := SectorKept k c m) _ _ ⟨rfl, fun _ _ => rfl⟩ fun _ hx j _ => hx.dropSector h j

end

theorem dropLoading_sector (c : Chip) (m : Mem) {k : Nat} (hk : k < 12) :
    (dropLoading c m).1.sector k = if c.sector k = sectLoading then sectEmpty else c.sector k := by
  split
  next h => exact (dropLoading_cleared m hk h).empty
  next h => exact (dropLoading_kept h).state

/-- A cleared sector has no reference CRC. -/
theorem find_clearSector_rimRef (m : Mem) (k f : Nat) :
    NatMap.find 0 (m.clearSector k).rimRef f = if f / 8192 = k then 0 else NatMap.find 0 m.rimRef f := by
  refine (NatMap.find_filter 0 (fun g => decide (g / 8192 ≠ k)) m.rimRef f).trans ?_
  by_cases hf : f / 8192 = k <;> simp [hf]

/-! The path of a write of RIM_LD_CMD -/

/-- A command that writes RIM_LD_CMD, where its initiator may: the access is answered OK and the rim loader acts. -/
theorem does_of_rimLdCmd {i : Instr} {who : Init} {code sector : Nat} {s₀ : State} {Q : State → Prop} {c : Chip} {m : Mem}
    (hexec : exec i s₀ = .next ((s₀.seen who).onAll (byRegister who .rim 0 0x104 fun c a m => let x := rimLdCmd code sector c m; (x.1, a, x.2))))
    (hmay : (s₀.seen who).chip.regMay who ⟨.rim, 0, 0x104⟩ true = true)
    (hcmd : rimLdCmd code sector ((s₀.seen who).chip.answer .ok) (s₀.seen who).mem = (c, m)) (hQ : Q { s₀.seen who with chip := c, mem := m }) : Does i s₀ Q := by
  refine ⟨_, hexec, ?_⟩
  simp only [State.onAll, byRegister, hmay, if_true, hcmd]
  exact hQ

section
variable {c : Chip} (m : Mem)

theorem rimLdCmd_load (hfree : c.cmdPending .rimLd 0 = false) (sector : Nat) : rimLdCmd 1 sector c m = (c.rimLoad, m) := if_neg (by simp [hfree])

theorem rimLdCmd_clear (hfree : c.cmdPending .rimLd 0 = false) (sector : Nat) : rimLdCmd 3 sector c m = (c.rimClear sector, m) := if_neg (by simp [hfree])

theorem rimLdCmd_abort (hpend : c.cmdPending .rimLd 0 = true) (hload : c.get .CQ_CMD (CmdReg.rimLd.idx 0) = 1) (sector : Nat) :
    rimLdCmd 2 sector c m = rimAbort c m := (if_pos hpend).trans (if_pos ⟨rfl, hload⟩)

end

/-! LOAD -/

/-- What the start of a stream writes. -/
def streamStartFields : List Fld :=
  [.RIM_LD_STATUS_BUSY, .RIM_LD_STATUS_ORIGIN, .RIM_LD_STATUS_PART, .H_RS_STATE, .H_RS_WORD, .H_RS_CRC, .H_RS_MASK, .H_RS_SECT, .H_RS_LAST]

/-- A stream from `origin` has begun and waits for its sync word. -/
structure Chip.StreamBegun (d : Chip) (origin : Nat) : Prop where
  streaming : d.streaming = true
  origin : d.get .RIM_LD_STATUS_ORIGIN 0 = origin
  state : d.get .H_RS_STATE 0 = 1
  word : d.get .H_RS_WORD 0 = 0

section
variable (c : Chip)

theorem Chip.streamStart_only (origin p : Nat) : Chip.Only streamStartFields c (c.streamStart origin p) := by
  refine Chip.Only.set (Chip.Only.set (Chip.Only.set (Chip.Only.set (Chip.Only.set (Chip.Only.set (Chip.Only.set (Chip.Only.set (Chip.Only.set
    (.refl c) _ ?_) _ ?_) _ ?_) _ ?_) _ ?_) _ ?_) _ ?_) _ ?_) _ ?_ <;> decide

theorem Chip.streamStart_begun {origin : Nat} (h : origin < 2 ^ 2) (p : Nat) : (c.streamStart origin p).StreamBegun origin where
  streaming := by
    have fits : Fld.clip .RIM_LD_STATUS_BUSY 1 = 1 := rfl
    simp [Chip.streaming, Chip.on, Chip.streamStart, Chip.get_set, fits]
  origin := by
    have fits : Fld.clip .RIM_LD_STATUS_ORIGIN origin = origin := Fld.clip_lt h
    simp [Chip.streamStart, Chip.get_set, fits]
  state := by
    have fits : Fld.clip .H_RS_STATE 1 = 1 := rfl
    simp [Chip.streamStart, Chip.get_set, fits]
  word := by simp [Chip.streamStart, Chip.get_set, Fld.clip_zero]

theorem Chip.rimLoad_accepted (hsrc : c.get .RIM_LD_PARAM_SRC 0 < 2) (hidle : c.streaming = false) (hhere : c.on .H_ABSENT 0 = false) :
    c.rimLoad = (c.accept .rimLd 0 1).streamStart (c.get .RIM_LD_PARAM_SRC 0) 0 := by
  unfold Chip.rimLoad
  dsimp only
  rw [if_neg (by omega), if_neg (by simp [hidle, hhere])]

/-! ABORT -/

/-- The registers of an aborted stream, but for the command's result. -/
def Chip.rimDropped (m : Mem) : Chip := ((dropLoading c m).1.set .RIM_LD_STATUS_BUSY 0 0).set .H_RS_STATE 0 0

theorem rimAbort_eq (m : Mem) : rimAbort c m = ((c.rimDropped m).finish .rimLd 0 aborted 0, (dropLoading c m).2) := by
  simp only [rimAbort, Chip.rimDropped]

theorem Chip.rimDropped_rest (m : Mem) : Chip.Only [.RIM_LD_STATUS_BUSY, .H_RS_STATE] (dropLoading c m).1 (c.rimDropped m) :=
  Chip.Only.set (Chip.Only.set (.refl _) 0 (by simp)) 0 (by simp)

theorem Chip.rimDropped_streaming (m : Mem) : (c.rimDropped m).streaming = false := by
  simp [Chip.rimDropped, Chip.streaming, Chip.on, Chip.get_set, Fld.clip_zero]

/-! CLEAR -/

theorem Chip.rimClear_accepted {k : Nat} (hk : k < 12) (howner : c.get .RIM_SECT_OWN_OWNER k = ownerModule) :
    c.rimClear k = (c.accept .rimLd 0 3).set .H_CLR_SECT 0 k := if_pos ⟨hk, .inl howner⟩

/-- The registers once a pending CLEAR has cleared its sector. -/
def Chip.sectorEmptied (k : Nat) : Chip := (c.set .RIM_SECT_STATE_STATE k sectEmpty).finish .rimLd 0 completed 0

theorem rimCleared_eq (m : Mem) (hpend : c.cmdPending .rimLd 0 = true) (hclear : c.get .CQ_CMD (CmdReg.rimLd.idx 0) = 3) :
    rimCleared c m = (c.sectorEmptied (c.get .H_CLR_SECT 0), m.clearSector (c.get .H_CLR_SECT 0)) := by
  unfold rimCleared
  rw [if_pos (by simp [hpend, hclear])]
  rfl

theorem Chip.sectorEmptied_state (k : Nat) : (c.sectorEmptied k).sector k = sectEmpty :=
  ((Chip.finish_only _ .rimLd 0 _ _).sector_eq (by decide) k).trans (Chip.get_set_same _ _ _ _)

theorem Chip.sectorEmptied_hasResult (k : Nat) (hpend : c.cmdPending .rimLd 0 = true) :
    (c.sectorEmptied k).HasResult .rimLd 0 (c.get .CQ_CMD (CmdReg.rimLd.idx 0)) completed 0 := by
  have emptied : Chip.Only [.RIM_SECT_STATE_STATE] c (c.set .RIM_SECT_STATE_STATE k sectEmpty) := Chip.Only.set (.refl c) _ (by simp)
  have result := Chip.finish_hasResult (c.set .RIM_SECT_STATE_STATE k sectEmpty) .rimLd 0 completed 0 ((emptied.cmdPending_eq (by decide) .rimLd 0).trans hpend)
  rwa [emptied.get _ rfl (by decide)] at result

/-! Start-up -/

theorem Chip.sectorRun_due {k : Nat} (hstate : c.sector k = sectStarting) (hdue : c.due .H_SECT_DUE k = true) :
    c.sectorRun k = (c.set .RIM_SECT_STATE_STATE k sectRunning).set .H_SECT_DUE k 0 := if_pos (by simp [hstate, hdue])

end

/-- Settles O40: an accepted command is pending, ABORT drops what the stream was loading before it answers, and a CLEAR empties its sector when it ends. -/
theorem rimLoaderCommands : Obligations.RimLoaderCommands := by
  intro who k s
  refine ⟨?writes, fun hpend hclear hsect => ?cleared, fun hstate hdue => ?started⟩
  case writes =>
    intro s₀ s hmay
    let c : Chip := s.chip.answer .ok
    refine ⟨fun hfree hsrc hidle hhere => ?load, fun hpend hload => ?abort, fun hfree howner => ?clear⟩
    case load =>
      have hrun : rimLdCmd 1 0 c s.mem = ((c.accept .rimLd 0 1).streamStart (c.get .RIM_LD_PARAM_SRC 0) 0, s.mem) := by
        rw [rimLdCmd_load (c := c) s.mem hfree, c.rimLoad_accepted hsrc hidle hhere]
      have begun := (c.accept .rimLd 0 1).streamStart_begun (origin := c.get .RIM_LD_PARAM_SRC 0) (hsrc.trans (by decide)) 0
      have pending := ((c.accept .rimLd 0 1).streamStart_only (c.get .RIM_LD_PARAM_SRC 0) 0).cmdPending_eq (by decide) .rimLd 0
      exact does_of_rimLdCmd rfl hmay hrun
        ⟨pending.trans (c.accept_cmdPending .rimLd 0 1), begun.streaming, begun.origin, begun.state, begun.word, rfl, rfl⟩
    case abort =>
      let d : Chip := c.rimDropped s.mem
      have hrun : rimLdCmd 2 0 c s.mem = (d.finish .rimLd 0 aborted 0, (dropLoading c s.mem).2) := by
        rw [rimLdCmd_abort (c := c) s.mem hpend hload, rimAbort_eq]
      have dropped := c.rimDropped_rest s.mem
      have told := d.finish_only .rimLd 0 aborted 0
      have pending : d.cmdPending .rimLd 0 = true :=
        ((dropped.cmdPending_eq (by decide) .rimLd 0).trans ((dropLoading_only c s.mem).cmdPending_eq (by decide) .rimLd 0)).trans hpend
      have result := d.finish_hasResult .rimLd 0 aborted 0 pending
      have sector : (d.finish .rimLd 0 aborted 0).sector k = (dropLoading c s.mem).1.sector k :=
        (told.sector_eq (by decide) k).trans (dropped.sector_eq (by decide) k)
      have rim := dropLoading_rimOnly c s.mem
      refine does_of_rimLdCmd rfl hmay hrun ?_
      dsimp only
      refine ⟨d.finish_cmdPending .rimLd 0 aborted 0,
        (told.streaming_eq (by decide)).trans (c.rimDropped_streaming s.mem), result.ready, result.outcome, rfl, fun hloading => ?_, fun hother => ?_,
        rim⟩
      · have cleared : SectorCleared k (dropLoading c s.mem) := dropLoading_cleared s.mem k.isLt hloading
        exact ⟨sector.trans cleared.empty, cleared.zero⟩
      · have kept : SectorKept k c s.mem (dropLoading c s.mem) := dropLoading_kept hother
        exact ⟨sector.trans kept.state, kept.bytes⟩
    case clear =>
      have hrun : rimLdCmd 3 k.val c s.mem = ((c.accept .rimLd 0 3).set .H_CLR_SECT 0 k, s.mem) := by
        rw [rimLdCmd_clear (c := c) s.mem hfree, c.rimClear_accepted k.isLt howner]
      have noted : Chip.Only [.H_CLR_SECT] (c.accept .rimLd 0 3) ((c.accept .rimLd 0 3).set .H_CLR_SECT 0 k) := Chip.Only.set (.refl _) _ (by simp)
      have fits : Fld.clip .H_CLR_SECT k.val = k.val := Fld.clip_lt (show k.val < 2 ^ 4 by omega)
      exact does_of_rimLdCmd rfl hmay hrun
        ⟨(noted.cmdPending_eq (by decide) .rimLd 0).trans (c.accept_cmdPending .rimLd 0 3), (noted.get _ rfl (by decide)).trans (c.accept_cmd 3 .rimLd 0),
          (Chip.get_set_same _ _ _ _).trans fits, (noted.sector_eq (by decide) k).trans ((c.accept_only .rimLd 0 3).sector_eq (by decide) k), rfl, rfl⟩
  case cleared =>
    have hrun : rimCleared s.chip s.mem = (s.chip.sectorEmptied k, s.mem.clearSector k) := by rw [rimCleared_eq s.chip s.mem hpend hclear, hsect]
    refine does_of_onMem rfl hrun ⟨s.chip.sectorEmptied_state k, Chip.finish_cmdPending _ .rimLd 0 _ _,
      (s.chip.sectorEmptied_hasResult k hpend).outcome, rfl, read_clearSector s.mem k, fun f hf => ?_, rfl⟩
    exact (find_clearSector_rimRef s.mem k f).trans (if_pos hf)
  case started =>
    refine does_of_onChip rfl (s.chip.sectorRun_due hstate hdue) ⟨?_, ?_, rfl, rfl⟩
    · exact (Chip.get_set_ne _ _ (by simp)).trans (Chip.get_set_same _ _ _ _)
    · exact ((KeepsAll.refl s.chip _).set _ (by simp)).set _ (by simp)

end Sys2Proof.Machine
end
section
/-! PROOFS. The words of a configuration stream: which words a source brings, the control words, and the ways a stream ends (R242 to R250, R253; O41). -/

namespace Sys2Proof.Machine

/-! Places written one after another -/

namespace KeepsAll

variable {c d e : Chip} {ws vs : List (Fld × Nat)}

theorem trans (h : KeepsAll c d ws) (k : KeepsAll d e vs) : KeepsAll c e (ws ++ vs) := fun g j hg =>
  (k g j fun hm => hg (List.mem_append_right _ hm)).trans (h g j fun hm => hg (List.mem_append_left _ hm))

theorem widen (h : KeepsAll c d ws) (hs : ws ⊆ vs) : KeepsAll c d vs := fun g j hg => h g j fun hm => hg (hs hm)

theorem streaming_eq (h : KeepsAll c d ws) (hs : (Fld.RIM_LD_STATUS_BUSY, 0) ∉ ws) : d.streaming = c.streaming := by
  unfold Chip.streaming Chip.on
  rw [h _ _ hs]

end KeepsAll

/-! Counted words -/

/-- Where the words of a stream are counted. -/
def streamCounts : List (Fld × Nat) := [(.H_RS_WORD, 0), (.H_RS_CRC, 0)]

section
variable (c : Chip) (ws : List Nat)

theorem Chip.streamWords_keeps : KeepsAll c (c.streamWords ws) streamCounts :=
  ((KeepsAll.refl c _).set _ (by simp [streamCounts])).set _ (by simp [streamCounts])

theorem Chip.streamWords_get {f : Fld} (i : Nat) (h : f ≠ .H_RS_WORD ∧ f ≠ .H_RS_CRC) : (c.streamWords ws).get f i = c.get f i :=
  c.streamWords_keeps ws f i (by simp [streamCounts, h])

theorem Chip.streamWords_streaming : (c.streamWords ws).streaming = c.streaming := (c.streamWords_keeps ws).streaming_eq (by simp [streamCounts])

theorem Chip.streamWords_sector (k : Nat) : (c.streamWords ws).sector k = c.sector k := c.streamWords_get ws k (by decide)

end

/-! The words that a source brings -/

/-- A source brings the words that it has room for; the load bus brings any. -/
theorem Chip.brought_eq {c : Chip} {w : Nat} {ws : List Nat}
    (h : c.get .RIM_LD_STATUS_ORIGIN 0 = 1 ∨ w + ws.length ≤ min c.streamLimit c.flashWords) : c.brought w ws = ws := by
  unfold Chip.brought
  split
  next hflash =>
    have room := h.resolve_left (by omega)
    exact List.take_of_length_le (by omega)
  next => rfl

/-! Failed streams -/

/-- The registers of a stream that failure `code` at word `w` ends, but for the event and the result. -/
def Chip.streamMarked (c : Chip) (code w : Nat) : Chip :=
  ((((c.set .RIM_LD_STATUS_ERR 0 1).set .RIM_LD_STATUS_CODE 0 code).set .RIM_LD_ERR_LOC_WORD 0 w).set .RIM_LD_STATUS_BUSY 0 0).set .H_RS_STATE 0 4

theorem streamFail_rest (code w : Nat) (c : Chip) (m : Mem) :
    Chip.Only CmdReg.rimLd.commandFields ((dropLoading c m).1.streamMarked code w) (streamFail code w c m).1 := by
  have raised : Chip.Only CmdReg.rimLd.commandFields ((dropLoading c m).1.streamMarked code w) (((dropLoading c m).1.streamMarked code w).raise 223) :=
    Chip.Only.of_quiet (Chip.raise_quiet _ 223)
  unfold streamFail
  dsimp only
  split
  · exact raised
  · exact raised.trans (Chip.finish_only _ .rimLd 0 _ _)

/-- The stream of `c` has ended with failure `code`, and every sector that it was loading is in EMPTY (R249, R250). -/
structure Chip.StreamFailed (c : Chip) (code : Nat) (d : Chip) : Prop where
  ended : d.streaming = false
  err : d.get .RIM_LD_STATUS_ERR 0 = 1
  code : d.get .RIM_LD_STATUS_CODE 0 = code
  sectors : ∀ j, j < 12 → d.sector j = if c.sector j = sectLoading then sectEmpty else c.sector j

section
variable {code : Nat} (w : Nat) (c : Chip) (m : Mem)

theorem streamFail_ended : (streamFail code w c m).1.streaming = false := by
  rw [(streamFail_rest code w c m).streaming_eq (by decide)]
  simp [Chip.streaming, Chip.on, Chip.streamMarked, Chip.get_set, Fld.clip_zero]

theorem streamFail_failed (hcode : code < 256) : c.StreamFailed code (streamFail code w c m).1 where
  ended := streamFail_ended w c m
  err := by
    have fits : Fld.clip .RIM_LD_STATUS_ERR 1 = 1 := rfl
    rw [(streamFail_rest code w c m).get 0 rfl (by decide)]
    simp [Chip.streamMarked, Chip.get_set, fits]
  code := by
    have fits : Fld.clip .RIM_LD_STATUS_CODE code = code := Fld.clip_lt hcode
    rw [(streamFail_rest code w c m).get 0 rfl (by decide)]
    simp [Chip.streamMarked, Chip.get_set, fits]
  sectors j hj := by
    have marked : ((dropLoading c m).1.streamMarked code w).sector j = (dropLoading c m).1.sector j := by simp [Chip.sector, Chip.streamMarked, Chip.get_set]
    exact ((streamFail_rest code w c m).sector_eq (by decide) j).trans (marked.trans (dropLoading_sector c m hj))

end

/-! The next state of a word, from what the stream makes of it -/

section
variable {i : Instr} {s : State} {Q : State → Prop} {f : Chip → Mem → Chip × Mem}

/-- What holds of a failed stream holds of the next state of a command that makes the stream fail. -/
theorem does_of_streamFail {code w : Nat} {c : Chip} (hexec : exec i s = .next (s.onMem f)) (hf : f s.chip s.mem = streamFail code w c s.mem)
    (hcode : code < 256) (hQ : ∀ d t, c.StreamFailed code d → Q { s with chip := d, mem := t }) : Does i s Q :=
  does_of_onMem hexec (hf.trans (Prod.eta _).symm) (hQ _ _ (streamFail_failed w c s.mem hcode))

variable (hexec : exec i s = .next (s.onStream f)) (hout : s.chip.get .RIM_LD_STATUS_ORIGIN 0 ≠ 2)
include hexec hout

theorem does_of_onStream {d : Chip} {t : Mem} (hf : f s.chip s.mem = (d, t)) (hQ : Q { s with chip := d, mem := t }) : Does i s Q :=
  does_of_onMem hexec ((if_neg hout).trans hf) hQ

theorem does_of_wordFail {code w : Nat} {c : Chip} (hf : f s.chip s.mem = streamFail code w c s.mem) (hcode : code < 256)
    (hQ : ∀ d t, c.StreamFailed code d → Q { s with chip := d, mem := t }) : Does i s Q :=
  does_of_streamFail hexec ((if_neg hout).trans hf) hcode hQ

end

/-! The sync word -/

section
variable {c : Chip} (m : Mem) (hgo : c.streaming = true) (hstate : c.get .H_RS_STATE 0 = 1)
  (hroom : c.get .RIM_LD_STATUS_ORIGIN 0 = 1 ∨ c.get .H_RS_WORD 0 + 1 ≤ min c.streamLimit c.flashWords) (w : Nat)
include hgo hstate hroom

theorem streamSync_eq : streamSync w c m =
    if w = 0xA5C35A3C then (((c.streamWords [w]).set .H_RS_STATE 0 2).set .H_RS_MASK 0 0xFF, m) else streamFail rimSync 0 c m := by
  have comes : c.brought 0 [w] = [w] := Chip.brought_eq (hroom.imp id fun room => by simp only [List.length_singleton]; omega)
  unfold streamSync
  rw [if_neg (by simp [hgo]), if_neg (by simp [hstate]), if_neg (by simp [comes])]

end

/-! Command words -/

section
variable {c : Chip} (m : Mem) (w : Nat) {data : List Nat} (h : StreamReads (data.length + 1) c) (act : List Nat → Chip → Mem → Chip × Mem)
include h

theorem StreamReads.brought_command : c.brought (c.get .H_RS_WORD 0) [w] = [w] :=
  Chip.brought_eq (h.room.imp id fun room => by simp only [List.length_singleton]; omega)

theorem StreamReads.brought_data : c.brought (c.get .H_RS_WORD 0 + 1) data = data := Chip.brought_eq (h.room.imp id fun room => by omega)

/-- A command that this device reads whole is performed. -/
theorem streamCommand_eq : streamCommand w data act c m =
    (if (act data c m).1.streaming then (act data c m).1.streamWords (w :: data) else (act data c m).1, (act data c m).2) := by
  unfold streamCommand
  rw [if_neg (by simp [h.busy]), if_neg (by simp [h.synced]), if_neg (by simp [h.brought_command w]), if_neg (by simp [h.selected]), h.brought_data]

variable {m w act}

/-- Where the stream goes on, the words are counted. -/
theorem streamCommand_goes {d : Chip} {t : Mem} (hact : act data c m = (d, t)) (hgo : d.streaming = true) :
    streamCommand w data act c m = (d.streamWords (w :: data), t) := by
  rw [streamCommand_eq m w h act, hact]
  exact congrArg (·, t) (if_pos hgo)

theorem streamCommand_fails {code at' : Nat} (hact : act data c m = streamFail code at' c m) : streamCommand w data act c m = streamFail code at' c m := by
  rw [streamCommand_eq m w h act, hact, if_neg (by simp [streamFail_ended])]

end

section
variable {c : Chip} (m : Mem)

theorem streamNop_eq (h : StreamReads 1 c) : streamNop 0 0 c m = (c.streamWords [0], m) := streamCommand_goes (data := []) h rfl h.busy

theorem streamDevid_same (h : StreamReads 2 c) : streamDevid 0 [c.get .RIM_ID_ID 0] c m = (c.streamWords [0x1000000, c.get .RIM_ID_ID 0], m) :=
  streamCommand_goes (data := [c.get .RIM_ID_ID 0]) h (by simp) h.busy

theorem streamDevid_other (h : StreamReads 2 c) {id : Nat} (hid : id ≠ c.get .RIM_ID_ID 0) :
    streamDevid 0 [id] c m = streamFail rimDevid (c.get .H_RS_WORD 0 + 1) c m := streamCommand_fails (data := [id]) h (by simp [hid])

variable {arg : Nat}

theorem streamSelect_bus (h : StreamReads 1 c) (hbus : c.get .RIM_LD_STATUS_ORIGIN 0 = 1) (harg : arg < 0x100) :
    streamSelect arg c m = ((c.streamWords [cmdWord 2 arg]).set .H_RS_MASK 0 arg, m) := by
  have comes : c.brought (c.get .H_RS_WORD 0) [cmdWord 2 arg] = [cmdWord 2 arg] := StreamReads.brought_command (data := []) _ h
  have bus : (c.streamWords [cmdWord 2 arg]).get .RIM_LD_STATUS_ORIGIN 0 = 1 := (c.streamWords_get _ 0 (by decide)).trans hbus
  unfold streamSelect
  rw [if_neg (by simp [h.busy]), if_neg (by simp [h.synced]), if_neg (by simp [comes]), if_neg (by omega)]
  exact congrArg (·, m) (if_pos bus)

/-- The registers once SECTOR has named sector `k`. -/
def Chip.sectorNamed (c : Chip) (k : Nat) : Chip := ((c.set .RIM_SECT_STATE_STATE k sectLoading).set .H_RS_SECT 0 (k + 1)).set .H_RS_PTR 0 (8192 * k)

theorem Chip.sectorNamed_keeps (c : Chip) (k : Nat) :
    KeepsAll c (c.sectorNamed k) [(.RIM_SECT_STATE_STATE, k), (.H_RS_SECT, 0), (.H_RS_PTR, 0)] :=
  (((KeepsAll.refl c _).set _ (by simp)).set _ (by simp)).set _ (by simp)

theorem Chip.sectorNamed_state (c : Chip) (k : Nat) : (c.sectorNamed k).sector k = sectLoading :=
  (Chip.get_set_ne _ _ (by simp)).trans ((Chip.get_set_ne _ _ (by simp)).trans (Chip.get_set_same _ _ _ _))

theorem Chip.sectorNamed_sect (c : Chip) {k : Nat} (hk : k ≤ 11) : (c.sectorNamed k).get .H_RS_SECT 0 = k + 1 :=
  (Chip.get_set_ne _ _ (by simp)).trans ((Chip.get_set_same _ _ _ _).trans (Fld.clip_lt (show k + 1 < 2 ^ 4 by omega)))

theorem Chip.sectorNamed_pointer (c : Chip) {k : Nat} (hk : k ≤ 11) : (c.sectorNamed k).get .H_RS_PTR 0 = 8192 * k :=
  (Chip.get_set_same _ _ _ _).trans (Fld.clip_lt (show 8192 * k < 2 ^ 17 by omega))

theorem streamSector_named (h : StreamReads 1 c) (harg : arg ≤ 11) (hmay : c.mayLoad arg = true) :
    streamSector arg c m = ((c.sectorNamed arg).streamWords [cmdWord 3 arg], m.clearSector arg) := by
  have busy : (c.sectorNamed arg).streaming = true := ((c.sectorNamed_keeps arg).streaming_eq (by simp)).trans h.busy
  refine streamCommand_goes (data := []) h ?_ busy
  exact (if_neg (by omega)).trans (if_neg (by simp [hmay]))

theorem streamFaddr_moved (h : StreamReads 1 c) {k : Nat} (hsect : c.get .H_RS_SECT 0 = k + 1) (harg : arg ≤ 8191) :
    streamFaddr arg c m = ((c.set .H_RS_PTR 0 (8192 * k + arg)).streamWords [cmdWord 4 arg], m) := by
  have moved : KeepsAll c (c.set .H_RS_PTR 0 (8192 * k + arg)) [(.H_RS_PTR, 0)] := (KeepsAll.refl c _).set _ (by simp)
  refine streamCommand_goes (data := []) h ?_ ((moved.streaming_eq (by simp)).trans h.busy)
  simp only [hsect]
  exact if_neg (by omega)

theorem loadBusTimeout_eq (hgo : c.streaming = true) (hbus : c.get .RIM_LD_STATUS_ORIGIN 0 = 1) :
    loadBusTimeout c m = streamFail rimEarlyEnd (c.get .H_RS_WORD 0) c m := if_pos (by simp [hgo, hbus])

end

/-! Sectors that start -/

/-- Sector `k` starts where it is in LOADING (R253). -/
def Chip.startSector (c : Chip) (k : Nat) : Chip :=
  if c.sector k = sectLoading then ((c.fabStart k).set .RIM_SECT_STATE_STATE k sectStarting).setDue .H_SECT_DUE k 96 else c

theorem Chip.startSectors_eq (c : Chip) : c.startSectors = (List.range 12).foldl Chip.startSector c := rfl

/-- Sector `k` is in STARTING, and its flip-flops hold their reset values. -/
structure Chip.SectorStarts (k : Nat) (d : Chip) : Prop where
  state : d.sector k = sectStarting
  reset : ∀ e, e / 65536 = k → NatMap.find 0 d.fab.ffs e = 0

section
variable (c : Chip) {j k : Nat}

theorem Chip.fabStart_only (k : Nat) : Chip.Only [.H_START_EDGES] c (c.fabStart k) := by
  have cleared : Chip.Only [.H_START_EDGES] c (c.clearWhere .H_START_EDGES fun i => i / 12 = k) := Chip.Only.clearWhere (.refl c) _ (by simp)
  exact cleared.trans ⟨fun _ _ _ => rfl, rfl, rfl, rfl⟩

theorem Chip.fabStart_ffs (k e : Nat) : NatMap.find 0 (c.fabStart k).fab.ffs e = if e / 65536 = k then 0 else NatMap.find 0 c.fab.ffs e := by
  refine (NatMap.find_filter 0 (fun i => decide (i / 65536 ≠ k)) c.fab.ffs e).trans ?_
  by_cases he : e / 65536 = k <;> simp [he]

theorem Chip.startSector_of_loading (h : c.sector k = sectLoading) :
    c.startSector k = ((c.fabStart k).set .RIM_SECT_STATE_STATE k sectStarting).setDue .H_SECT_DUE k 96 := if_pos h

theorem Chip.startSector_of_not_loading (h : c.sector k ≠ sectLoading) : c.startSector k = c := if_neg h

theorem Chip.startSector_only (k : Nat) : Chip.Only [.H_START_EDGES, .RIM_SECT_STATE_STATE, .H_SECT_DUE] c (c.startSector k) :=
  .cond (Chip.Only.set (Chip.Only.set ((c.fabStart_only k).widen (by simp)) _ (by simp)) _ (by simp)) (.refl c)

theorem Chip.startSectors_only : Chip.Only [.H_START_EDGES, .RIM_SECT_STATE_STATE, .H_SECT_DUE] c c.startSectors :=
  Chip.Spares.fold _ _ c fun k _ d => d.startSector_only k

theorem Chip.startSector_sector_ne (h : j ≠ k) : (c.startSector k).sector j = c.sector j := by
  unfold Chip.startSector
  split
  · refine (Chip.get_set_ne _ _ (by simp)).trans ((Chip.get_set_ne _ _ (by simp [h])).trans ?_)
    exact (c.fabStart_only k).sector_eq (by decide) j
  · rfl

theorem Chip.startSector_starts (h : c.sector k = sectLoading) : (c.startSector k).SectorStarts k := by
  rw [c.startSector_of_loading h]
  exact ⟨(Chip.get_set_ne _ _ (by simp)).trans (Chip.get_set_same _ _ _ _), fun e he => (c.fabStart_ffs k e).trans (if_pos he)⟩

variable {c}

/-- A sector that starts goes on starting while others do. -/
theorem Chip.SectorStarts.startSector (h : c.SectorStarts k) (j : Nat) : (c.startSector j).SectorStarts k := by
  by_cases hj : c.sector j = sectLoading
  · have hne : k ≠ j := by
      rintro rfl
      exact absurd (h.state.symm.trans hj) (by decide)
    refine ⟨(c.startSector_sector_ne hne).trans h.state, fun e he => ?_⟩
    rw [c.startSector_of_loading hj]
    exact (c.fabStart_ffs j e).trans ((if_neg (he.trans_ne hne)).trans (h.reset e he))
  · rwa [c.startSector_of_not_loading hj]

theorem Chip.startSectors_starts (hk : k < 12) (h : c.sector k = sectLoading) : c.startSectors.SectorStarts k := by
  rw [c.startSectors_eq]
  refine foldl_reaches (J := fun d : Chip => d.sector k = sectLoading ∨ d.SectorStarts k) Chip.startSector k (fun d j hd => ?_) (fun d j hd => hd.startSector j)
    (fun d hd => hd.elim d.startSector_starts (·.startSector k)) _ (List.mem_range.2 hk) _ (.inl h)
  rcases hd with hd | hd
  · by_cases hj : k = j
    · exact .inr (hj ▸ d.startSector_starts hd)
    · exact .inl ((d.startSector_sector_ne hj).trans hd)
  · exact .inr (hd.startSector j)

theorem Chip.startSectors_other (h : c.sector k ≠ sectLoading) : c.startSectors.sector k = c.sector k := by
  rw [c.startSectors_eq]
  refine List.foldlRecOn (motive := fun d : Chip => d.sector k = c.sector k) _ _ rfl fun d hd j _ => ?_
  by_cases hj : d.sector j = sectLoading
  · have hne : k ≠ j := by
      rintro rfl
      exact h (hd.symm.trans hj)
    exact (d.startSector_sector_ne hne).trans hd
  · rwa [d.startSector_of_not_loading hj]

theorem Chip.startSectors_sector (hk : k < 12) : c.startSectors.sector k = if c.sector k = sectLoading then sectStarting else c.sector k := by
  split
  next h => exact (Chip.startSectors_starts hk h).state
  next h => exact Chip.startSectors_other h

end

/-! END -/

/-- A result of the rim loader leaves the fabric. -/
theorem Chip.finish_rimLd_fab (c : Chip) (outcome code : Nat) : (c.finish .rimLd 0 outcome code).fab = c.fab := by
  unfold Chip.finish
  split
  · rw [Chip.putResult_eq]
    refine (Chip.raise_quiet _ 222).fab.trans ?_
    simp only [Chip.resultBase, Chip.set_fab]
  · rfl

/-- The registers once a stream has ended well, but for the command's result. -/
def Chip.streamDone (c : Chip) : Chip := (c.startSectors.set .RIM_LD_STATUS_BUSY 0 0).set .H_RS_STATE 0 3

/-- The stream of `c` has ended well, and every sector that it was loading starts (R253). -/
structure Chip.StreamEnded (c d : Chip) : Prop where
  ended : d.streaming = false
  state : d.get .H_RS_STATE 0 = 3
  sectors : ∀ j, j < 12 → d.sector j = if c.sector j = sectLoading then sectStarting else c.sector j
  reset : ∀ j e, j < 12 → c.sector j = sectLoading → e / 65536 = j → NatMap.find 0 d.fab.ffs e = 0

section
variable (c : Chip)

theorem Chip.streamDone_rest : Chip.Only [.RIM_LD_STATUS_BUSY, .H_RS_STATE] c.startSectors c.streamDone :=
  Chip.Only.set (Chip.Only.set (.refl _) 0 (by simp)) 3 (by simp)

theorem Chip.streamDone_origin : c.streamDone.get .RIM_LD_STATUS_ORIGIN 0 = c.get .RIM_LD_STATUS_ORIGIN 0 :=
  (c.streamDone_rest.get 0 rfl (by decide)).trans (c.startSectors_only.get 0 rfl (by decide))

theorem Chip.streamDone_ended : c.StreamEnded (c.streamDone.finish .rimLd 0 completed 0) where
  ended := by
    rw [(Chip.finish_only _ .rimLd 0 _ _).streaming_eq (by decide)]
    simp [Chip.streaming, Chip.on, Chip.streamDone, Chip.get_set, Fld.clip_zero]
  state := ((Chip.finish_only _ .rimLd 0 _ _).get 0 rfl (by decide)).trans (Chip.get_set_same _ _ _ _)
  sectors j hj := by
    rw [(Chip.finish_only _ .rimLd 0 _ _).sector_eq (by decide), c.streamDone_rest.sector_eq (by decide), Chip.startSectors_sector hj]
  reset j e hj hload he := by
    rw [Chip.finish_rimLd_fab, Chip.streamDone, Chip.set_fab, Chip.set_fab]
    exact (Chip.startSectors_starts hj hload).reset e he

end

section
variable {c : Chip} (m : Mem) (hgo : c.streaming = true) (hstate : c.get .H_RS_STATE 0 = 2)
  (hroom : c.get .RIM_LD_STATUS_ORIGIN 0 = 1 ∨ c.get .H_RS_WORD 0 + 2 ≤ min c.streamLimit c.flashWords)
include hgo hstate hroom

/-- The check of the stream's CRC, which every device makes (R247). -/
theorem streamEnd_eq (crc : Nat) : streamEnd 0 [crc] c m =
    if crcDone ((c.streamWords [0x8000000]).get .H_RS_CRC 0) ≠ crc then streamFail rimStreamCrc (c.get .H_RS_WORD 0 + 1) (c.streamWords [0x8000000]) m
    else (if (c.streamWords [0x8000000]).streamDone.get .RIM_LD_STATUS_ORIGIN 0 = 2 then (c.streamWords [0x8000000]).streamDone
      else (c.streamWords [0x8000000]).streamDone.finish .rimLd 0 completed 0, m) := by
  have command : c.brought (c.get .H_RS_WORD 0) [cmdWord 8 0] = [cmdWord 8 0] :=
    Chip.brought_eq (hroom.imp id fun room => by simp only [List.length_singleton]; omega)
  have data : c.brought (c.get .H_RS_WORD 0 + 1) [crc] = [crc] := Chip.brought_eq (hroom.imp id fun room => by simp only [List.length_singleton]; omega)
  unfold streamEnd
  dsimp only
  rw [if_neg (by simp [hgo]), if_neg (by simp [hstate]), if_neg (by simp [command]), if_neg (by simp), data]
  rfl

theorem streamEnd_wrong {crc : Nat} (hcrc : crc ≠ crcDone ((c.streamWords [0x8000000]).get .H_RS_CRC 0)) :
    streamEnd 0 [crc] c m = streamFail rimStreamCrc (c.get .H_RS_WORD 0 + 1) (c.streamWords [0x8000000]) m :=
  (streamEnd_eq m hgo hstate hroom crc).trans (if_pos hcrc.symm)

theorem streamEnd_right {crc : Nat} (hcrc : crc = crcDone ((c.streamWords [0x8000000]).get .H_RS_CRC 0)) (hout : c.get .RIM_LD_STATUS_ORIGIN 0 ≠ 2) :
    streamEnd 0 [crc] c m = ((c.streamWords [0x8000000]).streamDone.finish .rimLd 0 completed 0, m) := by
  have outside : (c.streamWords [0x8000000]).streamDone.get .RIM_LD_STATUS_ORIGIN 0 ≠ 2 := by
    rwa [Chip.streamDone_origin, Chip.streamWords_get _ _ _ (by decide)]
  rw [streamEnd_eq m hgo hstate hroom crc, if_neg (not_not_intro hcrc.symm), if_neg outside]

end

end Sys2Proof.Machine
end
section
/-! PROOFS. Frames of a configuration stream: what WRITE and REPEAT put into the rim configuration memory (R245, R247, R248; O41). -/

namespace Sys2Proof.Machine

/-! Bytes written one list after another -/

theorem Memory.writeN_append (m : List Host.Cell) (a : Nat) (xs ys : List Byte) :
    Memory.writeN m a (xs ++ ys) = Memory.writeN (Memory.writeN m a xs) (a + xs.length) ys := by
  induction xs generalizing m a with
  | nil => rfl
  | cons x xs ih =>
    show Memory.writeN (Memory.write m a x) (a + 1) (xs ++ ys) = _
    rw [ih, List.length_cons, Nat.add_assoc, Nat.add_comm 1]
    rfl

/-- Copies of a list repeat its elements. -/
theorem getD_copies (d : List Byte) {n i : Nat} (h : i < n * d.length) : (List.replicate n d).flatten.getD i 0 = d.getD (i % d.length) 0 := by
  induction n generalizing i with
  | zero => omega
  | succ n ih =>
    rw [List.replicate_succ, List.flatten_cons]
    by_cases hi : i < d.length
    · rw [List.getD_append _ _ _ _ hi, Nat.mod_eq_of_lt hi]
    · rw [Nat.succ_mul] at h
      rw [List.getD_append_right _ _ _ _ (by omega), ih (by omega), ← Nat.mod_eq_sub_mod (by omega)]

/-! The frame that a command carries -/

/-- The 128 bytes of the 32 data words of a frame. -/
def frameData (ws : List Nat) : List Byte := (ws.take 32).flatMap (toBytes 4)

theorem length_frameData {ws : List Nat} (h : 32 ≤ ws.length) : (frameData ws).length = 128 := by
  have words : (List.map (fun w => (toBytes 4 w).length) (ws.take 32)) = List.replicate 32 4 := by
    simp only [length_toBytes, List.map_const', List.length_take]
    rw [Nat.min_eq_left h]
  rw [frameData, List.length_flatMap, words]
  rfl

/-! Frames written at the pointer -/

/-- What a frame that is written changes in the registers' fields. -/
def frameFields : List Fld := [.H_RS_LAST, .H_RS_PTR]

/-- In `x`, frame `d` has been written into `n` frames from the pointer of `c` on, over the memory `m`, and no other frame has changed. -/
structure FramesWritten (d : List Byte) (n : Nat) (c : Chip) (m : Mem) (x : Chip × Mem) : Prop where
  regs : Chip.Only frameFields c x.1
  pointer : x.1.get .H_RS_PTR 0 = c.get .H_RS_PTR 0 + n
  bytes : x.2.rim = Memory.writeN m.rim (c.get .H_RS_PTR 0 * 128) (List.replicate n d).flatten
  refs : ∀ g, NatMap.find 0 x.2.rimRef g =
    if c.get .H_RS_PTR 0 ≤ g ∧ g < c.get .H_RS_PTR 0 + n then frameCrc g d + 1 else NatMap.find 0 m.rimRef g
  rest : m.RimOnly x.2

theorem Mem.RimOnly.trans {m t u : Mem} (h : m.RimOnly t) (k : t.RimOnly u) : m.RimOnly u := by
  unfold Mem.RimOnly at *
  rw [← k] at h
  exact h

section
variable {d : List Byte} {n : Nat} {c : Chip} {m : Mem} {x y : Chip × Mem}

theorem FramesWritten.zero (d : List Byte) (c : Chip) (m : Mem) : FramesWritten d 0 c m (c, m) where
  regs := .refl c
  pointer := rfl
  bytes := rfl
  refs g := (if_neg (by omega)).symm
  rest := rfl

/-- `n` copies after a frame are `n + 1` copies from where it was written. -/
theorem FramesWritten.bytes_cons (hd : d.length = 128) (h : FramesWritten d 1 c m x) (n : Nat) :
    Memory.writeN x.2.rim (x.1.get .H_RS_PTR 0 * 128) (List.replicate n d).flatten =
      Memory.writeN m.rim (c.get .H_RS_PTR 0 * 128) (List.replicate (n + 1) d).flatten := by
  have one : x.2.rim = Memory.writeN m.rim (c.get .H_RS_PTR 0 * 128) d := by simpa using h.bytes
  have place : c.get .H_RS_PTR 0 * 128 + d.length = (c.get .H_RS_PTR 0 + 1) * 128 := by omega
  rw [one, h.pointer, List.replicate_succ, List.flatten_cons, Memory.writeN_append, place]

/-- One frame, and then `n` more. -/
theorem FramesWritten.cons (hd : d.length = 128) (h : FramesWritten d 1 c m x) (k : FramesWritten d n x.1 x.2 y) : FramesWritten d (n + 1) c m y where
  regs := h.regs.trans k.regs
  pointer := by
    rw [k.pointer, h.pointer]
    omega
  bytes := k.bytes.trans (h.bytes_cons hd n)
  refs g := by
    rw [k.refs, h.refs, h.pointer]
    split_ifs <;> omega
  rest := h.rest.trans k.rest

/-- The bytes of the frames written, and those of the others. -/
theorem FramesWritten.read (hd : d.length = 128) (h : FramesWritten d n c m x) (z : Nat) : Memory.read x.2.rim z =
    if c.get .H_RS_PTR 0 * 128 ≤ z ∧ z < (c.get .H_RS_PTR 0 + n) * 128 then d.getD (z % 128) 0 else Memory.read m.rim z := by
  have span : c.get .H_RS_PTR 0 * 128 + n * 128 = (c.get .H_RS_PTR 0 + n) * 128 := by omega
  have length : (List.replicate n d).flatten.length = n * 128 := by simp [hd]
  rw [h.bytes, Memory.read_writeN, length, span]
  split
  next hz =>
    have place : (z - c.get .H_RS_PTR 0 * 128) % 128 = z % 128 := by omega
    rw [getD_copies d (by rw [hd]; omega), hd, place]
  next => rfl

end

section
variable {d : List Byte} {c : Chip} {m : Mem}

theorem writeFrame_last (h : c.get .H_RS_PTR 0 + 1 < 2 ^ 17) : (writeFrame d c m).1.get .H_RS_LAST 0 = c.get .H_RS_PTR 0 + 1 :=
  (Chip.get_set_ne _ _ (by simp)).trans ((Chip.get_set_same _ _ _ _).trans (Fld.clip_lt h))

theorem writeFrame_written (h : c.get .H_RS_PTR 0 + 1 < 2 ^ 17) : FramesWritten d 1 c m (writeFrame d c m) where
  regs := by
    have moved : Chip.Only frameFields c ((c.set .H_RS_LAST 0 (c.get .H_RS_PTR 0 + 1)).set .H_RS_PTR 0 (c.get .H_RS_PTR 0 + 1)) :=
      Chip.Only.set (Chip.Only.set (.refl c) _ (by simp [frameFields])) _ (by simp [frameFields])
    exact moved.trans ⟨fun _ _ _ => rfl, rfl, rfl, rfl⟩
  pointer := (Chip.get_set_same _ _ _ _).trans (Fld.clip_lt h)
  bytes := by simp [writeFrame]
  refs g := by
    have frame : c.get .H_RS_PTR 0 ≤ g ∧ g < c.get .H_RS_PTR 0 + 1 ↔ g = c.get .H_RS_PTR 0 := by omega
    show NatMap.find 0 (NatMap.put 0 m.rimRef (c.get .H_RS_PTR 0) (frameCrc (c.get .H_RS_PTR 0) d + 1)) g = _
    rw [NatMap.find_put, if_congr frame rfl rfl]
    split
    next hg => rw [hg]
    next => rfl
  rest := rfl

theorem writeFrame_read (hd : d.length = 128) (z : Nat) : Memory.read (writeFrame d c m).2.rim z =
    if c.get .H_RS_PTR 0 * 128 ≤ z ∧ z < c.get .H_RS_PTR 0 * 128 + 128 then d.getD (z - c.get .H_RS_PTR 0 * 128) 0 else Memory.read m.rim z := by
  refine (Memory.read_writeN m.rim (c.get .H_RS_PTR 0 * 128) z d).trans ?_
  rw [hd]

/-- A frame that is written has no bit in error. -/
theorem writeFrame_wordErrors {w : Nat} (hw : w < 16) : (writeFrame d c m).2.wordErrors (c.get .H_RS_PTR 0) w = [] := by
  have clean : NatMap.find 0 (writeFrame d c m).2.rimErr (c.get .H_RS_PTR 0 * 16 + w) = 0 :=
    (NatMap.find_filter 0 (fun i => decide (i / 16 ≠ c.get .H_RS_PTR 0)) m.rimErr _).trans (if_neg (by simp; omega))
  simp [Mem.wordErrors, clean, bitB, bit]

end

/-! The checks of a frame -/

/-- The checks of a frame see the memory's frames, the sector's owner and the owners of the tiles, and none of a stream's places. -/
theorem frameRefusal_eq {c d : Chip} {m t : Mem} (h : Chip.Only frameFields c d) (hrim : t.rim = m.rim) (k f : Nat) (b : List Byte) :
    d.frameRefusal t k f b = c.frameRefusal m k f b := by
  have owner : d.get .RIM_SECT_OWN_OWNER k = c.get .RIM_SECT_OWN_OWNER k := h.get k rfl (by decide)
  have owners : d.tileOwner = c.tileOwner := funext (Chip.Only.owning h (by decide)).tileOwner_eq
  have drivers : t.constDrivers k f b = m.constDrivers k f b := by
    unfold Mem.constDrivers Mem.framesOf Mem.frame
    rw [hrim]
  unfold Chip.frameRefusal
  rw [owner, owners, drivers]

theorem frameRefusal_lt (c : Chip) (m : Mem) (k f : Nat) (b : List Byte) : c.frameRefusal m k f b < 256 := by
  unfold Chip.frameRefusal
  dsimp only
  split_ifs
  all_goals decide

/-! WRITE -/

section
variable {c : Chip} {m : Mem} {ws : List Nat} {k : Nat} (hlen : ws.length = 33)
include hlen

theorem writeFrames_wrongCrc (hcrc : ws.getD 32 0 ≠ frameCrc (c.get .H_RS_PTR 0) (frameData ws)) :
    writeFrames k 1 0 ws c m = streamFail rimFrameCrc (c.get .H_RS_WORD 0 + 33) c m := by
  unfold writeFrames
  exact (if_neg (by omega)).trans (if_pos hcrc)

variable (hcrc : ws.getD 32 0 = frameCrc (c.get .H_RS_PTR 0) (frameData ws))
include hcrc

theorem writeFrames_passed (hpass : c.frameRefusal m k (c.get .H_RS_PTR 0) (frameData ws) = 0) :
    writeFrames k 1 0 ws c m = writeFrame (frameData ws) c m := by
  unfold writeFrames
  refine (if_neg (by omega)).trans ((if_neg (not_not_intro hcrc)).trans ?_)
  dsimp only
  rw [frameData] at hpass
  rw [hpass]
  rfl

theorem writeFrames_refused (hrefused : c.frameRefusal m k (c.get .H_RS_PTR 0) (frameData ws) ≠ 0) :
    writeFrames k 1 0 ws c m = streamFail (c.frameRefusal m k (c.get .H_RS_PTR 0) (frameData ws)) (c.get .H_RS_WORD 0 + 33) c m := by
  unfold writeFrames
  refine (if_neg (by omega)).trans ((if_neg (not_not_intro hcrc)).trans ?_)
  rw [frameData] at hrefused ⊢
  dsimp only
  split
  next h => exact absurd h hrefused
  next => rfl

end

/-- The frames that WRITE or REPEAT may write lie in the twelve sectors. -/
theorem Chip.pointer_lt_of_framesOk {c : Chip} {k n : Nat} (hsect : c.get .H_RS_SECT 0 = k + 1) (hk : k < 12) (hok : c.framesOk n = true) :
    c.get .H_RS_PTR 0 + n < 2 ^ 17 := by
  simp only [Chip.framesOk, Bool.and_eq_true, decide_eq_true_eq] at hok
  omega

section
variable {c : Chip} {m : Mem} {ws : List Nat} {k : Nat} (h : StreamReads 34 c) (hok : c.framesOk 1 = true) (hsect : c.get .H_RS_SECT 0 = k + 1)
  (hlen : ws.length = 33)
include h hok hsect hlen

theorem streamWrite_goes {d : Chip} {t : Mem} (hact : writeFrames k 1 0 ws c m = (d, t)) (hgo : d.streaming = true) :
    streamWrite 1 ws c m = (d.streamWords (cmdWord 5 1 :: ws), t) := by
  have whole : ws.take (33 * 1) = ws := List.take_of_length_le (by omega)
  unfold streamWrite
  rw [whole]
  exact streamCommand_goes (hlen ▸ h) (by simp [hok, hsect, hact]) hgo

theorem streamWrite_fails {code at' : Nat} (hact : writeFrames k 1 0 ws c m = streamFail code at' c m) : streamWrite 1 ws c m = streamFail code at' c m := by
  have whole : ws.take (33 * 1) = ws := List.take_of_length_le (by omega)
  unfold streamWrite
  rw [whole]
  exact streamCommand_fails (hlen ▸ h) (by simp [hok, hsect, hact])

end

/-! REPEAT -/

/-- REPEAT writes its frames where each passes its checks over those before it. -/
theorem repeatFrames_written {d : List Byte} (hd : d.length = 128) (k n : Nat) (c : Chip) (m : Mem) (hroom : c.get .H_RS_PTR 0 + n < 2 ^ 17)
    (hpass : ∀ i, i < n → c.frameRefusal { m with rim := Memory.writeN m.rim (c.get .H_RS_PTR 0 * 128) (List.replicate i d).flatten } k
      (c.get .H_RS_PTR 0 + i) d = 0) : FramesWritten d n c m (repeatFrames k d n c m) := by
  induction n generalizing c m with
  | zero => exact .zero d c m
  | succ n ih =>
    have head : FramesWritten d 1 c m (writeFrame d c m) := writeFrame_written (by omega)
    have pass : c.frameRefusal m k (c.get .H_RS_PTR 0) d = 0 := hpass 0 (by omega)
    have run : repeatFrames k d (n + 1) c m = repeatFrames k d n (writeFrame d c m).1 (writeFrame d c m).2 := by
      rw [repeatFrames, pass]
      rfl
    rw [run]
    refine head.cons hd (ih _ _ (by rw [head.pointer]; omega) fun i hi => ?_)
    have place : (writeFrame d c m).1.get .H_RS_PTR 0 + i = c.get .H_RS_PTR 0 + (i + 1) := by rw [head.pointer, Nat.add_assoc, Nat.add_comm 1]
    rw [place, head.bytes_cons hd i]
    exact (frameRefusal_eq head.regs rfl k _ d).trans (hpass (i + 1) (by omega))

theorem streamRepeat_goes {c : Chip} {m : Mem} {k n : Nat} {x : Chip × Mem} (h : StreamReads 1 c) (hok : c.framesOk n = true)
    (hsect : c.get .H_RS_SECT 0 = k + 1) (hlast : c.get .H_RS_LAST 0 ≠ 0) (hact : repeatFrames k c.rimFrame n c m = x) (hgo : x.1.streaming = true) :
    streamRepeat n c m = (x.1.streamWords [cmdWord 6 n], x.2) :=
  streamCommand_goes (data := []) h (by simp [hok, hsect, hlast, hact]) hgo

/-! The obligation -/

/-- Settles O41: a word that this device reads is performed and counted, a stream that fails drops what it was loading, and what REPEAT writes is what WRITE would, frame by frame. -/
theorem rimStreams : Obligations.RimStreams := by
  refine ⟨fun w arg ident s => ?control, fun k data arg crc s => ?frames⟩
  case control =>
    intro words room fails
    have shown (code : Nat) (d : Chip) (t : Mem) (hd : s.chip.StreamFailed code d) : fails { s with chip := d, mem := t } code := ⟨hd.ended, hd.err, hd.code, rfl⟩
    refine ⟨fun hgo hstate hroom hout => ⟨?sync, fun hw => ?unsynced⟩,
      fun h => ⟨?nop, fun hbus harg => ?select, fun harg hmay => ?sector, fun k hsect hk harg => ?faddr⟩,
      fun h => ⟨fun hid => ?devid, fun hid => ?foreign⟩, fun hgo hbus => ?timeout⟩
    case sync =>
      have fits : Fld.clip .H_RS_STATE 2 = 2 := rfl
      have mask : Fld.clip .H_RS_MASK 0xFF = 0xFF := rfl
      have hrun := streamSync_eq s.mem hgo hstate hroom 0xA5C35A3C
      refine does_of_onStream (f := streamSync 0xA5C35A3C) rfl hout (hrun.trans (if_pos rfl)) ⟨?_, ?_, ?_, rfl, rfl⟩
      · exact (Chip.get_set_ne _ _ (by simp)).trans ((Chip.get_set_same _ _ _ _).trans fits)
      · exact (Chip.get_set_same _ _ _ _).trans mask
      · exact (((s.chip.streamWords_keeps _).widen (List.subset_append_right _ _)).set _ (by simp)).set _ (by simp)
    case unsynced =>
      have hne : w.toNat ≠ 0xA5C35A3C := fun e => hw (BitVec.eq_of_toNat_eq e)
      exact does_of_wordFail rfl hout ((streamSync_eq s.mem hgo hstate hroom w.toNat).trans (if_neg hne)) (by decide) (shown _)
    case nop =>
      show Host.Outcome.next (s.onStream (streamNop 0 0)) = _
      rw [State.onStream, State.onMem, if_neg h.outside, streamNop_eq s.mem h]
    case select =>
      have fits : Fld.clip .H_RS_MASK arg.toNat = arg.toNat := Fld.clip_lt harg
      refine does_of_onStream rfl h.outside (streamSelect_bus s.mem h hbus harg) ⟨?_, ?_, rfl, rfl⟩
      · exact (Chip.get_set_same _ _ _ _).trans fits
      · exact ((s.chip.streamWords_keeps _).widen (List.subset_cons_self _ _)).set _ (by simp)
    case sector =>
      have counted := (s.chip.sectorNamed arg.toNat).streamWords_keeps [cmdWord 3 arg.toNat]
      refine does_of_onStream rfl h.outside (streamSector_named s.mem h harg hmay)
        ⟨(Chip.streamWords_sector _ _ _).trans (s.chip.sectorNamed_state _), (Chip.streamWords_get _ _ _ (by decide)).trans (s.chip.sectorNamed_sect harg),
          (Chip.streamWords_get _ _ _ (by decide)).trans (s.chip.sectorNamed_pointer harg), (s.chip.sectorNamed_keeps _).trans counted, rfl,
          read_clearSector s.mem arg.toNat, rfl⟩
    case faddr =>
      have counted := (s.chip.set .H_RS_PTR 0 (8192 * k + arg.toNat)).streamWords_keeps [cmdWord 4 arg.toNat]
      have moved : KeepsAll s.chip (s.chip.set .H_RS_PTR 0 (8192 * k + arg.toNat)) [(.H_RS_PTR, 0)] := (KeepsAll.refl s.chip _).set _ (by simp)
      have ptr : Fld.clip .H_RS_PTR (8192 * k + arg.toNat) = 8192 * k + arg.toNat := Fld.clip_lt (show 8192 * k + arg.toNat < 2 ^ 17 by omega)
      refine does_of_onStream rfl h.outside (streamFaddr_moved s.mem h hsect harg) ⟨?_, moved.trans counted, rfl, rfl⟩
      exact (Chip.streamWords_get _ _ _ (by decide)).trans ((Chip.get_set_same _ _ _ _).trans ptr)
    case devid =>
      show Host.Outcome.next (s.onStream (streamDevid 0 [ident.toNat])) = _
      rw [State.onStream, State.onMem, if_neg h.outside, hid, streamDevid_same s.mem h]
    case foreign => exact does_of_wordFail rfl h.outside (streamDevid_other s.mem h hid) (by decide) (shown _)
    case timeout => exact does_of_streamFail rfl (loadBusTimeout_eq s.mem hgo hbus) (by decide) (shown _)
  case frames =>
    intro f d right
    refine ⟨fun hsect hk h hok hlen => ?write, fun hsect hk h hok hlast hframe hpass => ?repeated, fun hgo hstate hout hroom => ⟨fun hcrc => ?ended, fun hcrc => ?wrong⟩⟩
    case write =>
      have hwords : (data.map BitVec.toNat).length = 33 := (List.length_map _).trans hlen
      have hd : d.length = 128 := length_frameData (by omega)
      have hroom : f + 1 < 2 ^ 17 := Chip.pointer_lt_of_framesOk hsect hk hok
      refine ⟨fun hcrc hpass => ?passed, fun hcrc hrefused => ?refused, fun hcrc => ?corrupt⟩
      case passed =>
        have written : FramesWritten d 1 s.chip s.mem (writeFrame d s.chip s.mem) := writeFrame_written hroom
        have hgo : (writeFrame d s.chip s.mem).1.streaming = true := (written.regs.streaming_eq (by decide)).trans h.busy
        refine does_of_onStream (f := streamWrite 1 _) rfl h.outside (streamWrite_goes h hok hsect hwords (writeFrames_passed hwords hcrc hpass) hgo)
          ⟨(Chip.streamWords_streaming _ _).trans hgo, (Chip.streamWords_get _ _ _ (by decide)).trans written.pointer,
            (Chip.streamWords_get _ _ _ (by decide)).trans (writeFrame_last (m := s.mem) hroom), writeFrame_read hd, rfl, ?_, fun w hw => writeFrame_wordErrors hw, rfl, rfl⟩
        exact (written.refs f).trans (if_pos ⟨by omega, by omega⟩)
      case refused =>
        exact does_of_wordFail (f := streamWrite 1 _) rfl h.outside (streamWrite_fails h hok hsect hwords (writeFrames_refused hwords hcrc hrefused))
          (frameRefusal_lt _ _ _ _ _) fun e t he => ⟨he.ended, he.code⟩
      case corrupt =>
        exact does_of_wordFail (f := streamWrite 1 _) rfl h.outside (streamWrite_fails h hok hsect hwords (writeFrames_wrongCrc hwords hcrc))
          (by decide) fun e t he => ⟨he.ended, he.err, he.code⟩
    case repeated =>
      have written := repeatFrames_written hframe k arg.toNat s.chip s.mem (Chip.pointer_lt_of_framesOk hsect hk hok) hpass
      have hgo : (repeatFrames k s.chip.rimFrame arg.toNat s.chip s.mem).1.streaming = true := (written.regs.streaming_eq (by decide)).trans h.busy
      refine does_of_onStream rfl h.outside (streamRepeat_goes h hok hsect hlast rfl hgo)
        ⟨(Chip.streamWords_streaming _ _).trans hgo, (Chip.streamWords_get _ _ _ (by decide)).trans written.pointer, written.read hframe, fun i hi => ?_,
          written.rest, rfl⟩
      exact (written.refs (f + i)).trans (if_pos ⟨by omega, by omega⟩)
    case ended =>
      obtain ⟨ended, state, sectors, reset⟩ := (s.chip.streamWords [0x8000000]).streamDone_ended
      simp only [Chip.streamWords_sector] at sectors reset
      refine does_of_onStream (f := streamEnd 0 _) rfl hout (streamEnd_right s.mem hgo hstate hroom hcrc hout) ?_
      dsimp only
      exact ⟨ended, state, sectors, fun j n hj hn hload => reset j _ hj hload (by omega), rfl, rfl⟩
    case wrong =>
      refine does_of_wordFail (f := streamEnd 0 _) rfl hout (streamEnd_wrong s.mem hgo hstate hroom hcrc) (by decide) fun d t hd => ⟨hd.ended, hd.code, fun j hj => ?_⟩
      rw [← s.chip.streamWords_sector [0x8000000]]
      exact hd.sectors j hj

end Sys2Proof.Machine
end
section
/-! PROOFS. The lock of a bank and the agents' GPIO port (R268, R271, R272; O43). -/

namespace Sys2Proof.Machine

/-! Single bits replaced -/

theorem bit_eq_toNat_testBit (v n : Nat) : bit v n = (v.testBit n).toNat := (Nat.toNat_testBit v n).symm

theorem bit_mod_two (v n : Nat) : bit v n % 2 = bit v n := Nat.mod_mod _ _

/-- Replacing bit `n` changes no other bit. -/
theorem bit_setBits (v n x i : Nat) : bit (setBits v n n x) i = if i = n then x % 2 else bit v i := by
  have parts : setBits v n n x = 2 ^ n * (2 ^ 1 * (v / 2 ^ (n + 1)) + x % 2 ^ 1) + v % 2 ^ n := by
    rw [setBits, Nat.add_sub_cancel_left, pow_succ]
    ring
  rw [parts, bit_eq_toNat_testBit, Nat.testBit_two_pow_mul_add _ (Nat.mod_lt _ (by positivity)),
    Nat.testBit_two_pow_mul_add _ (Nat.mod_lt _ (by decide))]
  rcases lt_trichotomy i n with below | rfl | above
  · rw [if_pos below, if_neg below.ne, Nat.testBit_mod_two_pow, bit_eq_toNat_testBit]
    simp [below]
  · simpa using Nat.toNat_testBit (x % 2) 0
  · rw [if_neg (by omega), if_neg (by omega), if_neg above.ne', Nat.testBit_div_two_pow, bit_eq_toNat_testBit]
    congr 2
    omega

/-- Bits of `x` taken over from `v`, one for each member of a list that `p` admits. -/
theorem bit_foldl_setBits (p : Nat → Bool) (v : Nat) (l : List Nat) (x i : Nat) :
    bit (l.foldl (fun x j => if p j then setBits x j j (bit v j) else x) x) i = if i ∈ l ∧ p i = true then bit v i else bit x i := by
  induction l generalizing x with
  | nil => simp
  | cons j l ih =>
    have step : bit (if p j then setBits x j j (bit v j) else x) i = if i = j ∧ p i = true then bit v i else bit x i := by
      by_cases hp : p j = true
      · rw [if_pos hp, bit_setBits]
        by_cases hi : i = j
        · subst hi
          simp [hp, bit_mod_two]
        · simp [hi]
      · rw [if_neg hp, if_neg (by rintro ⟨rfl, hi⟩; exact hp hi)]
    rw [List.foldl_cons, ih, step]
    by_cases hp : p i = true <;> by_cases hl : i ∈ l <;> simp [hp, hl]

/-- A field of 16 bits holds the low 16 bits of what is written to it. -/
theorem bit_clip_half {f : Fld} {i : Nat} (hf : f.width = 16) (hi : i < 16) (v : Nat) : bit (f.clip v) i = bit v i := by
  rw [Fld.clip_of_width_eq hf (by decide), bit_eq_toNat_testBit, Nat.testBit_mod_two_pow, bit_eq_toNat_testBit]
  simp [hi]

/-- Bit `i` of the MASK field of a written word. -/
theorem bitB_mask {i : Nat} (hi : i < 16) (v : Nat) : bitB (bits v 31 16) i = bitB v (16 + i) := by
  rw [bitB_eq_testBit, bitB_eq_testBit, show bits v 31 16 = v / 2 ^ 16 % 2 ^ 16 from rfl, Nat.testBit_mod_two_pow, Nat.testBit_div_two_pow, Nat.add_comm i]
  simp [hi]

/-! The lock of a bank -/

section
variable {c : Chip} {b key : Nat}

/-- The second key after the first locks the bank. -/
theorem Chip.iobLock_second (h : key = 0x5A ∧ c.on .H_LOCK_SEQ b = true) : c.iobLock b key = (c.set .H_LOCK_SEQ b 0).set .IOB_BANK_CFG_LOCKED b 1 := by
  obtain ⟨rfl, hseq⟩ := h
  simp [Chip.iobLock, hseq]

/-- Any other write begins the sequence or drops it. -/
theorem Chip.iobLock_other (h : ¬(key = 0x5A ∧ c.on .H_LOCK_SEQ b = true)) : c.iobLock b key = c.set .H_LOCK_SEQ b (b2n (key = 0xA5)) := by
  unfold Chip.iobLock
  by_cases hfirst : key = 0xA5
  · simp [hfirst, b2n]
  · rw [if_neg hfirst, if_neg (by simpa using h)]
    simp [hfirst, b2n]

variable (c b key)

theorem Chip.iobLock_locked :
    (c.iobLock b key).get .IOB_BANK_CFG_LOCKED b = if key = 0x5A ∧ c.on .H_LOCK_SEQ b = true then 1 else c.get .IOB_BANK_CFG_LOCKED b := by
  split
  next h => rw [Chip.iobLock_second h]; exact Chip.get_set_same _ _ _ _
  next h => rw [Chip.iobLock_other h, Chip.get_set_ne _ _ (by simp)]

theorem Chip.iobLock_seq : (c.iobLock b key).get .H_LOCK_SEQ b = b2n (key = 0xA5) := by
  by_cases h : key = 0x5A ∧ c.on .H_LOCK_SEQ b = true
  · rw [Chip.iobLock_second h, Chip.get_set_ne _ _ (by simp), Chip.get_set_same, h.1]
    rfl
  · have fits : Fld.H_LOCK_SEQ.clip (b2n (key = 0xA5)) = b2n (key = 0xA5) := by cases decide (key = 0xA5) <;> rfl
    rw [Chip.iobLock_other h, Chip.get_set_same, fits]

theorem Chip.iobLock_keepsAll : KeepsAll c (c.iobLock b key) [(.IOB_BANK_CFG_LOCKED, b), (.H_LOCK_SEQ, b)] := by
  by_cases h : key = 0x5A ∧ c.on .H_LOCK_SEQ b = true
  · rw [Chip.iobLock_second h]
    exact ((KeepsAll.refl c _).set _ (by simp)).set _ (by simp)
  · rw [Chip.iobLock_other h]
    exact (KeepsAll.refl c _).set _ (by simp)

end

/-! The agents' GPIO port -/

/-- The data fields of the port have 16 bits. -/
theorem AgpReg.place_width (r : AgpReg) : r.place.1.width = 16 := by cases r <;> rfl

theorem AgpReg.place_ne {f : Fld} (h : f.width ≠ 16) (r : AgpReg) : r.place.1 ≠ f := fun e => h (e ▸ r.place_width)

section
variable (c : Chip) (k b base v : Nat)

/-- What the data field `f` of bank `b` holds after core `k` has written `v`. -/
def Chip.agpValue (f : Fld) : Nat :=
  (List.range 16).foldl (fun x i =>
    if bitB (bits v 31 16) i && c.agpCounts (b * 32 + base + i) && c.agpOwns k (b * 32 + base + i) then setBits x i i (bit v i) else x) (c.get f b)

/-- The location of a denied bit `i`, kept where one stands already. -/
def Chip.agpLocated (i : Nat) : Chip :=
  if c.on .AGP_DENY_LOC_VALID 0 then c
  else ((((c.set .AGP_DENY_LOC_VALID 0 1).set .AGP_DENY_LOC_CORE 0 (k - 4)).set .AGP_DENY_LOC_BANK 0 b).set .AGP_DENY_LOC_PIN 0 (base + i)).raise 239

/-- A write whose first denied bit, if there is one, is `denied` has been counted and located. -/
def Chip.agpRecorded (denied : Option Nat) : Chip :=
  match denied with
  | none => c
  | some i => (c.count .AGP_DENY_CNT_COUNT 0 1).agpLocated k b base i

theorem Chip.agpWrite_eq (r : AgpReg) : c.agpWrite k b r v =
    (c.agpRecorded k b r.place.2 (c.agpDenied k b r.place.2 (bits v 31 16))).set r.place.1 b (c.agpValue k b r.place.2 v r.place.1) := rfl

/-- What the record of a denied bit may write. -/
def agpDenyFields : List (Fld × Nat) :=
  [(.AGP_DENY_CNT_COUNT, 0), (.AGP_DENY_LOC_VALID, 0), (.AGP_DENY_LOC_CORE, 0), (.AGP_DENY_LOC_BANK, 0), (.AGP_DENY_LOC_PIN, 0)]

theorem Chip.agpLocated_count (i : Nat) : (c.agpLocated k b base i).get .AGP_DENY_CNT_COUNT 0 = c.get .AGP_DENY_CNT_COUNT 0 := by
  unfold Chip.agpLocated
  split
  · rfl
  · rw [Chip.raise_get _ _ _ _ rfl]
    simp [Chip.get_set]

theorem Chip.agpRecorded_count (denied : Option Nat) : (c.agpRecorded k b base denied).get .AGP_DENY_CNT_COUNT 0 =
    if denied.isSome then satAdd (2 ^ 32 - 1) (c.get .AGP_DENY_CNT_COUNT 0) 1 else c.get .AGP_DENY_CNT_COUNT 0 := by
  cases denied with
  | none => rfl
  | some i => exact (Chip.agpLocated_count _ k b base i).trans (c.count_get_same 0 1 rfl)

theorem Chip.agpRecorded_keeps (denied : Option Nat) : Keeps c (c.agpRecorded k b base denied) agpDenyFields := by
  cases denied with
  | none => exact .refl c _
  | some i =>
    have counted : Keeps c (c.count .AGP_DENY_CNT_COUNT 0 1) agpDenyFields := (Keeps.refl c _).set _ (by simp [agpDenyFields])
    show Keeps c (Chip.agpLocated _ k b base i) _
    unfold Chip.agpLocated
    split
    · exact counted
    · exact ((((counted.set _ (by simp [agpDenyFields])).set _ (by simp [agpDenyFields])).set _ (by simp [agpDenyFields])).set _
        (by simp [agpDenyFields])).quiet (Chip.raise_quiet _ _)

/-- Some bit is denied exactly if a masked bit that counts is another core's. -/
theorem Chip.agpDenied_isSome : (c.agpDenied k b base (bits v 31 16)).isSome = true ↔
    ∃ i, i < 16 ∧ (bitB v (16 + i) && c.agpCounts (b * 32 + base + i)) = true ∧ c.get .IOB_PIN_CFG_AGENT (b * 32 + base + i) + 4 ≠ k := by
  rw [Chip.agpDenied, List.find?_isSome]
  refine exists_congr fun i => ?_
  rw [List.mem_range]
  refine and_congr_right fun hi => ?_
  rw [bitB_mask hi]
  simp [Chip.agpOwns]

/-- A masked bit that counts is written where core `k` owns its pin. -/
theorem Chip.agpValue_bit (f : Fld) {i : Nat} (hi : i < 16) : bit (c.agpValue k b base v f) i =
    if (bitB v (16 + i) && c.agpCounts (b * 32 + base + i)) = true ∧ c.get .IOB_PIN_CFG_AGENT (b * 32 + base + i) + 4 = k
    then bit v i else bit (c.get f b) i := by
  rw [Chip.agpValue, bit_foldl_setBits (fun i => bitB (bits v 31 16) i && c.agpCounts (b * 32 + base + i) && c.agpOwns k (b * 32 + base + i)), bitB_mask hi]
  simp [hi, Chip.agpOwns]

variable (r : AgpReg)

theorem Chip.agpWrite_bit {i : Nat} (hi : i < 16) : bit ((c.agpWrite k b r v).get r.place.1 b) i =
    if (bitB v (16 + i) && c.agpCounts (b * 32 + r.place.2 + i)) = true ∧ c.get .IOB_PIN_CFG_AGENT (b * 32 + r.place.2 + i) + 4 = k
    then bit v i else bit (c.get r.place.1 b) i := by
  rw [Chip.agpWrite_eq, Chip.get_set_same, bit_clip_half r.place_width hi]
  exact c.agpValue_bit k b r.place.2 v r.place.1 hi

theorem Chip.agpWrite_count : (c.agpWrite k b r v).get .AGP_DENY_CNT_COUNT 0 =
    if ∃ i, i < 16 ∧ (bitB v (16 + i) && c.agpCounts (b * 32 + r.place.2 + i)) = true ∧ c.get .IOB_PIN_CFG_AGENT (b * 32 + r.place.2 + i) + 4 ≠ k
    then satAdd (2 ^ 32 - 1) (c.get .AGP_DENY_CNT_COUNT 0) 1 else c.get .AGP_DENY_CNT_COUNT 0 := by
  rw [Chip.agpWrite_eq, Chip.get_set_ne _ _ fun h => r.place_ne (by decide) h.1.symm, Chip.agpRecorded_count]
  exact if_congr (c.agpDenied_isSome k b r.place.2 v) rfl rfl

theorem Chip.agpWrite_keeps : Keeps c (c.agpWrite k b r v) ((r.place.1, b) :: agpDenyFields) := by
  have recorded := c.agpRecorded_keeps k b r.place.2 (c.agpDenied k b r.place.2 (bits v 31 16))
  rw [Chip.agpWrite_eq]
  exact Keeps.set (fun g j hs hg => recorded g j hs fun h => hg (List.mem_cons_of_mem _ h)) _ List.mem_cons_self

end

/-! The obligation -/

/-- Settles O43: the key decides what becomes of the lock and its sequence; an agent's write takes over the bits that it owns, and its first denied bit is recorded. -/
theorem bankLockAndAgentGpio : Obligations.BankLockAndAgentGpio := by
  intro who b key k reg v s₀
  refine ⟨fun hmay => ?lock, fun hcore => ?gpio⟩
  case lock =>
    let c : Chip := (s₀.seen who).chip.answer .ok
    have hfirst : key.toNat = 0xA5 ↔ key = 0xA5 := BitVec.toNat_inj (y := 0xA5)
    have hsecond : key.toNat = 0x5A ↔ key = 0x5A := BitVec.toNat_inj (y := 0x5A)
    refine does_of_byRegister (act := fun c => c.iobLock b key.toNat) rfl hmay ⟨?_, ?_, c.iobLock_keepsAll b key.toNat, rfl, rfl⟩
    · exact (c.iobLock_locked b key.toNat).trans (if_congr (and_congr_left' hsecond) rfl rfl)
    · exact (c.iobLock_seq b key.toNat).trans (congrArg b2n (decide_eq_decide.mpr hfirst))
  case gpio =>
    have hmay : (s₀.seen (.core k false)).chip.regMay (.core k false) ⟨.agp, 0, b.val * 0x20 + gpioOffset reg⟩ true = true := by
      simp [Chip.regMay, Chip.coreMay, hcore]
    refine does_of_byRegister (act := fun c => c.agpWrite k b (gpioReg reg) v.toNat) rfl hmay ?_
    -- What led the core there plays no part; kept in sight, it would be evaluated where the two sides differ in the answer alone.
    generalize s₀.seen (.core k false) = s
    let c : Chip := s.chip.answer .ok
    exact ⟨fun i hi => c.agpWrite_bit k b v.toNat (gpioReg reg) hi, c.agpWrite_count k b v.toNat (gpioReg reg),
      c.agpWrite_keeps k b v.toNat (gpioReg reg), rfl, rfl⟩

end Sys2Proof.Machine
end
section
/-! PROOFS. How transactions in flight end: responses, stale generations, timeouts, and the failure of a die link (R300, R312, R314, R401; O34). -/

namespace Sys2Proof.Machine

/-! The next state of a command, from what it does to its layers -/

theorem State.onArr_eq {s : State} {f : Chip → Arr → Chip × Arr} {c : Chip} {a : Arr} (h : f s.chip s.arr = (c, a)) : s.onArr f = { s with chip := c, arr := a } := by
  unfold State.onArr
  rw [h]

theorem State.onAll_eq {s : State} {f : Chip → Arr → Mem → All} {c : Chip} {a : Arr} {m : Mem} (h : f s.chip s.arr s.mem = (c, a, m)) :
    s.onAll f = { s with chip := c, arr := a, mem := m } := by
  unfold State.onAll
  rw [h]

/-! The end of a DMA transaction -/

section
variable {c : Chip} {x : Txn} {y : DmaItem} (hlive : x.live = true) (hitem : c.dmaItem x.chan = some y)
include hlive hitem

theorem Chip.dmaEnd_of_ok (hstatus : y.status = 0) {data : List Byte} (hdata : data ≠ []) : c.dmaEnd x 0 data =
    { c with
      txns := c.txns.erase x
      dma := c.dma.map fun z => if z.chan = y.chan then { y with done := y.done + x.bytes } else z
      host := ⟨x.chan / 8, x.hostAddr, data⟩ :: c.host } := by
  have hitem' : ({ c with txns := c.txns.erase x } : Chip).dmaItem x.chan = some y := hitem
  simp [Chip.dmaEnd, hlive, hitem', hstatus, hdata, Chip.putItem]

theorem Chip.dmaEnd_of_failed {status : Nat} (hstatus : status ≠ 0) : c.dmaEnd x status [] =
    { c with
      txns := c.txns.erase x
      dma := c.dma.map fun z => if z.chan = y.chan then { y with status := dmaJoin y.status status, stopped := true } else z } := by
  have hitem' : ({ c with txns := c.txns.erase x } : Chip).dmaItem x.chan = some y := hitem
  simp [Chip.dmaEnd, hlive, hitem', hstatus, Chip.putItem]

theorem Chip.dmaEnd_get_of_failed {status : Nat} (hstatus : status ≠ 0) (f : Fld) (i : Nat) : (c.dmaEnd x status []).get f i = c.get f i := by
  rw [Chip.dmaEnd_of_failed hlive hitem hstatus]
  rfl

end

/-! Responses -/

section
variable {g gen : Nat} {c : Chip} (a : Arr)

theorem txnComplete_of_stale (hgen : c.get .H_TAG_GEN g ≠ gen) : txnComplete g gen 0 c a = (c.count .NOC_LATE_CNT_COUNT 0 1, a) := if_pos hgen.symm

theorem txnComplete_of_found {x : Txn} (hgen : c.get .H_TAG_GEN g = gen) (hfind : c.txns.find? (fun t => t.tag = g) = some x)
    (hlink : c.cutOff routerHub x.target = false) : txnComplete g gen 0 c a = (c.dmaEnd x x.status x.data, a) := by
  simp [txnComplete, hgen, hfind, hlink]

end

/-! Timeouts -/

/-- The registers once a timeout of tag `g` is counted and its generation has advanced. -/
def Chip.timeoutCounted (c : Chip) (g : Nat) : Chip := (c.bump .H_TAG_GEN g).count .NOC_TIMEOUT_CNT_COUNT 0 1

/-- The registers once a timeout of tag `g` is located as well. -/
def Chip.timeoutLocated (c : Chip) (g source target : Nat) : Chip :=
  (((c.set .NOC_ERR_LOC_VALID 0 1).set .NOC_ERR_LOC_TAG 0 g).set .NOC_ERR_LOC_TARGET 0 target).set .NOC_ERR_LOC_SOURCE 0 source

/-- Where a timeout is located. -/
def timeoutLocFields : List Fld := [.NOC_ERR_LOC_VALID, .NOC_ERR_LOC_TAG, .NOC_ERR_LOC_TARGET, .NOC_ERR_LOC_SOURCE]

section
variable {c : Chip} (g source target : Nat)

theorem Chip.timeoutCounted_on_valid : (c.timeoutCounted g).on .NOC_ERR_LOC_VALID 0 = c.on .NOC_ERR_LOC_VALID 0 := by
  rw [Chip.on, Chip.timeoutCounted, Chip.count, Chip.bump, Chip.get_set_ne _ _ (by simp), Chip.get_set_ne _ _ (by simp)]
  rfl

theorem Chip.netTimedOut_of_located (h : c.on .NOC_ERR_LOC_VALID 0 = true) : c.netTimedOut g source target = c.timeoutCounted g :=
  if_pos ((c.timeoutCounted_on_valid g).trans h)

theorem Chip.netTimedOut_of_first (h : c.on .NOC_ERR_LOC_VALID 0 = false) :
    c.netTimedOut g source target = ((c.timeoutCounted g).timeoutLocated g source target).raise 246 :=
  if_neg (Bool.eq_false_iff.mp ((c.timeoutCounted_on_valid g).trans h))

variable (c)

theorem Chip.timeoutLocated_only : Chip.Only timeoutLocFields c (c.timeoutLocated g source target) :=
  Chip.Only.set (Chip.Only.set (Chip.Only.set (Chip.Only.set (.refl c) _ (by decide)) _ (by decide)) _ (by decide)) _ (by decide)

theorem Chip.timeoutLocated_valid : (c.timeoutLocated g source target).get .NOC_ERR_LOC_VALID 0 = 1 := by
  rw [Chip.timeoutLocated, Chip.get_set_ne _ _ (by simp), Chip.get_set_ne _ _ (by simp), Chip.get_set_ne _ _ (by simp), Chip.get_set_same]
  rfl

theorem Chip.netTimedOut_rest : Chip.Only timeoutLocFields (c.timeoutCounted g) (c.netTimedOut g source target) := by
  cases h : c.on .NOC_ERR_LOC_VALID 0 with
  | true =>
    rw [Chip.netTimedOut_of_located g source target h]
    exact .refl _
  | false =>
    rw [Chip.netTimedOut_of_first g source target h]
    exact (Chip.timeoutLocated_only _ g source target).trans (Chip.Only.of_quiet (Chip.raise_quiet _ 246))

theorem Chip.netTimedOut_generation : (c.netTimedOut g source target).get .H_TAG_GEN g = (c.get .H_TAG_GEN g + 1) % 16 :=
  ((c.netTimedOut_rest g source target).get g rfl (by decide)).trans ((Chip.get_set_ne _ _ (by simp)).trans (Chip.get_set_same _ _ _ _))

theorem Chip.netTimedOut_count :
    (c.netTimedOut g source target).get .NOC_TIMEOUT_CNT_COUNT 0 = satAdd (2 ^ 32 - 1) (c.get .NOC_TIMEOUT_CNT_COUNT 0) 1 := by
  rw [(c.netTimedOut_rest g source target).get 0 rfl (by decide), Chip.timeoutCounted, Chip.count_get_same _ _ _ rfl, Chip.bump, Chip.get_set_ne _ _ (by simp)]

theorem Chip.netTimedOut_valid : (c.netTimedOut g source target).get .NOC_ERR_LOC_VALID 0 ≠ 0 := by
  cases h : c.on .NOC_ERR_LOC_VALID 0 with
  | true =>
    rw [Chip.netTimedOut_of_located g source target h]
    simpa [Chip.on] using (c.timeoutCounted_on_valid g).trans h
  | false =>
    rw [Chip.netTimedOut_of_first g source target h, Chip.raise_get _ _ _ _ rfl, Chip.timeoutLocated_valid]
    exact Nat.one_ne_zero

variable {c g} in
/-- The first timeout is located by its tag. -/
theorem Chip.netTimedOut_tag (h : c.get .NOC_ERR_LOC_VALID 0 = 0) (hg : g < 2 ^ 16) : (c.netTimedOut g source target).get .NOC_ERR_LOC_TAG 0 = g := by
  rw [Chip.netTimedOut_of_first g source target (by simpa [Chip.on] using h), Chip.raise_get _ _ _ _ rfl]
  simp [Chip.timeoutLocated, Chip.get_set, Fld.clip_lt (f := .NOC_ERR_LOC_TAG) hg]

theorem Chip.netTimedOut_queues : (c.netTimedOut g source target).txns = c.txns ∧ (c.netTimedOut g source target).dma = c.dma ∧
    (c.netTimedOut g source target).calls = c.calls ∧ (c.netTimedOut g source target).waiting = c.waiting := by
  cases h : c.on .NOC_ERR_LOC_VALID 0 with
  | true =>
    rw [Chip.netTimedOut_of_located g source target h]
    simp [Chip.timeoutCounted, Chip.count, Chip.bump]
  | false =>
    have raised := Chip.raise_quiet ((c.timeoutCounted g).timeoutLocated g source target) 246
    rw [Chip.netTimedOut_of_first g source target h, raised.txns, raised.dma, raised.calls, raised.waiting]
    simp [Chip.timeoutLocated, Chip.timeoutCounted, Chip.count, Chip.bump]

end

section
variable {g : Nat} {c : Chip} (a : Arr) (m : Mem)

/-- The timeout of a tag that no host and no core holds is that of a DMA transaction. -/
theorem netTimeoutAny_of_txn {x : Txn} (hcalls : ∀ k ∈ c.calls, k.tag ≠ g) (hfind : c.txns.find? (fun t => t.tag = g) = some x)
    (hexpired : c.netExpired x.since = true) : netTimeoutAny g c a m = ((c.netTimedOut g routerHub x.target).dmaEnd x dmaTimeout [], a, m) := by
  have hnone : c.calls.find? (fun k => k.tag = g) = none := List.find?_eq_none.mpr fun k hk => by simpa using hcalls k hk
  simp [netTimeoutAny, netTimeout, hnone, hfind, hexpired]

variable {k : Call} (hfind : c.calls.find? (fun z => z.tag = g) = some k)
include hfind

theorem netTimeoutAny_of_early (hearly : c.callExpired k = false) : netTimeoutAny g c a m = (c, a, m) := by
  simp [netTimeoutAny, hfind, hearly]

/-- With nothing waiting for its tag, the end of a call is all that its timeout does. -/
theorem netTimeoutAny_of_call (hexpired : c.callExpired k = true) (hwaiting : (c.callFails k).waiting = []) :
    netTimeoutAny g c a m = ({ c.callFails k with waiting := [] }, a, m) := by
  simp [netTimeoutAny, hfind, hexpired, resume, hwaiting]

end

section
variable {c : Chip} {k : Call} {who : Init} {n : Nat} {paced : Bool} (hkind : k.kind = .access who false n paced)
include hkind

/-- A write waits as long as NOC_TIMEOUT says, whoever makes it. -/
theorem Chip.callExpired_of_write : c.callExpired k = c.netExpired k.since := by
  cases who <;> simp [Chip.callExpired, hkind]

theorem Chip.callFails_of_write (hlive : k.live = true) :
    c.callFails k = (({ c with calls := c.calls.erase k } : Chip).netTimedOut k.tag routerHub k.target).answer .netTimeout := by
  simp [Chip.callFails, hlive, hkind, ofBytes]

/-- What the timeout of a write leaves: its initiator has its answer. -/
theorem Chip.callFails_write (hlive : k.live = true) :
    (c.callFails k).resp = ⟨.netTimeout, 0, []⟩ ∧ (c.callFails k).calls = c.calls.erase k ∧ (c.callFails k).waiting = c.waiting ∧
    (c.callFails k).get .H_TAG_GEN k.tag = (c.get .H_TAG_GEN k.tag + 1) % 16 ∧
    (c.callFails k).get .NOC_TIMEOUT_CNT_COUNT 0 = satAdd (2 ^ 32 - 1) (c.get .NOC_TIMEOUT_CNT_COUNT 0) 1 := by
  obtain ⟨-, -, hcalls, hwaiting⟩ := ({ c with calls := c.calls.erase k } : Chip).netTimedOut_queues k.tag routerHub k.target
  simp only [Chip.callFails_of_write hkind hlive, Chip.answer_resp, Chip.answer_calls, Chip.answer_waiting, Chip.answer_get]
  exact ⟨trivial, hcalls, hwaiting, Chip.netTimedOut_generation _ _ _ _, Chip.netTimedOut_count _ _ _ _⟩

end

/-! The failure of a die link -/

/-- FLT_SRC.LINK is set whenever FAULT_N is moved while a die link has failed (R406). -/
theorem Chip.faultN_link {c : Chip} {d : Nat} (hd : d < 4) (h : c.get .H_LINK_FAIL d = 1) : c.faultN.get .FLT_SRC_LINK 0 = 1 := by
  have hany : (List.range 4).any (fun d => c.on .H_LINK_FAIL d) = true :=
    List.any_eq_true.mpr ⟨d, List.mem_range.mpr hd, by simp [Chip.on, h]⟩
  have causes : c.fltCauses.get .FLT_SRC_LINK 0 = 1 := by
    have mem : Chip.SameField .FLT_SRC_LINK (c.set .FLT_SRC_LINK 0 1) c.fltCauses := by
      unfold Chip.fltCauses
      rw [if_pos hany]
      exact .cond (.set (.refl _) 0 1 (by decide)) (.refl _)
    exact (mem.get 0).trans (Chip.get_set_same _ _ _ _)
  have pin : Chip.SameField .FLT_SRC_LINK c.fltCauses c.faultN :=
    .cond (.cond (.refl _) ((Chip.SameField.set (.refl _) 0 1 (by decide)).trans (Chip.raise_sameField (by decide) _ 255))) (.set (.refl _) 0 0 (by decide))
  exact (pin.get 0).trans causes

/-- What a partition reset gives a value. -/
def resetFields : List Fld := stopFields ++ pumpFields ++ pumpQueueFields ++ partResetFields ++ [.PMP_STATUS_STATE, .H_PRIMING]

theorem Chip.resetPriming_fields (c : Chip) (p : Nat) : Chip.Only resetFields c (c.resetPriming p) := by
  have dropped : Chip.Only resetFields c (c.dropRepairs p) := ⟨fun _ _ _ => rfl, rfl, rfl, rfl⟩
  have pump : Chip.Only resetFields (c.dropRepairs p) ((c.dropRepairs p).pumpReset p) := (Chip.pumpReset_only _ p).widen fun f hf => by
    simp only [resetFields, List.mem_append] at hf ⊢
    tauto
  have reset : Chip.Only resetFields ((c.dropRepairs p).pumpReset p) (c.partReset p) := (c.partReset_only p).widen fun f hf => by
    simp only [resetFields, List.mem_append]
    tauto
  exact ((dropped.trans pump).trans reset).trans ((c.resetPriming_only p).widen (List.subset_append_right _ _))

/-- A partition reset moves no other pump. -/
theorem Chip.resetPriming_state_ne (c : Chip) {p q : Nat} (h : q ≠ p) : (c.resetPriming p).pumpState q = c.pumpState q := by
  unfold Chip.pumpState Chip.resetPriming
  rw [Chip.get_set_ne _ _ (by simp), Chip.get_set_ne _ _ (by simp [h]), (c.partReset_only p).get q rfl (by decide),
    (Chip.pumpReset_rest _ p).get q rfl (by decide), Chip.get_unsetAll, if_neg (by simp [h]), Chip.get_unsetAll, if_neg (by simp [h])]
  rfl

/-- What the failure of the link of die `d` does to a partition: it is logged, and the partition reset. -/
def linkReset (d : Nat) (x : Chip × Arr) (p : Nat) : Chip × Arr := partitionResetIf p (x.1.logFault fltLinkFail p d) x.2

section
variable (d : Nat) (x : Chip × Arr) (p : Nat)

theorem linkReset_only : Chip.Only resetFields x.1 (linkReset d x p).1 := by
  have logged : Chip.Only resetFields x.1 (x.1.logFault fltLinkFail p d) := Chip.Only.of_quiet (Chip.logFault_quiet _ _ _ _)
  unfold linkReset partitionResetIf
  simp only
  split
  · exact logged
  · exact (logged.trans (Chip.resetPriming_fields _ p)).trans (Chip.faultN_only _ _)

theorem linkReset_stores : (linkReset d x p).2.istore = x.2.istore ∧ (linkReset d x p).2.sched = x.2.sched := by
  unfold linkReset partitionResetIf
  simp only
  split
  · exact ⟨rfl, rfl⟩
  · rw [partitionReset_eq]
    exact ⟨primeArr_istore _ _ _, primeArr_sched _ _ _⟩

variable {p x} in
/-- A partition that exists is then LOADING, unless it is EMPTY; the others stay as they are. -/
theorem linkReset_state (hactive : x.1.on .PTN_CFG_ACTIVE p = true) (q : Nat) :
    (linkReset d x p).1.pumpState q = if q = p ∧ x.1.pumpState q ≠ psEmpty then psLoading else x.1.pumpState q := by
  have logged : Chip.Only [] x.1 (x.1.logFault fltLinkFail p d) := Chip.Only.of_quiet (Chip.logFault_quiet _ _ _ _)
  have hactive' : (x.1.logFault fltLinkFail p d).on .PTN_CFG_ACTIVE p = true := by
    rw [Chip.on, logged.get p rfl (by simp)]
    exact hactive
  have hstate := logged.pumpState_eq (by simp)
  unfold linkReset partitionResetIf
  simp only [hactive', hstate, Bool.not_true, Bool.false_eq_true, false_or]
  split
  · next hleft =>
    rw [hstate]
    split
    · next h => exact hleft.resolve_left (h.1 ▸ h.2) ▸ h.1 ▸ rfl
    · rfl
  · next hmoved =>
    rw [partitionReset_eq]
    simp only
    rw [(Chip.faultN_only [] _).pumpState_eq (by simp)]
    by_cases hq : q = p
    · subst hq
      rw [Chip.resetPriming_state, if_pos ⟨rfl, fun h => hmoved (.inl h)⟩]
    · rw [Chip.resetPriming_state_ne _ hq, hstate, if_neg (fun h => hq h.1)]

end

section
variable (d : Nat) (ps : List Nat) (x : Chip × Arr)

theorem linkResets_only : Chip.Only resetFields x.1 (ps.foldl (linkReset d) x).1 :=
  Chip.Spares.foldOn Prod.fst _ ps x fun p _ z => linkReset_only d z p

theorem linkResets_stores : (ps.foldl (linkReset d) x).2.istore = x.2.istore ∧ (ps.foldl (linkReset d) x).2.sched = x.2.sched := by
  induction ps generalizing x with
  | nil => exact ⟨rfl, rfl⟩
  | cons p ps ih =>
    obtain ⟨histore, hsched⟩ := linkReset_stores d x p
    exact ⟨(ih _).1.trans histore, (ih _).2.trans hsched⟩

variable {ps x} in
theorem linkResets_state (hactive : ∀ p ∈ ps, x.1.on .PTN_CFG_ACTIVE p = true) (q : Nat) :
    (ps.foldl (linkReset d) x).1.pumpState q = if q ∈ ps ∧ x.1.pumpState q ≠ psEmpty then psLoading else x.1.pumpState q := by
  induction ps generalizing x with
  | nil => simp
  | cons p ps ih =>
    have kept : ∀ r ∈ ps, (linkReset d x p).1.on .PTN_CFG_ACTIVE r = true := fun r hr => by
      rw [Chip.on, (linkReset_only d x p).get r rfl (by decide)]
      exact hactive r (List.mem_cons_of_mem _ hr)
    rw [List.foldl_cons, ih kept, linkReset_state d (hactive p List.mem_cons_self)]
    have hdiffer : psLoading ≠ psEmpty := by decide
    by_cases hq : q = p <;> by_cases he : x.1.pumpState q = psEmpty <;> simp_all

end

/-- The registers once the failure of die `d`'s link is marked and its retries are counted. -/
def Chip.linkMarked (c : Chip) (d : Nat) : Chip := ((c.set .H_LINK_FAIL d 1).set .FLT_SRC_LINK 0 1).count .FLT_CNT_COUNT 6 8

theorem Chip.linkMarked_only (c : Chip) (d : Nat) : Chip.Only [.H_LINK_FAIL, .FLT_CNT_COUNT] c (c.linkMarked d) :=
  Chip.Only.set ((Chip.Only.set (.refl c) 1 (by simp)).trans (Chip.Only.of_quiet (Chip.Quiet.put 0 1 rfl))) _ (by simp)

theorem Chip.linkMarked_failed (c : Chip) (d : Nat) : (c.linkMarked d).get .H_LINK_FAIL d = 1 :=
  (Chip.get_set_ne _ _ (by simp)).trans ((Chip.get_set_ne _ _ (by simp)).trans (Chip.get_set_same _ _ _ _))

theorem Chip.linkMarked_parts (c : Chip) (d : Nat) : (c.linkMarked d).partsOnDie d = c.partsOnDie d := by
  unfold Chip.partsOnDie
  simp only [((c.linkMarked_only d).owning (by decide)).ownsBand_eq]

theorem linkFail_eq {d : Nat} {c : Chip} (hd : d < c.dies) (hgood : c.on .H_LINK_FAIL d = false) (a : Arr) : linkFail d c a =
    (((c.partsOnDie d).foldl (linkReset d) (c.linkMarked d, a)).1.faultN, ((c.partsOnDie d).foldl (linkReset d) (c.linkMarked d, a)).2) := by
  have hrun : ¬(c.dies ≤ d ∨ c.on .H_LINK_FAIL d = true) := by simp [hgood, hd]
  rw [← c.linkMarked_parts d]
  exact if_neg hrun

/-- A partition that owns a band of a die exists. -/
theorem Chip.active_of_partsOnDie {c : Chip} {d p : Nat} (h : p ∈ c.partsOnDie d) : c.on .PTN_CFG_ACTIVE p = true := by
  simp only [Chip.partsOnDie, List.mem_filter, List.any_eq_true, Chip.ownsBand, Bool.and_eq_true] at h
  obtain ⟨-, -, -, ⟨⟨hactive, -⟩, -⟩⟩ := h
  exact hactive

/-! The obligation -/

/-- Settles O34: who holds the tag decides whose transaction its response or its timeout ends, and a failed link resets each partition of its die once. -/
theorem transactionsEnd : Obligations.TransactionsEnd := by
  intro tag gen die s x y
  refine ⟨fun hfind hlive hitem => ⟨fun hgen hlink hok hstatus hdata => ?response, fun hexpired hcalls => ?txn⟩, fun hgen => ?stale,
    fun k who n paced hfind hlive hkind hwaiting => ⟨fun hexpired => ?call, fun hearly => ?early⟩, fun hdie hgood => ?link⟩
  case response =>
    have ends := (txnComplete_of_found s.arr hgen hfind hlink).trans (by rw [hok, Chip.dmaEnd_of_ok hlive hitem hstatus hdata])
    exact congrArg Host.Outcome.next (State.onArr_eq ends)
  case txn =>
    obtain ⟨htxns, hdma, -, -⟩ := s.chip.netTimedOut_queues tag.toNat routerHub x.target
    have hitem' : (s.chip.netTimedOut tag.toNat routerHub x.target).dmaItem x.chan = some y := by
      rw [Chip.dmaItem, hdma]
      exact hitem
    have fields := Chip.dmaEnd_get_of_failed (status := dmaTimeout) hlive hitem' (by decide)
    have ends := Chip.dmaEnd_of_failed (status := dmaTimeout) hlive hitem' (by decide)
    refine ⟨_, congrArg Host.Outcome.next (State.onAll_eq (netTimeoutAny_of_txn s.arr s.mem hcalls hfind hexpired)), ?_, ?_, ?_, ?_, fun hfirst => ?_, ?_, rfl, rfl⟩
    · exact (congrArg Chip.txns ends).trans (congrArg (List.erase · x) htxns)
    · exact (fields _ _).trans (s.chip.netTimedOut_generation _ _ _)
    · exact (fields _ _).trans (s.chip.netTimedOut_count _ _ _)
    · exact (fields _ _).trans_ne (s.chip.netTimedOut_valid _ _ _)
    · exact (fields _ _).trans (Chip.netTimedOut_tag _ _ hfirst tag.isLt)
    · exact (congrArg Chip.dma ends).trans (congrArg (List.map _) hdma)
  case stale =>
    exact congrArg Host.Outcome.next (State.onArr_eq (txnComplete_of_stale s.arr hgen))
  case call =>
    have htag : k.tag = tag.toNat := by simpa using List.find?_some hfind
    obtain ⟨hresp, hcalls, hwait, hgeneration, hcount⟩ := Chip.callFails_write (c := s.chip) hkind hlive
    rw [htag] at hgeneration
    exact ⟨_, congrArg Host.Outcome.next (State.onAll_eq (netTimeoutAny_of_call s.arr s.mem hfind ((Chip.callExpired_of_write hkind).trans hexpired)
      (hwait.trans hwaiting))), hresp, hcalls, hgeneration, hcount, rfl, rfl⟩
  case early =>
    exact congrArg Host.Outcome.next (State.onAll_eq (netTimeoutAny_of_early s.arr s.mem hfind ((Chip.callExpired_of_write hkind).trans hearly)))
  case link =>
    let x : Chip × Arr := (s.chip.linkMarked die, s.arr)
    let ps := s.chip.partsOnDie die
    have marked := s.chip.linkMarked_only die
    have resets := linkResets_only die ps x
    have moved := Chip.faultN_only [] (ps.foldl (linkReset die) x).1
    have hfail : (ps.foldl (linkReset die) x).1.get .H_LINK_FAIL die = 1 := (resets.get die rfl (by decide)).trans (s.chip.linkMarked_failed die)
    obtain ⟨histore, hsched⟩ := linkResets_stores die ps x
    refine does_of_onArr rfl (linkFail_eq hdie hgood s.arr) ⟨(moved.get die rfl (by simp)).trans hfail, Chip.faultN_link die.isLt hfail, rfl, histore, hsched, fun p _ => ?_⟩
    have hactive : ∀ r ∈ ps, x.1.on .PTN_CFG_ACTIVE r = true := fun r hr => by
      rw [Chip.on, marked.get r rfl (by decide)]
      exact Chip.active_of_partsOnDie hr
    rw [moved.pumpState_eq (by simp), linkResets_state die hactive p, marked.pumpState_eq (by decide)]

end Sys2Proof.Machine
end
section
/-! PROOFS. What the bits of one period do to a lane's receiver: the checker takes them, and blocks and characters are made of them (R279 to R285). -/

namespace Sys2Proof.Machine

/-! Bits on their way -/

/-- The receiver of lane `i` keeps the bits that it has not yet taken for the next period. -/
def Chip.groupKept (i : Nat) (x : Chip × List Bool) : Chip := x.1.setLaneBuf { x.1.laneBuf i with group := x.2 }

/-- The bits of lane `i` have filled whole periods. -/
def Chip.lineTaken (c : Chip) (i : Nat) : Chip := c.setLaneBuf { c.laneBuf i with line := [] }

/-- The units of lane `i` that the last period presented are gone. -/
def Chip.unitsGone (c : Chip) (i : Nat) : Chip := c.clearWhere .H_RX_UNIT fun k => k / 32 = i

section
variable (c : Chip) (i : Nat)

theorem Chip.laneBuf_lane : (c.laneBuf i).lane = i := by
  unfold Chip.laneBuf
  cases h : c.lanes.find? fun x => x.lane = i with
  | none => rfl
  | some x => simpa using List.find?_some h

theorem Chip.laneBuf_setLaneBuf {x : LaneBuf} (h : x.lane = i) : (c.setLaneBuf x).laneBuf i = x := by
  simp [Chip.laneBuf, Chip.setLaneBuf, h]

theorem Chip.groupKept_get (x : Chip × List Bool) (f : Fld) (j : Nat) : (Chip.groupKept i x).get f j = x.1.get f j := rfl

theorem Chip.lineTaken_get (f : Fld) (j : Nat) : (c.lineTaken i).get f j = c.get f j := rfl

theorem Chip.lineTaken_group : ((c.lineTaken i).laneBuf i).group = (c.laneBuf i).group :=
  (congrArg LaneBuf.group (Chip.laneBuf_setLaneBuf c i (x := { c.laneBuf i with line := [] }) (c.laneBuf_lane i))).trans rfl

theorem Chip.groupKept_group (x : Chip × List Bool) : (((Chip.groupKept i x).lineTaken i).laneBuf i).group = x.2 :=
  ((Chip.groupKept i x).lineTaken_group i).trans
    (congrArg LaneBuf.group (Chip.laneBuf_setLaneBuf x.1 i (x := { x.1.laneBuf i with group := x.2 }) (x.1.laneBuf_lane i)))

theorem Chip.unitsGone_get {f : Fld} (j : Nat) (hf : f ≠ .H_RX_UNIT) : (c.unitsGone i).get f j = c.get f j := by
  rw [Chip.unitsGone, Chip.get_clearWhere, if_neg fun h => hf h.1]

end

theorem rateD_pos (rate : Nat) : 0 < rateD rate := by
  unfold rateD
  split <;> decide

/-! The bits of one period -/

/-- `l` are the line bits of one period of lane `i`, which has a signal and no bits of an earlier, broken period. -/
structure Chip.LanePeriod (c : Chip) (i : Nat) (l : List Bool) : Prop where
  enabled : c.laneEn i = true
  signal : c.on .LQ_LANE_STATUS_SIGDET i = true
  fresh : (c.laneBuf i).line = []
  whole : l.length = rateD (c.laneRate i)

section
variable {c : Chip} {i : Nat} {l : List Bool}

theorem rxPeriods_one {d : Nat} (hd : 0 < d) (hl : l.length = d) (n : Nat) : rxPeriods i d (n + 1) c l = (c.rxPeriod i l, []) := by
  subst hl
  rw [rxPeriods, if_neg (Nat.lt_irrefl _), List.take_length, List.drop_length]
  cases n with
  | zero => rfl
  | succ n => exact if_pos hd

theorem Chip.laneReceive_period (h : c.LanePeriod i l) :
    c.laneReceive i l = (c.rxPeriod i (l.map fun b => b ^^ c.on .LQ_LANE_CTL_RXINV i)).lineTaken i := by
  have hl : (l.map fun b => b ^^ c.on .LQ_LANE_CTL_RXINV i).length = rateD (c.laneRate i) := by rw [List.length_map, h.whole]
  have hperiod := rxPeriods_one (c := c) (i := i) (rateD_pos _) hl l.length
  simp [Chip.laneReceive, h.enabled, h.signal, h.fresh, hperiod, Chip.lineTaken]

/-- What a period does to an encoded lane, once the checker has taken its bits. -/
theorem Chip.rxPeriod_encoded {d : Chip} (hd : (c.unitsGone i).chkBits i l = d) (henc : d.laneEnc i ≠ encRaw) :
    c.rxPeriod i l = Chip.groupKept i
      (if d.laneEnc i = enc64b66b then rxBlocks i (2 * ((d.laneBuf i).group ++ l).length + 1) 0 d ((d.laneBuf i).group ++ l)
        else rxChars i (2 * ((d.laneBuf i).group ++ l).length + 1) 0 d ((d.laneBuf i).group ++ l)) := by
  subst hd
  exact if_neg henc

theorem Chip.rxPeriod_raw {d : Chip} (hd : (c.unitsGone i).chkBits i l = d) (henc : d.laneEnc i = encRaw) :
    c.rxPeriod i l = if d.on .LQ_LANE_STATUS_LOCK i then d.presentUnit i 0 (bitsNat l) else d := by
  subst hd
  exact if_pos henc

/-- Where no checker runs, it takes no bits. -/
theorem Chip.chkBits_idle (hcheck : c.get .LQ_PRBS_CTL_CHK_EN i = 0) : (c.unitsGone i).chkBits i l = c.unitsGone i :=
  if_neg (by simp [Chip.on, c.unitsGone_get i i, hcheck])

section
variable (h : c.LanePeriod i l) (hplain : c.get .LQ_LANE_CTL_RXINV i = 0) (hcheck : c.get .LQ_PRBS_CTL_CHK_EN i = 0)
  {g : List Bool} (hg : g = (c.laneBuf i).group ++ l)
include h hplain hcheck hg

theorem Chip.laneReceive_blocks (henc : c.laneEnc i = enc64b66b) :
    c.laneReceive i l = (Chip.groupKept i (rxBlocks i (2 * g.length + 1) 0 (c.unitsGone i) g)).lineTaken i := by
  have hsame : (l.map fun b => b ^^ c.on .LQ_LANE_CTL_RXINV i) = l := by simp [Chip.on, hplain]
  have henc' : (c.unitsGone i).laneEnc i = enc64b66b := (c.unitsGone_get i i (by decide)).trans henc
  rw [Chip.laneReceive_period h, hsame, Chip.rxPeriod_encoded (Chip.chkBits_idle hcheck) (by rw [henc']; decide), if_pos henc', hg]
  rfl

theorem Chip.laneReceive_chars (henc : c.laneEnc i = enc8b10b) :
    c.laneReceive i l = (Chip.groupKept i (rxChars i (2 * g.length + 1) 0 (c.unitsGone i) g)).lineTaken i := by
  have hsame : (l.map fun b => b ^^ c.on .LQ_LANE_CTL_RXINV i) = l := by simp [Chip.on, hplain]
  have henc' : (c.unitsGone i).laneEnc i = enc8b10b := (c.unitsGone_get i i (by decide)).trans henc
  rw [Chip.laneReceive_period h, hsame, Chip.rxPeriod_encoded (Chip.chkBits_idle hcheck) (by rw [henc']; decide), if_neg (by rw [henc']; decide), hg]
  rfl

end

end

/-! Lock -/

section
variable (c : Chip) (i : Nat)

/-- What the gain of lock gives a value. -/
def lockFields : List Fld := [.LQ_LANE_STATUS_LOCK, .H_LANE_FAIL, .H_WIN, .H_WIN_BAD]

theorem Chip.laneLock_only : Chip.Only lockFields c (c.laneLock i) :=
  Chip.Only.set (Chip.Only.set (Chip.Only.set (Chip.Only.set (.refl c) 1 (by decide)) 0 (by decide)) 0 (by decide)) 0 (by decide)

theorem Chip.laneLock_locked : (c.laneLock i).get .LQ_LANE_STATUS_LOCK i = 1 := by
  rw [Chip.laneLock, Chip.get_set_ne _ _ (by simp), Chip.get_set_ne _ _ (by simp), Chip.get_set_ne _ _ (by simp), Chip.get_set_same]
  rfl

/-- What the loss of lock gives a value. -/
def unlockFields : List Fld := [.LQ_LANE_STATUS_LOCK, .LQ_LANE_STATUS_LOCK_LOST, .H_HUNT, .H_LANE_FAIL, .H_AN]

/-- Lane `i` has lost its lock, which shows. -/
def Chip.LockLost (i : Nat) (c : Chip) : Prop := c.get .LQ_LANE_STATUS_LOCK i = 0 ∧ c.get .LQ_LANE_STATUS_LOCK_LOST i = 1

theorem Chip.laneUnlock_rest : Chip.Only [.H_HUNT, .H_LANE_FAIL, .H_AN] ((c.set .LQ_LANE_STATUS_LOCK i 0).set .LQ_LANE_STATUS_LOCK_LOST i 1) (c.laneUnlock i) := by
  unfold Chip.laneUnlock
  simp only
  split
  · exact (Chip.Only.set (Chip.Only.set (Chip.Only.set (.refl _) 0 (by decide)) _ (by decide)) 0 (by decide)).trans (Chip.Only.of_quiet (Chip.raise_quiet _ _))
  · exact (Chip.Only.set (Chip.Only.set (.refl _) 0 (by decide)) 0 (by decide)).trans (Chip.Only.of_quiet (Chip.raise_quiet _ _))

theorem Chip.laneUnlock_only : Chip.Only unlockFields c (c.laneUnlock i) :=
  Chip.Spares.trans (Chip.Only.set (Chip.Only.set (.refl c) 0 (by decide)) 1 (by decide)) ((c.laneUnlock_rest i).widen (by decide))

theorem Chip.laneUnlock_lost : (c.laneUnlock i).LockLost i :=
  ⟨((c.laneUnlock_rest i).get i rfl (by decide)).trans ((Chip.get_set_ne _ _ (by simp)).trans (Chip.get_set_same _ _ _ _)),
    ((c.laneUnlock_rest i).get i rfl (by decide)).trans (Chip.get_set_same _ _ _ _)⟩

/-! The check of headers and groups -/

variable (size limit : Nat)

/-- What the check of a header or group gives a value. -/
def checkFields : List Fld := .LQ_LANE_ERR_COUNT :: .H_WIN :: .H_WIN_BAD :: unlockFields

/-- The registers once one more header or group of a window is counted, and as invalid where it is. -/
def Chip.unitCounted (c : Chip) (i : Nat) (ok : Bool) : Chip :=
  let d := if ok then c else (c.count .LQ_LANE_ERR_COUNT i 1).set .H_WIN_BAD i (c.get .H_WIN_BAD i + 1)
  d.set .H_WIN i (d.get .H_WIN i + 1)

/-- A window of `size` ends where it is full. -/
def Chip.windowMoved (c : Chip) (i size : Nat) : Chip := if size ≤ c.get .H_WIN i then (c.set .H_WIN i 0).set .H_WIN_BAD i 0 else c

theorem Chip.laneCheck_eq (ok : Bool) : c.laneCheck i size limit ok =
    if limit ≤ (c.unitCounted i ok).get .H_WIN_BAD i then (c.unitCounted i ok).laneUnlock i else (c.unitCounted i ok).windowMoved i size := by
  cases ok <;> rfl

theorem Chip.windowMoved_only : Chip.Only [.H_WIN, .H_WIN_BAD] c (c.windowMoved i size) :=
  .cond (Chip.Only.set (Chip.Only.set (.refl c) 0 (by decide)) 0 (by decide)) (.refl c)

theorem Chip.windowMoved_bad : (c.windowMoved i size).get .H_WIN_BAD i ≤ c.get .H_WIN_BAD i := by
  unfold Chip.windowMoved
  split
  · rw [Chip.get_set_same]
    exact Nat.zero_le _
  · exact le_rfl

theorem Chip.unitCounted_only (ok : Bool) : Chip.Only [.LQ_LANE_ERR_COUNT, .H_WIN, .H_WIN_BAD] c (c.unitCounted i ok) := by
  cases ok with
  | true => exact Chip.Only.set (.refl c) _ (by decide)
  | false => exact Chip.Only.set (Chip.Only.set (Chip.Only.set (.refl c) _ (by decide)) _ (by decide)) _ (by decide)

theorem Chip.unitCounted_ok_only : Chip.Only [.H_WIN] c (c.unitCounted i true) := Chip.Only.set (.refl c) _ (by decide)

theorem Chip.unitCounted_errors : (c.unitCounted i false).get .LQ_LANE_ERR_COUNT i = satAdd (2 ^ 32 - 1) (c.get .LQ_LANE_ERR_COUNT i) 1 := by
  simp only [Chip.unitCounted, Bool.false_eq_true, ↓reduceIte]
  rw [Chip.get_set_ne _ _ (by simp), Chip.get_set_ne _ _ (by simp), Chip.count_get_same _ _ _ rfl]

theorem Chip.unitCounted_bad (h : c.get .H_WIN_BAD i < 16) : (c.unitCounted i false).get .H_WIN_BAD i = c.get .H_WIN_BAD i + 1 := by
  simp only [Chip.unitCounted, Bool.false_eq_true, ↓reduceIte]
  rw [Chip.get_set_ne _ _ (by simp), Chip.get_set_same]
  exact Fld.clip_lt (show _ < 2 ^ 5 by omega)

theorem Chip.laneCheck_only (ok : Bool) : Chip.Only checkFields c (c.laneCheck i size limit ok) := by
  have counted := (c.unitCounted_only i ok).widen (V := checkFields) (by decide)
  rw [Chip.laneCheck_eq]
  split
  · exact counted.trans ((Chip.laneUnlock_only _ i).widen (by decide))
  · exact counted.trans ((Chip.windowMoved_only _ i size).widen (by decide))

variable {c i limit}

/-- A valid header or group moves the window and nothing else. -/
theorem Chip.laneCheck_valid (h : c.get .H_WIN_BAD i < limit) :
    Chip.Only [.H_WIN, .H_WIN_BAD] c (c.laneCheck i size limit true) ∧ (c.laneCheck i size limit true).get .H_WIN_BAD i ≤ c.get .H_WIN_BAD i := by
  have hbad : (c.unitCounted i true).get .H_WIN_BAD i = c.get .H_WIN_BAD i := (c.unitCounted_ok_only i).get i rfl (by decide)
  rw [Chip.laneCheck_eq, if_neg (by omega)]
  exact ⟨((c.unitCounted_ok_only i).widen (by decide)).trans (Chip.windowMoved_only _ i size), (Chip.windowMoved_bad _ i size).trans hbad.le⟩

/-- An invalid header or group is counted. -/
theorem Chip.laneCheck_errors : (c.laneCheck i size limit false).get .LQ_LANE_ERR_COUNT i = satAdd (2 ^ 32 - 1) (c.get .LQ_LANE_ERR_COUNT i) 1 := by
  rw [Chip.laneCheck_eq, ← c.unitCounted_errors i]
  split
  · exact (Chip.laneUnlock_only _ i).get i rfl (by decide)
  · exact (Chip.windowMoved_only _ i size).get i rfl (by decide)

/-- Fewer than `limit` invalid ones leave the lock. -/
theorem Chip.laneCheck_kept (h : c.get .H_WIN_BAD i + 1 < limit) (hlimit : limit ≤ 16) :
    Chip.Only [.LQ_LANE_ERR_COUNT, .H_WIN, .H_WIN_BAD] c (c.laneCheck i size limit false) := by
  have hbad := c.unitCounted_bad i (by omega)
  rw [Chip.laneCheck_eq, if_neg (by omega)]
  exact (c.unitCounted_only i false).trans ((Chip.windowMoved_only _ i size).widen (by decide))

/-- The invalid one that reaches `limit` loses it. -/
theorem Chip.laneCheck_lost (h : c.get .H_WIN_BAD i + 1 = limit) (hlimit : limit ≤ 16) : (c.laneCheck i size limit false).LockLost i := by
  have hbad := c.unitCounted_bad i (by omega)
  rw [Chip.laneCheck_eq, if_pos (by omega)]
  exact Chip.laneUnlock_lost _ i

end

/-! Presented units -/

theorem Chip.presentUnit_only (c : Chip) (i u v : Nat) : Chip.Only [.H_RX_UNIT] c (c.presentUnit i u v) := Chip.Only.set (.refl c) _ (by decide)

theorem Chip.presentUnit_get (c : Chip) (i u v : Nat) : (c.presentUnit i u v).get .H_RX_UNIT (i * 32 + u) = v + 1 :=
  (Chip.get_set_same _ _ _ _).trans (Fld.clip_of_unbounded rfl _)

/-! Blocks -/

/-- What a receiver may give a value. -/
def receiverFields : List Fld := .H_RX_UNIT :: .H_DESC :: .H_RX_RD :: .H_AN_POS :: .H_AN_WORD :: (lockFields ++ checkFields)

theorem Chip.rxPayload_only (c : Chip) (i : Nat) (l : List Bool) : Chip.Only [.H_DESC] c (c.rxPayload i l).2 := Chip.Only.set (.refl c) _ (by decide)

/-- The payload that a block carries depends on the scrambler's switch and register alone. -/
theorem Chip.rxPayload_eq {c d : Chip} {i : Nat} (hswitch : d.get .LQ_LANE_CTL_SCR i = c.get .LQ_LANE_CTL_SCR i) (hreg : d.get .H_DESC i = c.get .H_DESC i)
    (l : List Bool) : (d.rxPayload i l).1 = (c.rxPayload i l).1 := by
  unfold Chip.rxPayload Chip.on
  rw [hswitch, hreg]

/-- The header of the block that begins `g`, and whether it is valid. -/
def blockHead (g : List Bool) : Nat := bitsNat (g.take 2)
def headOk (g : List Bool) : Bool := blockHead g = 1 || blockHead g = 2

/-- The registers of a locked lane once it has presented and checked the block that begins `g`. -/
def Chip.blockTaken (c : Chip) (i u : Nat) (g : List Bool) : Chip :=
  ((c.rxPayload i ((g.drop 2).take 64)).2.presentUnit i u (blockHead g + 4 * (c.rxPayload i ((g.drop 2).take 64)).1)).laneCheck i 64 16 (headOk g)

/-- The registers of a hunting lane once a valid header has been counted. -/
def Chip.headCounted (c : Chip) (i : Nat) : Chip :=
  if c.get .H_HUNT i + 1 = 64 then (c.set .H_HUNT i 0).laneLock i else c.set .H_HUNT i (c.get .H_HUNT i + 1)

section
variable {c : Chip} {i u n : Nat} {g : List Bool}

theorem rxBlocks_short (h : g.length < 66) : rxBlocks i n u c g = (c, g) := by
  cases n with
  | zero => rfl
  | succ n => exact if_pos h

variable (hlen : 66 ≤ g.length)
include hlen

theorem rxBlocks_locked (hlock : c.on .LQ_LANE_STATUS_LOCK i = true) :
    rxBlocks i (n + 1) u c g = rxBlocks i n (u + 1) (c.blockTaken i u g) (g.drop 66) :=
  (if_neg (Nat.not_lt.mpr hlen)).trans (if_pos hlock)

theorem rxBlocks_hunting_valid (hlock : c.on .LQ_LANE_STATUS_LOCK i = false) (hhunt : c.laneHunts i enc64b66b = true) (hok : headOk g = true) :
    rxBlocks i (n + 1) u c g = rxBlocks i n u ((c.rxPayload i ((g.drop 2).take 64)).2.headCounted i) (g.drop 66) :=
  (if_neg (Nat.not_lt.mpr hlen)).trans ((if_neg (by simp [hlock])).trans ((if_neg (by simp [hhunt])).trans (if_pos hok)))

theorem rxBlocks_hunting_invalid (hlock : c.on .LQ_LANE_STATUS_LOCK i = false) (hhunt : c.laneHunts i enc64b66b = true) (hok : headOk g = false) :
    rxBlocks i (n + 1) u c g = rxBlocks i n u (c.set .H_HUNT i 0) (g.drop 1) :=
  (if_neg (Nat.not_lt.mpr hlen)).trans ((if_neg (by simp [hlock])).trans ((if_neg (by simp [hhunt])).trans (if_neg (Bool.eq_false_iff.mp hok))))

theorem rxBlocks_idle (hlock : c.on .LQ_LANE_STATUS_LOCK i = false) (hhunt : c.laneHunts i enc64b66b = false) : rxBlocks i (n + 1) u c g = (c, []) :=
  (if_neg (Nat.not_lt.mpr hlen)).trans ((if_neg (by simp [hlock])).trans (if_pos (by simp [hhunt])))

end

theorem Chip.blockTaken_only (c : Chip) (i u : Nat) (g : List Bool) : Chip.Only (.H_DESC :: .H_RX_UNIT :: checkFields) c (c.blockTaken i u g) :=
  (((c.rxPayload_only i _).widen (by decide)).trans ((Chip.presentUnit_only _ i u _).widen (by decide))).trans ((Chip.laneCheck_only _ i 64 16 _).widen (by decide))

theorem Chip.headCounted_only (c : Chip) (i : Nat) : Chip.Only (.H_HUNT :: lockFields) c (c.headCounted i) :=
  .cond ((Chip.Only.set (.refl c) 0 (by decide)).trans ((Chip.laneLock_only _ i).widen (by decide))) (Chip.Only.set (.refl c) _ (by decide))

theorem rxBlocks_only (i n u : Nat) (c : Chip) (g : List Bool) : Chip.Only receiverFields c (rxBlocks i n u c g).1 := by
  induction n generalizing u c g with
  | zero => exact .refl c
  | succ n ih =>
    rcases Nat.lt_or_ge g.length 66 with hlen | hlen
    · rw [rxBlocks_short hlen]
      exact .refl c
    cases hlock : c.on .LQ_LANE_STATUS_LOCK i with
    | true =>
      rw [rxBlocks_locked hlen hlock]
      exact ((c.blockTaken_only i u g).widen (by decide)).trans (ih _ _ _)
    | false =>
      cases hhunt : c.laneHunts i enc64b66b with
      | false =>
        rw [rxBlocks_idle hlen hlock hhunt]
        exact .refl c
      | true =>
        cases hok : headOk g with
        | true =>
          rw [rxBlocks_hunting_valid hlen hlock hhunt hok]
          exact (((c.rxPayload_only i _).widen (by decide)).trans ((Chip.headCounted_only _ i).widen (by decide))).trans (ih _ _ _)
        | false =>
          rw [rxBlocks_hunting_invalid hlen hlock hhunt hok]
          exact Chip.Spares.trans (Chip.Only.set (.refl c) 0 (by decide)) (ih _ _ _)

/-! Characters -/

theorem Chip.anChar_only (c : Chip) (i byte : Nat) (k : Bool) : Chip.Only [.H_AN_POS, .H_AN_WORD, .H_AN] c (c.anChar i byte k) := by
  have pos (d : Chip) (v : Nat) : Chip.Only [.H_AN_POS, .H_AN_WORD, .H_AN] d (d.set .H_AN_POS i v) := Chip.Only.set (.refl d) v (by decide)
  have word (d : Chip) (v w : Nat) : Chip.Only [.H_AN_POS, .H_AN_WORD, .H_AN] d ((d.set .H_AN_POS i v).set .H_AN_WORD i w) := Chip.Only.set (pos d v) w (by decide)
  unfold Chip.anChar
  split
  · exact pos _ _
  · split
    · exact pos _ _
    · exact word _ _ _
    · exact .cond (word _ _ _) (Chip.Only.set (word _ _ _) _ (by decide))
    · exact .refl c

/-- What a character gives a value but for its check. -/
def charFields : List Fld := [.H_RX_RD, .H_RX_UNIT, .H_AN_POS, .H_AN_WORD, .H_AN]

/-- The registers once the valid character `b` of group `g` is presented as unit `u`. -/
def Chip.charShown (c : Chip) (i u : Nat) (g : List Bool) (b : Nat × Bool) : Chip :=
  ((c.set .H_RX_RD i (b2n (rdAfter g (c.on .H_RX_RD i)))).presentUnit i u (b.1 + b2n b.2 * 2 ^ 8)).anChar i b.1 b.2

/-- The registers once an invalid group is presented as 0xFE with K and ERR. -/
def Chip.errorShown (c : Chip) (i u : Nat) (g : List Bool) : Chip :=
  ((c.set .H_RX_RD i (b2n (rdAfter g (c.on .H_RX_RD i)))).presentUnit i u (0xFE + 2 ^ 8 + 2 ^ 9)).set .H_AN_POS i 0

section
variable (c : Chip) (i u : Nat) (g : List Bool) (b : Nat × Bool)

theorem Chip.charShown_only : Chip.Only charFields c (c.charShown i u g b) :=
  (Chip.Spares.trans (Chip.Only.set (.refl c) _ (by decide)) ((Chip.presentUnit_only _ i u _).widen (by decide))).trans ((Chip.anChar_only _ i _ _).widen (by decide))

theorem Chip.charShown_unit : (c.charShown i u g b).get .H_RX_UNIT (i * 32 + u) = b.1 + b2n b.2 * 256 + 1 :=
  ((Chip.anChar_only _ i _ _).get _ rfl (by decide)).trans (Chip.presentUnit_get _ i u _)

theorem b2n_clip_one (x : Bool) : b2n x % 2 = b2n x := by cases x <;> rfl

theorem Chip.charShown_disparity : (c.charShown i u g b).on .H_RX_RD i = rdAfter g (c.on .H_RX_RD i) := by
  have hrd : (c.charShown i u g b).get .H_RX_RD i = b2n (rdAfter g (c.on .H_RX_RD i)) :=
    ((Chip.anChar_only _ i _ _).get _ rfl (by decide)).trans (((Chip.presentUnit_only _ i u _).get _ rfl (by decide)).trans
      ((Chip.get_set_same _ _ _ _).trans (b2n_clip_one _)))
  rw [Chip.on, hrd]
  cases rdAfter g (c.on .H_RX_RD i) <;> rfl

/-- A unit that another character presented stays. -/
theorem Chip.charShown_unit_ne {j : Nat} (hj : j ≠ i * 32 + u) : (c.charShown i u g b).get .H_RX_UNIT j = c.get .H_RX_UNIT j :=
  ((Chip.anChar_only _ i _ _).get _ rfl (by decide)).trans ((Chip.get_set_ne _ _ (by simp [hj])).trans (Chip.get_set_ne _ _ (by simp)))

theorem Chip.errorShown_only : Chip.Only charFields c (c.errorShown i u g) :=
  Chip.Only.set (Chip.Spares.trans (Chip.Only.set (.refl c) _ (by decide)) ((Chip.presentUnit_only _ i u _).widen (by decide))) 0 (by decide)

theorem Chip.errorShown_unit : (c.errorShown i u g).get .H_RX_UNIT (i * 32 + u) = 0x3FF :=
  (Chip.get_set_ne _ _ (by simp)).trans (Chip.presentUnit_get _ i u _)

variable {c g b}

theorem Chip.rxGroup_valid (h : dec10 g (c.on .H_RX_RD i) = some b) : c.rxGroup i u g = (c.charShown i u g b).laneCheck i 16 4 true := by
  simp only [Chip.rxGroup, h]
  rfl

theorem Chip.rxGroup_invalid (h : dec10 g (c.on .H_RX_RD i) = none) : c.rxGroup i u g = (c.errorShown i u g).laneCheck i 16 4 false := by
  simp only [Chip.rxGroup, h]
  rfl

theorem Chip.rxGroup_only : Chip.Only receiverFields c (c.rxGroup i u g) := by
  cases h : dec10 g (c.on .H_RX_RD i) with
  | none =>
    rw [Chip.rxGroup_invalid i u h]
    exact ((c.errorShown_only i u g).widen (by decide)).trans ((Chip.laneCheck_only _ i 16 4 _).widen (by decide))
  | some b =>
    rw [Chip.rxGroup_valid i u h]
    exact ((c.charShown_only i u g b).widen (by decide)).trans ((Chip.laneCheck_only _ i 16 4 _).widen (by decide))

end

theorem Chip.commaAlign_only (c : Chip) (i : Nat) (g : List Bool) : Chip.Only (.H_RX_RD :: lockFields) c (c.commaAlign i g) :=
  Chip.Only.set ((c.laneLock_only i).widen (by decide)) _ (by decide)

theorem Chip.commaAlign_locked (c : Chip) (i : Nat) (g : List Bool) : (c.commaAlign i g).get .LQ_LANE_STATUS_LOCK i = 1 :=
  (Chip.get_set_ne _ _ (by simp)).trans (c.laneLock_locked i)

section
variable {c : Chip} {i u n : Nat} {g : List Bool}

/-- Fewer bits than a group stay for the next period. -/
theorem rxChars_short (hlock : c.on .LQ_LANE_STATUS_LOCK i = true) (h : g.length < 10) : rxChars i n u c g = (c, g) := by
  have hfew : g.length < if c.on .LQ_LANE_CTL_ALIGN i then 16 else 10 := h.trans_le (by split <;> decide)
  cases n with
  | zero => rfl
  | succ n => exact (if_neg (by simp [hlock])).trans (if_pos hfew)

theorem rxChars_idle (hlock : c.on .LQ_LANE_STATUS_LOCK i = false) (hhunt : c.laneHunts i enc8b10b = false) : rxChars i (n + 1) u c g = (c, []) :=
  (if_pos (by simp [hlock])).trans (if_pos (by simp [hhunt]))

theorem rxChars_seeking (hlock : c.on .LQ_LANE_STATUS_LOCK i = false) (hhunt : c.laneHunts i enc8b10b = true) (h : commaAt 0 g.length g = none) :
    rxChars i (n + 1) u c g = (c, g.drop (g.length - 6)) := by
  simp [rxChars, hlock, hhunt, h]

theorem rxChars_aligned {k : Nat} (hlock : c.on .LQ_LANE_STATUS_LOCK i = false) (hhunt : c.laneHunts i enc8b10b = true) (h : commaAt 0 g.length g = some k) :
    rxChars i (n + 1) u c g = rxChars i n u (c.commaAlign i (g.drop k)) (g.drop k) := by
  simp [rxChars, hlock, hhunt, h]

theorem rxChars_group (hlock : c.on .LQ_LANE_STATUS_LOCK i = true) (halign : c.get .LQ_LANE_CTL_ALIGN i = 0) (hlen : 10 ≤ g.length) :
    rxChars i (n + 1) u c g = rxChars i n (u + 1) (c.rxGroup i u (g.take 10)) (g.drop 10) := by
  have halign' : c.on .LQ_LANE_CTL_ALIGN i = false := by simp [Chip.on, halign]
  simp [rxChars, hlock, halign', Nat.not_lt.mpr hlen]

end

theorem rxChars_only (i n u : Nat) (c : Chip) (g : List Bool) : Chip.Only receiverFields c (rxChars i n u c g).1 := by
  have aligns (d : Chip) (x : List Bool) : Chip.Only receiverFields d (d.commaAlign i x) := (d.commaAlign_only i x).widen (by decide)
  induction n generalizing u c g with
  | zero => exact .refl c
  | succ n ih =>
    rw [rxChars]
    cases c.on .LQ_LANE_STATUS_LOCK i with
    | false =>
      simp only [Bool.not_false, ↓reduceIte]
      split
      · exact .refl c
      · split
        · exact .refl c
        · exact (aligns _ _).trans (ih _ _ _)
    | true =>
      simp only [Bool.not_true, Bool.false_eq_true, ↓reduceIte]
      generalize (if c.on .LQ_LANE_CTL_ALIGN i then 16 else 10) = few
      split
      · exact .refl c
      · split
        · exact (aligns _ _).trans (ih _ _ _)
        · exact (Chip.rxGroup_only i u).trans (ih _ _ _)

/-- Beside the checker, a period gives a value to the receiver's fields alone. -/
theorem Chip.rxPeriod_rest (c : Chip) (i : Nat) (l : List Bool) : Chip.Only receiverFields ((c.unitsGone i).chkBits i l) (c.rxPeriod i l) := by
  by_cases henc : ((c.unitsGone i).chkBits i l).laneEnc i = encRaw
  · rw [Chip.rxPeriod_raw rfl henc]
    exact .cond ((Chip.presentUnit_only _ i 0 _).widen (by decide)) (.refl _)
  · have kept (x : Chip × List Bool) : Chip.Only receiverFields x.1 (Chip.groupKept i x) := ⟨fun _ _ _ => rfl, rfl, rfl, rfl⟩
    rw [Chip.rxPeriod_encoded rfl henc]
    refine Chip.Spares.trans ?_ (kept _)
    split
    · exact rxBlocks_only _ _ _ _ _
    · exact rxChars_only _ _ _ _ _

end Sys2Proof.Machine
end
section
/-! PROOFS. Lock, loss and alignment of a lane, adaptation, signal detect and PLLs (R278 to R283; O44). -/

namespace Sys2Proof.Machine

/-! A period of a lane -/

section
variable (c : Chip) (i : Nat)

theorem Chip.unitsGone_on {f : Fld} (hf : f ≠ .H_RX_UNIT) : (c.unitsGone i).on f i = c.on f i := by
  unfold Chip.on
  rw [c.unitsGone_get i i hf]

theorem Chip.unitsGone_laneHunts (enc : Nat) : (c.unitsGone i).laneHunts i enc = c.laneHunts i enc := by
  unfold Chip.laneHunts Chip.laneEn Chip.laneEnc
  rw [c.unitsGone_on i (by decide), c.unitsGone_on i (by decide), c.unitsGone_on i (by decide), c.unitsGone_get i i (by decide)]

variable {c i}

theorem Chip.get_of_not_on {f : Fld} (h : c.on f i = false) : c.get f i = 0 := by simpa [Chip.on] using h

theorem Chip.on_of_one {f : Fld} (h : c.get f i = 1) : c.on f i = true := by simp [Chip.on, h]

theorem Chip.not_on_of_zero {f : Fld} (h : c.get f i = 0) : c.on f i = false := by simp [Chip.on, h]

theorem Chip.unlocked_of_hunts {enc : Nat} (h : c.laneHunts i enc = true) : c.on .LQ_LANE_STATUS_LOCK i = false := by
  unfold Chip.laneHunts at h
  simp only [Bool.and_eq_true, Bool.not_eq_true'] at h
  exact h.2

end

/-! Blocks -/

/-- A hunting lane that has counted 63 valid headers locks at the next. -/
theorem Chip.headCounted_locked {c : Chip} {i : Nat} (h : c.get .H_HUNT i = 63) :
    (c.headCounted i).get .LQ_LANE_STATUS_LOCK i = 1 ∧ (c.headCounted i).get .H_HUNT i = 0 := by
  rw [Chip.headCounted, if_pos (by omega)]
  exact ⟨Chip.laneLock_locked _ i, ((Chip.laneLock_only _ i).get i rfl (by decide)).trans (Chip.get_set_same _ _ _ _)⟩

theorem Chip.headCounted_counted {c : Chip} {i : Nat} (h : c.get .H_HUNT i < 63) :
    (c.headCounted i).get .LQ_LANE_STATUS_LOCK i = c.get .LQ_LANE_STATUS_LOCK i ∧ (c.headCounted i).get .H_HUNT i = c.get .H_HUNT i + 1 := by
  rw [Chip.headCounted, if_neg (by omega)]
  rw [Chip.get_set_same, Chip.get_set_ne _ _ (by simp)]
  exact ⟨rfl, Fld.clip_lt (show c.get .H_HUNT i + 1 < 2 ^ 7 by omega)⟩

/-- The registers of a locked lane once it has presented the block that begins `g`, before the check of its header. -/
def Chip.blockShown (c : Chip) (i u : Nat) (g : List Bool) : Chip :=
  (c.rxPayload i ((g.drop 2).take 64)).2.presentUnit i u (blockHead g + 4 * (c.rxPayload i ((g.drop 2).take 64)).1)

section
variable (c : Chip) (i u : Nat) (g : List Bool)

theorem Chip.blockTaken_eq : c.blockTaken i u g = (c.blockShown i u g).laneCheck i 64 16 (headOk g) := rfl

theorem Chip.blockShown_only : Chip.Only [.H_DESC, .H_RX_UNIT] c (c.blockShown i u g) :=
  ((c.rxPayload_only i _).widen (by decide)).trans ((Chip.presentUnit_only _ i u _).widen (by decide))

theorem Chip.blockTaken_unit : (c.blockTaken i u g).get .H_RX_UNIT (i * 32 + u) = blockHead g + 4 * (c.rxPayload i ((g.drop 2).take 64)).1 + 1 :=
  ((Chip.laneCheck_only _ i 64 16 _).get _ rfl (by decide)).trans (Chip.presentUnit_get _ i u _)

end

section
variable {c : Chip} {i : Nat} {l g : List Bool}

theorem headOk_iff : headOk g = true ↔ bitsNat (g.take 2) = 1 ∨ bitsNat (g.take 2) = 2 := by
  simp only [headOk, Bool.or_eq_true, decide_eq_true_eq]
  rfl

variable (h : c.LanePeriod i l) (hplain : c.get .LQ_LANE_CTL_RXINV i = 0) (hcheck : c.get .LQ_PRBS_CTL_CHK_EN i = 0)
  (hg : g = (c.laneBuf i).group ++ l) (henc : c.laneEnc i = enc64b66b) (hlen : g.length = 66)
include h hplain hcheck hg henc hlen

/-- A valid header of a hunting lane is counted. -/
theorem Chip.laneReceive_headCounted (hhunt : c.laneHunts i enc64b66b = true) (hok : headOk g = true) (f : Fld) :
    (c.laneReceive i l).get f i = (((c.unitsGone i).rxPayload i ((g.drop 2).take 64)).2.headCounted i).get f i := by
  have hshort : (g.drop 66).length < 66 := by rw [List.length_drop]; omega
  rw [Chip.laneReceive_blocks h hplain hcheck hg henc, rxBlocks_hunting_valid hlen.ge ((c.unitsGone_on i (by decide)).trans (Chip.unlocked_of_hunts hhunt))
    ((c.unitsGone_laneHunts i _).trans hhunt) hok, rxBlocks_short hshort, Chip.lineTaken_get, Chip.groupKept_get]

/-- An invalid header of a hunting lane slips by one bit. -/
theorem Chip.laneReceive_slipped (hhunt : c.laneHunts i enc64b66b = true) (hok : headOk g = false) :
    (∀ f, (c.laneReceive i l).get f i = ((c.unitsGone i).set .H_HUNT i 0).get f i) ∧ ((c.laneReceive i l).laneBuf i).group = g.drop 1 := by
  have hshort : (g.drop 1).length < 66 := by rw [List.length_drop]; omega
  rw [Chip.laneReceive_blocks h hplain hcheck hg henc, rxBlocks_hunting_invalid hlen.ge ((c.unitsGone_on i (by decide)).trans (Chip.unlocked_of_hunts hhunt))
    ((c.unitsGone_laneHunts i _).trans hhunt) hok, rxBlocks_short hshort]
  exact ⟨fun f => rfl, Chip.groupKept_group i _⟩

/-- A locked lane takes the block. -/
theorem Chip.laneReceive_blockTaken (hlock : c.on .LQ_LANE_STATUS_LOCK i = true) (f : Fld) (j : Nat) :
    (c.laneReceive i l).get f j = ((c.unitsGone i).blockTaken i 0 g).get f j := by
  have hshort : (g.drop 66).length < 66 := by rw [List.length_drop]; omega
  rw [Chip.laneReceive_blocks h hplain hcheck hg henc, rxBlocks_locked hlen.ge ((c.unitsGone_on i (by decide)).trans hlock), rxBlocks_short hshort,
    Chip.lineTaken_get, Chip.groupKept_get]

end

/-! Characters -/

section
variable {c : Chip} {i u : Nat} {g : List Bool} {b : Nat × Bool}

/-- A character of the table is presented, and the window moves. -/
theorem Chip.rxGroup_shown (hbad : c.get .H_WIN_BAD i < 4) (h : dec10 g (c.on .H_RX_RD i) = some b) :
    Chip.Only [.H_WIN, .H_WIN_BAD] (c.charShown i u g b) (c.rxGroup i u g) ∧ (c.rxGroup i u g).get .H_WIN_BAD i < 4 := by
  have kept : (c.charShown i u g b).get .H_WIN_BAD i = c.get .H_WIN_BAD i := (c.charShown_only i u g b).get i rfl (by decide)
  have checked := Chip.laneCheck_valid 16 (limit := 4) (kept.trans_lt hbad)
  rw [Chip.rxGroup_valid i u h]
  exact ⟨checked.1, checked.2.trans_lt (kept.trans_lt hbad)⟩

/-- The fourth invalid group of a window is presented as an error and loses the alignment. -/
theorem Chip.rxGroup_lost (h : dec10 g (c.on .H_RX_RD i) = none) (hlast : c.get .H_WIN_BAD i = 3) :
    (c.rxGroup i u g).get .H_RX_UNIT (i * 32 + u) = 0x3FF ∧ (c.rxGroup i u g).LockLost i ∧
    (c.rxGroup i u g).get .LQ_LANE_ERR_COUNT i = satAdd (2 ^ 32 - 1) (c.get .LQ_LANE_ERR_COUNT i) 1 := by
  have kept (f : Fld) (hf : f ∉ charFields := by decide) (hs : f.signal = false := by rfl) : (c.errorShown i u g).get f i = c.get f i :=
    (c.errorShown_only i u g).get i hs hf
  rw [Chip.rxGroup_invalid i u h]
  refine ⟨((Chip.laneCheck_only _ i 16 4 false).get _ rfl (by decide)).trans (c.errorShown_unit i u g), Chip.laneCheck_lost 16 ?_ (by decide), ?_⟩
  · rw [kept .H_WIN_BAD, hlast]
  · rw [Chip.laneCheck_errors, kept .LQ_LANE_ERR_COUNT]

end

section
variable {c : Chip} {i : Nat} {x y : List Bool} (hlock : c.on .LQ_LANE_STATUS_LOCK i = true) (halign : c.get .LQ_LANE_CTL_ALIGN i = 0)
  (hx : x.length = 10) (hy : y.length = 10)
include hlock halign hx

/-- The first of two groups is taken first. -/
theorem rxChars_first (n u : Nat) : rxChars i (n + 1) u c (x ++ y) = rxChars i n (u + 1) (c.rxGroup i u x) y := by
  rw [rxChars_group hlock halign (by simp [hx]), List.take_left' hx, List.drop_left' hx]

include hy

/-- Two characters of the table are both taken. -/
theorem rxChars_two {b : Nat × Bool} (h : dec10 x (c.on .H_RX_RD i) = some b) (hbad : c.get .H_WIN_BAD i < 4) (n : Nat) :
    rxChars i (n + 1 + 1) 0 c (x ++ y) = rxChars i n 2 ((c.rxGroup i 0 x).rxGroup i 1 y) [] := by
  have only : Chip.Only (charFields ++ [.H_WIN, .H_WIN_BAD]) c (c.rxGroup i 0 x) :=
    ((c.charShown_only i 0 x b).widen (by decide)).trans ((Chip.rxGroup_shown hbad h).1.widen (by decide))
  have hlock' : (c.rxGroup i 0 x).on .LQ_LANE_STATUS_LOCK i = true := by
    rw [← hlock]
    unfold Chip.on
    rw [only.get i rfl (by decide)]
  rw [rxChars_first hlock halign hx, rxChars_group hlock' ((only.get i rfl (by decide)).trans halign) hy.ge, List.take_of_length_le hy.le, List.drop_of_length_le hy.le]

end

/-- A receiver whose alignment is lost takes nothing more from bits without a comma. -/
theorem rxChars_unlocked {c : Chip} {i : Nat} {y : List Bool} (hlock : c.on .LQ_LANE_STATUS_LOCK i = false) (h : commaAt 0 y.length y = none) (n u : Nat) :
    (rxChars i (n + 1) u c y).1 = c := by
  cases hhunt : c.laneHunts i enc8b10b with
  | true => rw [rxChars_seeking hlock hhunt h]
  | false => rw [rxChars_idle hlock hhunt]

section
variable {c : Chip} {i : Nat} {l g : List Bool} (h : c.LanePeriod i l) (hplain : c.get .LQ_LANE_CTL_RXINV i = 0) (hcheck : c.get .LQ_PRBS_CTL_CHK_EN i = 0)
  (hg : g = (c.laneBuf i).group ++ l) (henc : c.laneEnc i = enc8b10b)
include h hplain hcheck hg henc

/-- A lane that hunts aligns on the comma at `k`. -/
theorem Chip.laneReceive_aligned {k : Nat} (hhunt : c.laneHunts i enc8b10b = true) (hcomma : commaAt 0 g.length g = some k) (hfew : g.length < k + 10) :
    (c.laneReceive i l).get .LQ_LANE_STATUS_LOCK i = 1 ∧ ((c.laneReceive i l).laneBuf i).group = g.drop k := by
  have hshort : (g.drop k).length < 10 := by rw [List.length_drop]; omega
  rw [Chip.laneReceive_chars h hplain hcheck hg henc, rxChars_aligned ((c.unitsGone_on i (by decide)).trans (Chip.unlocked_of_hunts hhunt))
    ((c.unitsGone_laneHunts i _).trans hhunt) hcomma, rxChars_short (Chip.on_of_one (Chip.commaAlign_locked _ i _)) hshort]
  refine ⟨?_, Chip.groupKept_group i _⟩
  rw [Chip.lineTaken_get, Chip.groupKept_get, Chip.commaAlign_locked]

/-- Without a comma it goes on. -/
theorem Chip.laneReceive_unaligned (hhunt : c.laneHunts i enc8b10b = true) (hcomma : commaAt 0 g.length g = none) (f : Fld) :
    (c.laneReceive i l).get f i = (c.unitsGone i).get f i := by
  rw [Chip.laneReceive_chars h hplain hcheck hg henc, rxChars_seeking ((c.unitsGone_on i (by decide)).trans (Chip.unlocked_of_hunts hhunt))
    ((c.unitsGone_laneHunts i _).trans hhunt) hcomma]
  rfl

variable {x y : List Bool} (hlock : c.on .LQ_LANE_STATUS_LOCK i = true) (halign : c.get .LQ_LANE_CTL_ALIGN i = 0) (hxy : g = x ++ y)
  (hx : x.length = 10) (hy : y.length = 10)
include hlock halign hxy hx hy

/-- An aligned lane presents the characters of two groups, and keeps its alignment. -/
theorem Chip.laneReceive_characters (hbad : c.get .H_WIN_BAD i < 4) {b b' : Nat × Bool} (hb : dec10 x (c.on .H_RX_RD i) = some b)
    (hb' : dec10 y (rdAfter x (c.on .H_RX_RD i)) = some b') :
    (c.laneReceive i l).get .H_RX_UNIT (i * 32) = b.1 + b2n b.2 * 256 + 1 ∧ (c.laneReceive i l).get .H_RX_UNIT (i * 32 + 1) = b'.1 + b2n b'.2 * 256 + 1 ∧
    (c.laneReceive i l).get .LQ_LANE_STATUS_LOCK i = c.get .LQ_LANE_STATUS_LOCK i ∧ (c.laneReceive i l).get .LQ_LANE_ERR_COUNT i = c.get .LQ_LANE_ERR_COUNT i := by
  generalize hd : c.unitsGone i = d
  have kept {f : Fld} (hf : f ≠ .H_RX_UNIT) : d.get f i = c.get f i := hd ▸ c.unitsGone_get i i hf
  have on {f : Fld} (hf : f ≠ .H_RX_UNIT) : d.on f i = c.on f i := hd ▸ c.unitsGone_on i hf
  have hlen : g.length = 20 := by rw [hxy, List.length_append, hx, hy]
  have hb₁ : dec10 x (d.on .H_RX_RD i) = some b := by rw [on (by decide), hb]
  have hbad₁ : d.get .H_WIN_BAD i < 4 := (kept (by decide)).trans_lt hbad
  obtain ⟨only₁, hbad₂⟩ := Chip.rxGroup_shown (u := 0) hbad₁ hb₁
  have disparity : (d.rxGroup i 0 x).on .H_RX_RD i = rdAfter x (c.on .H_RX_RD i) := by
    rw [← on (by decide), ← Chip.charShown_disparity d i 0 x b]
    unfold Chip.on
    rw [only₁.get i rfl (by decide)]
  have hb₂ : dec10 y ((d.rxGroup i 0 x).on .H_RX_RD i) = some b' := by rw [disparity, hb']
  obtain ⟨only₂, -⟩ := Chip.rxGroup_shown (u := 1) hbad₂ hb₂
  have rest {f : Fld} (hf : f ∉ [.H_WIN, .H_WIN_BAD] ++ charFields) (hs : f.signal = false) (hu : f ≠ .H_RX_UNIT) :
      ((d.rxGroup i 0 x).rxGroup i 1 y).get f i = c.get f i := by
    have first := (d.charShown_only i 0 x b).get i hs fun hm => hf (List.mem_append_right _ hm)
    have second := ((d.rxGroup i 0 x).charShown_only i 1 y b').get i hs fun hm => hf (List.mem_append_right _ hm)
    rw [only₂.get i hs fun hm => hf (List.mem_append_left _ hm), second, only₁.get i hs fun hm => hf (List.mem_append_left _ hm), first, kept hu]
  have hlock₂ : ((d.rxGroup i 0 x).rxGroup i 1 y).on .LQ_LANE_STATUS_LOCK i = true := by
    rw [← hlock]
    unfold Chip.on
    rw [rest (by decide) rfl (by decide)]
  have hget (f : Fld) (j : Nat) : (c.laneReceive i l).get f j = ((d.rxGroup i 0 x).rxGroup i 1 y).get f j := by
    rw [Chip.laneReceive_chars h hplain hcheck hg henc, hd, hlen, hxy, rxChars_two ((on (by decide)).trans hlock) ((kept (by decide)).trans halign) hx hy hb₁ hbad₁,
      rxChars_short hlock₂ (by decide), Chip.lineTaken_get, Chip.groupKept_get]
  refine ⟨?_, ?_, (hget _ _).trans (rest (by decide) rfl (by decide)), (hget _ _).trans (rest (by decide) rfl (by decide))⟩
  · rw [hget, only₂.get _ rfl (by decide), Chip.charShown_unit_ne _ _ _ _ _ (by omega), only₁.get _ rfl (by decide)]
    exact Chip.charShown_unit d i 0 x b
  · rw [hget, only₂.get _ rfl (by decide), Chip.charShown_unit]

/-- The fourth invalid group of a window loses the alignment. -/
theorem Chip.laneReceive_misaligned (hlast : c.get .H_WIN_BAD i = 3) (hbad : dec10 x (c.on .H_RX_RD i) = none) (hcomma : commaAt 0 10 y = none) :
    (c.laneReceive i l).get .H_RX_UNIT (i * 32) = 0x3FF ∧ (c.laneReceive i l).LockLost i ∧
    (c.laneReceive i l).get .LQ_LANE_ERR_COUNT i = satAdd (2 ^ 32 - 1) (c.get .LQ_LANE_ERR_COUNT i) 1 := by
  generalize hd : c.unitsGone i = d
  have kept {f : Fld} (hf : f ≠ .H_RX_UNIT) : d.get f i = c.get f i := hd ▸ c.unitsGone_get i i hf
  have on {f : Fld} (hf : f ≠ .H_RX_UNIT) : d.on f i = c.on f i := hd ▸ c.unitsGone_on i hf
  have hlen : g.length = 20 := by rw [hxy, List.length_append, hx, hy]
  have hbad' : dec10 x (d.on .H_RX_RD i) = none := by rw [on (by decide), hbad]
  obtain ⟨unit, lost, errors⟩ := Chip.rxGroup_lost (u := 0) hbad' ((kept (by decide)).trans hlast)
  have hget (f : Fld) (j : Nat) : (c.laneReceive i l).get f j = (d.rxGroup i 0 x).get f j := by
    rw [Chip.laneReceive_chars h hplain hcheck hg henc, hd, hlen, hxy, rxChars_first ((on (by decide)).trans hlock) ((kept (by decide)).trans halign) hx]
    rw [Chip.lineTaken_get, Chip.groupKept_get, rxChars_unlocked (Chip.not_on_of_zero lost.1) (hy ▸ hcomma)]
  rw [Chip.LockLost, hget, hget, hget, hget, errors, kept (by decide)]
  exact ⟨unit, lost, rfl⟩

end

/-! Adaptation and signal detect -/

section
variable {c : Chip} {i : Nat}

theorem Chip.adaptTaps_keepsAll (c : Chip) (i : Nat) : KeepsAll c (c.adaptTaps i) ((List.range 12).map fun k => (.H_DFE_TAP, i * 12 + k)) := by
  unfold Chip.adaptTaps
  split
  · exact .refl c _
  · exact List.foldlRecOn (motive := fun d => KeepsAll c d _) _ _ (.refl c _) fun d hd k hk => KeepsAll.set (d := (d.fresh 8).2) hd _ (List.mem_map_of_mem hk)

theorem Chip.signalDetect_up (hdark : c.get .LQ_LANE_STATUS_SIGDET i = 0) (hen : c.laneEn i = true) (henc : c.laneEnc i = encRaw) :
    c.signalDetect i true = (c.set .LQ_LANE_STATUS_SIGDET i 1).set .LQ_LANE_STATUS_LOCK i 1 := by
  have hen' : (c.set .LQ_LANE_STATUS_SIGDET i 1).laneEn i = true := by
    rw [← hen]
    unfold Chip.laneEn Chip.on
    rw [Chip.get_set_ne _ _ (by simp)]
  have henc' : (c.set .LQ_LANE_STATUS_SIGDET i 1).laneEnc i = encRaw := (Chip.get_set_ne _ _ (by simp)).trans henc
  have hon : (c.set .LQ_LANE_STATUS_SIGDET i 1).on .LQ_LANE_STATUS_SIGDET i = true := Chip.on_of_one (Chip.get_set_same _ _ _ _)
  rw [Chip.signalDetect, Chip.not_on_of_zero hdark, if_neg (by decide), if_pos rfl, Chip.laneRaw, hen', henc', hon]
  rfl

/-- The registers of a lane without a signal, before the loss of its lock. -/
def Chip.signalLost (c : Chip) (i : Nat) : Chip := (c.set .LQ_LANE_STATUS_SIGDET i 0).set .LQ_LANE_STATUS_ADAPTED i 0

theorem Chip.signalLost_only (c : Chip) (i : Nat) : Chip.Only [.LQ_LANE_STATUS_SIGDET, .LQ_LANE_STATUS_ADAPTED] c (c.signalLost i) :=
  Chip.Only.set (Chip.Only.set (.refl c) 0 (by decide)) 0 (by decide)

theorem Chip.signalLost_get (c : Chip) (i : Nat) : (c.signalLost i).get .LQ_LANE_STATUS_SIGDET i = 0 ∧ (c.signalLost i).get .LQ_LANE_STATUS_ADAPTED i = 0 :=
  ⟨(Chip.get_set_ne _ _ (by simp)).trans (Chip.get_set_same _ _ _ _), Chip.get_set_same _ _ _ _⟩

theorem Chip.signalDetect_down (hsig : c.on .LQ_LANE_STATUS_SIGDET i = true) :
    c.signalDetect i false = if c.on .LQ_LANE_STATUS_LOCK i then (c.signalLost i).laneUnlock i else c.signalLost i := by
  have hlock : (c.signalLost i).on .LQ_LANE_STATUS_LOCK i = c.on .LQ_LANE_STATUS_LOCK i := by
    unfold Chip.on
    rw [(c.signalLost_only i).get i rfl (by decide)]
  rw [← hlock, Chip.signalDetect, hsig]
  rfl

/-- A lane without a signal is neither adapted nor locked. -/
theorem Chip.signalDetect_lost (hsig : c.on .LQ_LANE_STATUS_SIGDET i = true) :
    (c.signalDetect i false).get .LQ_LANE_STATUS_SIGDET i = 0 ∧ (c.signalDetect i false).get .LQ_LANE_STATUS_ADAPTED i = 0 ∧
    (c.signalDetect i false).get .LQ_LANE_STATUS_LOCK i = 0 ∧
    (c.on .LQ_LANE_STATUS_LOCK i = true → (c.signalDetect i false).get .LQ_LANE_STATUS_LOCK_LOST i = 1) := by
  obtain ⟨hdark, hnew⟩ := c.signalLost_get i
  rw [Chip.signalDetect_down hsig]
  cases hlock : c.on .LQ_LANE_STATUS_LOCK i with
  | true =>
    obtain ⟨hunlocked, hshown⟩ := (c.signalLost i).laneUnlock_lost i
    have kept (f : Fld) (hs : f.signal = false) (hf : f ∉ unlockFields) := ((c.signalLost i).laneUnlock_only i).get i hs hf
    rw [if_pos rfl]
    exact ⟨(kept .LQ_LANE_STATUS_SIGDET rfl (by decide)).trans hdark, (kept .LQ_LANE_STATUS_ADAPTED rfl (by decide)).trans hnew, hunlocked, fun _ => hshown⟩
  | false =>
    rw [if_neg Bool.false_ne_true]
    exact ⟨hdark, hnew, ((c.signalLost_only i).get i rfl (by decide)).trans (Chip.get_of_not_on hlock), fun hon => absurd hon Bool.false_ne_true⟩

end

/-- Bits that a lane does not receive in 64b/66b change nothing. -/
theorem Chip.blockLock_of_deaf {c : Chip} {i : Nat} (l : List Bool) (h : c.laneEnc i ≠ enc64b66b ∨ c.laneEn i = false ∨ c.get .LQ_LANE_STATUS_SIGDET i = 0) :
    c.blockLock i l = c := by
  unfold Chip.blockLock Chip.laneReceive
  split
  next henc =>
    obtain hother | hoff | hdark := h
    · exact absurd henc hother
    · exact if_pos (by simp [hoff])
    · exact if_pos (by simp [Chip.not_on_of_zero hdark])
  next => rfl

/-! O44 -/

section
variable {c : Chip} {i : Nat} {l : List Bool}

theorem Chip.blockLock_eq (henc : c.laneEnc i = enc64b66b) : c.blockLock i l = c.laneReceive i l := if_pos henc

theorem Chip.commaBits_eq (henc : c.laneEnc i = enc8b10b) : c.commaBits i l = c.laneReceive i l := if_pos henc

theorem Chip.lockLoss_eq (hlock : c.on .LQ_LANE_STATUS_LOCK i = true) (henc : c.laneEnc i ≠ encRaw) : c.lockLoss i l = c.laneReceive i l :=
  if_pos (by simp [hlock, henc])

end

/-- Settles O44, a receiver's case at a time. -/
theorem lanesLock : Obligations.LanesLock := by
  intro q l pb bits s i c g period same errs lost
  refine ⟨?blocks, ?chars, ?deaf, ?adapted, ?up, ?down, rfl⟩
  case blocks =>
    rintro ⟨hen, hsig, hfresh, hwhole, hplain, hcheck⟩ henc hlen head valid
    have h : c.LanePeriod i bits := ⟨hen, hsig, hfresh, hwhole⟩
    have hencoded : c.laneEnc i ≠ encRaw := by rw [henc]; decide
    have hok : valid → headOk g = true := headOk_iff.mpr
    have hbad : ¬valid → headOk g = false := fun hv => Bool.eq_false_iff.mpr fun hk => hv (headOk_iff.mp hk)
    refine ⟨fun hhunt => ?hunting, fun hlock hwin => ?locked⟩
    case hunting =>
      have hunlocked : c.get .LQ_LANE_STATUS_LOCK i = 0 := Chip.get_of_not_on (Chip.unlocked_of_hunts hhunt)
      have payload {f : Fld} (hf : f ∉ [Fld.H_DESC]) (hs : f.signal = false) (hu : f ≠ .H_RX_UNIT) :
          ((c.unitsGone i).rxPayload i ((g.drop 2).take 64)).2.get f i = c.get f i :=
        ((Chip.rxPayload_only _ i _).get i hs hf).trans (c.unitsGone_get i i hu)
      have counted (hv : valid) (f : Fld) := Chip.laneReceive_headCounted h hplain hcheck rfl henc hlen hhunt (hok hv) f
      refine ⟨fun hv h63 => ?_, fun hv hless => ?_, fun hv => ?_⟩
      · obtain ⟨hl, hh⟩ := Chip.headCounted_locked ((payload (by decide) rfl (by decide)).trans h63)
        exact does_of_onChip rfl (Chip.blockLock_eq henc) ⟨(counted hv _).trans hl, (counted hv _).trans hh, rfl, rfl⟩
      · have hhead := payload (f := .H_HUNT) (by decide) rfl (by decide)
        obtain ⟨hl, hh⟩ := Chip.headCounted_counted (hhead.trans_lt hless)
        refine does_of_onChip rfl (Chip.blockLock_eq henc) ⟨(counted hv _).trans (hl.trans ?_), (counted hv _).trans (hh.trans ?_), rfl, rfl⟩
        · exact (payload (by decide) rfl (by decide)).trans hunlocked
        · rw [hhead]
      · obtain ⟨kept, group⟩ := Chip.laneReceive_slipped h hplain hcheck rfl henc hlen hhunt (hbad hv)
        refine does_of_onChip rfl (Chip.blockLock_eq henc) ⟨(kept _).trans ?_, (kept _).trans (Chip.get_set_same _ _ _ _), group, rfl, rfl⟩
        exact (Chip.get_set_ne _ _ (by simp)).trans ((c.unitsGone_get i i (by decide)).trans hunlocked)
    case locked =>
      have taken (f : Fld) (j : Nat) := Chip.laneReceive_blockTaken h hplain hcheck rfl henc hlen hlock f j
      have shown {f : Fld} (hf : f ∉ [Fld.H_DESC, .H_RX_UNIT]) (hs : f.signal = false) : ((c.unitsGone i).blockShown i 0 g).get f i = c.get f i :=
        (Chip.blockShown_only _ i 0 g).get i hs hf |>.trans (c.unitsGone_get i i fun hu => hf (by simp [hu]))
      have unit : (c.laneReceive i bits).get .H_RX_UNIT (i * 32) = head + 4 * (c.rxPayload i ((g.drop 2).take 64)).1 + 1 := by
        rw [taken, ← Chip.rxPayload_eq (c.unitsGone_get i i (by decide)) (c.unitsGone_get i i (by decide))]
        exact Chip.blockTaken_unit _ i 0 g
      have hbadShown := shown (f := .H_WIN_BAD) (by decide) rfl
      refine ⟨fun hv => ?_, fun hv hless => ?_, fun hv hlast => ?_⟩
      · have checked := (Chip.laneCheck_valid 64 (hbadShown.trans_lt hwin)).1
        rw [← hok hv, ← Chip.blockTaken_eq] at checked
        refine does_of_onChip rfl (Chip.lockLoss_eq hlock hencoded) ⟨unit, ?_, ?_, rfl, rfl⟩
        · exact (taken _ _).trans ((checked.get i rfl (by decide)).trans (shown (by decide) rfl))
        · exact (taken _ _).trans ((checked.get i rfl (by decide)).trans (shown (by decide) rfl))
      · have checked := Chip.laneCheck_kept 64 (limit := 16) (by rw [hbadShown]; omega) le_rfl
        have errors := Chip.laneCheck_errors (c := (c.unitsGone i).blockShown i 0 g) (i := i) (limit := 16) 64
        rw [← hbad hv, ← Chip.blockTaken_eq] at checked errors
        refine does_of_onChip rfl (Chip.lockLoss_eq hlock hencoded) ⟨unit, ?_, ?_, rfl, rfl⟩
        · exact (taken _ _).trans ((checked.get i rfl (by decide)).trans (shown (by decide) rfl))
        · exact (taken _ _).trans (errors.trans (by rw [shown (by decide) rfl]))
      · have unlocked := Chip.laneCheck_lost 64 (limit := 16) (by rw [hbadShown, hlast]) le_rfl
        have errors := Chip.laneCheck_errors (c := (c.unitsGone i).blockShown i 0 g) (i := i) (limit := 16) 64
        rw [← hbad hv, ← Chip.blockTaken_eq] at unlocked errors
        exact does_of_onChip rfl (Chip.lockLoss_eq hlock hencoded)
          ⟨⟨(taken _ _).trans unlocked.1, (taken _ _).trans unlocked.2⟩, (taken _ _).trans (errors.trans (by rw [shown (by decide) rfl])), rfl, rfl⟩
  case chars =>
    rintro ⟨hen, hsig, hfresh, hwhole, hplain, hcheck⟩ henc
    have h : c.LanePeriod i bits := ⟨hen, hsig, hfresh, hwhole⟩
    have hencoded : c.laneEnc i ≠ encRaw := by rw [henc]; decide
    refine ⟨fun k hhunt hcomma hfew => ?_, fun hhunt hcomma => ?_, fun x y hlock halign hxy hx hy hwin => ⟨fun b b' hb hb' => ?_, fun hnone hlast hcomma => ?_⟩⟩
    · obtain ⟨hl, group⟩ := Chip.laneReceive_aligned h hplain hcheck rfl henc hhunt hcomma hfew
      exact does_of_onChip rfl (Chip.commaBits_eq henc) ⟨hl, group, rfl, rfl⟩
    · refine does_of_onChip rfl (Chip.commaBits_eq henc) ⟨(Chip.laneReceive_unaligned h hplain hcheck rfl henc hhunt hcomma _).trans ?_, rfl, rfl⟩
      exact (c.unitsGone_get i i (by decide)).trans (Chip.get_of_not_on (Chip.unlocked_of_hunts hhunt))
    · obtain ⟨first, second, hkept, errors⟩ := Chip.laneReceive_characters h hplain hcheck rfl henc hlock halign hxy hx hy hwin hb hb'
      exact does_of_onChip rfl (Chip.lockLoss_eq hlock hencoded) ⟨first, second, hkept, errors, rfl, rfl⟩
    · obtain ⟨unit, unlocked, errors⟩ := Chip.laneReceive_misaligned h hplain hcheck rfl henc hlock halign hxy hx hy hlast hnone hcomma
      exact does_of_onChip rfl (Chip.lockLoss_eq hlock hencoded) ⟨unit, unlocked, errors, rfl, rfl⟩
  case deaf =>
    intro hdeaf
    have hsame : s.onChip (fun x => x.blockLock i bits) = s := by rw [State.onChip, Chip.blockLock_of_deaf bits hdeaf]
    exact congrArg Host.Outcome.next hsame
  case adapted =>
    intro hen hsig
    refine does_of_onChip rfl (if_pos (by rw [hen, hsig]; rfl)) ⟨Chip.get_set_same _ _ _ _, ?_, rfl, rfl⟩
    exact KeepsAll.set ((c.adaptTaps_keepsAll i).widen (List.subset_cons_self _ _)) 1 List.mem_cons_self
  case up =>
    intro hdark hen henc
    refine does_of_onChip rfl (Chip.signalDetect_up hdark hen henc) ⟨?_, Chip.get_set_same _ _ _ _, ?_, rfl, rfl⟩
    · exact (Chip.get_set_ne _ _ (by simp)).trans (Chip.get_set_same _ _ _ _)
    · exact ((KeepsAll.refl c _).set 1 (by simp [i])).set 1 (by simp [i])
  case down =>
    intro hsig
    obtain ⟨hdark, hnew, hunlocked, hshown⟩ := Chip.signalDetect_lost hsig
    exact does_of_onChip rfl rfl ⟨hdark, hnew, hunlocked, hshown, rfl, rfl⟩

end Sys2Proof.Machine
end
section
/-! PROOFS. The PRBS checker of a lane, bit by bit (R284, R285). -/

namespace Sys2Proof.Machine

/-- What the checker of a lane goes by: the pattern and the inversion, its register, and its counts. -/
structure Checker where
  pat : Nat
  inv : Bool
  reg : Nat
  lock : Nat
  run : Nat
  win : Nat
  bad : Nat
  errs : Nat
  bits : Nat

/-- The checker of lane `i`. -/
def Chip.checker (c : Chip) (i : Nat) : Checker :=
  ⟨c.get .LQ_PRBS_CTL_PAT i, c.on .LQ_PRBS_CTL_INV i, c.get .H_CHK i, c.get .LQ_PRBS_STATUS_CHK_LOCK i, c.get .H_CHK_RUN i, c.get .H_CHK_WIN i, c.get .H_CHK_BAD i,
    c.get .LQ_PRBS_ERR_COUNT i, c.get .H_PRBS_BITS i⟩

/-- The bit that a checker expects, and its register once that bit has entered. -/
def Checker.want (x : Checker) : Bool := patNext x.pat x.reg
def Checker.pushed (x : Checker) : Nat := patPush x.reg x.want

/-- Whether bit `b` of the line is an error, as a number. -/
def Checker.wrong (x : Checker) (b : Bool) : Nat := b2n ((b ^^ x.inv) ≠ x.want)

/-- A checker after a bit that lengthens its run, after the one that locks it, and after one that it counts. -/
def Checker.sought (x : Checker) : Checker := { x with reg := x.pushed, run := x.run + 1 }
def Checker.locked (x : Checker) : Checker := { x with reg := x.pushed, lock := 1, run := 0, win := 0, bad := 0 }
def Checker.counted (x : Checker) (b : Bool) : Checker :=
  { x with
    reg := x.pushed
    win := x.win + 1
    bad := x.bad + x.wrong b
    errs := satAdd (2 ^ 32 - 1) x.errs (x.wrong b)
    bits := min (x.bits + 1) (2 ^ 64 - 1) }

/-! What a value of a field is to the checker -/

section
variable (c : Chip) (i v : Nat)

theorem Chip.checker_set_reg (h : v < 2 ^ 31) : (c.set .H_CHK i v).checker i = { c.checker i with reg := v } := by
  simp [Chip.checker, Chip.on, Chip.get_set, Fld.clip_lt (f := .H_CHK) h]

theorem Chip.checker_set_lock (h : v < 2) : (c.set .LQ_PRBS_STATUS_CHK_LOCK i v).checker i = { c.checker i with lock := v } := by
  simp [Chip.checker, Chip.on, Chip.get_set, Fld.clip_lt (f := .LQ_PRBS_STATUS_CHK_LOCK) h]

theorem Chip.checker_set_run (h : v < 2 ^ 7) : (c.set .H_CHK_RUN i v).checker i = { c.checker i with run := v } := by
  simp [Chip.checker, Chip.on, Chip.get_set, Fld.clip_lt (f := .H_CHK_RUN) h]

theorem Chip.checker_set_win (h : v < 2 ^ 11) : (c.set .H_CHK_WIN i v).checker i = { c.checker i with win := v } := by
  simp [Chip.checker, Chip.on, Chip.get_set, Fld.clip_lt (f := .H_CHK_WIN) h]

theorem Chip.checker_set_bad (h : v < 2 ^ 7) : (c.set .H_CHK_BAD i v).checker i = { c.checker i with bad := v } := by
  simp [Chip.checker, Chip.on, Chip.get_set, Fld.clip_lt (f := .H_CHK_BAD) h]

theorem Chip.checker_set_bits (h : v < 2 ^ 64) : (c.set .H_PRBS_BITS i v).checker i = { c.checker i with bits := v } := by
  simp [Chip.checker, Chip.on, Chip.get_set, Fld.clip_lt (f := .H_PRBS_BITS) h]

theorem Chip.checker_count_errs : (c.count .LQ_PRBS_ERR_COUNT i v).checker i = { c.checker i with errs := satAdd (2 ^ 32 - 1) (c.checker i).errs v } := by
  have hcount := c.count_get_same (f := .LQ_PRBS_ERR_COUNT) i v rfl
  unfold Chip.count at hcount ⊢
  simp only [Chip.checker, Chip.on, hcount]
  simp [Chip.get_set]

end

theorem Checker.pushed_lt (x : Checker) : x.pushed < 2 ^ 31 := Nat.mod_lt _ (by decide)

/-! One bit -/

section
variable {c : Chip} {i : Nat} {x : Checker} {b : Bool} (hx : c.checker i = x)
include hx

section
variable (hlock : x.lock = 0) (hmatch : (b ^^ x.inv) = x.want)
include hlock hmatch

/-- A bit that continues the pattern is the next of the run of an unlocked checker. -/
theorem Chip.chkBit_seeking : c.chkBit i b =
    if x.run + 1 = 64 then ((((c.set .H_CHK i x.pushed).set .LQ_PRBS_STATUS_CHK_LOCK i 1).set .H_CHK_RUN i 0).set .H_CHK_WIN i 0).set .H_CHK_BAD i 0
    else (c.set .H_CHK i x.pushed).set .H_CHK_RUN i (x.run + 1) := by
  subst hx
  have hlock' : c.on .LQ_PRBS_STATUS_CHK_LOCK i = false := Chip.not_on_of_zero hlock
  have hmatch' : (b ^^ c.on .LQ_PRBS_CTL_INV i) = patNext (c.get .LQ_PRBS_CTL_PAT i) (c.get .H_CHK i) := hmatch
  rw [Chip.chkBit, hlock', hmatch', if_pos (by decide), if_pos rfl]
  rfl

/-- It lengthens the run. -/
theorem Chip.chkBit_sought (hrun : x.run + 1 < 64) : (c.chkBit i b).checker i = x.sought := by
  rw [Chip.chkBit_seeking hx hlock hmatch, if_neg hrun.ne, Chip.checker_set_run _ _ _ (by omega), Chip.checker_set_reg _ _ _ x.pushed_lt, hx]
  rfl

/-- The 64th locks the checker. -/
theorem Chip.chkBit_locked (hrun : x.run + 1 = 64) : (c.chkBit i b).checker i = x.locked := by
  rw [Chip.chkBit_seeking hx hlock hmatch, if_pos hrun, Chip.checker_set_bad _ _ _ (by decide), Chip.checker_set_win _ _ _ (by decide),
    Chip.checker_set_run _ _ _ (by decide), Chip.checker_set_lock _ _ _ (by decide), Chip.checker_set_reg _ _ _ x.pushed_lt, hx]
  rfl

end

variable (hlock : x.lock = 1)
include hlock

/-- The registers of a locked checker once a bit is counted, before its window is. -/
def Chip.bitCounted (c : Chip) (i : Nat) (x : Checker) (b : Bool) : Chip :=
  ((c.count .LQ_PRBS_ERR_COUNT i (x.wrong b)).set .H_PRBS_BITS i (min (x.bits + 1) (2 ^ 64 - 1))).set .H_CHK i x.pushed

theorem Chip.chkBit_counting : c.chkBit i b =
    if x.bad + x.wrong b = 64 then (((c.bitCounted i x b).chkStart i).set .LQ_PRBS_STATUS_CHK_LOST i 1).raise (200 + i / 4)
    else if x.win + 1 = 1024 then ((c.bitCounted i x b).set .H_CHK_WIN i 0).set .H_CHK_BAD i 0
    else ((c.bitCounted i x b).set .H_CHK_WIN i (x.win + 1)).set .H_CHK_BAD i (x.bad + x.wrong b) := by
  subst hx
  have hlock' : c.on .LQ_PRBS_STATUS_CHK_LOCK i = true := Chip.on_of_one hlock
  have hbad (n v : Nat) : ((c.count .LQ_PRBS_ERR_COUNT i n).set .H_PRBS_BITS i v).get .H_CHK_BAD i = c.get .H_CHK_BAD i :=
    (Chip.get_set_ne _ _ (by simp)).trans (Chip.get_set_ne _ _ (by simp))
  have hwin (n v : Nat) : ((c.count .LQ_PRBS_ERR_COUNT i n).set .H_PRBS_BITS i v).get .H_CHK_WIN i = c.get .H_CHK_WIN i :=
    (Chip.get_set_ne _ _ (by simp)).trans (Chip.get_set_ne _ _ (by simp))
  rw [Chip.chkBit, hlock', if_neg (by decide)]
  dsimp only
  rw [hbad, hwin]
  rfl

/-- A locked checker counts a bit. -/
theorem Chip.chkBit_counted (hwin : x.win + 1 < 1024) (hbad : x.bad + x.wrong b < 64) : (c.chkBit i b).checker i = x.counted b := by
  rw [Chip.chkBit_counting hx hlock, if_neg hbad.ne, if_neg hwin.ne, Chip.checker_set_bad _ _ _ (by omega), Chip.checker_set_win _ _ _ (by omega), Chip.bitCounted,
    Chip.checker_set_reg _ _ _ x.pushed_lt, Chip.checker_set_bits _ _ _ (by omega), Chip.checker_count_errs, hx]
  rfl

/-- The 64th error of a window shows. -/
theorem Chip.chkBit_lost (hbad : x.bad + x.wrong b = 64) : (c.chkBit i b).get .LQ_PRBS_STATUS_CHK_LOST i = 1 := by
  rw [Chip.chkBit_counting hx hlock, if_pos hbad, Chip.raise_get _ _ _ _ rfl, Chip.get_set_same]
  rfl

end

/-- What the checker gives a value while it keeps its lock, or seeks it. -/
def chkFields : List Fld := [.H_CHK, .LQ_PRBS_STATUS_CHK_LOCK, .H_CHK_RUN, .H_CHK_WIN, .H_CHK_BAD, .LQ_PRBS_ERR_COUNT, .H_PRBS_BITS]

/-- No bit takes CHK_LOST back. -/
theorem Chip.chkBit_lost_kept {c : Chip} {i : Nat} (h : c.get .LQ_PRBS_STATUS_CHK_LOST i = 1) (b : Bool) : (c.chkBit i b).get .LQ_PRBS_STATUS_CHK_LOST i = 1 := by
  have kept {d : Chip} (hd : Chip.Only chkFields c d) : d.get .LQ_PRBS_STATUS_CHK_LOST i = 1 := (hd.get i rfl (by decide)).trans h
  have pushed (v : Nat) : Chip.Only chkFields c (c.set .H_CHK i v) := Chip.Only.set (.refl c) v (by decide)
  have counted (n v w : Nat) : Chip.Only chkFields c (((c.count .LQ_PRBS_ERR_COUNT i n).set .H_PRBS_BITS i v).set .H_CHK i w) :=
    ((Chip.Only.set (.refl c) _ (by decide)).set v (by decide)).set w (by decide)
  unfold Chip.chkBit
  split
  · exact kept (.cond (((((pushed _).set 1 (by decide)).set 0 (by decide)).set 0 (by decide)).set 0 (by decide)) ((pushed _).set _ (by decide)))
  · dsimp only
    split
    · exact (Chip.raise_get _ _ _ _ rfl).trans (Chip.get_set_same _ _ _ _)
    · exact kept (.cond (((counted _ _ _).set 0 (by decide)).set 0 (by decide)) (((counted _ _ _).set _ (by decide)).set _ (by decide)))

/-! Lists of bits -/

/-- In how many places two lists of bits differ. -/
def bitErrors (l m : List Bool) : Nat := ((l.zip m).filter fun x => x.1 ≠ x.2).length

theorem bitErrors_cons (a b : Bool) (l m : List Bool) : bitErrors (a :: l) (b :: m) = b2n (a ≠ b) + bitErrors l m := by
  cases a <;> cases b <;> simp [bitErrors, b2n, Nat.add_comm]

theorem bitErrors_self (l : List Bool) : bitErrors l l = 0 := by
  induction l with
  | nil => rfl
  | cons a l ih => rw [bitErrors_cons, ih]; simp [b2n]

theorem satAdd_satAdd (top v m n : Nat) : satAdd top (satAdd top v m) n = satAdd top v (m + n) := by
  unfold satAdd
  split <;> split <;> split <;> omega

theorem satAdd_zero {top v : Nat} (h : v ≤ top) : satAdd top v 0 = v := by
  unfold satAdd
  split <;> omega

theorem min_succ_add_min (v n top : Nat) : min (min (v + 1) top + n) top = min (v + (n + 1)) top := by omega

theorem grayPairs_length (l : List Bool) : (grayPairs l).length = l.length := by
  induction l using grayPairs.induct with
  | case1 a b l ih => simp [grayPairs, ih]
  | case2 l h => rw [grayPairs]; exact h

theorem rateD_le (rate : Nat) : rateD rate ≤ 272 := by
  unfold rateD
  split <;> decide

/-- The checker takes bits. -/
def Chip.chkAll (c : Chip) (i : Nat) (l : List Bool) : Chip := l.foldl (fun c b => c.chkBit i b) c

/-- The bits `l` of the line as the checker compares them, and the pattern from its register on. -/
def Checker.got (x : Checker) (l : List Bool) : List Bool := l.map fun b => b ^^ x.inv
def Checker.wants (x : Checker) (n : Nat) : List Bool := (patBits x.pat n x.reg).1

theorem Checker.wrong_le (x : Checker) (b : Bool) : x.wrong b ≤ 1 := by
  unfold Checker.wrong b2n
  split <;> decide

/-- The errors of a list begin with its first bit's; the rest is compared with the pattern from the next register on. -/
theorem Checker.errors_cons (x : Checker) (b : Bool) (l : List Bool) :
    bitErrors (x.got (b :: l)) (x.wants (b :: l).length) = x.wrong b + bitErrors ((x.counted b).got l) ((x.counted b).wants l.length) := bitErrors_cons _ _ _ _

section
variable {i : Nat} {l : List Bool}

/-- Bits that continue the pattern, but fewer than lock a checker, lengthen its run. -/
theorem Chip.chkAll_sought {c : Chip} {x : Checker} (hx : c.checker i = x) (hlock : x.lock = 0) (hgot : x.got l = x.wants l.length) (hrun : x.run + l.length < 64) :
    ((c.chkAll i l).checker i).lock = 0 ∧ ((c.chkAll i l).checker i).run = x.run + l.length := by
  induction l generalizing c x with
  | nil =>
    subst hx
    exact ⟨hlock, rfl⟩
  | cons b l ih =>
    obtain ⟨hfirst, hrest⟩ := List.cons.inj hgot
    rw [List.length_cons] at hrun ⊢
    have hrun' : x.sought.run + l.length < 64 := by simp only [Checker.sought]; omega
    obtain ⟨unlocked, run⟩ := ih (Chip.chkBit_sought hx hlock hfirst (by omega)) hlock hrest hrun'
    exact ⟨unlocked, run.trans (by simp only [Checker.sought]; omega)⟩

/-- A locked checker counts bits and errors. -/
theorem Chip.chkAll_counted {c : Chip} {x : Checker} (hx : c.checker i = x) (hlock : x.lock = 1) (hwin : x.win + l.length < 1024)
    (hbad : x.bad + bitErrors (x.got l) (x.wants l.length) < 64) (hfit : l ≠ [] ∨ x.errs < 2 ^ 32 ∧ x.bits < 2 ^ 64) :
    ((c.chkAll i l).checker i).lock = 1 ∧ ((c.chkAll i l).checker i).errs = satAdd (2 ^ 32 - 1) x.errs (bitErrors (x.got l) (x.wants l.length)) ∧
    ((c.chkAll i l).checker i).bits = min (x.bits + l.length) (2 ^ 64 - 1) := by
  induction l generalizing c x with
  | nil =>
    obtain hnil | ⟨herrs, hbits⟩ := hfit
    · exact absurd rfl hnil
    subst hx
    have herrs' : (c.checker i).errs ≤ 2 ^ 32 - 1 := by omega
    have hbits' : (c.checker i).bits ≤ 2 ^ 64 - 1 := by omega
    exact ⟨hlock, (satAdd_zero herrs').symm, (min_eq_left hbits').symm⟩
  | cons b l ih =>
    rw [x.errors_cons] at hbad ⊢
    rw [List.length_cons] at hwin ⊢
    have hwin' : (x.counted b).win + l.length < 1024 := by simp only [Checker.counted]; omega
    have hbad' : (x.counted b).bad + bitErrors ((x.counted b).got l) ((x.counted b).wants l.length) < 64 := by rwa [← Nat.add_assoc] at hbad
    have herrs : (x.counted b).errs < 2 ^ 32 := Nat.lt_of_le_pred (by decide) (satAdd_le _ _ _)
    have hbits : (x.counted b).bits < 2 ^ 64 := by simp only [Checker.counted]; omega
    obtain ⟨locked, errs, bits⟩ := ih (Chip.chkBit_counted (b := b) hx hlock (by omega) (by omega)) hlock hwin' hbad' (.inr ⟨herrs, hbits⟩)
    exact ⟨locked, errs.trans (satAdd_satAdd _ _ _ _), bits.trans (min_succ_add_min _ _ _)⟩

/-- A checker that finds the pattern locks at the 64th bit that matches, and counts from there. -/
theorem Chip.chkAll_locked {c : Chip} {x : Checker} (hx : c.checker i = x) (hlock : x.lock = 0) (hgot : x.got l = x.wants l.length) (hrun : x.run < 64)
    (hlong : 64 ≤ x.run + l.length) (hshort : l.length < 1024) (herrs : x.errs < 2 ^ 32) (hbits : x.bits < 2 ^ 64) :
    ((c.chkAll i l).checker i).lock = 1 ∧ ((c.chkAll i l).checker i).errs = x.errs ∧
    ((c.chkAll i l).checker i).bits = min (x.bits + (x.run + l.length - 64)) (2 ^ 64 - 1) := by
  induction l generalizing c x with
  | nil => exact absurd hlong (Nat.not_le.mpr hrun)
  | cons b l ih =>
    obtain ⟨hfirst, hrest⟩ := List.cons.inj hgot
    rw [List.length_cons] at hlong hshort ⊢
    rcases Nat.lt_or_ge (x.run + 1) 64 with hmore | hlast
    · have hlong' : 64 ≤ x.sought.run + l.length := by simp only [Checker.sought]; omega
      obtain ⟨locked, errs, bits⟩ := ih (Chip.chkBit_sought hx hlock hfirst hmore) hlock hrest hmore hlong' (by omega) herrs hbits
      exact ⟨locked, errs, bits.trans (by simp only [Checker.sought]; omega)⟩
    · have hnone : bitErrors (x.locked.got l) (x.locked.wants l.length) = 0 := by rw [show x.locked.got l = x.locked.wants l.length from hrest, bitErrors_self]
      have hwin : x.locked.win + l.length < 1024 := by simp only [Checker.locked]; omega
      have hbad : x.locked.bad + bitErrors (x.locked.got l) (x.locked.wants l.length) < 64 := by rw [hnone]; exact Nat.zero_lt_succ _
      obtain ⟨locked, errs, bits⟩ := Chip.chkAll_counted (Chip.chkBit_locked hx hlock hfirst (by omega)) rfl hwin hbad (.inr ⟨herrs, hbits⟩)
      have hfit : x.locked.errs ≤ 2 ^ 32 - 1 := by simp only [Checker.locked]; omega
      rw [hnone, satAdd_zero hfit] at errs
      exact ⟨locked, errs, bits.trans (by simp only [Checker.locked]; omega)⟩

theorem Chip.chkAll_lost_kept {c : Chip} (h : c.get .LQ_PRBS_STATUS_CHK_LOST i = 1) : (c.chkAll i l).get .LQ_PRBS_STATUS_CHK_LOST i = 1 :=
  List.foldlRecOn (motive := fun d : Chip => d.get .LQ_PRBS_STATUS_CHK_LOST i = 1) l _ h fun _ hd b _ => Chip.chkBit_lost_kept hd b

/-- A locked checker loses its lock, which shows, where a window has 64 errors. -/
theorem Chip.chkAll_lost {c : Chip} {x : Checker} (hx : c.checker i = x) (hlock : x.lock = 1) (hwin : x.win + l.length < 1024) (hbad : x.bad < 64)
    (hmany : 64 ≤ x.bad + bitErrors (x.got l) (x.wants l.length)) : (c.chkAll i l).get .LQ_PRBS_STATUS_CHK_LOST i = 1 := by
  induction l generalizing c x with
  | nil => exact absurd hmany (Nat.not_le.mpr hbad)
  | cons b l ih =>
    have hone := x.wrong_le b
    rw [x.errors_cons] at hmany
    rw [List.length_cons] at hwin
    rcases Nat.lt_or_ge (x.bad + x.wrong b) 64 with hless | hlast
    · have hwin' : (x.counted b).win + l.length < 1024 := by simp only [Checker.counted]; omega
      exact ih (Chip.chkBit_counted hx hlock (by omega) hless) hlock hwin' hless (by rwa [← Nat.add_assoc] at hmany)
    · exact Chip.chkAll_lost_kept (c := c.chkBit i b) (Chip.chkBit_lost hx hlock (by omega))

end

end Sys2Proof.Machine
end
section
/-! PROOFS. The PRBS generator and checker as commands see them, and lane sparing (R284 to R289; O45). -/

namespace Sys2Proof.Machine

/-- The next state of an initiator's command, from what it does to the registers. -/
theorem does_of_seen_onChip {i : Instr} {who : Init} {s : State} {f : Chip → Chip} {d : Chip} {Q : State → Prop} (hexec : exec i s = .next ((s.seen who).onChip f))
    (hd : f (s.seen who).chip = d) (hQ : Q { s.seen who with chip := d }) : Does i s Q := by
  subst hd
  exact ⟨_, hexec, hQ⟩

/-! The bits of a period reach the checker -/

section
variable {c : Chip} {i : Nat} {l : List Bool}

/-- The bits that a lane's checker takes from those of its line: inverted by RXINV, and Gray-decoded where the lane is PAM4. -/
def Chip.chkLine (c : Chip) (i : Nat) (l : List Bool) : List Bool :=
  if ratePam4 (c.laneRate i) then grayPairs (l.map fun b => b ^^ c.on .LQ_LANE_CTL_RXINV i) else l.map fun b => b ^^ c.on .LQ_LANE_CTL_RXINV i

theorem Chip.chkLine_length : (c.chkLine i l).length = l.length := by
  unfold Chip.chkLine
  split
  · rw [grayPairs_length, List.length_map]
  · exact List.length_map _

theorem Chip.unitsGone_checker : (c.unitsGone i).checker i = c.checker i := by
  simp only [Chip.checker, Chip.unitsGone_on, Chip.unitsGone_get, ne_eq, reduceCtorEq, not_false_eq_true]

theorem Chip.unitsGone_laneRate : (c.unitsGone i).laneRate i = c.laneRate i := by
  unfold Chip.laneRate
  rw [c.unitsGone_on i (by decide), c.unitsGone_get i _ (by decide), c.unitsGone_get i _ (by decide)]

/-- A period gives the checker's fields what the checker gives them. -/
theorem Chip.laneReceive_checked (h : c.LanePeriod i l) (hon : c.on .LQ_PRBS_CTL_CHK_EN i = true) {f : Fld} (hs : f.signal = false) (hf : f ∉ receiverFields) :
    (c.laneReceive i l).get f i = ((c.unitsGone i).chkAll i (c.chkLine i l)).get f i := by
  have hon' : (c.unitsGone i).on .LQ_PRBS_CTL_CHK_EN i = true := (c.unitsGone_on i (by decide)).trans hon
  rw [Chip.laneReceive_period h, Chip.lineTaken_get, (Chip.rxPeriod_rest c i _).get i hs hf, Chip.chkBits, hon', if_pos rfl, Chip.unitsGone_laneRate]
  rfl

end

/-! LQ_PRBS_ERR -/

theorem regPlace_lq (who : Init) {x q off : Nat} (hx : x = 0x800000 + q * 0x4000 + off) (hq : q < 16) (ho : off < 0x4000) : regPlace who x = some ⟨.lq, q, off⟩ := by
  have hinst : (x - 0x800000) / 0x4000 = q := by omega
  have hoff : x % 0x4000 = off := by omega
  have hshared : sharedBlock x = some ⟨.lq, q, off⟩ := by
    simp only [sharedBlock]
    rw [if_neg (by omega), if_neg (by omega), if_neg (by omega), if_pos (by omega), hinst, hoff]
  cases who with
  | host n =>
    simp only [regPlace, hostBlock]
    rw [if_neg (by omega), if_neg (by omega), if_neg (by omega), hshared]
  | core k sec =>
    simp only [regPlace, coreBlock]
    rw [if_neg (by omega), if_neg (by omega), if_neg (by omega), if_neg (by omega), if_pos (by omega), hshared]

theorem find_LQ_PRBS_ERR (q core : Nat) (l : Fin 4) : (⟨.lq, q, 0x118 + l.val * 0x40⟩ : RegPlace).find core = some ⟨Reg.def_LQ_PRBS_ERR, q * 4 + l.val, false⟩ := by
  fin_cases l <;> simp [RegPlace.find, Blk.regs, Blk.regs_lq, RegDef.hit, Reg.def_LQ_QUAD_CTL, Reg.def_LQ_QUAD_STATUS, Reg.def_LQ_LANE_CTL, Reg.def_LQ_LANE_TXEQ,
    Reg.def_LQ_LANE_STATUS, Reg.def_LQ_LANE_ERR, Reg.def_LQ_PRBS_CTL, Reg.def_LQ_PRBS_STATUS, Reg.def_LQ_PRBS_ERR]

theorem targetMay_of_other (who : Init) {r : Reg} (t : Nat) (h : ¬(r = .IC_CLAIM ∨ r = .IC_COMPLETE)) : targetMay who r t = true := by
  cases who with
  | host n => rfl
  | core k sec => exact if_neg h

theorem regRead_LQ_PRBS_ERR {who : Init} {q : Fin 16} {l : Fin 4} {c : Chip} (hmay : c.regMay who ⟨.lq, q, 0x118 + l.val * 0x40⟩ false = true) (a : Arr) :
    regRead who (regAddr who .lq Reg.def_LQ_PRBS_ERR q.val l.val) 4 c a =
      (c.prbsErrRead (q.val * 4 + l.val)).2.answer .ok ((c.prbsErrRead (q.val * 4 + l.val)).1 % 2 ^ 32) := by
  have haddr : regAddr who .lq Reg.def_LQ_PRBS_ERR q.val l.val = 0x800000 + q.val * 0x4000 + (0x118 + l.val * 0x40) := rfl
  rw [regRead_four (regPlace_lq who haddr q.isLt (by omega)) (find_LQ_PRBS_ERR q _ l) (by omega) rfl hmay (targetMay_of_other who _ (show ¬(Reg.LQ_PRBS_ERR = .IC_CLAIM ∨ Reg.LQ_PRBS_ERR = .IC_COMPLETE) by decide)), read32_narrow rfl rfl]
  rfl

theorem Chip.prbsErrRead_keepsAll (c : Chip) (i : Nat) : KeepsAll c (c.prbsErrRead i).2 [(.LQ_PRBS_ERR_COUNT, i), (.H_PRBS_BITS, i), (.LQ_PRBS_BITS_COUNT, i)] :=
  (((KeepsAll.refl c _).set _ (by simp)).set _ (by simp)).set _ (by simp)

theorem Chip.prbsErrRead_get (c : Chip) (i : Nat) : (c.prbsErrRead i).2.get .LQ_PRBS_ERR_COUNT i = 0 ∧ (c.prbsErrRead i).2.get .H_PRBS_BITS i = 0 ∧
    (c.prbsErrRead i).2.get .LQ_PRBS_BITS_COUNT i = c.get .H_PRBS_BITS i % 2 ^ 64 := by
  refine ⟨?_, ?_, ?_⟩ <;> simp only [Chip.prbsErrRead, Chip.get_set, reduceCtorEq, false_and, if_false, and_self, if_true, Fld.clip_zero]
  exact Fld.clip_of_width_eq rfl (by decide) _

/-! LQ_PRBS_CTL -/

/-- The value of LQ_PRBS_CTL from its fields. -/
def prbsWord (inj rate inv pat chk gen : Nat) : Nat := inj * 2 ^ 16 + rate * 2 ^ 12 + inv * 2 ^ 11 + pat * 2 ^ 8 + chk * 2 ^ 1 + gen

section
variable {c : Chip} {i : Nat}

theorem Chip.regValue_LQ_PRBS_CTL (hinj : c.get .LQ_PRBS_CTL_INJ i < 2) (hrate : c.get .LQ_PRBS_CTL_INJ_RATE i < 16)
    (hinv : c.get .LQ_PRBS_CTL_INV i < 2)
    (hpat : c.get .LQ_PRBS_CTL_PAT i < 8) (hchk : c.get .LQ_PRBS_CTL_CHK_EN i < 2) (hgen : c.get .LQ_PRBS_CTL_GEN_EN i < 2) (a : Arr) :
    c.regValue a Reg.def_LQ_PRBS_CTL i = prbsWord (c.get .LQ_PRBS_CTL_INJ i) (c.get .LQ_PRBS_CTL_INJ_RATE i) (c.get .LQ_PRBS_CTL_INV i) (c.get .LQ_PRBS_CTL_PAT i)
      (c.get .LQ_PRBS_CTL_CHK_EN i) (c.get .LQ_PRBS_CTL_GEN_EN i) := by
  simp [Chip.regValue, Reg.def_LQ_PRBS_CTL, Chip.view, prbsWord, Nat.mod_eq_of_lt hinj, Nat.mod_eq_of_lt hrate, Nat.mod_eq_of_lt hinv, Nat.mod_eq_of_lt hpat,
    Nat.mod_eq_of_lt hchk, Nat.mod_eq_of_lt hgen]

theorem bits_prbsWord_pat {inj rate inv pat chk gen : Nat} (hpat : pat < 8) (hchk : chk < 2) (hgen : gen < 2) :
    bits (prbsWord inj rate inv pat chk gen) 10 8 = pat := by
  unfold bits prbsWord
  omega

theorem bit_prbsWord_chk {inj rate inv pat chk gen : Nat} (hchk : chk < 2) (hgen : gen < 2) : bit (prbsWord inj rate inv pat chk gen) 1 = chk := by
  unfold bit prbsWord
  omega

theorem bit_prbsWord_gen {inj rate inv pat chk gen : Nat} (hgen : gen < 2) : bit (prbsWord inj rate inv pat chk gen) 0 = gen := by
  unfold bit prbsWord
  omega

theorem bit_prbsWord_inj {inj rate inv pat chk gen : Nat} (hinj : inj < 2) (hrate : rate < 16) (hpat : pat < 8) (hchk : chk < 2) (hgen : gen < 2) (hinv : inv < 2) :
    bit (prbsWord inj rate inv pat chk gen) 16 = inj := by
  unfold bit prbsWord
  omega

end

/-- The registers once LQ_PRBS_CTL has its fields from `v`. -/
def Chip.prbsCtlStored (c : Chip) (i v : Nat) : Chip :=
  ((((c.set .LQ_PRBS_CTL_INJ_RATE i (bits v 15 12)).set .LQ_PRBS_CTL_INV i (bit v 11)).set .LQ_PRBS_CTL_PAT i (bits v 10 8)).set
    .LQ_PRBS_CTL_CHK_EN i (bit v 1)).set .LQ_PRBS_CTL_GEN_EN i (bit v 0)

section
variable {c : Chip} {i v : Nat}

/-- A write that leaves the generator's switch and the pattern, and asks for an error. -/
theorem Chip.writePrbsCtl_injecting (hown : c.ethLane i = false) (hle : bits v 10 8 ≤ 5) (hruns : ((bitB v 0 || bitB v 1) && !patOk (c.laneRate i) (bits v 10 8)) = false)
    (hpat : bits v 10 8 = c.get .LQ_PRBS_CTL_PAT i) (hgen : bitB v 0 = c.on .LQ_PRBS_CTL_GEN_EN i) (hinj : bitB v 16 = true) :
    ∃ d, c.writePrbsCtl i v = (Chip.prbsCtlStored d i v).prbsInject i := by
  have hgo : ¬(c.ethLane i || decide (5 < bits v 10 8) || ((bitB v 0 || bitB v 1) && !patOk (c.laneRate i) (bits v 10 8))) = true := by
    simp [hown, hruns, Nat.not_lt.mpr hle]
  have hsame : ¬(bitB v 0 && (!c.on .LQ_PRBS_CTL_GEN_EN i || decide (bits v 10 8 ≠ c.get .LQ_PRBS_CTL_PAT i))) = true := by
    rw [hgen, hpat]
    cases c.on .LQ_PRBS_CTL_GEN_EN i <;> simp
  refine ⟨if !bitB v 1 || !c.on .LQ_PRBS_CTL_CHK_EN i || bits v 10 8 ≠ c.get .LQ_PRBS_CTL_PAT i then c.chkStart i else c, ?_⟩
  unfold Chip.writePrbsCtl
  dsimp only
  rw [if_neg hgo, if_neg hsame, if_pos hinj]
  rfl

theorem Chip.prbsInjected_get (d : Chip) (hle : bits v 10 8 ≤ 5) (hgen : bit v 0 < 2) : ((d.prbsCtlStored i v).prbsInject i).get .LQ_PRBS_CTL_INJ i = 1 ∧
    ((d.prbsCtlStored i v).prbsInject i).get .LQ_PRBS_CTL_PAT i = bits v 10 8 ∧ ((d.prbsCtlStored i v).prbsInject i).get .LQ_PRBS_CTL_GEN_EN i = bit v 0 := by
  refine ⟨Chip.get_set_same _ _ _ _, ?_, ?_⟩ <;>
    simp only [Chip.prbsInject, Chip.prbsCtlStored, Chip.get_set, reduceCtorEq, false_and, if_false, and_self, if_true]
  · exact Fld.clip_lt (show bits v 10 8 < 2 ^ 3 by omega)
  · exact Fld.clip_lt hgen

end

theorem Chip.writePrbsCtl_of_ethLane {c : Chip} {i : Nat} (h : c.ethLane i = true) (v : Nat) : c.writePrbsCtl i v = c.lqReject (i / 4) := by
  simp [Chip.writePrbsCtl, h]

/-! Sparing -/

/-- What a switch of trees gives a value, and the instances that a switch of all of them may. -/
def treeFields : List Fld := [.H_TREE_PH, .H_TREE_LVL, .H_TREE_DEAD, .H_TREE_SRC]
def treeInstances : List (Fld × Nat) := (List.range 12).flatMap fun k => treeFields.map fun f => (f, k)

theorem Chip.treeWait_keepsAll {c d : Chip} {t : Nat} {ws : List (Fld × Nat)} (h : KeepsAll c d ws) (hws : ∀ f ∈ treeFields, (f, t) ∈ ws) : KeepsAll c (d.treeWait t) ws := by
  have low : KeepsAll c ((d.set .H_TREE_LVL t 0).set .H_TREE_DEAD t 0) ws := (h.set 0 (hws _ (by decide))).set 0 (hws _ (by decide))
  unfold Chip.treeWait
  dsimp only
  split
  · exact (low.set 0 (hws _ (by decide))).set 0 (hws _ (by decide))
  · exact low.set 2 (hws _ (by decide))

theorem Chip.treeSwitch_keepsAll {c d : Chip} {t : Nat} {ws : List (Fld × Nat)} (h : KeepsAll c d ws) (hws : ∀ f ∈ treeFields, (f, t) ∈ ws) : KeepsAll c (d.treeSwitch t) ws := by
  unfold Chip.treeSwitch
  split
  · exact h.set 0 (hws _ (by decide))
  · split
    · exact Chip.treeWait_keepsAll h hws
    · exact h.set 1 (hws _ (by decide))

theorem Chip.treesSwitch_keepsAll (c : Chip) : KeepsAll c c.treesSwitch treeInstances :=
  List.foldlRecOn (motive := fun d => KeepsAll c d treeInstances) _ _ (.refl c _) fun d hd t ht => by
    have hws : ∀ f ∈ treeFields, (f, t) ∈ treeInstances := fun f hf =>
      List.mem_flatMap.mpr ⟨t, ht, List.mem_map_of_mem hf⟩
    split
    · exact hd
    · exact Chip.treeSwitch_keepsAll hd hws

theorem not_mem_treeInstances {f : Fld} (hf : f ∉ treeFields) (j : Nat) : (f, j) ∉ treeInstances := fun hm => by
  obtain ⟨t, -, ht⟩ := List.mem_flatMap.mp hm
  obtain ⟨g, hg, heq⟩ := List.mem_map.mp ht
  exact hf ((Prod.mk.inj heq).1 ▸ hg)

theorem Chip.treesSwitch_get (c : Chip) {f : Fld} (hf : f ∉ treeFields) (j : Nat) : c.treesSwitch.get f j = c.get f j :=
  c.treesSwitch_keepsAll f j (not_mem_treeInstances hf j)

section
variable {c : Chip}

/-- A failed lane of a quad whose spare is free takes the spare. -/
theorem Chip.laneFail_spare {i : Nat} (hfailed : c.laneFailed i = true) (hfree : c.get .LQ_QUAD_STATUS_SPARE_USED (i / 4) = 0) :
    (c.laneFail i).get .LQ_QUAD_STATUS_SPARE_USED (i / 4) = 1 ∧
    (c.laneFail i).get .LQ_QUAD_STATUS_FAILED (i / 4) = orBit (c.get .LQ_QUAD_STATUS_FAILED (i / 4)) (i % 4) % 16 := by
  have hgo : (c.laneFailed i && !c.on .LQ_QUAD_STATUS_SPARE_USED (i / 4)) = true := by rw [hfailed, Chip.not_on_of_zero hfree]; rfl
  unfold Chip.laneFail
  dsimp only
  rw [if_pos hgo, Chip.raise_get _ _ _ _ rfl, Chip.raise_get _ _ _ _ rfl, Chip.logFault_get _ _ _ _ _ _ rfl, Chip.logFault_get _ _ _ _ _ _ rfl]
  simp only [Chip.get_set, reduceCtorEq, false_and, if_false, and_self, if_true]
  exact ⟨rfl, Fld.clip_of_width_eq rfl (by decide) _⟩

theorem Chip.laneFail_done {i : Nat} (hused : c.get .LQ_QUAD_STATUS_SPARE_USED (i / 4) ≠ 0) : c.laneFail i = c := by
  have hused' : c.on .LQ_QUAD_STATUS_SPARE_USED (i / 4) = true := by simpa [Chip.on] using hused
  exact if_neg (by simp [hused'])

/-- The port of a failed lane is served by the spare, and that of another by the lane itself. -/
theorem Chip.portLane_of_failed {i : Nat} (h : bitB (c.get .LQ_QUAD_STATUS_FAILED (i / 4)) (i % 4) = true) : c.portLane i = c.spareOf (i / 4) := if_pos h

theorem Chip.portLane_of_none {i : Nat} (h : c.get .LQ_QUAD_STATUS_FAILED (i / 4) = 0) : c.portLane i = i := by
  rw [Chip.portLane, h]
  exact if_neg (by simp [bitB, bit])

end

/-- A revert returns every port of the quad to its own lane. -/
theorem Chip.laneRevert_keepsAll (c : Chip) (q : Nat) : KeepsAll c (c.laneRevert q) [(.LQ_QUAD_STATUS_SPARE_USED, q), (.LQ_QUAD_STATUS_FAILED, q)] :=
  ((KeepsAll.refl c _).set 0 (by simp)).set 0 (by simp)

theorem Chip.laneRevert_get (c : Chip) (q : Nat) : (c.laneRevert q).get .LQ_QUAD_STATUS_SPARE_USED q = 0 ∧ (c.laneRevert q).get .LQ_QUAD_STATUS_FAILED q = 0 :=
  ⟨(Chip.get_set_ne _ _ (by simp)).trans (Chip.get_set_same _ _ _ _), Chip.get_set_same _ _ _ _⟩

/-! O45 -/

/-- A register command whose initiator may write acts once the access is answered OK. -/
theorem byRegister_of_may {who : Init} {b : Blk} {k off : Nat} {act : Chip → Arr → Mem → All} {c : Chip} (hmay : c.regMay who ⟨b, k, off⟩ true = true) (a : Arr) (m : Mem) :
    byRegister who b k off act c a m = act (c.answer .ok) a m := if_pos hmay

/-- A period of bits gives the checker of a lane what `Chip.chkAll` gives it. -/
theorem Chip.laneReceive_checker {c : Chip} {i : Nat} {l : List Bool} (h : c.LanePeriod i l) (hon : c.on .LQ_PRBS_CTL_CHK_EN i = true) :
    (c.laneReceive i l).checker i = ((c.unitsGone i).chkAll i (c.chkLine i l)).checker i := by
  have same {f : Fld} (hs : f.signal = false) (hf : f ∉ receiverFields) := Chip.laneReceive_checked h hon hs hf
  simp only [Chip.checker, Chip.on]
  rw [same rfl (by decide), same rfl (by decide), same rfl (by decide), same rfl (by decide), same rfl (by decide), same rfl (by decide), same rfl (by decide),
    same rfl (by decide), same rfl (by decide)]

/-- INJ of a lane's own register. -/
theorem Chip.injWrite {c : Chip} {i : Nat} (hown : c.ethLane i = false) (hpat : c.get .LQ_PRBS_CTL_PAT i ≤ 5) (hinj : c.get .LQ_PRBS_CTL_INJ i < 2)
    (hrate : c.get .LQ_PRBS_CTL_INJ_RATE i < 16) (hinv : c.get .LQ_PRBS_CTL_INV i < 2) (hchk : c.get .LQ_PRBS_CTL_CHK_EN i < 2)
    (hgen : c.get .LQ_PRBS_CTL_GEN_EN i < 2)
    (hruns : (c.get .LQ_PRBS_CTL_GEN_EN i = 0 ∧ c.get .LQ_PRBS_CTL_CHK_EN i = 0) ∨ patOk (c.laneRate i) (c.get .LQ_PRBS_CTL_PAT i) = true) (a : Arr) :
    let d := c.writePrbsCtl i (c.regValue a Reg.def_LQ_PRBS_CTL i + (1 - c.get .LQ_PRBS_CTL_INJ i) * 2 ^ 16)
    d.get .LQ_PRBS_CTL_INJ i = 1 ∧ d.get .LQ_PRBS_CTL_PAT i = c.get .LQ_PRBS_CTL_PAT i ∧ d.get .LQ_PRBS_CTL_GEN_EN i = c.get .LQ_PRBS_CTL_GEN_EN i := by
  have hword : c.regValue a Reg.def_LQ_PRBS_CTL i + (1 - c.get .LQ_PRBS_CTL_INJ i) * 2 ^ 16 =
      prbsWord 1 (c.get .LQ_PRBS_CTL_INJ_RATE i) (c.get .LQ_PRBS_CTL_INV i) (c.get .LQ_PRBS_CTL_PAT i) (c.get .LQ_PRBS_CTL_CHK_EN i) (c.get .LQ_PRBS_CTL_GEN_EN i) := by
    rw [Chip.regValue_LQ_PRBS_CTL hinj hrate hinv (by omega) hchk hgen]
    unfold prbsWord
    omega
  rw [hword]
  generalize hv : prbsWord 1 _ _ _ _ _ = v
  have hpat' : bits v 10 8 = c.get .LQ_PRBS_CTL_PAT i := hv ▸ bits_prbsWord_pat (by omega) hchk hgen
  have hgen' : bit v 0 = c.get .LQ_PRBS_CTL_GEN_EN i := hv ▸ bit_prbsWord_gen hgen
  have hchk' : bit v 1 = c.get .LQ_PRBS_CTL_CHK_EN i := hv ▸ bit_prbsWord_chk hchk hgen
  have hinj' : bitB v 16 = true := decide_eq_true (hv ▸ bit_prbsWord_inj (by decide) hrate (by omega) hchk hgen hinv)
  have hon : bitB v 0 = c.on .LQ_PRBS_CTL_GEN_EN i := by
    unfold bitB Chip.on
    rw [hgen']
    exact decide_eq_decide.mpr (by omega)
  have hruns' : ((bitB v 0 || bitB v 1) && !patOk (c.laneRate i) (bits v 10 8)) = false := by
    obtain ⟨hg, hc⟩ | hok := hruns
    · simp [bitB, hgen', hchk', hg, hc]
    · simp [hpat', hok]
  obtain ⟨d, hd⟩ := Chip.writePrbsCtl_injecting hown (by omega) hruns' hpat' hon hinj'
  rw [hd, ← hpat', ← hgen']
  exact Chip.prbsInjected_get d (by omega) (by omega)

/-- Settles O45: the checker by induction over the bits of the period, and each register access on its own. -/
theorem prbsAndSparing : Obligations.PrbsAndSparing := by
  intro who q l raw first n s i bits trees
  have hquad : i / 4 = q := by omega
  have hlane : i % 4 = l := by omega
  refine ⟨fun hon hen hsig hfresh hwhole => ?checker, ?registers, fun hfailed hfree => ?failure, fun hused => ?done⟩
  case checker =>
    intro line got want wrong run
    have h : s.chip.LanePeriod i bits := ⟨hen, hsig, hfresh, hwhole⟩
    have hlen : (s.chip.chkLine i bits).length = bits.length := Chip.chkLine_length
    have hshort := rateD_le (s.chip.laneRate i)
    have hx : (s.chip.unitsGone i).checker i = s.chip.checker i := Chip.unitsGone_checker
    have hwant : (s.chip.checker i).wants (s.chip.chkLine i bits).length = want := by rw [hlen]; rfl
    have hgot : (s.chip.checker i).got (s.chip.chkLine i bits) = got := rfl
    have hwrong : bitErrors got want = wrong := rfl
    have hend := Chip.laneReceive_checker h hon
    refine ⟨fun hlock hsame hrun hlong herrs hbits => ?_, fun hlock hsame hrun => ?_, fun hlock hwin hbad => ?_, fun hlock hwin hbad hmany => ?_⟩
    · obtain ⟨locked, errs, count⟩ := Chip.chkAll_locked hx hlock (by rw [hgot, hwant, hsame]) hrun (by rw [hlen]; exact hlong) (by omega) herrs hbits
      rw [← hend] at locked errs count
      exact does_of_onChip rfl rfl ⟨locked, errs, hlen ▸ count, rfl, rfl⟩
    · obtain ⟨unlocked, count⟩ := Chip.chkAll_sought hx hlock (by rw [hgot, hwant, hsame]) (by rw [hlen]; exact hrun)
      rw [← hend] at unlocked count
      exact does_of_onChip rfl rfl ⟨unlocked, hlen ▸ count, rfl, rfl⟩
    · have hsome : s.chip.chkLine i bits ≠ [] := fun hnil => by
        have hd := rateD_pos (s.chip.laneRate i)
        rw [hnil, List.length_nil] at hlen
        omega
      obtain ⟨locked, errs, count⟩ := Chip.chkAll_counted hx hlock (by rw [hlen]; exact hwin) (by rw [hgot, hwant]; exact hbad) (.inl hsome)
      rw [← hend] at locked errs count
      rw [hgot, hwant] at errs
      exact does_of_onChip rfl rfl ⟨locked, errs, hlen ▸ count, rfl, rfl⟩
    · have lost := Chip.chkAll_lost hx hlock (by rw [hlen]; exact hwin) hbad (by rw [hgot, hwant]; exact hmany)
      rw [← Chip.laneReceive_checked h hon rfl (by decide)] at lost
      exact does_of_onChip rfl rfl ⟨lost, rfl, rfl⟩
  case registers =>
    intro s₀ s
    refine ⟨fun hmay => ?_, fun hmay hpat hinj hrate hinv hchk hgen => ⟨fun hown hruns => ?_, fun hlent => ?_⟩, fun hmay => ?_⟩
    · obtain ⟨errs, run, latched⟩ := s.chip.prbsErrRead_get i
      refine does_of_seen_onChip rfl (regRead_LQ_PRBS_ERR hmay s.arr) ⟨Chip.answer_resp _ _ _ _, ?_, ?_, ?_, fun g j hg => ?_, rfl, rfl⟩
      · exact (Chip.answer_get ..).trans errs
      · exact (Chip.answer_get ..).trans run
      · exact (Chip.answer_get ..).trans latched
      · exact (Chip.answer_get ..).trans (s.chip.prbsErrRead_keepsAll i g j hg)
    · obtain ⟨injected, pattern, generator⟩ := Chip.injWrite (c := s.chip.answer .ok) hown hpat hinj hrate hinv hchk hgen hruns s.arr
      exact ⟨_, congrArg Host.Outcome.next (State.onAll_eq (byRegister_of_may hmay _ _)), injected, pattern, generator, rfl, rfl⟩
    · have hwrite (v : Nat) := (Chip.writePrbsCtl_of_ethLane (c := s.chip.answer .ok) hlent v).trans (congrArg (Chip.lqReject _) hquad)
      exact congrArg Host.Outcome.next ((State.onAll_eq (byRegister_of_may hmay _ _)).trans (congrArg (fun d => { s with chip := d }) (hwrite _)))
    · obtain ⟨free, none⟩ := (s.chip.answer .ok).laneRevert_get q
      have trees := ((s.chip.answer .ok).laneRevert q).treesSwitch_keepsAll
      have kept {f : Fld} (hf : f ∉ treeFields) (j : Nat) := ((s.chip.answer .ok).laneRevert q).treesSwitch_get hf j
      have answered : KeepsAll s.chip (s.chip.answer .ok) [] := fun g j _ => Chip.answer_get ..
      refine does_of_byRegister rfl hmay ⟨(kept (by decide) q).trans free, (kept (by decide) q).trans none, Chip.portLane_of_none ?_, ?_, rfl, rfl⟩
      · rw [hquad]
        exact (kept (by decide) q).trans none
      · exact answered.trans (((s.chip.answer .ok).laneRevert_keepsAll q).trans trees)
  case failure =>
    obtain ⟨used, marked⟩ := Chip.laneFail_spare hfailed (hquad ▸ hfree)
    have kept {f : Fld} (hf : f ∉ treeFields) (j : Nat) := (s.chip.laneFail i).treesSwitch_get hf j
    have hspare : (s.chip.laneFail i).treesSwitch.portLane i = (s.chip.laneFail i).treesSwitch.spareOf q := by
      rw [Chip.portLane_of_failed, hquad]
      rw [kept (by decide), marked]
      exact bitB_orBit_clip (f := .LQ_QUAD_STATUS_FAILED) (Nat.mod_lt _ (by decide)) _
    rw [hquad] at used marked
    rw [hlane] at marked
    exact does_of_onChip rfl rfl ⟨(kept (by decide) q).trans used, (kept (by decide) q).trans marked, hspare, rfl, rfl⟩
  case done =>
    refine does_of_onChip rfl rfl ⟨?_, rfl, rfl⟩
    have hsame : s.chip.laneFail i = s.chip := Chip.laneFail_done (hquad ▸ hused)
    rw [show s.chip.laneFail (q.val * 4 + l.val) = s.chip from hsame]
    exact s.chip.treesSwitch_keepsAll

end Sys2Proof.Machine
end
section
/-! PROOFS. The service Ethernet ports: frames, epochs and stamps (R290 to R292, R348; O46). -/

namespace Sys2Proof.Machine

/-! Writes of service SRAM -/

/-- In an SRAM without errors a write of bytes puts all of them, whatever words they lie in, and changes nothing else. -/
theorem sramWrite_of_clean {fuel : Nat} {d : List Byte} (hfuel : d.length ≤ fuel) (a : Nat) (c : Chip) {m : Mem} (hclean : m.sramErr = []) :
    sramWrite fuel a d c m = ⟨.ok, [], c, { m with sram := Memory.writeN m.sram a d }⟩ := by
  induction fuel generalizing a d m with
  | zero =>
    obtain rfl : d = [] := List.eq_nil_of_length_eq_zero (Nat.le_zero.mp hfuel)
    rfl
  | succ fuel ih =>
    cases d with
    | nil => rfl
    | cons b d =>
      generalize hk : min (b :: d).length (8 - a % 8) = k
      have hpos : 0 < k := by rw [← hk, List.length_cons]; omega
      have hle : k ≤ (b :: d).length := by rw [← hk]; exact min_le_left _ _
      have htake : ((b :: d).take k).length = k := List.length_take_of_le hle
      have hword : (if k = 8 then (Ecc.good, c, { m with sramErr := NatMap.put 0 m.sramErr (a / 8) 0 }) else sramEcc c m (a / 8)) = (Ecc.good, c, m) := by
        cases m
        subst hclean
        split <;> rfl
      have hrest := ih (d := (b :: d).drop k) (a := a + k) (m := { m with sram := Memory.writeN m.sram a ((b :: d).take k) }) (by rw [List.length_drop]; omega) hclean
      have hall : Memory.writeN (Memory.writeN m.sram a ((b :: d).take k)) (a + k) ((b :: d).drop k) = Memory.writeN m.sram a (b :: d) := by
        have happend := Memory.writeN_append m.sram a ((b :: d).take k) ((b :: d).drop k)
        rw [htake, List.take_append_drop] at happend
        exact happend.symm
      have hgood : ¬Ecc.good = Ecc.bad := by decide
      rw [sramWrite, hk, hword]
      · simp only [if_neg hgood, hrest, hall]
        rfl
      · exact List.cons_ne_nil b d

/-- LEN, FLAGS and TIME of a returned descriptor. -/
def returnedBytes (len flags time : Nat) : List Byte := toBytes 2 len ++ toBytes 2 flags ++ toBytes 8 time

theorem length_returnedBytes (len flags time : Nat) : (returnedBytes len flags time).length = 12 := by simp [returnedBytes, length_toBytes]

/-- They are the twelve bytes from offset 4 on. -/
theorem EthDesc.finish_of_clean (d : EthDesc) (len flags time : Nat) (c : Chip) {m : Mem} (hclean : m.sramErr = []) :
    d.finish len flags time c m = (c, { m with sram := Memory.writeN m.sram (d.at' + 4) (returnedBytes len flags time) }) := by
  have hlen : (returnedBytes len flags time).length ≤ 32 := by rw [length_returnedBytes]; decide
  rw [EthDesc.finish, ← returnedBytes, sramWrite_of_clean hlen _ c hclean]

/-- The bytes of a returned descriptor, and no others, are LEN, FLAGS and TIME. -/
theorem read_finish_ne (m : List Host.Cell) {a len flags time x : Nat} (h : ¬(a ≤ x ∧ x < a + 12)) :
    Memory.read (Memory.writeN m a (returnedBytes len flags time)) x = Memory.read m x := by
  rw [Memory.read_writeN, length_returnedBytes, if_neg h]

theorem ofBytes_finish (m : List Host.Cell) (a len flags time : Nat) :
    ofBytes (Memory.readN (Memory.writeN m a (returnedBytes len flags time)) a 2) = len % 2 ^ 16 := by
  simp only [Memory.readN, Memory.read_writeN, ofBytes]
  simp [returnedBytes, toBytes]
  omega

theorem read_finish_flags (m : List Host.Cell) (a len flags time : Nat) :
    (Memory.read (Memory.writeN m a (returnedBytes len flags time)) (a + 2)).toNat = flags % 256 := by
  simp only [Memory.read_writeN]
  simp [returnedBytes, toBytes]

/-! Receiving -/

/-- The registers once port `p` has put a frame into the buffer of descriptor `hw`. -/
def Chip.frameTaken (c : Chip) (p hw : Nat) : Chip := (c.set .ETH_RX_IDX_HW p (ringNext (c.get .ETH_RX_RING_LOG2 p) hw)).raise (216 + 2 * p)

theorem Chip.frameTaken_next (c : Chip) (p hw : Nat) : (c.frameTaken p hw).get .ETH_RX_IDX_HW p = (hw + 1) % 2 ^ c.get .ETH_RX_RING_LOG2 p % 2 ^ 12 := by
  rw [Chip.frameTaken, Chip.raise_get _ _ _ _ rfl, Chip.get_set_same]
  exact Fld.clip_of_width_eq rfl (by decide) _

section
variable {p : Nat} {f : List Byte} {c : Chip} {m : Mem}

/-- A port without a link, a PAUSE frame and one that is too long leave no trace. -/
theorem frameReceive_discarded (h : c.ethLink p = false ∨ be16 f 12 = 0x8808 ∨ 9216 < f.length) (fcsOk : Bool) : frameReceive p f fcsOk c m = (c, m) := by
  have hdrop : (!c.ethLink p || decide (be16 f 12 = 0x8808) || decide (maxFrame < f.length)) = true := by
    obtain h | h | h := h <;> simp [h, maxFrame]
  exact if_pos hdrop

section
variable (hlink : c.ethLink p = true) (hpause : be16 f 12 ≠ 0x8808) (hlong : f.length ≤ 9216)
include hlink hpause hlong

theorem frameReceive_taken : ¬(!c.ethLink p || decide (be16 f 12 = 0x8808) || decide (maxFrame < f.length)) = true := by
  simp [hlink, hpause, maxFrame, Nat.not_lt.mpr hlong]

theorem frameReceive_none (hidx : c.get .ETH_RX_IDX_HW p = c.get .ETH_RX_IDX_SW p) (fcsOk : Bool) : frameReceive p f fcsOk c m = (c.count .ETH_RX_IDX_DROP p 1, m) := by
  have htaken := frameReceive_taken hlink hpause hlong
  unfold frameReceive
  rw [if_neg htaken]
  exact if_pos hidx

/-- A frame enters the buffer of an owned descriptor, and HW advances. -/
theorem frameReceive_stored (hidx : c.get .ETH_RX_IDX_HW p ≠ c.get .ETH_RX_IDX_SW p) {d : EthDesc} {fcsOk : Bool} {e : Chip} {t : Mem}
    (hdesc : ethDesc (c.get .ETH_RX_RING_OFFSET p * 64) (c.get .ETH_RX_IDX_HW p) c m = (d, c, m)) (hown : d.flags % 2 = 1) (hstore : ethStore f fcsOk d c m = (e, t)) :
    frameReceive p f fcsOk c m = (e.frameTaken p (c.get .ETH_RX_IDX_HW p), t) := by
  have htaken := frameReceive_taken hlink hpause hlong
  unfold frameReceive
  rw [if_neg htaken]
  dsimp only
  rw [if_neg hidx, hdesc]
  dsimp only
  rw [if_neg (by omega), hstore]
  rfl

end

end

/-- FLAGS and TIME of a receive descriptor once a frame is stored. -/
def EthDesc.storeFlags (d : EthDesc) (f : List Byte) (fcsOk : Bool) : Nat := b2n (!fcsOk || d.len < f.length) * 8 + b2n (ptpEvent f).isSome * 16
def Chip.storeTime (c : Chip) (f : List Byte) : Nat := if (ptpEvent f).isSome then c.stamp % 2 ^ 32 + c.dom * 2 ^ 32 else 0

/-- What a stored frame leaves in service SRAM: its bytes, and the returned descriptor. -/
theorem ethStore_of_clean {f : List Byte} {fcsOk : Bool} {d : EthDesc} {c : Chip} {m : Mem} (hbanks : ethBanks d.buf d.len = true) (hclean : m.sramErr = []) :
    ethStore f fcsOk d c m = (c, { m with sram := Memory.writeN (Memory.writeN m.sram d.buf (f.take (min f.length d.len))) (d.at' + 4)
                                            (returnedBytes (min f.length d.len) (d.storeFlags f fcsOk) (c.storeTime f)) }) := by
  have hlen : (f.take (min f.length d.len)).length ≤ min f.length d.len + 1 := by rw [List.length_take]; omega
  unfold ethStore
  rw [if_neg (by simp [hbanks])]
  dsimp only
  rw [sramWrite_of_clean hlen _ c hclean]
  exact EthDesc.finish_of_clean d _ _ _ c hclean

/-! Transmitting -/

/-- The registers once port `p` has sent frame `g`. -/
def Chip.frameSent (c : Chip) (p : Nat) (g : List Byte) : Chip :=
  (({ c with frames := (p, g) :: c.frames } : Chip).set .ETH_TX_IDX_HW p (ringNext (c.get .ETH_TX_RING_LOG2 p) (c.get .ETH_TX_IDX_HW p))).raise (217 + 2 * p)

theorem Chip.frameSent_frames (c : Chip) (p : Nat) (g : List Byte) : (c.frameSent p g).frames = (p, g) :: c.frames :=
  (Chip.raise_quiet _ _).frames.trans (Chip.set_frames _ _ _ _)

theorem Chip.frameSent_next (c : Chip) (p : Nat) (g : List Byte) :
    (c.frameSent p g).get .ETH_TX_IDX_HW p = (c.get .ETH_TX_IDX_HW p + 1) % 2 ^ c.get .ETH_TX_RING_LOG2 p % 2 ^ 12 := by
  rw [Chip.frameSent, Chip.raise_get _ _ _ _ rfl, Chip.get_set_same]
  exact Fld.clip_of_width_eq rfl (by decide) _

/-- The frame of an owned transmit descriptor that is no event message leaves, and HW advances. -/
theorem frameTransmit_sent {p : Nat} {c : Chip} {m : Mem} {d : EthDesc} (hopt : c.ethOption p = true) (hidx : c.get .ETH_TX_IDX_HW p ≠ c.get .ETH_TX_IDX_SW p)
    (hdesc : ethDesc (c.get .ETH_TX_RING_OFFSET p * 64) (c.get .ETH_TX_IDX_HW p) c m = (d, c, m)) (hown : d.flags % 2 = 1) (hbanks : ethBanks d.buf d.len = true)
    (hlong : d.len ≤ 9216) {h : Hit} (hread : sramRead (d.len + 1) d.buf d.len c m = h) (hchip : h.chip = c) (hmem : h.mem = m) (hplain : ptpEvent h.data = none)
    (hclean : m.sramErr = []) :
    frameTransmit p c m = (c.frameSent p h.data, { m with sram := Memory.writeN m.sram (d.at' + 4) (returnedBytes d.len (d.flags - 1) 0) }) := by
  have hgo : ¬(!c.ethOption p || decide (c.get .ETH_TX_IDX_HW p = c.get .ETH_TX_IDX_SW p)) = true := by simp [hopt, hidx]
  have hfits : ¬(!ethBanks d.buf d.len || decide (maxFrame < d.len)) = true := by simp [hbanks, maxFrame, Nat.not_lt.mpr hlong]
  have hsend : h.chip.ethSend p d.flags h.data = { c with frames := (p, h.data) :: c.frames } := by
    rw [hchip]
    unfold Chip.ethSend
    rw [hplain]
  unfold frameTransmit
  dsimp only
  rw [if_neg hgo, hdesc]
  dsimp only
  rw [if_neg (by omega), if_neg hfits, hread, hsend, hmem, EthDesc.finish_of_clean _ _ _ _ _ hclean]
  rfl

/-! ETH_TX_TS -/

theorem regPlace_eth (k : Fin 8) (sec : Bool) {x off : Nat} (hx : x = 0x102040000 + off) (ho : off < 0x1000) : regPlace (.core k sec) x = some ⟨.eth, 0, off⟩ := by
  have hoff : x % 0x1000 = off := by omega
  simp only [regPlace, coreBlock, serviceRegion]
  rw [if_neg (by omega), if_neg (by omega), if_neg (by omega), if_neg (by omega), if_neg (by omega), if_neg (by omega), if_neg (by omega), if_neg (by omega),
    if_neg (by omega), if_pos (by omega), hoff]

theorem find_ETH_TX_TS_low (core : Nat) (p : Fin 2) : (⟨.eth, 0, 0x18 + p.val * 0x100⟩ : RegPlace).find core = some ⟨Reg.def_ETH_TX_TS, p.val, false⟩ := by
  fin_cases p <;> simp [RegPlace.find, Blk.regs, Blk.regs_eth, RegDef.hit, Reg.def_ETH_CTL, Reg.def_ETH_STATUS, Reg.def_ETH_PTP_NEXT_SEC, Reg.def_ETH_PTP_NEXT_NS,
    Reg.def_ETH_TX_TS]

theorem Chip.regMay_eth {k : Fin 8} {sec : Bool} (h : (sec || decide (k.val < 4)) = true) (c : Chip) (i off : Nat) (w : Bool) :
    c.regMay (.core k sec) ⟨.eth, i, off⟩ w = true := h

/-- A read of the low half of ETH_TX_TS answers the oldest stamp, and removes it. -/
theorem regRead_ETH_TX_TS_low {k : Fin 8} {sec : Bool} (hmay : (sec || decide (k.val < 4)) = true) (p : Fin 2) (c : Chip) (a : Arr) :
    regRead (.core k sec) (regAddr (.core k sec) .eth Reg.def_ETH_TX_TS 0 p.val) 4 c a =
      ((c.txTsPop p).setLatch (latchKey (.core k sec) (regAddr (.core k sec) .eth Reg.def_ETH_TX_TS 0 p.val)) (bits (c.txTsTop p) 63 32)).answer .ok
        (c.txTsTop p % 2 ^ 32) := by
  have haddr : regAddr (.core k sec) .eth Reg.def_ETH_TX_TS 0 p.val = 0x102040000 + (0x18 + p.val * 0x100) := rfl
  rw [regRead_four (regPlace_eth k sec haddr (by omega)) (find_ETH_TX_TS_low _ p) (by omega) rfl (Chip.regMay_eth hmay _ _ _ _)
    (targetMay_of_other _ _ (show ¬(Reg.ETH_TX_TS = .IC_CLAIM ∨ Reg.ETH_TX_TS = .IC_COMPLETE) by decide)), read32_low_wide rfl rfl]
  rfl

section
variable {c : Chip} {p : Nat} {e : Nat × Nat} (h : c.txTs.find? (fun e => e.1 = p) = some e)
include h

theorem Chip.txTsTop_of_find : c.txTsTop p = 2 ^ 63 + e.2 := by
  unfold Chip.txTsTop
  rw [h]

theorem Chip.txTsPop_of_find : c.txTsPop p = { c with txTs := c.txTs.erase e } := by
  unfold Chip.txTsPop
  rw [h]

end

theorem Chip.setLatch_txTs (c : Chip) (key v : Nat) : (c.setLatch key v).txTs = c.txTs := rfl

theorem Chip.setLatch_get (c : Chip) (key v : Nat) (f : Fld) (i : Nat) : (c.setLatch key v).get f i = c.get f i := rfl

/-- The oldest stamp of a port leaves its FIFO, and no field changes. -/
theorem Chip.txTsPop_latched {c : Chip} {p : Nat} {e : Nat × Nat} (h : c.txTs.find? (fun e => e.1 = p) = some e) (key v w : Nat) :
    (((c.txTsPop p).setLatch key v).answer .ok w).txTs = c.txTs.erase e ∧ KeepsAll c (((c.txTsPop p).setLatch key v).answer .ok w) [] := by
  refine ⟨?_, fun g j _ => ?_⟩
  · rw [Chip.answer_txTs, Chip.setLatch_txTs, Chip.txTsPop_of_find h]
  · rw [Chip.answer_get, Chip.setLatch_get, Chip.txTsPop_of_find h]
    rfl

/-! O46 -/

/-- Settles O46: a frame received, a frame sent, and the registers of epochs and stamps. -/
theorem ethernetFramesAndStamps : Obligations.EthernetFramesAndStamps := by
  intro p f k sec ns s
  refine ⟨fun hdrop => ?discarded, fun hlink hpause hlong => ?received, ?sent, ?registers⟩
  case discarded =>
    have hsame : s.onMem (frameReceive p f true) = s := by rw [State.onMem, frameReceive_discarded hdrop]
    exact congrArg Host.Outcome.next hsame
  case received =>
    intro hw
    refine ⟨fun hidx => ?_, ?_⟩
    · have hdrop : s.onMem (frameReceive p f true) = { s with chip := s.chip.count .ETH_RX_IDX_DROP p 1 } := by
        rw [State.onMem, frameReceive_none hlink hpause hlong hidx]
      exact congrArg Host.Outcome.next hdrop
    · intro x d hidx hdesc hown hbanks hapart hclean
      have hdesc' : ethDesc (s.chip.get .ETH_RX_RING_OFFSET p * 64) hw s.chip s.mem = (d, s.chip, s.mem) := Prod.ext rfl hdesc
      have hstore := ethStore_of_clean (f := f) (fcsOk := true) (c := s.chip) hbanks hclean
      have hput : (f.take (min f.length d.len)).length = min f.length d.len := List.length_take_of_le (min_le_left _ _)
      have hin : min f.length d.len ≤ d.len := min_le_right _ _
      refine does_of_onMem rfl (frameReceive_stored hlink hpause hlong hidx hdesc' hown hstore) 
        ⟨?_, fun j hj => ?_, fun y hbuf hret => ?_, ofBytes_finish _ _ _ _ _, ?_, rfl, rfl, rfl, rfl, rfl⟩
      · dsimp only
        rw [Chip.frameTaken_next]
      · dsimp only
        rw [read_finish_ne _ (by omega), Memory.read_writeN, hput, if_pos (by omega), Nat.add_sub_cancel_left, List.getD_eq_getElem?_getD, List.getD_eq_getElem?_getD, List.getElem?_take_of_lt hj]
      · dsimp only
        rw [read_finish_ne _ (by omega), Memory.read_writeN, hput, if_neg hbuf]
      · dsimp only
        rw [show d.at' + 6 = d.at' + 4 + 2 from rfl, read_finish_flags, EthDesc.storeFlags]
        omega
  case sent =>
    intro x d h hopt hlong hidx hdesc hown hbanks hok hchip hmem hplain hclean
    have hdesc' : ethDesc (s.chip.get .ETH_TX_RING_OFFSET p * 64) (s.chip.get .ETH_TX_IDX_HW p) s.chip s.mem = (d, s.chip, s.mem) := Prod.ext rfl hdesc
    refine does_of_onMem rfl (frameTransmit_sent hopt hidx hdesc' hown hbanks hlong rfl hchip hmem hplain hclean) 
      ⟨s.chip.frameSent_frames p h.data, ?_, fun y hret => ?_, rfl⟩
    · dsimp only
      rw [Chip.frameSent_next]
    · dsimp only
      rw [read_finish_ne _ (by omega)]
  case registers =>
    intro s₀ s hmay
    have answered : KeepsAll s.chip (s.chip.answer .ok) [] := fun g j _ => Chip.answer_get ..
    refine ⟨fun hns => ?_, fun hns => ?_, fun e hfind => ?_⟩
    · refine does_of_byRegister (act := fun c => c.epochArm p ns.toNat) rfl (Chip.regMay_eth hmay _ _ _ _) ?_
      rw [show (s.chip.answer .ok).epochArm p ns.toNat = ((s.chip.answer .ok).set .ETH_PTP_NEXT_NS_NS p ns.toNat).set .H_EPOCH_ARM p 1 from if_neg (by omega)]
      refine ⟨?_, Chip.get_set_same _ _ _ _, ?_, rfl, rfl⟩
      · exact (Chip.get_set_ne _ _ (by simp)).trans ((Chip.get_set_same _ _ _ _).trans (Fld.clip_lt (show ns.toNat < 2 ^ 30 from ns.isLt)))
      · exact ((answered.widen (List.nil_subset _)).set _ (by simp)).set _ (by simp)
    · have hkeep : (s.chip.answer .ok).epochArm p ns.toNat = s.chip.answer .ok := if_pos hns
      exact congrArg Host.Outcome.next ((State.onAll_eq (byRegister_of_may (Chip.regMay_eth hmay _ _ _ _) _ _)).trans (congrArg (fun d => { s with chip := d }) hkeep))
    · have hlow : s.chip.txTsTop p % 2 ^ 32 = e.2 % 2 ^ 32 := by
        rw [Chip.txTsTop_of_find hfind]
        omega
      obtain ⟨stamps, kept⟩ := Chip.txTsPop_latched hfind (latchKey (.core k sec) (regAddr (.core k sec) .eth Reg.def_ETH_TX_TS 0 p.val)) (bits (s.chip.txTsTop p) 63 32)
        (s.chip.txTsTop p % 2 ^ 32)
      refine does_of_seen_onChip rfl (regRead_ETH_TX_TS_low hmay p _ _) ⟨?_, stamps, kept, rfl, rfl⟩
      rw [← hlow]
      exact Chip.answer_resp _ _ _ _

end Sys2Proof.Machine
end
section
/-! PROOFS. DMA channels: what is handed to them, what they issue and record, and their abort (R297 to R301; O48). -/

namespace Sys2Proof.Machine

/-! The path of a write of a DMA register -/

/-- Whether an initiator reaches the DMA block of port `n`: the host of that port, or a core with the right. -/
def Chip.reachesDma (c : Chip) (n : Fin 4) : Init → Prop
  | .host k => k = n ∧ c.hostGone (.host k) = false
  | .core k sec => (sec || decide (k.val < 4)) = true

theorem byDma_of_reaches {c : Chip} {n : Fin 4} {who : Init} (h : c.reachesDma n who) (off : Nat) (act : Chip → Chip) : byDma who n.val off act c = act (c.answer .ok) := by
  cases who with
  | host k =>
    obtain ⟨rfl, hhere⟩ := h
    exact if_pos (by simp [hhere])
  | core k sec => exact if_pos h

/-- The next state of a write of a DMA register that its initiator reaches, from what the write does once the access is answered OK. -/
theorem does_of_byDma {i : Instr} {who : Init} {n : Fin 4} {off : Nat} {act : Chip → Chip} {s : State} {Q : State → Prop} {d : Chip}
    (hexec : exec i s = .next ((s.seen who).onChip (byDma who n.val off act))) (hreach : (s.seen who).chip.reachesDma n who)
    (hact : act ((s.seen who).chip.answer .ok) = d) (hQ : Q { s.seen who with chip := d }) : Does i s Q :=
  does_of_seen_onChip hexec ((byDma_of_reaches hreach off act).trans hact) hQ

/-! Indices -/

theorem Chip.writeDmaPi_taken {c : Chip} {ch v : Nat} (hquiet : c.get .H_QUIESCE 0 = 0) (hv : v < 65536) (hin : v < c.dmaRing ch) :
    c.writeDmaPi ch v = c.set .DMA_CH_PI_PI ch v := by
  have hout : ¬(decide (c.dmaRing ch ≤ v % 65536) || c.on .H_QUIESCE 0) = true := by simp [Nat.mod_eq_of_lt hv, hin, Chip.on, hquiet]
  exact if_neg hout

theorem Chip.writeDmaPi_rejected {c : Chip} {ch v : Nat} (hv : v < 65536) (hout : c.dmaRing ch ≤ v) : c.writeDmaPi ch v = c.set .DMA_CH_STATUS_CFG_REJ ch 1 := by
  have hrej : (decide (c.dmaRing ch ≤ v % 65536) || c.on .H_QUIESCE 0) = true := by simp [Nat.mod_eq_of_lt hv, hout]
  exact if_pos hrej

/-! Descriptors in execution -/

section
variable {l : List DmaItem} {x : DmaItem} {ch : Nat}

/-- Of a channel that has a descriptor in execution, the one put in its place is the one in execution. -/
theorem find_putItem (hfind : l.find? (fun y => y.chan = ch) = some x) {z : DmaItem} (hz : z.chan = ch) :
    (l.map fun y => if y.chan = z.chan then z else y).find? (fun y => y.chan = ch) = some z := by
  induction l with
  | nil => exact absurd hfind (by simp)
  | cons y l ih =>
    by_cases hy : y.chan = ch
    · simp [hy, hz]
    · rw [List.find?_cons_of_neg (by simpa using hy)] at hfind
      rw [List.map_cons, if_neg (by rw [hz]; exact hy), List.find?_cons_of_neg (by simpa using hy), ih hfind]

theorem Chip.dmaItem_putItem {c : Chip} (h : c.dmaItem ch = some x) {z : DmaItem} (hz : z.chan = ch) : (c.putItem z).dmaItem ch = some z := find_putItem h hz

theorem chan_of_dmaItem {c : Chip} (h : c.dmaItem ch = some x) : x.chan = ch := by simpa using List.find?_some h

/-- A channel without a descriptor has none in the list. -/
theorem chan_ne_of_none {c : Chip} (h : c.dmaItem ch = none) {y : DmaItem} (hy : y ∈ c.dma) : y.chan ≠ ch := by
  have := List.find?_eq_none.mp h y hy
  simpa using this

/-- A descriptor that is added to a channel without one is in execution, and what is put in its place replaces it alone. -/
theorem Chip.dmaItem_append {c : Chip} (h : c.dmaItem ch = none) (hx : x.chan = ch) : (c.dma ++ [x]).find? (fun y => y.chan = ch) = some x := by
  have hnone : c.dma.find? (fun y => decide (y.chan = ch)) = none := h
  rw [List.find?_append, hnone]
  simp [hx]

theorem map_putItem_append {c : Chip} (h : c.dmaItem ch = none) (hx : x.chan = ch) {z : DmaItem} (hz : z.chan = ch) :
    (c.dma ++ [x]).map (fun y => if y.chan = z.chan then z else y) = c.dma ++ [z] := by
  have hkept : c.dma.map (fun y => if y.chan = z.chan then z else y) = c.dma :=
    (List.map_congr_left fun y hy => if_neg (by rw [hz]; exact chan_ne_of_none h hy)).trans (List.map_id _)
  rw [List.map_append, hkept]
  simp [hx, hz]

theorem Chip.dmaItem_dropItem (c : Chip) (ch : Nat) : (c.dropItem ch).dmaItem ch = none := by
  refine List.find?_eq_none.mpr fun y hy => ?_
  have := (List.mem_filter.mp hy).2
  simpa using this

end

/-! Abort -/

section
variable {c : Chip} {ch : Nat}

/-- With no descriptor handed to it that it has not taken, an aborted channel records none. -/
theorem Chip.dmaAbortOne_of_empty (h : c.get .H_DMA_NEXT ch = c.get .DMA_CH_PI_PI ch) (b : List Byte) : Chip.dmaAbortOne ch c b = c := if_pos h

theorem Chip.dmaAbortRest_of_empty (h : c.get .H_DMA_NEXT ch = c.get .DMA_CH_PI_PI ch) (rest : List (List Byte)) : c.dmaAbortRest ch rest = c.dmaStop ch := by
  have hrest : rest.foldl (Chip.dmaAbortOne ch) c = c := List.foldlRecOn (motive := fun d => d = c) rest _ rfl fun d hd b _ => by
    rw [hd, Chip.dmaAbortOne_of_empty h]
  rw [Chip.dmaAbortRest, hrest]
  exact if_pos h

theorem Chip.dmaStop_get (c : Chip) (ch : Nat) : (c.dmaStop ch).get .DMA_CH_CTL_EN ch = 0 ∧ (c.dmaStop ch).get .DMA_CH_CTL_ABORT ch = 0 :=
  ⟨(Chip.raise_get _ _ _ _ rfl).trans ((Chip.get_set_ne _ _ (by simp)).trans (Chip.get_set_same _ _ _ _)), (Chip.raise_get _ _ _ _ rfl).trans (Chip.get_set_same _ _ _ _)⟩

theorem Chip.dmaAbort_idle (hen : c.on .DMA_CH_CTL_EN ch = true) (hitem : c.dmaItem ch = none) (hidx : c.get .H_DMA_NEXT ch = c.get .DMA_CH_PI_PI ch)
    (rest : List (List Byte)) : c.dmaAbort ch rest = (c.set .DMA_CH_CTL_ABORT ch 1).dmaStop ch := by
  have hidx' : (c.set .DMA_CH_CTL_ABORT ch 1).get .H_DMA_NEXT ch = (c.set .DMA_CH_CTL_ABORT ch 1).get .DMA_CH_PI_PI ch := by
    rw [Chip.get_set_ne _ _ (by simp), Chip.get_set_ne _ _ (by simp), hidx]
  have hitem' : (c.set .DMA_CH_CTL_ABORT ch 1).dmaItem ch = none := hitem
  rw [Chip.dmaAbort, hen, if_neg (by decide)]
  dsimp only
  rw [hitem']
  exact Chip.dmaAbortRest_of_empty hidx' rest

/-- The registers of a channel whose descriptor an abort has stopped. -/
def Chip.dmaAborting (c : Chip) (ch : Nat) (x : DmaItem) : Chip := (c.set .DMA_CH_CTL_ABORT ch 1).putItem { x with stopped := true, aborted := true }

theorem Chip.dmaAborting_abort (c : Chip) (ch : Nat) (x : DmaItem) : (c.dmaAborting ch x).get .DMA_CH_CTL_ABORT ch = 1 :=
  (Chip.get_set_same .. : (c.set .DMA_CH_CTL_ABORT ch 1).get .DMA_CH_CTL_ABORT ch = _)

theorem Chip.dmaAborting_get (c : Chip) (ch : Nat) (x : DmaItem) {f : Fld} (hf : f ≠ .DMA_CH_CTL_ABORT) (j : Nat) : (c.dmaAborting ch x).get f j = c.get f j :=
  (Chip.get_set_ne _ _ fun h => hf h.1 : (c.set .DMA_CH_CTL_ABORT ch 1).get f j = _)

theorem Chip.dmaAborting_item {x : DmaItem} (hitem : c.dmaItem ch = some x) : (c.dmaAborting ch x).dmaItem ch = some { x with stopped := true, aborted := true } :=
  Chip.dmaItem_putItem (c := c.set .DMA_CH_CTL_ABORT ch 1) (x := x) hitem (show x.chan = ch from chan_of_dmaItem hitem)

theorem Chip.dmaAbort_executing {x : DmaItem} (hen : c.on .DMA_CH_CTL_EN ch = true) (hitem : c.dmaItem ch = some x) (hmore : x.issued < x.len) (hruns : x.stopped = false)
    (rest : List (List Byte)) : c.dmaAbort ch rest = c.dmaAborting ch x := by
  have hitem' : (c.set .DMA_CH_CTL_ABORT ch 1).dmaItem ch = some x := hitem
  rw [Chip.dmaAbort, hen, if_neg (by decide)]
  dsimp only
  rw [hitem']
  exact if_pos (by simp [hmore, hruns])

end

/-! Taking a descriptor -/

/-- The registers of channel `ch` once it has taken descriptor `x`. -/
def Chip.dmaTaken (c : Chip) (ch : Nat) (x : DmaItem) : Chip :=
  ({ c with dma := c.dma ++ [x] } : Chip).set .H_DMA_NEXT ch ((c.get .H_DMA_NEXT ch + 1) % c.dmaRing ch)

section
variable {c : Chip} {ch : Nat} {x : DmaItem}

theorem Chip.dmaTaken_get {f : Fld} (hf : f ≠ .H_DMA_NEXT) (j : Nat) : (c.dmaTaken ch x).get f j = c.get f j := Chip.get_set_ne _ _ fun h => hf h.1

theorem Chip.dmaTaken_next : (c.dmaTaken ch x).get .H_DMA_NEXT ch = (c.get .H_DMA_NEXT ch + 1) % c.dmaRing ch % 2 ^ 16 := by
  rw [Chip.dmaTaken, Chip.get_set_same]
  exact Fld.clip_of_width_eq rfl (by decide) _

theorem Chip.dmaTaken_item (hnone : c.dmaItem ch = none) (hx : x.chan = ch) : (c.dmaTaken ch x).dmaItem ch = some x := Chip.dmaItem_append hnone hx

theorem Chip.dmaTaken_freeTag : (c.dmaTaken ch x).freeTag ch = c.freeTag ch := rfl

theorem Chip.dmaTaken_place (p a : Nat) : (c.dmaTaken ch x).place p a false = c.place p a false := by
  unfold Chip.place Chip.on Chip.isGolden
  simp only [Chip.dmaTaken_get, ne_eq, reduceCtorEq, not_false_eq_true]

theorem Chip.dmaTaken_cutOff (r t : Nat) : (c.dmaTaken ch x).cutOff r t = c.cutOff r t := by
  unfold Chip.cutOff Chip.on
  simp only [Chip.dmaTaken_get, ne_eq, reduceCtorEq, not_false_eq_true]

end

section
variable {c : Chip} {m : Mem} {ch : Nat} {b : List Byte}

/-- The descriptor in execution once `d` is taken with status `st`. -/
def Chip.itemOf (c : Chip) (ch : Nat) (d : DmaDesc) (st : Nat) : DmaItem :=
  ⟨ch, c.get .H_DMA_NEXT ch, d.hostAddr, d.design, d.length, d.ctrl, d.user, 0, 0, st, st ≠ 0, false⟩

theorem Chip.dmaStart_good {d : DmaDesc} (hdecode : dmaDecode b = some d) (hok : dmaDescOk d = true) : c.dmaStart ch b = c.dmaTaken ch (c.itemOf ch d 0) := by
  have hfetch : c.dmaFetch b = (d, 0, c) := by
    unfold Chip.dmaFetch
    rw [hdecode]
    dsimp only
    rw [if_pos hok]
  unfold Chip.dmaStart
  rw [hfetch]
  rfl

/-- A descriptor that could not be read, or whose fields are not in order, is taken as a failed one. -/
theorem Chip.dmaStart_bad (hbad : ∀ d, dmaDecode b = some d → dmaDescOk d = false) :
    ∃ d n, c.dmaStart ch b = Chip.dmaTaken { c with free := n } ch (c.itemOf ch d (if b.length < 32 then dmaHostErr else dmaDescErr)) := by
  unfold Chip.dmaStart Chip.dmaFetch
  by_cases hshort : b.length < 32
  · have hnone : dmaDecode b = none := if_pos hshort
    rw [hnone, if_pos hshort]
    exact ⟨_, _, rfl⟩
  · obtain ⟨d, hsome⟩ : ∃ d, dmaDecode b = some d := ⟨_, if_neg hshort⟩
    rw [hsome, if_neg hshort]
    dsimp only
    rw [hbad d hsome]
    exact ⟨d, c.free, rfl⟩

/-- A channel whose descriptor is stopped issues nothing. -/
theorem dmaIssue_stopped {x : DmaItem} (hitem : c.dmaItem ch = some x) (hstop : x.stopped = true) (k : Nat) (data : List Byte) : dmaIssue ch k data c m = (c, m) := by
  cases k with
  | zero => rfl
  | succ k =>
    rw [dmaIssue, hitem]
    cases c.freeTag ch with
    | none => rfl
    | some tag => exact if_pos (by simp [hstop])

section
variable (hpower : c.power ≠ pwrWatch) (hen : c.on .DMA_CH_CTL_EN ch = true) (habort : c.on .DMA_CH_CTL_ABORT ch = false) (hitem : c.dmaItem ch = none)
  (hidx : c.get .H_DMA_NEXT ch ≠ c.get .DMA_CH_PI_PI ch)
include hpower hen habort hitem hidx

/-- An enabled channel takes its next descriptor and goes on with it. -/
theorem dmaDescriptorAwake_starts (b : List Byte) (k : Nat) (data : List Byte) : dmaDescriptorAwake ch b k data c m = dmaIssue ch k data (c.dmaStart ch b) m := by
  rw [dmaDescriptorAwake, if_neg fun h => hpower h.1, dmaDescriptor, hen, if_neg (by decide), hitem, if_neg (by decide), habort, if_neg (by decide), if_neg hidx]

end

/-- A transaction that reads cistern word `y` for a channel, as the target answers it. -/
def Chip.wordTxn (c : Chip) (m : Mem) (ch tag y : Nat) (d : DmaDesc) : Txn :=
  { tag := tag, gen := c.get .H_TAG_GEN tag, chan := ch, bytes := d.length, status := 0, hostAddr := d.hostAddr, data := Memory.readN m.cistern y d.length, since := c.now,
    target := y / 0x80000 }

/-- The registers once the channel has issued it. -/
def Chip.wordIssued (c : Chip) (m : Mem) (ch tag y : Nat) (d : DmaDesc) : Chip :=
  ({ c.dmaTaken ch (c.itemOf ch d 0) with txns := c.txns ++ [c.wordTxn m ch tag y d] } : Chip).putItem { c.itemOf ch d 0 with issued := d.length }

theorem Chip.wordIssued_txns (c : Chip) (m : Mem) (ch tag y : Nat) (d : DmaDesc) : (c.wordIssued m ch tag y d).txns = c.txns ++ [c.wordTxn m ch tag y d] := rfl

theorem Chip.wordIssued_next (c : Chip) (m : Mem) (ch tag y : Nat) (d : DmaDesc) :
    (c.wordIssued m ch tag y d).get .H_DMA_NEXT ch = (c.get .H_DMA_NEXT ch + 1) % c.dmaRing ch % 2 ^ 16 := c.dmaTaken_next

theorem Chip.wordIssued_dma (hitem : c.dmaItem ch = none) (tag y : Nat) (d : DmaDesc) :
    (c.wordIssued m ch tag y d).dma = c.dma ++ [⟨ch, c.get .H_DMA_NEXT ch, d.hostAddr, d.design, d.length, d.ctrl, d.user, d.length, 0, 0, false, false⟩] :=
  map_putItem_append hitem rfl rfl

/-- The first transaction of a descriptor whose bytes lie in one word of a cistern. -/
theorem dmaIssue_word {d : DmaDesc} {tag y : Nat} (hitem : c.dmaItem ch = none) (hread : bit d.ctrl 0 = 1) (hsome : 1 ≤ d.length) (hfit : d.design % 8 + d.length ≤ 8)
    (htag : c.freeTag ch = some tag) (hbind : c.get .PTN_CFG_BIND (bits d.ctrl 7 4) = ch / 8) (hplace : c.place (bits d.ctrl 7 4) d.design false = .cistern y)
    (hlink : c.cutOff routerHub (y / 0x80000) = false) (hgood : NatMap.find 0 m.cisErr (y / 8) = 0) :
    dmaIssue ch 1 [] (c.dmaTaken ch (c.itemOf ch d 0)) m = (c.wordIssued m ch tag y d, m) := by
  generalize he : c.dmaTaken ch (c.itemOf ch d 0) = e
  have htaken : e.dmaItem ch = some (c.itemOf ch d 0) := he ▸ Chip.dmaTaken_item hitem rfl
  have htag' : e.freeTag ch = some tag := by rw [← he, Chip.dmaTaken_freeTag, htag]
  have hplace' : e.place (bits d.ctrl 7 4) d.design false = .cistern y := by rw [← he, Chip.dmaTaken_place, hplace]
  have hlink' : e.cutOff routerHub (y / 0x80000) = false := by rw [← he, Chip.dmaTaken_cutOff, hlink]
  have hbound : e.dmaBound (c.itemOf ch d 0) = true := by
    have hsame : e.get .PTN_CFG_BIND (bits d.ctrl 7 4) = ch / 8 := by rw [← he, Chip.dmaTaken_get (by decide), hbind]
    exact decide_eq_true hsame
  have hgen : e.get .H_TAG_GEN tag = c.get .H_TAG_GEN tag := by rw [← he, Chip.dmaTaken_get (by decide)]
  have hlen : min (256 - d.design % 256) d.length = d.length := min_eq_right (by omega)
  have hread' : bitB d.ctrl 0 = true := decide_eq_true hread
  have haccess : dmaAccess (c.itemOf ch d 0) d.design d.length [] e m = ⟨.ok, Memory.readN m.cistern y d.length, e, m⟩ := by
    have hcut : ¬e.cutOff routerHub (e.routerOf (e.place (bits d.ctrl 7 4) d.design false)) = true := by
      rw [hplace', show e.routerOf (.cistern y) = y / 0x80000 from rfl, hlink']
      decide
    exact (if_neg (by simp [hbound])).trans ((if_neg hcut).trans ((if_pos hread').trans (netRead_word hplace' hgood hsome hfit)))
  have haddr : (c.itemOf ch d 0).design + (c.itemOf ch d 0).issued = d.design := rfl
  have hleft : (c.itemOf ch d 0).len - (c.itemOf ch d 0).issued = d.length := rfl
  have hissued : (c.itemOf ch d 0).issued + d.length = d.length := Nat.zero_add _
  have hgo : ¬((c.itemOf ch d 0).stopped || decide ((c.itemOf ch d 0).len ≤ (c.itemOf ch d 0).issued)) = true := by simp [Chip.itemOf]; omega
  have hdata : ¬(!bitB (c.itemOf ch d 0).ctrl 0 && decide (([] : List Byte).length < d.length)) = true := by
    rw [show bitB (c.itemOf ch d 0).ctrl 0 = true from hread']
    simp
  rw [dmaIssue, htaken, htag']
  dsimp only
  rw [haddr, hleft, hlen, if_neg hgo, if_neg hdata, haccess, show e.place (bits (c.itemOf ch d 0).ctrl 7 4) d.design false = .cistern y from hplace', hgen, hissued]
  subst he
  rfl

end

/-! Records -/

/-- The completion record of index `i` of channel `ch` without a failure. -/
def Chip.dmaRecordWrite (c : Chip) (ch i user bytes : Nat) : HostWrite :=
  ⟨ch / 8, c.get .DMA_CH_CPL_BASE_ADDR ch * 64 + 16 * i,
    toBytes 8 user ++ toBytes 4 bytes ++ toBytes 2 i ++ toBytes 1 0 ++ toBytes 1 (1 - c.get .H_DMA_PASS ch)⟩

/-- The registers once that record is written. -/
def Chip.recorded (c : Chip) (ch i user bytes : Nat) : Chip :=
  ({ c with host := c.dmaRecordWrite ch i user bytes :: c.host } : Chip).set .DMA_CH_STATUS_CI ch ((i + 1) % c.dmaRing ch)

section
variable (c : Chip) (ch i user bytes : Nat)

theorem Chip.dmaRecord_plain : c.dmaRecord ch i user bytes 0 false =
    if (i + 1) % c.dmaRing ch = 0 then (c.recorded ch i user bytes).set .H_DMA_PASS ch (1 - c.get .H_DMA_PASS ch) else c.recorded ch i user bytes := rfl

/-- A record of success is written, and CI moves on. -/
theorem Chip.dmaRecord_written : (c.dmaRecord ch i user bytes 0 false).host = c.dmaRecordWrite ch i user bytes :: c.host ∧
    (c.dmaRecord ch i user bytes 0 false).get .DMA_CH_STATUS_CI ch = (i + 1) % c.dmaRing ch % 2 ^ 16 ∧
    (c.dmaRecord ch i user bytes 0 false).dma = c.dma ∧ KeepsAll c (c.dmaRecord ch i user bytes 0 false) [(.DMA_CH_STATUS_CI, ch), (.H_DMA_PASS, ch)] := by
  have index : (c.recorded ch i user bytes).get .DMA_CH_STATUS_CI ch = (i + 1) % c.dmaRing ch % 2 ^ 16 := by
    rw [Chip.recorded, Chip.get_set_same]
    exact Fld.clip_of_width_eq rfl (by decide) _
  have kept : KeepsAll c (c.recorded ch i user bytes) [(.DMA_CH_STATUS_CI, ch), (.H_DMA_PASS, ch)] :=
    KeepsAll.set (d := { c with host := c.dmaRecordWrite ch i user bytes :: c.host }) (fun _ _ _ => rfl) _ (by simp)
  rw [Chip.dmaRecord_plain]
  split
  · exact ⟨rfl, (Chip.get_set_ne _ _ (by simp)).trans index, rfl, kept.set _ (by simp)⟩
  · exact ⟨rfl, index, rfl, kept⟩

end

/-- A descriptor that has ended without a failure writes its record, and the channel goes on. -/
theorem Chip.descriptorComplete_plain {c : Chip} {ch : Nat} {x : DmaItem} (hitem : c.dmaItem ch = some x) (hbusy : c.dmaBusy ch = false) (hall : x.len ≤ x.issued)
    (hstatus : x.status = 0) (hclean : x.aborted = false) (hirq : bit x.ctrl 1 = 0) (habort : c.on .DMA_CH_CTL_ABORT ch = false) (rest : List (List Byte)) :
    c.descriptorComplete ch rest = (c.dropItem ch).dmaRecord ch x.index x.user x.done 0 false := by
  have hended : ¬(c.dmaBusy ch || (decide (x.issued < x.len) && !x.stopped)) = true := by simp [hbusy, Nat.not_lt.mpr hall]
  have hfinal : x.final = 0 := by simp [DmaItem.final, hstatus, hclean]
  have hquiet : bitB x.ctrl 1 = false := by simp [bitB, hirq]
  obtain ⟨-, -, -, kept⟩ := (c.dropItem ch).dmaRecord_written ch x.index x.user x.done
  have habort' : ((c.dropItem ch).dmaRecord ch x.index x.user x.done 0 false).on .DMA_CH_CTL_ABORT ch = false := by
    have hsame := kept .DMA_CH_CTL_ABORT ch (by simp)
    unfold Chip.on at habort ⊢
    rw [hsame]
    exact habort
  unfold Chip.descriptorComplete
  rw [hitem]
  dsimp only
  rw [if_neg hended, hfinal, hquiet, if_neg (show ¬(0 = dmaAborted) by decide), if_neg (show ¬1 < 0 by decide), habort', if_neg Bool.false_ne_true, if_pos rfl]

/-! O48 -/

/-- Settles O48: indices, abort, the taking of a good and of a bad descriptor, and its record. -/
theorem dmaChannels : Obligations.DmaChannels := by
  intro n j pi who b rest s ch u may
  have hport : ch / 8 = n := by omega
  have hreach : may → u.chip.reachesDma n who := fun hmay => by
    cases who with
    | host k => exact hmay
    | core k sec => exact hmay
  refine ⟨fun hmay hquiet => ⟨fun hin => ?_, fun hout => ?_⟩, fun hmay hen => ⟨fun hitem hidx => ?idle, fun x hitem hmore hruns => ?executing⟩,
    fun hpower hen habort hitem hidx => ?descriptor, fun x hitem hbusy hall hstatus hclean hirq habort => ?complete⟩
  · have hwrite (off : Nat) := (byDma_of_reaches (hreach hmay) off fun c => c.writeDmaPi ch pi.toNat).trans
      (Chip.writeDmaPi_taken (c := u.chip.answer .ok) hquiet pi.isLt hin)
    exact congrArg (fun d => Host.Outcome.next { u with chip := d }) (hwrite _)
  · have hwrite (off : Nat) := (byDma_of_reaches (hreach hmay) off fun c => c.writeDmaPi ch pi.toNat).trans
      (Chip.writeDmaPi_rejected (c := u.chip.answer .ok) pi.isLt hout)
    exact congrArg (fun d => Host.Outcome.next { u with chip := d }) (hwrite _)
  case idle =>
    obtain ⟨off, none⟩ := ((u.chip.answer .ok).set .DMA_CH_CTL_ABORT ch 1).dmaStop_get ch
    have answered : Keeps u.chip (u.chip.answer .ok) [(.DMA_CH_CTL_EN, ch), (.DMA_CH_CTL_ABORT, ch)] := fun g j _ _ => Chip.answer_get ..
    have kept : Keeps u.chip (((u.chip.answer .ok).set .DMA_CH_CTL_ABORT ch 1).dmaStop ch) [(.DMA_CH_CTL_EN, ch), (.DMA_CH_CTL_ABORT, ch)] :=
      (((answered.set 1 (by simp)).set 0 (by simp)).set 0 (by simp)).quiet (Chip.raise_quiet _ _)
    refine does_of_byDma rfl (hreach hmay) (Chip.dmaAbort_idle (c := u.chip.answer .ok) hen hitem hidx rest) ⟨?_, ?_, ?_, rfl, rfl⟩
    · dsimp only; exact off
    · dsimp only; exact none
    · dsimp only; exact kept
  case executing =>
    refine does_of_byDma rfl (hreach hmay) (Chip.dmaAbort_executing (c := u.chip.answer .ok) hen hitem hmore hruns rest)
      ⟨Chip.dmaAborting_abort _ _ _, ?_, rfl, Chip.dmaAborting_item (c := u.chip.answer .ok) hitem, rfl, rfl⟩
    exact (Chip.dmaAborting_get _ _ _ (by decide) _).trans (Chip.answer_get ..)
  case descriptor =>
    intro i next
    have starts (b : List Byte) (k : Nat) (data : List Byte) := dmaDescriptorAwake_starts (m := s.mem) hpower hen habort hitem hidx b k data
    refine ⟨fun d tag y hdecode hok hread hfit htag hbind hplace hlink hgood => ?_, fun hbad k data => ?_⟩
    · have hsome : 1 ≤ d.length := by
        simp only [dmaDescOk, Bool.and_eq_true, decide_eq_true_eq] at hok
        omega
      have hissue := dmaIssue_word hitem hread hsome hfit htag (hbind.trans hport.symm) hplace hlink hgood
      rw [← Chip.dmaStart_good hdecode hok] at hissue
      exact does_of_onMem rfl ((starts b 1 []).trans hissue)
        ⟨s.chip.wordIssued_txns s.mem ch tag y d, s.chip.wordIssued_next s.mem ch tag y d, Chip.wordIssued_dma hitem tag y d, rfl, rfl⟩
    · obtain ⟨d, free, hstart⟩ := Chip.dmaStart_bad (c := s.chip) (ch := ch) hbad
      generalize hst : (if b.length < 32 then dmaHostErr else dmaDescErr) = st at hstart
      have hstop : (s.chip.itemOf ch d st).stopped = true := by
        rw [← hst]
        split <;> rfl
      have htaken : (Chip.dmaTaken { s.chip with free := free } ch (s.chip.itemOf ch d st)).dmaItem ch = some (s.chip.itemOf ch d st) := Chip.dmaTaken_item hitem rfl
      have hissue := dmaIssue_stopped (m := s.mem) htaken hstop k.toNat data
      rw [← hstart] at hissue
      refine does_of_onMem rfl ((starts b k.toNat data).trans hissue) ⟨?_, ?_, rfl, rfl, s.chip.itemOf ch d st, ?_, rfl, rfl, hstop⟩
      · dsimp only
        rw [hstart]
        exact Chip.dmaTaken_next
      · dsimp only
        rw [hstart]
        rfl
      · dsimp only
        rw [hstart]
        exact htaken
  case complete =>
    obtain ⟨host, index, items, kept⟩ := (s.chip.dropItem ch).dmaRecord_written ch x.index x.user x.done
    refine does_of_onChip rfl (Chip.descriptorComplete_plain hitem hbusy hall hstatus hclean hirq habort rest) ⟨?_, index, ?_, kept, rfl, rfl⟩
    · rw [← hport]
      exact host
    · exact (congrArg (List.find? _) items).trans (s.chip.dmaItem_dropItem ch)

end Sys2Proof.Machine
end
